-- ==== Sys2Proof/Word.lean ====
section
/-! DEFINITION. The word types of the NMH-4816: bytes, the 32-bit words and 64-bit words of its registers and
instructions, and the 256-bit payload of a flit (R31). -/

namespace Sys2Proof

/-- A byte of memory. -/
abbrev Byte := BitVec 8

/-- A 32-bit word: the unit in which a queue source is read (R33). -/
abbrev Word32 := BitVec 32

/-- A 64-bit word: a cog or hub instruction, a hub register, a register of the BARs. -/
abbrev Word64 := BitVec 64

/-- The payload of a flit, or a cog vector register (R31). -/
abbrev Word256 := BitVec 256

end Sys2Proof
end

