-- ==== Sys2Proof/Machine/Bits.lean ====
section
/-! DEFINITION. Bit fields, byte order, parity and sign extension: the helpers every chapter's records and registers
are read and written with (R7, R8). All multi-byte values are little-endian. -/

namespace Sys2Proof

/-- The `w` bits of `x` from bit `lo` upward, as a number (R7). -/
def bits (x : Nat) (lo w : Nat) : Nat := (x >>> lo) % 2 ^ w

/-- One bit of a number. -/
def bit (x : Nat) (i : Nat) : Bool := bits x i 1 == 1

/-- `x` with its `w` bits from `lo` upward replaced by the low `w` bits of `v`. -/
def setBits (x : Nat) (lo w v : Nat) : Nat :=
  x % 2 ^ lo + (v % 2 ^ w) * 2 ^ lo + (x / 2 ^ (lo + w)) * 2 ^ (lo + w)

/-- A Boolean as one bit. -/
def b2n (b : Bool) : Nat := if b then 1 else 0

/-- The signed value of the low `w` bits of `x`. -/
def signed (w x : Nat) : Int :=
  let y := x % 2 ^ w
  if y < 2 ^ (w - 1) then (y : Int) else (y : Int) - (2 : Int) ^ w

/-- The low `w` bits of a signed number. -/
def ofSigned (w : Nat) (x : Int) : Nat := (x % (2 : Int) ^ w).toNat

/-- `sext(IMM32)` of R264: a 32-bit immediate sign-extended to 64 bits. -/
def sext64 (x : Word32) : Word64 := x.signExtend 64

/-- Little-endian bytes of a number (R8). -/
def toBytes : Nat → Nat → List Byte
  | 0, _ => []
  | n + 1, x => BitVec.ofNat 8 x :: toBytes n (x / 256)

/-- The number that little-endian bytes hold (R8). -/
def ofBytes : List Byte → Nat
  | [] => 0
  | b :: bs => b.toNat + 256 * ofBytes bs

/-- `n` bytes of a list from offset `o`; bytes beyond its end read as zero. -/
def slice (bs : List Byte) (o n : Nat) : List Byte :=
  let t := (bs.drop o).take n
  t ++ List.replicate (n - t.length) 0

/-- The little-endian number of `n` bytes at offset `o` of a record. -/
def fieldAt (bs : List Byte) (o n : Nat) : Nat := ofBytes (slice bs o n)

/-- Whether the low `n` bits of `x` hold an odd number of ones. -/
def oddParity : Nat → Nat → Bool
  | 0, _ => false
  | n + 1, x => (x % 2 == 1) ^^ oddParity n (x / 2)

/-- Even parity over a data word and its parity bit (R31, R350). -/
def parityBit (w x : Nat) : Nat := b2n (oddParity w x)

/-- `⌈a ÷ b⌉`. -/
def ceilDiv (a b : Nat) : Nat := (a + b - 1) / b

/-- `a` rounded up to a multiple of `b`. -/
def roundUp (a b : Nat) : Nat := ceilDiv a b * b

/-- The nearest value of the range `lo..hi`. -/
def clampTo (lo hi x : Nat) : Nat := if x < lo then lo else if hi < x then hi else x

/-- A sum that saturates at `m`, as every counter of the manual does (R493). -/
def satAdd (m a b : Nat) : Nat := if m < a + b then m else a + b

/-- The largest value of a `w`-bit counter. -/
def maxOf (w : Nat) : Nat := 2 ^ w - 1

/-- The instant at which a device-formed sum of a time and a duration saturates (R15). -/
def timeMax : Nat := 0xFFFFFFFFFFFFFFFE

/-- The field value that means "none" and is never converted (R15). -/
def timeNone : Nat := 0xFFFFFFFFFFFFFFFF

/-- The sum of a device time and a duration, saturating under R15. -/
def timeAdd (t d : Nat) : Nat := if timeMax < t + d then timeMax else t + d

/-- A submitted relative duration made absolute at acceptance (R15): "none" stays none. -/
def toAbs (now d : Nat) : Nat := if d = timeNone then timeNone else timeAdd now d

end Sys2Proof
end

