-- ==== Sys2Proof/Machine/Tab.lean ====
section
/-! DEFINITION. Sparse tables and byte memory in one canonical form: a list of keyed entries with strictly rising keys
and no entry equal to what an unlisted key reads as. Register files, unit tables and memories are all held so; equal
contents are equal data. -/

namespace Sys2Proof

/-- A sparse table: key and value pairs. -/
abbrev Tab (α : Type) := List (Nat × α)

/-- The entry of key `k`, or `d` where none is listed. -/
def Tab.get {α : Type} (d : α) : Tab α → Nat → α
  | [], _ => d
  | (j, v) :: m, k => if k < j then d else if k = j then v else Tab.get d m k

/-- `m` with no entry for key `k`. -/
def Tab.erase {α : Type} : Tab α → Nat → Tab α
  | [], _ => []
  | (j, v) :: m, k => if k < j then (j, v) :: m else if k = j then m else (j, v) :: Tab.erase m k

/-- `m` with key `k` listed as `v`. -/
def Tab.insert {α : Type} : Tab α → Nat → α → Tab α
  | [], k, v => [(k, v)]
  | (j, w) :: m, k, v =>
    if k < j then (k, v) :: (j, w) :: m else if k = j then (k, v) :: m else (j, w) :: Tab.insert m k v

/-- `m` with key `k` reading as `v`; writing the default removes the entry, so the form stays canonical. -/
def Tab.set {α : Type} [DecidableEq α] (d : α) (m : Tab α) (k : Nat) (v : α) : Tab α :=
  if v = d then Tab.erase m k else Tab.insert m k v

/-- The entry of key `k`, if one is listed. -/
def Tab.find {α : Type} : Tab α → Nat → Option α
  | [], _ => none
  | (j, v) :: m, k => if k < j then none else if k = j then some v else Tab.find m k

/-- The canonical form: keys strictly rising. -/
def Tab.rising {α : Type} : Tab α → Bool
  | [] => true
  | [_] => true
  | (j, _) :: (k, w) :: m => decide (j < k) && Tab.rising ((k, w) :: m)

/-- The canonical form: no entry equal to what its key reads as unlisted. -/
def Tab.sparse {α : Type} [DecidableEq α] (d : Nat → α) (m : Tab α) : Bool :=
  m.all fun e => decide (e.2 ≠ d e.1)

/-- Both halves of the canonical form. -/
def Tab.wf {α : Type} [DecidableEq α] (d : Nat → α) (m : Tab α) : Bool := Tab.rising m && Tab.sparse d m

/-- Byte memory: the canonical list of address and byte pairs. -/
abbrev Memory := List Host.Cell

/-- What a byte of memory that nothing has written reads as (DESIGN CHOICE, log 3: the spec gives no contents at
power-on for banks, scratch, flash and host memory; tensors without a backing come into being zero, R166). -/
def unlistedByte : Byte := 0

/-- One byte of memory. -/
def Memory.read (m : Memory) (a : Nat) : Byte := Tab.get unlistedByte m a

/-- Memory with one byte written. -/
def Memory.write (m : Memory) (a : Nat) (b : Byte) : Memory := Tab.set unlistedByte m a b

/-- `n` bytes of memory from address `a`. -/
def Memory.readN (m : Memory) : Nat → Nat → List Byte
  | _, 0 => []
  | a, n + 1 => m.read a :: Memory.readN m (a + 1) n

/-- Memory with bytes written from address `a` upward. -/
def Memory.writeN (m : Memory) : Nat → List Byte → Memory
  | _, [] => m
  | a, b :: bs => Memory.writeN (m.write a b) (a + 1) bs

/-- The little-endian number of `n` bytes at address `a` (R8). -/
def Memory.num (m : Memory) (a n : Nat) : Nat := ofBytes (m.readN a n)

/-- Memory with an `n`-byte little-endian number written at `a` (R8). -/
def Memory.setNum (m : Memory) (a n x : Nat) : Memory := m.writeN a (toBytes n x)

/-- The canonical form of memory. -/
def Memory.wf (m : Memory) : Bool := Tab.wf (fun _ => unlistedByte) m

end Sys2Proof
end

