-- ==== Sys2Proof/Machine/TypesTensor.lean ====
section
/-! DEFINITION. The data of tensors, the pool and shadows (chapter 06). -/

namespace Sys2Proof.Machine

/-- The home of a tensor (R161). -/
inductive Home where
  | near | main | bulk
  deriving DecidableEq, Repr

/-- The residency states of R167. -/
inductive TState where
  | absent | loading | clean | dirty | writing | lost
  deriving DecidableEq, Repr

/-- What required a write-back that is under way (R169, R175, R189). -/
inductive WriteBack where
  | flush
  | evict
  | eviction (req : Nat)
  deriving DecidableEq, Repr

/-- The fields of a tensor descriptor, as R161 lays them out. `home` and `kind` keep their encoded numbers so that a
descriptor out of range can be held and refused. -/
structure Desc where
  tid : Nat
  ndim : Nat
  etype : Nat
  kind : Nat
  home : Nat
  back : Nat
  sdim : Nat
  scnt : Nat
  sidx : Nat
  dims : List Nat
  homeAddr : Nat
  backAddr : Nat
  owner : Nat
  deriving DecidableEq, Repr

/-- A defined tensor: its descriptor, residency (R167), contents of its home copy, the times of R191, the pool pages it holds in the order
of its bytes (R163, R186), the write-back under way, whether its bytes have landed in the bulk tier and its number in the order in which
write-backs were requested (R218), whether a repair is under way and the pages that have failed in it (R193), whether a LOAD awaits the
end of an eviction's write-back (R170, R189), the commands that wait for its load with no operation of their own (R172), and the 4 KiB
granules that fills have captured while it is LOADING (R219). -/
structure Tensor where
  part : Nat
  desc : Desc
  state : TState
  data : Memory
  touch : Nat
  frames : List Nat
  wb : Option WriteBack
  landed : Bool
  wbNo : Nat
  repairing : Bool
  struck : List Nat
  awaited : Bool
  waiters : List Nat
  granules : List Nat
  deriving DecidableEq, Repr

/-- The shadow pages of one tensor in one task: which pages of it are shadowed and what they hold, and the pool page that stands for
each (R172). -/
structure Shadow where
  pages : List Nat
  data : Memory
  frames : Tab Nat
  deriving DecidableEq, Repr

/-- Nothing shadowed. -/
def Shadow.empty : Shadow := ⟨[], [], []⟩

/-- An eviction a request has begun and waits in: the request, and the candidates it has still to come to, in order (R189). -/
structure EvictWait where
  req : Nat
  rest : List Nat
  deriving DecidableEq, Repr

/-- Where a byte of a tensor stands or goes: a byte of a tensor in the main tier, a bulk logical address, or a host address (R159, R179). -/
inductive Source where
  | main (tid o : Nat)
  | bulk (a : Nat)
  | host (a : Nat)
  deriving DecidableEq, Repr

/-- The key of tensor `tid` of partition `p` in the tensor table: TIDs are unique within a partition (R160). -/
def tkey (p tid : Nat) : Nat := p * 2 ^ 32 + tid

/-- The settings a command takes at its dispatch (R75, R79, R107, R141): freewheel enable and entry, stall limit in ms,
deadlock window in µs, NZN and SAT8. -/
structure RunCfg where
  fwEn : Bool
  fwEntry : Nat
  stallMs : Nat
  dlUs : Nat
  nzn : Bool
  sat8 : Bool
  deriving DecidableEq, Repr

end Sys2Proof.Machine
end

