-- ==== Sys2Proof/Machine/TypesArray.lean ====
section
/-! DEFINITION. The data of the cog array: flits, queues, links, cogs, planes, gears, regions and streams (chapters 02, 04,
05 and the streams of 06). -/

namespace Sys2Proof.Machine

/-- The four mesh sides, in the order of R32 and of the FWD bits of R40. -/
inductive Side where
  | n | e | s | w
  deriving DecidableEq, Repr

/-- A flit (R31): 256 data bits and the sideband TAG (false names plane A, true plane B), EOT and PAR. -/
structure Flit where
  data : Word256
  tag : Bool
  eot : Bool
  par : BitVec 4
  deriving DecidableEq, Repr

/-- An input queue (R32, R33, R43, R125, R134 to R136): its entries, the head pointer in words inside the head flit, what the
head flit has already done, whether a TURN mark has arrived, the spill episode's plane if one runs, the slice of that
episode as the position of its head and the side store of TAG and EOT, the flits that wait for a spill write, the credits
its sender holds and the freed entries whose credit has not gone back. -/
structure InQ where
  flits : List Flit
  ptr : Nat
  copied : Bool
  turned : Bool
  spill : Option Bool
  sliceHead : Nat
  side : List (Bool × Bool)
  arrived : List Flit
  credits : Nat
  freed : Nat
  deriving DecidableEq, Repr

/-- An input queue at the start of a command: empty, with eight credits at its sender (R35, R58). -/
def InQ.start : InQ := ⟨[], 0, false, false, none, 0, [], [], 8, 0⟩

/-- A mesh output queue (R32, R37, R45, R128): its entries, the entries granted to instructions in flight, the consecutive
negative acknowledgements of its head flit, whether it has turned and whether its TURN mark has still to cross. -/
structure OutQ where
  flits : List Flit
  reserved : Nat
  nacks : Nat
  turned : Bool
  mark : Bool
  deriving DecidableEq, Repr

/-- An output queue at the start of a command (R58). -/
def OutQ.start : OutQ := ⟨[], 0, 0, false, false⟩

/-- The sending side of an edge link into the array: flits that wait to cross, negative acknowledgements, whether the TURN
mark of the SHIFT has been sent and whether it has still to cross (R47, R125, R126); `closed`: an east link's mark went out after its
last flit, below token K, and it sends the RUN nothing more (log 54). -/
structure EdgeIn where
  flits : List Flit
  nacks : Nat
  turned : Bool
  mark : Bool
  closed : Bool
  deriving DecidableEq, Repr

/-- An edge link with nothing on it. -/
def EdgeIn.start : EdgeIn := ⟨[], 0, false, false, false⟩

/-- An entry of the loop stack: counter, start address, end address (R55). -/
structure LoopEntry where
  ctr : Nat
  start : Nat
  stop : Nat
  deriving DecidableEq, Repr

/-- Where an issued instruction writes its result (R52, R53). -/
inductive Dest where
  | vreg (n : Nat) (v : Word256)
  | areg (n : Nat) (v : Word32)
  | pred (n : Nat) (v : Bool)
  | out (side : Side) (f : Flit)
  | acc (bank : Nat) (v : List Nat)
  | accAdd (bank : Nat) (a b : List (List Nat)) (atype btype scale : Nat) (zero : Bool)
  deriving DecidableEq, Repr

/-- An instruction in flight: its writes, and the plane it belongs to (R53, R127). -/
structure InFlight where
  dests : List Dest
  plane : Bool
  deriving DecidableEq, Repr

/-- The drain engine at work: bank, destination operand code, TYPE, next flit, ET, plane, predicate-free (R69). -/
structure Drain where
  bank : Nat
  dst : Nat
  type : Nat
  next : Nat
  et : Bool
  plane : Bool
  deriving DecidableEq, Repr

/-- A read stream (R64): next bank address, stride, flits left, plane. -/
structure ReadStream where
  addr : Nat
  stride : Nat
  left : Nat
  plane : Bool
  deriving DecidableEq, Repr

/-- A UWRITE transfer (R63): source operand code, address of the next flit to leave U_OUT, stride, flits not yet moved into
U_OUT, the flits in U_OUT, and the plane. -/
structure WriteXfer where
  src : Nat
  addr : Nat
  stride : Nat
  left : Nat
  uout : List Word256
  plane : Bool
  deriving DecidableEq, Repr

/-- What a cog is doing (R58 to R61). -/
inductive CogMode where
  | idle
  | entry
  | run
  deriving DecidableEq, Repr

/-- The filler of R112: NOP with PSEL = 0 and PNEG = 1. -/
def filler : Word64 := 0x0080000000000000

/-- A program plane of a cog (R40, R109, R111, R112): instructions at their addresses (unlisted ones are filler), route
entries packed as ROUTES, ENTRY and the pannier. -/
structure Plane where
  instrs : Tab Word64
  ninstr : Nat
  routes : Nat
  entry : Nat
  panBase : Nat
  panSize : Nat
  panMask : Nat
  deriving DecidableEq, Repr

/-- A plane that holds nothing: filler only, no route, no entry queue, no pannier. -/
def Plane.empty : Plane := ⟨[], 0, 0, 0x3F, 0, 0, 0⟩

/-- One cog (chapters 02 and 04): `waited` is the ACLK cycle in which its present wait began, where it waits with nothing at work,
`flitAt` the cycle in which a flit last entered an input queue (R75); `woken` says that an event of R77 has come since it
entered freewheel; `arb` is the cycle in which it left IDLE, when the arbiter's pointer stood at N_IN (R45); `ranLive` says that its
sequencer has run the LIVE plane since the SHIFT (R129). -/
structure Cog where
  mode : CogMode
  freewheel : Bool
  woken : Bool
  waited : Option Nat
  flitAt : Nat
  vregs : Tab Word256
  aregs : Tab Word32
  preds : Nat
  acc : Tab Nat
  ctr : Tab Nat
  ctrInit : Tab Nat
  loops : List LoopEntry
  pc : Nat
  plane : Bool
  ranLive : Bool
  inq : Tab InQ
  outq : Tab OutQ
  arb : Nat
  uptr : Nat
  inflight : List InFlight
  drain : Option Drain
  uread : Option ReadStream
  uwrite : Option WriteXfer
  planeA : Plane
  planeB : Plane
  bank : Memory
  deriving DecidableEq, Repr

/-- A cog that runs nothing and whose planes and bank hold nothing (DESIGN CHOICE, log 2, for what the manual gives no
value at reset). -/
def Cog.reset : Cog :=
  ⟨.idle, false, false, none, 0, [], [], 1, [], [], [], [], 0, false, false, [], [], 0, 0, [], none, none, none, .empty, .empty, []⟩

/-- The plane states of R114. -/
inductive PState where
  | empty | loading | loaded | live | draining
  deriving DecidableEq, Repr

/-- What a device remembers of a gear it holds: GEAR_ID, DIGEST, rectangle, CLASS and WCET_NS (R109, R114). -/
structure Gear where
  id : Nat
  digest : Nat
  rect : Nat
  cls : Nat
  wcet : Nat
  deriving DecidableEq, Repr

/-- The state of one plane in one block and the gear it holds or is loading (R114). -/
structure BlockPlane where
  state : PState
  gear : Option Gear
  deriving DecidableEq, Repr

/-- An EMPTY plane. -/
def BlockPlane.empty : BlockPlane := ⟨.empty, none⟩

/-- A shape-record entry (R150). -/
structure ShapeEntry where
  valid : Bool
  list : Bool
  gran : Nat
  planned : Nat
  runtime : Nat
  deriving DecidableEq, Repr

/-- A stream descriptor (R178). -/
structure StreamDesc where
  tid : Nat
  dir : Nat
  mode : Nat
  link0 : Nat
  nlink : Nat
  tokenBase : Nat
  tokenElems : Nat
  perm : List Nat
  bind : List Nat
  start : List Nat
  itid : Nat
  idim : Nat
  ikind : Nat
  resZero : Bool
  deriving DecidableEq, Repr

/-- The edges that streams use (R47, R179). -/
inductive Edge where
  | north | bulk | host
  deriving DecidableEq, Repr

/-- A stream of a RUN at work: its descriptor, its place among the block's descriptors, its edge, the next token and flit of
a source, whether it holds at a failed word (R193), and for a sink, by link, the tokens finished and the flits of the token
under way (R149, R155, R180). -/
structure Stream where
  desc : StreamDesc
  idx : Nat
  edge : Edge
  tok : Nat
  flit : Nat
  holds : Bool
  links : Tab (Nat × Nat)
  deriving DecidableEq, Repr

/-- A region with a RUN in progress (R120, R123, R141, R270, R271): where it lies, whose it is, its planes and SHIFT, its
streams and shape record, the settings of its command's dispatch, and its quiet times (`uncounted` gathers those of a step's
phase, which the watchdog leaves out; `startedAt`, `quietWork` and `uncounted` are in the units of the work clock; quiet time
begins with the TCLK cycle after the last one in which a cog fired or a flit entered). `step` is the batch and phase of a serving
step's phase (R326). -/
structure Region where
  rect : Nat
  part : Nat
  seq : Nat
  handle : Nat
  live : Bool
  shiftK : Option Nat
  draining : Bool
  streams : List Stream
  shape : List ShapeEntry
  plist : Nat
  cfg : RunCfg
  startedAt : Nat
  quietSince : Nat
  quietWork : Nat
  uncounted : Nat
  deadSince : Option Nat
  step : Option (Nat × Nat)
  fills : List Nat
  deriving DecidableEq, Repr

/-- A RUN argument block (R269). -/
structure RunBlk where
  rect : Nat
  plane : Nat
  nstream : Nat
  plist : Nat
  aPad : List Nat
  aInit : List Nat
  shape : List ShapeEntry
  offs : List Nat
  deriving DecidableEq, Repr

end Sys2Proof.Machine
end

