-- ==== Sys2Proof/Syntax.lean ====
section
/-! DEFINITION. The commands the block takes: one constructor for each row of spec/opcode_table.json, whole and
indivisible (spec/95). The rows have no bits. A unit that a command acts in is an operand bounded by the number of such
units; what arrives from outside with the command (a value written, bytes received, a measurement, the outcome of a
physical act that no state of the device decides) is an operand; everything else the command needs stands in State. -/

namespace Sys2Proof

/-- A cog, by its index y × 144 + x (R80). -/
abbrev CogId := Fin 18432
/-- An input queue: N_IN, E_IN, S_IN, W_IN, U_IN (R32). -/
abbrev InId := Fin 5
/-- A region with a RUN in progress, by the number of its north-western block (9 × by + bx). -/
abbrev RunId := Fin 72
/-- A stream descriptor's place in its RUN block (R269). -/
abbrev StreamId := Fin 16
/-- A command queue (R245). -/
abbrev QueueId := Fin 1024
/-- A hub (R243). -/
abbrev HubId := Fin 8
/-- An operation handle (R265). -/
abbrev HandleId := Fin 16
/-- A partition. -/
abbrev PartId := Fin 16
/-- An event counter of a partition (R275). -/
abbrev EventId := Fin 256
/-- A batch (R314). -/
abbrev BatchId := Fin 32
/-- A flash channel (R197). -/
abbrev FlashCh := Fin 32
/-- A main-tier channel (R222). -/
abbrev LpxCh := Fin 64
/-- A Ralet port (R347). -/
abbrev PortId := Fin 16
/-- A PCIe function: 0 the physical function, p + 1 the virtual function of partition p (R381). -/
abbrev FnId := Fin 17
/-- A target of the interrupt controller (R406). -/
abbrev TgtId := Fin 10
/-- A word of INTC_MASK (R416). -/
abbrev MaskId := Fin 16
/-- A GPIO pin (R498). -/
abbrev GpioId := Fin 16

/-- The receiving end of a link: an input queue of a cog, fed by its neighbour on that side or by the edge port there; or
the edge port that the cog's output queue on that side feeds (R34, R47). -/
inductive LinkEnd where
  | into (c : CogId) (side : Machine.Side)
  | out (c : CogId) (side : Machine.Side)
  deriving DecidableEq, Repr

/-- How a bank read through the U port came out: good, good on the reread, or failed twice (R39). -/
inductive ReadOutcome where
  | good | reread | failed
  deriving DecidableEq, Repr

/-- The commands: one constructor for each row of the table. -/
inductive Instr where
  /-- FLIT_ARRIVE (R36). -/
  | flitArrive (l : LinkEnd) (bad : Bool)
  /-- FLIT_REPLAY_ABANDON (R37). -/
  | flitReplayAbandon (l : LinkEnd)
  /-- CREDIT_RETURN (R35). -/
  | creditReturn (c : CogId) (side : Machine.Side)
  /-- ROUTER_COPY (R42). -/
  | routerCopy (c : CogId) (q : InId)
  /-- FLIT_DISCARD_NO_ROUTE (R44). -/
  | flitDiscardNoRoute (c : CogId) (q : InId)
  /-- STALE_FLIT_DISCARD (R129). -/
  | staleFlitDiscard (c : CogId) (q : InId)
  /-- TURN_MARK_ARRIVE (R125). -/
  | turnMarkArrive (l : LinkEnd)
  /-- SEQ_TOKEN_START (R59). -/
  | seqTokenStart (c : CogId)
  /-- NOP (R67). -/
  | nop (c : CogId)
  /-- LOOP (R55). -/
  | loop (c : CogId)
  /-- BR (R67). -/
  | br (c : CogId)
  /-- END (R59). -/
  | cogEnd (c : CogId)
  /-- STOP (R61). -/
  | stop (c : CogId)
  /-- AIMM (R67). -/
  | aimm (c : CogId)
  /-- AADD (R67). -/
  | aadd (c : CogId)
  /-- AADDR (R67). -/
  | aaddr (c : CogId)
  /-- PCMP (R67). -/
  | pcmp (c : CogId)
  /-- PSET (R67). -/
  | pset (c : CogId)
  /-- ACNT (R67). -/
  | acnt (c : CogId)
  /-- MMA (R68). -/
  | mma (c : CogId)
  /-- ACCRD (R69). -/
  | accrd (c : CogId)
  /-- ACCZ (R67). -/
  | accz (c : CogId)
  /-- VMOV (R100). -/
  | vmov (c : CogId)
  /-- VADD (R95). -/
  | vadd (c : CogId)
  /-- VSUB (R95). -/
  | vsub (c : CogId)
  /-- VMUL (R95). -/
  | vmul (c : CogId)
  /-- VFMA (R95). -/
  | vfma (c : CogId)
  /-- VMAX (R97). -/
  | vmax (c : CogId)
  /-- VMIN (R97). -/
  | vmin (c : CogId)
  /-- VCMP (R98). -/
  | vcmp (c : CogId)
  /-- VSEL (R100). -/
  | vsel (c : CogId)
  /-- VCVT (R101). -/
  | vcvt (c : CogId)
  /-- VRED (R99). -/
  | vred (c : CogId)
  /-- VEXP2 (R96). -/
  | vexp2 (c : CogId)
  /-- VRCP (R96). -/
  | vrcp (c : CogId)
  /-- VRSQ (R96). -/
  | vrsq (c : CogId)
  /-- VBCAST (R67). -/
  | vbcast (c : CogId)
  /-- VIMM (R100). -/
  | vimm (c : CogId)
  /-- VTST (R100). -/
  | vtst (c : CogId)
  /-- UREAD (R64). -/
  | uread (c : CogId)
  /-- UWRITE (R63). -/
  | uwrite (c : CogId)
  /-- INSTR_RESULT_WRITE (R53). -/
  | instrResultWrite (c : CogId) (n : Nat)
  /-- UWRITE_FLIT_MOVE (R63). -/
  | uwriteFlitMove (c : CogId)
  /-- U_PORT_SLOT (R137). -/
  | uPortSlot (c : CogId) (read : ReadOutcome)
  /-- DRAIN_FLIT (R69). -/
  | drainFlit (c : CogId)
  /-- FREEWHEEL_ENTER (R75). -/
  | freewheelEnter (c : CogId)
  /-- FREEWHEEL_EXIT (R77). -/
  | freewheelExit (c : CogId)
  /-- STREAM_STALL_TIMEOUT (R79). -/
  | streamStallTimeout (r : RunId)
  /-- SPILL_START (R135). -/
  | spillStart (c : CogId) (side : Machine.Side)
  /-- SPILL_END (R136). -/
  | spillEnd (c : CogId) (side : Machine.Side)
  /-- DEADLOCK_TIMEOUT (R141). -/
  | deadlockTimeout (r : RunId)
  /-- EDGE_TURN_SEND (R126). -/
  | edgeTurnSend (c : CogId) (side : Machine.Side)
  /-- OUTPUT_TURN (R128). -/
  | outputTurn (c : CogId) (side : Machine.Side)
  /-- PLANE_DRAIN_DONE (R132). -/
  | planeDrainDone (r : RunId)
  /-- EDGE_SOURCE_FLIT (R180). -/
  | edgeSourceFlit (r : RunId) (i : StreamId)
  /-- EDGE_SINK_FLIT (R155). -/
  | edgeSinkFlit (c : CogId) (side : Machine.Side)
  /-- DOORBELL (R248). -/
  | doorbell (f : FnId) (q : QueueId) (tail : Word32)
  /-- COMMAND_ACCEPT (R253). -/
  | commandAccept (q : QueueId)
  /-- COMMAND_READY (R303). -/
  | commandReady (q : QueueId)
  /-- HUB_SELECT (R304). -/
  | hubSelect (h : HubId)
  /-- COMMAND_DISPATCH (R260). -/
  | commandDispatch (h : HubId) (readFail : Bool)
  /-- DISPATCH_HOLD_GRANT (R171). -/
  | dispatchHoldGrant (h : HubId)
  /-- HUB_NOP (R264). -/
  | hubNop (h : HubId)
  /-- LI (R264). -/
  | li (h : HubId)
  /-- LIH (R264). -/
  | lih (h : HubId)
  /-- ADD (R264). -/
  | add (h : HubId)
  /-- SUB (R264). -/
  | sub (h : HubId)
  /-- AND (R264). -/
  | hubAnd (h : HubId)
  /-- OR (R264). -/
  | hubOr (h : HubId)
  /-- XOR (R264). -/
  | hubXor (h : HubId)
  /-- SHL (R264). -/
  | shl (h : HubId)
  /-- SHR (R264). -/
  | shr (h : HubId)
  /-- MUL (R264). -/
  | mul (h : HubId)
  /-- SETC (R264). -/
  | setc (h : HubId)
  /-- LD (R264). -/
  | ld (h : HubId)
  /-- ST (R264). -/
  | st (h : HubId)
  /-- TIME (R264). -/
  | time (h : HubId)
  /-- HUB_BR (R264). -/
  | hubBr (h : HubId)
  /-- CALL (R264). -/
  | call (h : HubId)
  /-- RET (R264). -/
  | ret (h : HubId)
  /-- HUB_END (R273). -/
  | hubEnd (h : HubId)
  /-- ABORT (R264). -/
  | abort (h : HubId)
  /-- IRET (R277). -/
  | iret (h : HubId)
  /-- JNOTE (R264). -/
  | jnote (h : HubId)
  /-- DEFINE (R166). -/
  | define (h : HubId)
  /-- LOAD (R169). -/
  | load (h : HubId)
  /-- FLUSH (R169). -/
  | flush (h : HubId)
  /-- EVICT (R169). -/
  | evict (h : HubId)
  /-- FREE (R169). -/
  | free (h : HubId)
  /-- COPY (R264). -/
  | copy (h : HubId)
  /-- TRD (R264). -/
  | trd (h : HubId)
  /-- TWR (R264). -/
  | twr (h : HubId)
  /-- GLOAD (R157). -/
  | gload (h : HubId)
  /-- GEAR_LOAD_RESUME (R116). -/
  | gearLoadResume (seq : Nat) (hd : HandleId)
  /-- SHIFT (R123). -/
  | shift (h : HubId)
  /-- SHIFT_RESUME (R123). -/
  | shiftResume (h : HubId)
  /-- RUN (R270). -/
  | run (h : HubId)
  /-- DRAIN (R272). -/
  | drain (h : HubId)
  /-- WAIT (R265). -/
  | wait (h : HubId)
  /-- FENCE (R264). -/
  | fence (h : HubId)
  /-- EVSIG (R275). -/
  | evsig (h : HubId)
  /-- EVWAIT (R276). -/
  | evwait (h : HubId)
  /-- NOTIFY (R264). -/
  | notify (h : HubId)
  /-- STEP (R323). -/
  | step (h : HubId)
  /-- SEQEND (R333). -/
  | seqend (h : HubId)
  /-- HLIB (R264). -/
  | hlib (h : HubId)
  /-- ILLEGAL_INSTRUCTION (R266). -/
  | illegalInstruction (h : HubId)
  /-- OPERATION_COMPLETE (R265). -/
  | operationComplete (seq : Nat) (hd : HandleId) (ok : Bool)
  /-- RUN_COMPLETE (R271). -/
  | runComplete (r : RunId)
  /-- HANDLE_WAIT_DONE (R265). -/
  | handleWaitDone (h : HubId) (slot : Option Nat)
  /-- HANDLE_WAIT_TIMEOUT (R265). -/
  | handleWaitTimeout (h : HubId) (slot : Option Nat)
  /-- COMMAND_WATCHDOG (R309). -/
  | commandWatchdog (seq : Nat)
  /-- TASK_LINK_STALL (R258). -/
  | taskLinkStall (q : QueueId)
  /-- WRITE_BACK_DONE (R175). -/
  | writeBackDone (p : PartId) (tid : Word32) (ok : Bool)
  /-- STORED_DATA_FAILURE (R193). -/
  | storedDataFailure (p : PartId) (tid : Word32) (page : Nat) (seq : Nat)
  /-- TENSOR_REFETCH_DONE (R193). -/
  | tensorRefetchDone (p : PartId) (tid : Word32) (ok : Bool)
  /-- QUEUE_ENABLE (R285). -/
  | queueEnable (f : FnId) (q : QueueId)
  /-- QUEUE_DISABLE (R285). -/
  | queueDisable (f : FnId) (q : QueueId)
  /-- QUEUE_CANCEL (R285). -/
  | queueCancel (f : FnId) (q : QueueId)
  /-- QUEUE_STOP_DONE (R285). -/
  | queueStopDone (q : QueueId)
  /-- HUB_EVENT_ADD (R275). -/
  | hubEventAdd (f : FnId) (p : PartId) (e : EventId) (v : Word32)
  /-- HUB_DISABLE (R298). -/
  | hubDisable (f : FnId) (h : HubId)
  /-- HUB_ENABLE (R298). -/
  | hubEnable (f : FnId) (h : HubId)
  /-- HUB_OFFLINE_DONE (R298). -/
  | hubOfflineDone (h : HubId)
  /-- HUB_PARITY_FAIL (R475). -/
  | hubParityFail (h : HubId)
  /-- COMMIT (R300). -/
  | commit (f : FnId)
  /-- CYCLE_TABLE_ACTIVATE (R300). -/
  | cycleTableActivate
  /-- SLOT_BOUNDARY (R299). -/
  | slotBoundary
  /-- PARTITION_STOP_DONE (R297). -/
  | partitionStopDone (p : PartId)
  /-- POOL_FLOOR_WRITE (R187). -/
  | poolFloorWrite (f : FnId) (p : PartId) (v : Word32)
  /-- BATCH_ENABLE (R314). -/
  | batchEnable (f : FnId) (b : BatchId)
  /-- BATCH_DISABLE (R314). -/
  | batchDisable (f : FnId) (b : BatchId)
  /-- BATCH_STOP_DONE (R314). -/
  | batchStopDone (b : BatchId)
  /-- STEP_PHASE_START (R326). -/
  | stepPhaseStart (b : BatchId)
  /-- SAMPLE_SEQUENCE (R338). -/
  | sampleSequence (b : BatchId) (row : Nat)
  /-- STEP_DRAIN (R330). -/
  | stepDrain (b : BatchId)
  /-- RECORD_WRITE (R345). -/
  | recordWrite (b : BatchId)
  /-- RING_READ_WRITE (R343). -/
  | ringReadWrite (f : FnId) (b : BatchId) (v : Word32)
  /-- BULK_SECTOR_READ (R206). -/
  | bulkSectorRead (addr : Nat) (rung : Nat)
  /-- READ_DISTURB_THRESHOLD (R208). -/
  | readDisturbThreshold (ch : FlashCh) (blk : Nat)
  /-- BULK_RELOCATE (R212). -/
  | bulkRelocate (ch : FlashCh) (blk : Nat) (ok : Bool)
  /-- SCRUB_PATROL (R209). -/
  | scrubPatrol (ch : FlashCh) (blk : Nat) (marginal : Bool)
  /-- BLOCK_RETIRE (R211). -/
  | blockRetire (ch : FlashCh) (blk : Nat)
  /-- BULK_WRITE_BACK (R218). -/
  | bulkWriteBack (p : PartId) (tid : Word32) (ok : Bool)
  /-- BLK_FORMAT (R204). -/
  | blkFormat (tag : Word32) (payload : List Byte)
  /-- CAT_CREATE (R216). -/
  | catCreate (tag : Word32) (payload : List Byte)
  /-- CAT_WRITE (R216). -/
  | catWrite (tag : Word32) (payload : List Byte)
  /-- CAT_SEAL (R216). -/
  | catSeal (tag : Word32) (payload : List Byte)
  /-- CAT_GRANT (R466). -/
  | catGrant (tag : Word32) (payload : List Byte)
  /-- CAT_DELETE (R216). -/
  | catDelete (tag : Word32) (payload : List Byte)
  /-- CAT_DELETE_DONE (R216). -/
  | catDeleteDone (slot : Nat)
  /-- MBX_UNKNOWN_OP (R393). -/
  | mbxUnknownOp (op : Nat) (tag : Word32)
  /-- WCK2DQ_TRACK (R232). -/
  | wck2dqTrack (ch : LpxCh) (counts : List Nat)
  /-- SHORT_RETRAIN (R233). -/
  | shortRetrain (ch : LpxCh)
  /-- FULL_RETRAIN (R234). -/
  | fullRetrain (ch : LpxCh)
  /-- RETRAIN_DONE (R236). -/
  | retrainDone (ch : LpxCh) (ok : Bool)
  /-- LPX_SHORT_REQ (R235). -/
  | lpxShortReq (f : FnId) (ch : LpxCh)
  /-- LPX_FULL_REQ (R235). -/
  | lpxFullReq (f : FnId) (ch : LpxCh)
  /-- LPX_RETIRE_REQ (R237). -/
  | lpxRetireReq (f : FnId) (ch : LpxCh)
  /-- CHANNEL_RETIRE (R238). -/
  | channelRetire (ch : LpxCh)
  /-- CHANNEL_RETIRE_SWITCH (R238). -/
  | channelRetireSwitch (ch : LpxCh)
  /-- MR4_POLL (R241). -/
  | mr4Poll (ch : LpxCh) (codes : List Nat)
  /-- REFRESH (R240). -/
  | refresh (ch : LpxCh)
  /-- FRAME_RECEIVE (R351): the 256 bytes, and what the FEC decoder says of them (R349). -/
  | frameReceive (port : PortId) (bytes : List Byte) (fec : Nat)
  /-- FRAME_TRANSMIT (R357). -/
  | frameTransmit (port : PortId)
  /-- REPLAY_TIMEOUT (R352). -/
  | replayTimeout (port : PortId)
  /-- PORT_RETRAIN (R353). -/
  | portRetrain (port : PortId)
  /-- PORT_DOWN_TIMEOUT (R353). -/
  | portDownTimeout (port : PortId)
  /-- PORT_DOWN_RETRY (R375). -/
  | portDownRetry (port : PortId)
  /-- HELLO (R359). -/
  | hello (port : PortId) (bytes : List Byte)
  /-- CREDIT_REQ (R355). -/
  | creditReq (port : PortId)
  /-- CREDIT (R355). -/
  | credit (port : PortId) (bytes : List Byte)
  /-- CREDIT_REPORT_STALE (R355). -/
  | creditReportStale (port : PortId) (vc : Nat)
  /-- CREDIT_PERIODIC (R355). -/
  | creditPeriodic (port : PortId)
  /-- TEST_REQ (R376). -/
  | testReq (port : PortId) (bytes : List Byte)
  /-- TEST_AGREE (R376). -/
  | testAgree (port : PortId)
  /-- TEST_REFUSE (R376). -/
  | testRefuse (port : PortId)
  /-- TEST_AGREE_TIMEOUT (R376). -/
  | testAgreeTimeout (port : PortId)
  /-- PORT_TEST_DONE (R376). -/
  | portTestDone (port : PortId) (errors : List Nat) (checked : List Nat)
  /-- PORT_ENABLE (R375). -/
  | portEnable (f : FnId) (port : PortId)
  /-- PORT_DISABLE (R375). -/
  | portDisable (f : FnId) (port : PortId)
  /-- PORT_TEST (R375). -/
  | portTest (f : FnId) (port : PortId)
  /-- PORT_STOP_DONE (R375). -/
  | portStopDone (port : PortId)
  /-- PUT (R372). -/
  | put (n : Nat)
  /-- EVENT (R372). -/
  | event (n : Nat)
  /-- COMPLETION (R373). -/
  | completion (n : Nat)
  /-- TOKEN (R369). -/
  | token (n : Nat)
  /-- MESSAGE_TIMEOUT (R360). -/
  | messageTimeout (n : Nat)
  /-- PUT_TIMEOUT (R372). -/
  | putTimeout (p : PartId) (pos : Nat)
  /-- EAST_TOKEN_OUT (R369). -/
  | eastTokenOut (l : Nat)
  /-- XFER_CFG_ENABLE (R378). -/
  | xferCfgEnable (f : FnId) (p : PartId) (v : Word64)
  /-- PMD_TRAINING_DONE (R359). -/
  | pmdTrainingDone (port : PortId) (half : Bool)
  /-- BAR2_READ (R385). -/
  | bar2Read (f : FnId) (off : Nat) (len : Nat)
  /-- BAR2_WRITE (R385). -/
  | bar2Write (f : FnId) (off : Nat) (bytes : List Byte)
  /-- WIN_MAP_WRITE (R386). -/
  | winMapWrite (f : FnId) (g : FnId) (slot : Nat) (v : Word64)
  /-- FAULTY_TLP (R396). -/
  | faultyTlp (f : FnId) (kind : Nat) (addr : Nat) (read : Bool)
  /-- DMA_COMPLETION (R396). -/
  | dmaCompletion (f : FnId) (tag : Nat) (ok : Bool)
  /-- COMPLETION_TIMEOUT (R396). -/
  | completionTimeout (tag : Nat)
  /-- BUS_MASTER_CHANGE (R391). -/
  | busMasterChange (f : FnId) (on : Bool)
  /-- D_STATE_CHANGE (R402). -/
  | dStateChange (f : FnId) (hot : Bool)
  /-- PCIE_LINK_TRAIN (R380). -/
  | pcieLinkTrain (speed : Nat) (width : Nat) (flit : Bool) (retrain : Bool)
  /-- IDE_INTEGRITY_FAIL (R395). -/
  | ideIntegrityFail (stream : FnId)
  /-- IDE_KM (R394). -/
  | ideKm (stream : FnId) (key : Word256)
  /-- MSIX_SEND (R414). -/
  | msixSend (f : FnId) (vec : Nat)
  /-- FUNCTION_LEVEL_RESET (R399). -/
  | functionLevelReset (f : FnId)
  /-- WARM_DEVICE_RESET (R400). -/
  | warmDeviceReset (cause : Nat)
  /-- COLD_RESET (R398). -/
  | coldReset
  /-- INTC_SELECT (R407). -/
  | intcSelect (t : TgtId)
  /-- INTC_LAND (R408). -/
  | intcLand (t : TgtId)
  /-- INTC_WITHDRAW (R408). -/
  | intcWithdraw (t : TgtId)
  /-- INTC_CPL (R410). -/
  | intcCpl (f : FnId) (t : TgtId) (src : Nat)
  /-- INTC_MASK (R412). -/
  | intcMask (f : FnId) (w : MaskId) (v : Word32) (lands : Bool)
  /-- INTC_SWSET (R404). -/
  | intcSwset (f : FnId) (p : PartId) (v : Word32)
  /-- CAPTURE (R420). -/
  | capture (f : FnId)
  /-- MODE_WRITE (R421). -/
  | modeWrite (f : FnId) (v : Word32)
  /-- HOST_CAP_WRITE (R428). -/
  | hostCapWrite (f : FnId) (v : Word32)
  /-- IDLE_SERVE_ENTER (R422). -/
  | idleServeEnter
  /-- IDLE_SERVE_WAKE (R423). -/
  | idleServeWake
  /-- GOVERNOR_SAMPLE (R424). -/
  | governorSample (watts : Nat) (mv : Nat) (amps : Nat)
  /-- GOVERNOR_EVAL (R427). -/
  | governorEval (est : List Nat)
  /-- DIVISOR_CHANGE (R418). -/
  | divisorChange (mv : Nat)
  /-- BRAKE_RELEASE (R431). -/
  | brakeRelease
  /-- CAP (R433). -/
  | cap (eid : Nat) (v : Nat)
  /-- RAMP (R433). -/
  | ramp (eid : Nat) (v : Nat)
  /-- PLDM_MODE (R433). -/
  | pldmMode (eid : Nat) (v : Nat)
  /-- HEARTBEAT (R434). -/
  | heartbeat (eid : Nat)
  /-- PWR_STEP_CHANGE (R435). -/
  | pwrStepChange (code : Nat)
  /-- THROTTLE_N (R436). -/
  | throttleN (low : Bool)
  /-- THROTTLE_RELEASE (R436). -/
  | throttleRelease
  /-- COOLANT_ALERT_N (R437). -/
  | coolantAlertN (low : Bool)
  /-- COOLANT_CEILING_LIFT (R437). -/
  | coolantCeilingLift
  /-- KICKSTAND_ENTER (R438). -/
  | kickstandEnter
  /-- KICKSTAND_SAFE (R438). -/
  | kickstandSafe
  /-- TEMP_SAMPLE (R440). -/
  | tempSample (readings : List Nat)
  /-- HARDWARE_TRIP (R443). -/
  | hardwareTrip (tj : Nat)
  /-- HALT_JOURNAL_READ (R444). -/
  | haltJournalRead (tag : Word32) (payload : List Byte)
  /-- REFCLK_LOSS (R508). -/
  | refclkLoss
  /-- BOOT_ROM (R450). -/
  | bootRom
  /-- FIRMWARE_BOOT (R451). -/
  | firmwareBoot
  /-- ATTEST (R456). -/
  | attest (tag : Word32) (payload : List Byte)
  /-- CERT_READ (R455). -/
  | certRead (tag : Word32) (payload : List Byte)
  /-- AUTH_PROVISION (R458). -/
  | authProvision (tag : Word32) (payload : List Byte)
  /-- APPLY (R461). -/
  | apply (f : FnId)
  /-- NEW_NONCE (R462). -/
  | newNonce (f : FnId)
  /-- MEAS_EXTEND (R453). -/
  | measExtend (f : FnId) (p : PartId)
  /-- RWA_WRITE_REFUSED (R464). -/
  | rwaWriteRefused (f : FnId) (off : Nat) (v : Word64)
  /-- DEBUG_INSTRUCTION (R472). -/
  | debugInstruction
  /-- FATAL_LATCH (R477). -/
  | fatalLatch (cause : Nat) (detail : Nat)
  /-- FATAL_JOURNAL_SAVE (R477). -/
  | fatalJournalSave
  /-- MGMT_WATCHDOG_EXPIRE (R476). -/
  | mgmtWatchdogExpire
  /-- RAIL_OUT_OF_RANGE (R476). -/
  | railOutOfRange (sram : Bool)
  /-- UPD_WRITE (R480). -/
  | updWrite (tag : Word32) (payload : List Byte)
  /-- UPD_VERIFY (R480). -/
  | updVerify (tag : Word32)
  /-- UPD_ACTIVATE (R481). -/
  | updActivate (tag : Word32) (payload : List Byte)
  /-- ACTIVATION_DONE (R481). -/
  | activationDone
  /-- MARGIN_TRIM (R484). -/
  | marginTrim (short : Bool)
  /-- SENSOR_CHECK (R485). -/
  | sensorCheck (readings : List Nat)
  /-- QUEUE_DEPTH_SAMPLE (R489). -/
  | queueDepthSample
  /-- OBS_STREAM_ENABLE (R492). -/
  | obsStreamEnable (f : FnId) (trace : Bool) (v : Word32)
  /-- OBS_STREAM_STOP_DONE (R492). -/
  | obsStreamStopDone (trace : Bool)
  /-- GPIO_CLAIM (R487). -/
  | gpioClaim (f : FnId) (n : GpioId) (v : Word32)
  /-- GPIO_EDGE (R502). -/
  | gpioEdge (n : GpioId) (level : Bool)
  /-- TACH_WINDOW (R502). -/
  | tachWindow (n : GpioId) (pulses : Nat)
  /-- REGISTER_WRITE (R10). -/
  | registerWrite (f : FnId) (bar : Nat) (off : Nat) (size : Nat) (v : Word64)
  /-- BOUNDARY_SCAN (R512). -/
  | boundaryScan (code : Nat)
  deriving DecidableEq, Repr

end Sys2Proof
end

