-- ==== Sys2Proof/Decode.lean ====
section
/-! DEFINITION. The command that a word of the opcode table spells. No row of the table has bits: the block's commands are not read from
words (log 4). The instruction words of cogs and hubs, which stand in instruction memories inside the block, are decoded in
Machine/CogIsa.lean and Machine/HubIsa.lean. -/

namespace Sys2Proof

/-- The command that a word of `nbits` bits spells: none, since the table gives no row bits. -/
def decodeTableWord (_nbits _w : Nat) : Option Instr := none

end Sys2Proof
end

