-- ==== Sys2Proof/Config.lean ====
section
/-! DEFINITION. What an implementation fixes and what the manual leaves open: constants without a body. Nothing in Lean
can evaluate them, so a theorem that names one holds whatever its value is. -/

namespace Sys2Proof

/-- Values nothing constrains, one for each number drawn (log 1). -/
opaque Config.freeValue : Nat → Nat

/-- Which of the FP32 values within 1 ulp of the exact one VEXP2, VRCP and VRSQ return, by opcode and operand (R96, R108; log
21). -/
opaque Config.ulpPick : Nat → Nat → Nat

/-- Which of the FP64 values within 1 ulp the engine's fixed natural logarithm gives, by operand, and its result where it has no finite
one (R341; log 22). -/
opaque Config.ln64 : Nat → Nat

/-- The operation codes of the mailbox operations whose codes the manual does not give (log 40). -/
opaque Config.mboxOp : Nat → Nat

/-- Whether an SLH-DSA-SHA2-192s signature verifies (FIPS 205): public key, context, message, signature (R449, R461; log 41). -/
opaque Config.slhVerify : List Byte → List Byte → List Byte → List Byte → Bool

/-- The public key that slh_keygen_internal makes from its three seeds (R454; log 41). -/
opaque Config.slhKey : List Byte → List Byte → List Byte → List Byte

/-- The SLH-DSA-SHA2-128f signature made with a key of those seeds over a context and a message (R456; log 41). -/
opaque Config.slhSign : List Byte → List Byte → List Byte → List Byte → List Byte → List Byte

/-- The ROM's hash of signing key 0 and 1 (R449; log 42). -/
opaque Config.romKeyHash : Nat → Nat

/-- The ROM's own constant that SEC_MEAS[0] is extended with (R452; log 42). -/
opaque Config.romConstant : Nat

/-- The voltage that the fused table gives for each divisor code, in mV (R418; log 94). -/
opaque Config.fusedMv : Nat → Nat

/-- Whether the drift of a WCK2DQ oscillator from its count at the last training, to the count read, exceeds 1/16 of a unit interval: the
manual relates counts to unit intervals nowhere (R233; log 31). -/
opaque Config.driftOver : Nat → Nat → Bool

/-- The WCK2DQ oscillator count that training records, by number of the training, channel and rank (R231; log 31). -/
opaque Config.oscBase : Nat → Nat → Nat → Nat

/-- The LDPC parity of a flash sector over its data, word parity and header (R200; log 44). -/
opaque Config.ldpc : List Byte → List Byte

/-- Whether the gear-format tables of a VERSION accept images of a MIN_FMT (R481; log 97). -/
opaque Config.tableFmt : Nat → Nat → Bool

/-- Whether a copy of the journal, 0 or 1, still fails parity at an entry after one reread, by copy, entry and device time (R478; log 98). -/
opaque Config.jnlBad : Nat → Nat → Nat → Bool

/-- Whether the running image of a component accepts the hand-off format of a new image, by COMP and VERSION (R480; log 43). -/
opaque Config.handOff : Nat → Nat → Bool

end Sys2Proof
end

