-- ==== Sys2Proof/Machine/Numerics.lean ====
section
/-! DEFINITION. Number formats and arithmetic (chapter 03): exact values, rounding to nearest with ties to even, the six
formats, sums and products, and the functions of the vector unit. -/

namespace Sys2Proof.Machine

/-! ## Exact values (R81, R84, R90 to R92) -/

/-- The exact value of an encoding: NaN, an infinity, or a signed dyadic m × 2^e, where a zero keeps its sign. -/
inductive FVal where
  | nan
  | inf (neg : Bool)
  | fin (neg : Bool) (m : Nat) (e : Int)
  deriving DecidableEq, Repr

/-- An exact +0. -/
def FVal.zero : FVal := .fin false 0 0

/-- The number of bits of m. -/
def bitLen (m : Nat) : Nat := if m = 0 then 0 else Nat.log2 m + 1

/-- m ÷ 2^k rounded to nearest, ties to even (R84). -/
def rne (m k : Nat) : Nat :=
  let q := m / 2 ^ k
  let r := m % 2 ^ k
  if k = 0 then m
  else if 2 ^ (k - 1) < r then q + 1
  else if r < 2 ^ (k - 1) then q
  else q + q % 2

/-- m × 2^e as a multiple of 2^q, rounded once. -/
def quantize (m : Nat) (e q : Int) : Nat := if q ≤ e then m * 2 ^ (e - q).toNat else rne m (q - e).toNat

/-- A positive m × 2^e rounded once to `fw` fraction bits with exponents not below `emin`: n × 2^q with n < 2^(fw+1) (R84). -/
def roundTo (fw : Nat) (emin : Int) (m : Nat) (e : Int) : Nat × Int :=
  let msb : Int := e + bitLen m - 1
  let q : Int := max (msb - fw) (emin - fw)
  let n := quantize m e q
  if 2 ^ (fw + 1) ≤ n then (n / 2, q + 1) else (n, q)

/-- Comparison of two dyadics m × 2^e ≤ n × 2^f. -/
def dyLe (m : Nat) (e : Int) (n : Nat) (f : Int) : Bool :=
  let b := min e f
  decide (m * 2 ^ (e - b).toNat ≤ n * 2 ^ (f - b).toNat)

/-- A binary format with `ew` exponent bits and `fw` fraction bits read as the exact value of its finite encodings (R81). -/
def finiteOf (ew fw : Nat) (x : Nat) : FVal :=
  let bias : Int := 2 ^ (ew - 1) - 1
  let m := x % 2 ^ fw
  let e := x / 2 ^ fw % 2 ^ ew
  let neg := x / 2 ^ (fw + ew) % 2 == 1
  if e = 0 then .fin neg m (1 - bias - fw) else .fin neg (2 ^ fw + m) (e - bias - fw)

/-- An IEEE format read: exponent all ones is an infinity or a NaN. -/
def ieeeOf (ew fw : Nat) (x : Nat) : FVal :=
  if x / 2 ^ fw % 2 ^ ew = 2 ^ ew - 1 then
    if x % 2 ^ fw = 0 then .inf (x / 2 ^ (fw + ew) % 2 == 1) else .nan
  else finiteOf ew fw x

/-- The finite encoding of n × 2^q, as `roundTo` leaves it. -/
def encodeFinite (ew fw : Nat) (n : Nat) (q : Int) : Nat :=
  let bias : Int := 2 ^ (ew - 1) - 1
  if n < 2 ^ fw then n else (q + fw + bias).toNat * 2 ^ fw + (n - 2 ^ fw)

/-- The sign bit of a format of w bits. -/
def signBit (w : Nat) (neg : Bool) : Nat := if neg then 2 ^ (w - 1) else 0

/-- A value rounded once to an IEEE format; overflow yields an infinity, a NaN is the canonical one (R84 to R86). -/
def ieeeEnc (ew fw : Nat) : FVal → Nat
  | .nan => (2 ^ ew - 1) * 2 ^ fw + 2 ^ (fw - 1)
  | .inf neg => signBit (1 + ew + fw) neg + (2 ^ ew - 1) * 2 ^ fw
  | .fin neg m e =>
    if m = 0 then signBit (1 + ew + fw) neg
    else
      let (n, q) := roundTo fw (2 - 2 ^ (ew - 1)) m e
      signBit (1 + ew + fw) neg + min (encodeFinite ew fw n q) ((2 ^ ew - 1) * 2 ^ fw)

/-- FP32 (R81). -/
def fp32 (x : Nat) : FVal := ieeeOf 8 23 x
def enc32 (v : FVal) : Nat := ieeeEnc 8 23 v
/-- FP64 (R339). -/
def fp64 (x : Nat) : FVal := ieeeOf 11 52 x
def enc64 (v : FVal) : Nat := ieeeEnc 11 52 v

/-- The exact value of one element of a TYPE: 0 FP32, 1 BF16, 2 E4M3, 3 E5M2, 4 E2M1, 5 INT4 (R81). -/
def valueOf (type x : Nat) : FVal :=
  match type with
  | 0 => fp32 x
  | 1 => ieeeOf 8 7 x
  | 2 => if x % 128 = 127 then .nan else finiteOf 4 3 x
  | 3 => ieeeOf 5 2 x
  | 4 => finiteOf 2 1 x
  | _ => let v := signed 4 x; .fin (decide (v < 0)) v.natAbs 0

/-- The bits of one element of a TYPE (R81). -/
def typeBits : Nat → Nat
  | 0 => 32 | 1 => 16 | 2 => 8 | 3 => 8 | _ => 4

/-- A value converted to a TYPE 0 to 3, rounded once; an overflow or an infinity to an 8-bit format follows SAT8 (R101,
R102). -/
def encT (sat8 : Bool) (type : Nat) (v : FVal) : Nat :=
  match type with
  | 0 => enc32 v
  | 1 => ieeeEnc 8 7 v
  | 2 =>
    let ovf (neg : Bool) : Nat := if sat8 then signBit 8 neg + 0x7E else 0x7F
    match v with
    | .nan => 0x7F
    | .inf neg => ovf neg
    | .fin neg m e =>
      if m = 0 then signBit 8 neg
      else
        let (n, q) := roundTo 3 (-6) m e
        if dyLe n q 448 0 then signBit 8 neg + encodeFinite 4 3 n q else ovf neg
  | _ =>
    let ovf (neg : Bool) : Nat := signBit 8 neg + if sat8 then 0x7B else 0x7C
    match v with
    | .nan => 0x7E
    | .inf neg => ovf neg
    | .fin neg m e =>
      if m = 0 then signBit 8 neg
      else
        let (n, q) := roundTo 2 (-14) m e
        if dyLe n q 57344 0 then signBit 8 neg + encodeFinite 5 2 n q else ovf neg

/-- Negative-zero normalisation of a result of `w` bits (R105). -/
def normZero (nzn : Bool) (w x : Nat) : Nat := if nzn && x == 2 ^ (w - 1) then 0 else x

/-! ## Products and sums -/

/-- An exact product (R90). -/
def mulF : FVal → FVal → FVal
  | .nan, _ => .nan
  | _, .nan => .nan
  | .inf a, .inf b => .inf (a ^^ b)
  | .inf a, .fin b m _ => if m = 0 then .nan else .inf (a ^^ b)
  | .fin a m _, .inf b => if m = 0 then .nan else .inf (a ^^ b)
  | .fin a m e, .fin b n f => .fin (a ^^ b) (m * n) (e + f)

/-- A negation. -/
def negF : FVal → FVal
  | .nan => .nan
  | .inf a => .inf (!a)
  | .fin a m e => .fin (!a) m e

/-- A finite term as an integer multiple of 2^b. -/
def FVal.atExp (b : Int) : FVal → Int
  | .fin neg m e => (if neg then -1 else 1) * (m * 2 ^ (e - b).toNat : Nat)
  | _ => 0

/-- An exact sum with the special cases of R92. -/
def sumF (ts : List FVal) : FVal :=
  if ts.contains .nan || (ts.contains (.inf true) && ts.contains (.inf false)) then .nan
  else if ts.contains (.inf true) then .inf true
  else if ts.contains (.inf false) then .inf false
  else
    let b := ts.foldl (fun b t => match t with
      | .fin _ _ e => min b e
      | _ => b) 0
    let v := (ts.map (FVal.atExp b)).foldl (· + ·) 0
    if v = 0 then .fin (ts.all fun t => match t with
      | .fin neg m _ => neg && m == 0
      | _ => false) 0 0
    else .fin (decide (v < 0)) v.natAbs b

/-- Whether a value is below another, NaN apart. -/
def ltF : FVal → FVal → Bool
  | .nan, _ => false
  | _, .nan => false
  | .inf a, .inf b => a && !b
  | .inf a, .fin _ _ _ => a
  | .fin _ _ _, .inf b => !b
  | .fin a m e, .fin b n f =>
    let c := min e f
    decide (FVal.atExp c (.fin a m e) < FVal.atExp c (.fin b n f))

/-- Numeric equality: −0 equals +0, a NaN equals nothing (R98). -/
def eqF (a b : FVal) : Bool := a != .nan && b != .nan && !ltF a b && !ltF b a

/-- Whether a value has its sign set. -/
def FVal.neg : FVal → Bool
  | .nan => false
  | .inf a => a
  | .fin a _ _ => a

/-- The larger or the smaller of two values, with −0 below +0; NaN when either is NaN (R97). -/
def maxF (a b : FVal) : FVal :=
  if a = .nan ∨ b = .nan then .nan
  else if ltF a b || (eqF a b && a.neg) then b else a
def minF (a b : FVal) : FVal :=
  if a = .nan ∨ b = .nan then .nan
  else if ltF b a || (eqF a b && b.neg) then b else a

/-! ## Functions within one ulp (R96) and correctly rounded ones (R338) -/

/-- The largest encoding of a non-negative finite FP32 value that satisfies a downward-closed test: a search over its 31
bits. -/
def searchBits (ok : Nat → Bool) : Nat → Nat → Nat
  | 0, x => x
  | k + 1, x => let y := x + 2 ^ k; if decide (y ≤ 0x7F7FFFFF) && ok y then searchBits ok k y else searchBits ok k x

/-- Whether the positive dyadic m × 2^e is at most 1 ÷ (n × 2^f). -/
def leRecip (n : Nat) (f : Int) (m : Nat) (e : Int) : Bool := dyLe (m * n) (e + f) 1 0

/-- Whether m × 2^e is at most 1 ÷ √(n × 2^f). -/
def leRsqrt (n : Nat) (f : Int) (m : Nat) (e : Int) : Bool := dyLe (m * m * n) (e + e + f) 1 0

/-- Whether the positive dyadic m × 2^e is at most 2^x, where x = ± n × 2^f: with x = N ÷ D, whether its D-th power is at most
2^N. -/
def leExp2 (neg : Bool) (n : Nat) (f : Int) (m : Nat) (e : Int) : Bool :=
  let d : Nat := 2 ^ (-f).toNat
  let k : Int := (if neg then -1 else 1) * ((n * 2 ^ f.toNat : Nat) : Int)
  dyLe (m ^ d) (e * (d : Int)) 1 k

/-- Whether it is at least 2^x. -/
def geExp2 (neg : Bool) (n : Nat) (f : Int) (m : Nat) (e : Int) : Bool :=
  let d : Nat := 2 ^ (-f).toNat
  let k : Int := (if neg then -1 else 1) * ((n * 2 ^ f.toNat : Nat) : Int)
  dyLe 1 k (m ^ d) (e * (d : Int))

/-- The value of a non-negative finite FP32 encoding as a dyadic. -/
def dy32 (x : Nat) : Nat × Int :=
  match finiteOf 8 23 x with
  | .fin _ m e => (m, e)
  | _ => (0, 0)

/-- The FP32 encodings that may be returned for a positive exact value given by its test `le`: the two that enclose it, or the value
and its neighbours where it is an encoding itself. At and just above a power of two encodings further below lie within 1 ulp too;
they are not offered (DESIGN CHOICE, log 21). -/
def near32 (le : Nat → Int → Bool) (ge : Nat → Int → Bool) : List Nat :=
  let f := searchBits (fun x => le (dy32 x).1 (dy32 x).2) 31 0
  if f ≠ 0 ∧ ge (dy32 f).1 (dy32 f).2 = true then [f, f - 1, f + 1] else [f, f + 1]

/-- The pick among candidates that the hardware fixes. -/
def pickNear (op x : Nat) (c : List Nat) : Nat := c.getD (Config.ulpPick op x % c.length) 0

/-- The largest finite FP32 value, as a test against an exact value: an exact value that rounds beyond it is an infinity. -/
def overflows (le : Nat → Int → Bool) : Bool := le (2 ^ 25 - 1) 103

/-- VRSQ on an FP32 encoding (R96). -/
def rsqF (x : Nat) : Nat :=
  match fp32 x with
  | .nan => 0x7FC00000
  | .inf neg => if neg then 0x7FC00000 else 0
  | .fin neg m e =>
    if m = 0 then signBit 32 neg + 0x7F800000
    else if neg then 0x7FC00000
    else pickNear 0x2D x (near32 (leRsqrt m e) (fun a b => dyLe 1 0 (a * a * m) (b + b + e)))

/-- A quotient of FP32 values rounded to FP32 (R338): infinities and zeros as IEEE 754 has them. -/
def divF32 (a b : Nat) : Nat :=
  match fp32 a, fp32 b with
  | .nan, _ => 0x7FC00000
  | _, .nan => 0x7FC00000
  | .inf _, .inf _ => 0x7FC00000
  | .inf x, .fin y _ _ => signBit 32 (x ^^ y) + 0x7F800000
  | .fin x _ _, .inf y => signBit 32 (x ^^ y)
  | .fin x m e, .fin y n f =>
    if n = 0 then (if m = 0 then 0x7FC00000 else signBit 32 (x ^^ y) + 0x7F800000)
    else
      let k := 64 + bitLen n
      let q := m * 2 ^ k / n
      enc32 (.fin (x ^^ y) (2 * q + b2n (m * 2 ^ k % n != 0)) (e - f - k - 1))

/-- 2 to the power of an FP32 value, correctly rounded to FP32 (R338). -/
def exp2RN (x : Nat) : Nat :=
  match fp32 x with
  | .nan => 0x7FC00000
  | .inf neg => if neg then 0 else 0x7F800000
  | .fin neg m e =>
    if m = 0 then 0x3F800000
    else if overflows (leExp2 neg m e) then 0x7F800000
    else
      let f := searchBits (fun y => leExp2 neg m e (dy32 y).1 (dy32 y).2) 31 0
      let (n, q) := dy32 f
      if leExp2 neg m e (2 * n + 1) (q - 1) then
        if geExp2 neg m e (2 * n + 1) (q - 1) then f + f % 2 else f + 1
      else f

/-- VEXP2 on an FP32 encoding (R96): of a negative finite operand the exact value's rounding. -/
def exp2F (x : Nat) : Nat :=
  match fp32 x with
  | .fin false m e =>
    if m = 0 then 0x3F800000
    else if overflows (leExp2 false m e) then 0x7F800000
    else pickNear 0x2B x (near32 (leExp2 false m e) (geExp2 false m e))
  | _ => exp2RN x

/-- VRCP on an FP32 encoding (R96): of a negative finite operand the exact value's rounding. -/
def rcpF (x : Nat) : Nat :=
  match fp32 x with
  | .fin false m e =>
    if m = 0 then 0x7F800000
    else if overflows (leRecip m e) then 0x7F800000
    else pickNear 0x2C x (near32 (leRecip m e) (fun a b => dyLe 1 0 (a * m) (b + e)))
  | _ => divF32 0x3F800000 x

/-- A value rounded to FP64 (R339). -/
def to64 (v : FVal) : FVal := fp64 (enc64 v)

end Sys2Proof.Machine
end

