-- ==== Sys2Proof/Machine/RegMap.lean ====
section
/-! DEFINITION. The registers of the device: every register the manual's register tables name, its place in BAR0 or
BAR4, its instances and its fields with their access codes and reset values (R9 to R11, and the register rule that
closes each chapter, named beside each register). Registers wider than 64 bits have no fields here; their contents are
fields of State. -/

namespace Sys2Proof

/-- The access codes of R10 that the register tables use. -/
inductive Access where
  | ro | rw | w1c | wo | rwa
  deriving DecidableEq, Repr

/-- The registers. -/
inductive RegKind where
  | COG_FENCE_MAP | COG_FENCE_SUMMARY | COG_STALL_CFG | COG_FW_CTRL | COG_LINK_ERR | COG_BLK_STATE | COG_NUM_CFG
  | GEAR_BLK_STATE | GEAR_BLK_ID | GEAR_PAN_STAT | GEAR_DL_CFG | GEAR_LOAD_DIAG | TNS_TABLE_FREE | TNS_FAULT
  | TNS_FAULT_TIME | TNS_REPAIR_CNT | POOL_TOTAL | POOL_FREE | POOL_FLOOR | POOL_USED | POOL_SHADOW | POOL_EVICT
  | BLK_STATUS | BLK_GEOMETRY | BLK_CAP | BLK_RD_CFG | BLK_CH_STATE | BLK_STAT | BLK_STAT2 | BLK_CAT_ENTRY
  | LPX_STATUS | LPX_GEOMETRY | LPX_CFG | LPX_PG_CNT | LPX_CH_STATE | LPX_CH_CTRL | LPX_CH_ERR | LPX_PG_LOG
  | HUB_STATE | HUB_CFG | HUB_EVENT | HUB_EVENT_ADD | Q_BASE | Q_CFG | Q_CTRL | Q_STATE | JNL_STATUS | JNL_COUNT
  | DOORBELL | Q_POS | HUB_CTRL | HUB_PART_CFG | HUB_CYCLE | HUB_CYCLE_CTRL | HUB_LEAD_STAT | SEC_PART_MAP
  | SEC_PART_STATE | SRV_BATCH_CFG | SRV_BATCH_CTRL | SRV_RING_BASE | SRV_RING_CFG | SRV_RING_POS | SRV_BATCH_STAT
  | SRV_STEP_CNT | SRV_COST | RLT_DEV_ID | RLT_PORT_CFG | RLT_PORT_CTRL | RLT_PORT_STATE | RLT_PORT_ERR
  | RLT_PORT_DROP | RLT_PORT_BER | RLT_PART_SLICE | RLT_XFER_CFG | RLT_EDGE_BIND | RLT_ROUTE | RLT_LOCAL
  | RLT_SLICE_ALLOW | RLT_MCAST | RLT_MCAST_X | RLT_MCAST_EXP | PCI_LINK_STATUS | PCI_RESET_STAT | PCI_MBX_CTRL
  | PCI_MBX_STATUS | PCI_MBX_REQ | PCI_MBX_RSP | PCI_ERR_CNT | PCI_ERR_POS | PCI_ERR_LOG | PCI_ERR_TIME
  | PCI_WIN_MAP | PCI_MWIN_BASE | PCI_MWIN_LIMIT | PCI_IDE_STATE | INTC_SRC_CFG | INTC_MASK | INTC_PEND
  | INTC_ACTIVE | INTC_TGT_CFG | INTC_TGT_STATE | INTC_CPL | INTC_STRAY_COUNT | INTC_ERR_LOG | INTC_SWSET
  | PWR_CFG | PWR_HOST_CAP | PWR_RM_CFG | PWR_STEP_CAP | PWR_STATUS | PWR_MEAS | PWR_OVERSHOOT | PWR_OVERSHOOT_TIME
  | PWR_TEMP | PWR_THERM_CFG | CLK_STATUS | CLK_TIME | CLK_TIME_CAP | CLK_CAP_CTRL | SEC_UID | SEC_BOOT_STATUS
  | SEC_FUSE_STATE | SEC_NONCE | SEC_TOKEN_CTRL | SEC_TOKEN_STATUS | SEC_DIRECT_LOG | SEC_AUTH_STATE | SEC_AUTH_HASH
  | SEC_MEAS | SEC_MEAS_EXT_DATA | SEC_MEAS_EXT_CTRL | SEC_TOKEN_BUF | SEC_REPORT_BUF | OBS_FATAL | OBS_FATAL_TIME
  | OBS_FATAL_CFG | OBS_CLASS_CNT | OBS_UPD_STATUS | OBS_CAL_STATUS | OBS_CONFLICT | OBS_SAMPLE_CTRL | OBS_TRACE_CTRL
  | OBS_TRACE_MASK | OBS_TRIG_MASK | OBS_BUF_CFG | OBS_BUF_POS | OBS_GPIO_CLAIM | OBS_GPIO_CFG | PCI_CHIP_ID
  deriving DecidableEq, Repr

/-- One field of a register: its lowest bit, width, access code and reset value (R10, R11). -/
structure FieldInfo where
  lo : Nat
  w : Nat
  access : Access
  reset : Nat
  deriving DecidableEq, Repr

/-- One register table: the BAR, the first address, two index ranges with their strides (the second is 1 where the
register has one index), the width in bits and the fields. -/
structure RegInfo where
  bar : Nat
  base : Nat
  n0 : Nat
  s0 : Nat
  n1 : Nat
  s1 : Nat
  width : Nat
  flds : List FieldInfo
  deriving DecidableEq, Repr

/-- A named field of a register kind. -/
structure Fld where
  kind : RegKind
  lo : Nat
  w : Nat
  deriving DecidableEq, Repr

/-- The register tables of the manual. A field whose reset is "Fuse", "Random", "Set at boot", "Set at format", "Set at
training" or "From boot flash" stands here as 0 (DESIGN CHOICE, log 2). -/
def RegKind.info : RegKind → RegInfo
  | .PCI_CHIP_ID => ⟨0, 0x00000000, 1, 0x0, 1, 0x0, 32, [⟨16,16,.ro,18454⟩, ⟨12,4,.ro,1⟩, ⟨8,4,.ro,0⟩]⟩
  | .COG_FENCE_MAP => ⟨0, 0x00200000, 576, 0x4, 1, 0x0, 32, [⟨0,32,.ro,0⟩]⟩
  | .COG_FENCE_SUMMARY => ⟨0, 0x00200900, 1, 0x0, 1, 0x0, 32, [⟨16,5,.ro,0⟩, ⟨0,16,.ro,0⟩]⟩
  | .COG_STALL_CFG => ⟨0, 0x00201000, 16, 0x4, 1, 0x0, 32, [⟨0,16,.rw,2000⟩]⟩
  | .COG_FW_CTRL => ⟨0, 0x00201040, 1, 0x0, 1, 0x0, 32, [⟨8,8,.rw,4⟩, ⟨0,1,.rw,1⟩]⟩
  | .COG_LINK_ERR => ⟨0, 0x00202000, 72, 0x8, 1, 0x0, 64, [⟨32,32,.ro,0⟩, ⟨0,32,.ro,0⟩]⟩
  | .COG_BLK_STATE => ⟨0, 0x00203000, 72, 0x4, 1, 0x0, 32, [⟨18,9,.ro,0⟩, ⟨9,9,.ro,0⟩, ⟨0,9,.ro,0⟩]⟩
  | .COG_NUM_CFG => ⟨0, 0x00201080, 16, 0x4, 1, 0x0, 32, [⟨1,1,.rw,1⟩, ⟨0,1,.rw,0⟩]⟩
  | .GEAR_BLK_STATE => ⟨0, 0x00210000, 72, 0x4, 1, 0x0, 32, [⟨8,1,.ro,0⟩, ⟨4,3,.ro,0⟩, ⟨0,3,.ro,0⟩]⟩
  | .GEAR_BLK_ID => ⟨0, 0x00210200, 72, 0x8, 1, 0x0, 64, [⟨32,32,.ro,0⟩, ⟨0,32,.ro,0⟩]⟩
  | .GEAR_PAN_STAT => ⟨0, 0x00210800, 72, 0x8, 1, 0x0, 64, [⟨48,16,.ro,0⟩, ⟨32,16,.ro,0⟩, ⟨0,32,.ro,0⟩]⟩
  | .GEAR_DL_CFG => ⟨0, 0x00211000, 16, 0x4, 1, 0x0, 32, [⟨0,16,.rw,10⟩]⟩
  | .GEAR_LOAD_DIAG => ⟨0, 0x00211100, 16, 0x8, 1, 0x0, 64, [⟨56,8,.ro,0⟩, ⟨48,8,.ro,0⟩, ⟨40,8,.ro,0⟩, ⟨32,8,.ro,0⟩, ⟨0,32,.ro,0⟩]⟩
  | .TNS_TABLE_FREE => ⟨0, 0x00220000, 1, 0x0, 1, 0x0, 32, [⟨0,19,.ro,262144⟩]⟩
  | .TNS_FAULT => ⟨0, 0x00220100, 16, 0x8, 1, 0x0, 64, [⟨56,8,.ro,0⟩, ⟨52,4,.ro,0⟩, ⟨32,16,.ro,0⟩, ⟨0,32,.ro,0⟩]⟩
  | .TNS_FAULT_TIME => ⟨0, 0x00220200, 16, 0x8, 1, 0x0, 64, [⟨0,64,.ro,0⟩]⟩
  | .TNS_REPAIR_CNT => ⟨0, 0x00220300, 16, 0x8, 1, 0x0, 64, [⟨32,32,.ro,0⟩, ⟨0,32,.ro,0⟩]⟩
  | .POOL_TOTAL => ⟨0, 0x00230000, 1, 0x0, 1, 0x0, 32, [⟨0,25,.ro,0⟩]⟩
  | .POOL_FREE => ⟨0, 0x00230004, 1, 0x0, 1, 0x0, 32, [⟨0,25,.ro,0⟩]⟩
  | .POOL_FLOOR => ⟨0, 0x00230100, 16, 0x4, 1, 0x0, 32, [⟨31,1,.w1c,0⟩, ⟨0,25,.rw,0⟩]⟩
  | .POOL_USED => ⟨0, 0x00230200, 16, 0x4, 1, 0x0, 32, [⟨0,25,.ro,0⟩]⟩
  | .POOL_SHADOW => ⟨0, 0x00230300, 16, 0x4, 1, 0x0, 32, [⟨0,25,.ro,0⟩]⟩
  | .POOL_EVICT => ⟨0, 0x00230400, 16, 0x8, 1, 0x0, 64, [⟨32,32,.ro,0⟩, ⟨0,32,.ro,0⟩]⟩
  | .BLK_STATUS => ⟨0, 0x00240000, 1, 0x0, 1, 0x0, 32, [⟨31,1,.ro,0⟩, ⟨29,2,.ro,0⟩, ⟨28,1,.w1c,0⟩, ⟨0,11,.ro,0⟩]⟩
  | .BLK_GEOMETRY => ⟨0, 0x00240008, 1, 0x0, 1, 0x0, 64, [⟨60,4,.ro,0⟩, ⟨56,4,.ro,0⟩, ⟨52,4,.ro,0⟩, ⟨32,16,.ro,0⟩, ⟨0,32,.ro,0⟩]⟩
  | .BLK_CAP => ⟨0, 0x00240010, 1, 0x0, 1, 0x0, 64, [⟨32,32,.ro,0⟩, ⟨0,32,.ro,0⟩]⟩
  | .BLK_RD_CFG => ⟨0, 0x00240018, 1, 0x0, 1, 0x0, 32, [⟨16,16,.rw,4000⟩, ⟨8,8,.rw,7⟩, ⟨0,8,.rw,5⟩]⟩
  | .BLK_CH_STATE => ⟨0, 0x00240100, 32, 0x4, 1, 0x0, 32, [⟨29,3,.ro,0⟩, ⟨16,8,.ro,0⟩, ⟨15,1,.ro,0⟩, ⟨14,1,.ro,0⟩, ⟨0,14,.ro,0⟩]⟩
  | .BLK_STAT => ⟨0, 0x00240200, 1, 0x0, 1, 0x0, 64, [⟨32,32,.ro,0⟩, ⟨0,32,.ro,0⟩]⟩
  | .BLK_STAT2 => ⟨0, 0x00240208, 1, 0x0, 1, 0x0, 64, [⟨32,32,.ro,0⟩, ⟨0,32,.ro,0⟩]⟩
  | .BLK_CAT_ENTRY => ⟨0, 0x00250000, 1024, 0x80, 1, 0x0, 1024, []⟩
  | .LPX_STATUS => ⟨0, 0x00280000, 1, 0x0, 1, 0x0, 32, [⟨31,1,.ro,0⟩, ⟨28,3,.ro,0⟩, ⟨0,3,.ro,0⟩]⟩
  | .LPX_GEOMETRY => ⟨0, 0x00280008, 1, 0x0, 1, 0x0, 64, [⟨56,8,.ro,0⟩, ⟨54,2,.ro,0⟩, ⟨0,32,.ro,0⟩]⟩
  | .LPX_CFG => ⟨0, 0x00280010, 1, 0x0, 1, 0x0, 32, [⟨16,16,.rw,1000⟩, ⟨8,8,.rw,50⟩, ⟨1,1,.rw,1⟩, ⟨0,1,.rw,1⟩]⟩
  | .LPX_PG_CNT => ⟨0, 0x00280018, 1, 0x0, 1, 0x0, 32, [⟨16,6,.ro,0⟩, ⟨0,16,.ro,0⟩]⟩
  | .LPX_CH_STATE => ⟨0, 0x00280100, 64, 0x4, 1, 0x0, 32, [⟨29,3,.ro,0⟩, ⟨28,1,.ro,0⟩, ⟨27,1,.ro,0⟩, ⟨26,1,.ro,0⟩, ⟨16,8,.ro,0⟩, ⟨8,8,.ro,0⟩, ⟨0,8,.ro,0⟩]⟩
  | .LPX_CH_CTRL => ⟨0, 0x00280200, 64, 0x4, 1, 0x0, 32, [⟨31,1,.w1c,0⟩, ⟨2,1,.wo,0⟩, ⟨1,1,.wo,0⟩, ⟨0,1,.wo,0⟩]⟩
  | .LPX_CH_ERR => ⟨0, 0x00280400, 64, 0x8, 1, 0x0, 64, [⟨32,32,.ro,0⟩, ⟨0,32,.ro,0⟩]⟩
  | .LPX_PG_LOG => ⟨0, 0x00281000, 64, 0x8, 1, 0x0, 64, [⟨63,1,.ro,0⟩, ⟨62,1,.ro,0⟩, ⟨56,6,.ro,0⟩, ⟨55,1,.ro,0⟩, ⟨0,25,.ro,0⟩]⟩
  | .HUB_STATE => ⟨0, 0x00300000, 8, 0x8, 1, 0x0, 64, [⟨16,48,.ro,0⟩, ⟨12,4,.ro,0⟩, ⟨10,2,.ro,0⟩, ⟨0,10,.ro,0⟩]⟩
  | .HUB_CFG => ⟨0, 0x00300040, 8, 0x4, 1, 0x0, 32, [⟨17,3,.ro,0⟩, ⟨0,15,.rw,0⟩]⟩
  | .HUB_EVENT => ⟨0, 0x00301000, 16, 0x400, 256, 0x4, 32, [⟨0,32,.ro,0⟩]⟩
  | .HUB_EVENT_ADD => ⟨0, 0x00308000, 16, 0x400, 256, 0x4, 32, [⟨0,32,.wo,0⟩]⟩
  | .Q_BASE => ⟨0, 0x00310000, 1024, 0x20, 1, 0x0, 64, [⟨0,64,.rw,0⟩]⟩
  | .Q_CFG => ⟨0, 0x00310008, 1024, 0x20, 1, 0x0, 32, [⟨31,1,.rw,0⟩, ⟨28,2,.rw,1⟩, ⟨16,4,.rw,6⟩]⟩
  | .Q_CTRL => ⟨0, 0x0031000C, 1024, 0x20, 1, 0x0, 32, [⟨2,1,.wo,0⟩, ⟨1,1,.wo,0⟩, ⟨0,1,.wo,0⟩]⟩
  | .Q_STATE => ⟨0, 0x00310010, 1024, 0x20, 1, 0x0, 64, [⟨48,16,.ro,0⟩, ⟨32,16,.ro,0⟩, ⟨7,1,.ro,0⟩, ⟨6,1,.w1c,0⟩, ⟨5,1,.w1c,0⟩, ⟨4,1,.w1c,0⟩, ⟨0,3,.ro,0⟩]⟩
  | .JNL_STATUS => ⟨0, 0x00320000, 1, 0x0, 1, 0x0, 64, [⟨48,16,.ro,0⟩, ⟨0,48,.ro,0⟩]⟩
  | .JNL_COUNT => ⟨0, 0x00320008, 1, 0x0, 1, 0x0, 64, [⟨32,32,.ro,0⟩, ⟨0,17,.ro,0⟩]⟩
  | .DOORBELL => ⟨4, 0x00000000, 16, 0x1000, 64, 0x40, 32, [⟨0,32,.wo,0⟩]⟩
  | .Q_POS => ⟨4, 0x00000008, 16, 0x1000, 64, 0x40, 64, [⟨32,32,.ro,0⟩, ⟨0,32,.ro,0⟩]⟩
  | .HUB_CTRL => ⟨0, 0x00300080, 8, 0x4, 1, 0x0, 32, [⟨16,16,.ro,0⟩, ⟨7,1,.ro,0⟩, ⟨6,1,.w1c,0⟩, ⟨4,2,.ro,1⟩, ⟨1,1,.wo,0⟩, ⟨0,1,.wo,0⟩]⟩
  | .HUB_PART_CFG => ⟨0, 0x00330000, 16, 0x8, 1, 0x0, 64, [⟨52,4,.rw,1⟩, ⟨48,4,.rw,0⟩, ⟨32,8,.rw,32⟩, ⟨16,16,.rw,200⟩, ⟨0,16,.rw,100⟩]⟩
  | .HUB_CYCLE => ⟨0, 0x00330200, 128, 0x4, 1, 0x0, 32, [⟨31,1,.rw,0⟩, ⟨0,4,.rw,0⟩]⟩
  | .HUB_CYCLE_CTRL => ⟨0, 0x00330400, 1, 0x0, 1, 0x0, 32, [⟨31,1,.wo,0⟩, ⟨30,1,.ro,0⟩, ⟨0,7,.ro,0⟩]⟩
  | .HUB_LEAD_STAT => ⟨0, 0x00330500, 16, 0x8, 1, 0x0, 64, [⟨48,16,.ro,0⟩, ⟨32,16,.ro,0⟩, ⟨0,32,.ro,0⟩]⟩
  | .SEC_PART_MAP => ⟨0, 0x00340000, 16, 0x8, 1, 0x0, 64, [⟨32,1,.rwa,0⟩, ⟨24,8,.rwa,0⟩, ⟨0,16,.rwa,0⟩]⟩
  | .SEC_PART_STATE => ⟨0, 0x00340100, 16, 0x8, 1, 0x0, 64, [⟨48,16,.ro,0⟩, ⟨32,16,.ro,0⟩, ⟨24,8,.ro,0⟩, ⟨7,1,.ro,0⟩, ⟨6,1,.w1c,0⟩, ⟨0,3,.ro,0⟩]⟩
  | .SRV_BATCH_CFG => ⟨0, 0x00380000, 32, 0x8, 1, 0x0, 64, [⟨60,4,.rw,0⟩, ⟨40,19,.rw,131072⟩, ⟨32,8,.rw,255⟩, ⟨16,16,.rw,64⟩, ⟨0,16,.rw,1000⟩]⟩
  | .SRV_BATCH_CTRL => ⟨0, 0x00380100, 32, 0x4, 1, 0x0, 32, [⟨16,16,.ro,0⟩, ⟨7,1,.ro,0⟩, ⟨6,1,.w1c,0⟩, ⟨4,2,.ro,0⟩, ⟨1,1,.wo,0⟩, ⟨0,1,.wo,0⟩]⟩
  | .SRV_RING_BASE => ⟨0, 0x00380200, 32, 0x8, 1, 0x0, 64, [⟨0,64,.rw,0⟩]⟩
  | .SRV_RING_CFG => ⟨0, 0x00380300, 32, 0x4, 1, 0x0, 32, [⟨31,1,.rw,0⟩, ⟨0,5,.rw,10⟩]⟩
  | .SRV_RING_POS => ⟨0, 0x00380400, 32, 0x8, 1, 0x0, 64, [⟨32,32,.rw,0⟩, ⟨0,32,.ro,0⟩]⟩
  | .SRV_BATCH_STAT => ⟨0, 0x00380500, 32, 0x8, 1, 0x0, 64, [⟨32,32,.ro,0⟩, ⟨16,16,.ro,0⟩, ⟨0,10,.ro,0⟩]⟩
  | .SRV_STEP_CNT => ⟨0, 0x00380600, 32, 0x8, 1, 0x0, 64, [⟨32,32,.ro,0⟩, ⟨0,32,.ro,0⟩]⟩
  | .SRV_COST => ⟨0, 0x00381000, 32, 0x20, 8, 0x4, 32, [⟨0,32,.ro,0⟩]⟩
  | .RLT_DEV_ID => ⟨0, 0x00400000, 1, 0x0, 1, 0x0, 32, [⟨31,1,.rwa,0⟩, ⟨0,20,.rwa,0⟩]⟩
  | .RLT_PORT_CFG => ⟨0, 0x00400100, 16, 0x8, 1, 0x0, 64, [⟨63,1,.rw,0⟩, ⟨60,3,.rw,3⟩, ⟨58,2,.rw,1⟩, ⟨54,4,.rw,5⟩, ⟨32,16,.rw,60⟩, ⟨24,8,.rw,16⟩, ⟨16,8,.rw,100⟩, ⟨0,16,.rw,2000⟩]⟩
  | .RLT_PORT_CTRL => ⟨0, 0x00400200, 16, 0x4, 1, 0x0, 32, [⟨16,16,.ro,0⟩, ⟨7,1,.ro,0⟩, ⟨6,1,.w1c,0⟩, ⟨2,1,.wo,0⟩, ⟨1,1,.wo,0⟩, ⟨0,1,.wo,0⟩]⟩
  | .RLT_PORT_STATE => ⟨0, 0x00400300, 16, 0x8, 1, 0x0, 64, [⟨44,20,.ro,0⟩, ⟨43,1,.ro,0⟩, ⟨40,3,.ro,0⟩, ⟨39,1,.ro,0⟩, ⟨38,1,.w1c,0⟩, ⟨24,8,.ro,0⟩, ⟨16,8,.ro,0⟩, ⟨0,3,.ro,0⟩]⟩
  | .RLT_PORT_ERR => ⟨0, 0x00400400, 16, 0x8, 1, 0x0, 64, [⟨40,24,.ro,0⟩, ⟨24,16,.ro,0⟩, ⟨8,16,.ro,0⟩, ⟨0,8,.ro,0⟩]⟩
  | .RLT_PORT_DROP => ⟨0, 0x00400500, 16, 0x8, 1, 0x0, 64, [⟨52,12,.ro,0⟩, ⟨40,12,.ro,0⟩, ⟨28,12,.ro,0⟩, ⟨16,12,.ro,0⟩, ⟨8,8,.ro,0⟩, ⟨0,8,.ro,0⟩]⟩
  | .RLT_PORT_BER => ⟨0, 0x00400600, 16, 0x20, 4, 0x8, 64, [⟨63,1,.ro,0⟩, ⟨48,15,.ro,0⟩, ⟨0,48,.ro,0⟩]⟩
  | .RLT_PART_SLICE => ⟨0, 0x00400800, 16, 0x4, 1, 0x0, 32, [⟨28,4,.rw,3⟩, ⟨0,12,.rwa,0⟩]⟩
  | .RLT_XFER_CFG => ⟨0, 0x00400900, 16, 0x8, 1, 0x0, 64, [⟨63,1,.rw,0⟩, ⟨56,4,.rw,6⟩, ⟨48,8,.rw,0⟩, ⟨40,8,.ro,0⟩, ⟨0,32,.rw,0⟩]⟩
  | .RLT_EDGE_BIND => ⟨0, 0x00410000, 128, 0x4, 1, 0x0, 32, [⟨31,1,.rw,0⟩, ⟨29,2,.rw,1⟩, ⟨20,7,.rw,0⟩, ⟨0,20,.rw,0⟩]⟩
  | .RLT_ROUTE => ⟨0, 0x00440000, 17, 0x4000, 4096, 0x4, 32, [⟨31,1,.rwa,0⟩, ⟨30,1,.rwa,0⟩, ⟨24,4,.rwa,0⟩, ⟨20,4,.rwa,0⟩]⟩
  | .RLT_LOCAL => ⟨0, 0x00488000, 17, 0x400, 256, 0x4, 32, [⟨31,1,.rwa,0⟩, ⟨30,1,.rwa,0⟩, ⟨24,4,.rwa,0⟩, ⟨20,4,.rwa,0⟩]⟩
  | .RLT_SLICE_ALLOW => ⟨0, 0x00490000, 16, 0x200, 128, 0x4, 32, [⟨0,32,.rwa,0⟩]⟩
  | .RLT_MCAST => ⟨0, 0x00494000, 1024, 0x4, 1, 0x0, 32, [⟨31,1,.rwa,0⟩, ⟨30,1,.rwa,0⟩, ⟨16,12,.rwa,0⟩, ⟨0,16,.rwa,0⟩]⟩
  | .RLT_MCAST_X => ⟨0, 0x00495000, 1024, 0x4, 1, 0x0, 32, [⟨16,12,.rwa,0⟩, ⟨0,12,.rwa,0⟩]⟩
  | .RLT_MCAST_EXP => ⟨0, 0x00498000, 4096, 0x4, 1, 0x0, 32, [⟨31,1,.rwa,0⟩, ⟨24,4,.rwa,0⟩, ⟨0,20,.rwa,0⟩]⟩
  | .PCI_LINK_STATUS => ⟨0, 0x00500000, 1, 0x0, 1, 0x0, 32, [⟨31,1,.ro,0⟩, ⟨30,1,.ro,0⟩, ⟨27,3,.ro,0⟩, ⟨22,5,.ro,0⟩, ⟨0,16,.ro,0⟩]⟩
  | .PCI_RESET_STAT => ⟨0, 0x00500008, 1, 0x0, 1, 0x0, 64, [⟨56,8,.ro,0⟩, ⟨32,16,.ro,0⟩, ⟨0,32,.ro,0⟩]⟩
  | .PCI_MBX_CTRL => ⟨0, 0x00500100, 1, 0x0, 1, 0x0, 32, [⟨8,8,.rw,255⟩, ⟨0,1,.wo,0⟩]⟩
  | .PCI_MBX_STATUS => ⟨0, 0x00500104, 1, 0x0, 1, 0x0, 32, [⟨31,1,.ro,0⟩, ⟨30,1,.w1c,0⟩, ⟨29,1,.w1c,0⟩]⟩
  | .PCI_MBX_REQ => ⟨0, 0x00501000, 1, 0x0, 1, 0x0, 32768, []⟩
  | .PCI_MBX_RSP => ⟨0, 0x00502000, 1, 0x0, 1, 0x0, 32768, []⟩
  | .PCI_ERR_CNT => ⟨0, 0x00503000, 17, 0x8, 1, 0x0, 64, [⟨48,16,.ro,0⟩, ⟨32,16,.ro,0⟩, ⟨16,16,.ro,0⟩, ⟨0,16,.ro,0⟩]⟩
  | .PCI_ERR_POS => ⟨0, 0x00503100, 1, 0x0, 1, 0x0, 32, [⟨16,16,.ro,0⟩, ⟨0,4,.ro,0⟩]⟩
  | .PCI_ERR_LOG => ⟨0, 0x00503200, 16, 0x8, 1, 0x0, 64, [⟨63,1,.ro,0⟩, ⟨58,5,.ro,0⟩, ⟨53,5,.ro,0⟩, ⟨0,48,.ro,0⟩]⟩
  | .PCI_ERR_TIME => ⟨0, 0x00503280, 16, 0x8, 1, 0x0, 64, [⟨0,64,.ro,0⟩]⟩
  | .PCI_WIN_MAP => ⟨0, 0x00504000, 17, 0x80, 16, 0x8, 64, [⟨63,1,.rw,0⟩, ⟨62,1,.rw,0⟩, ⟨61,1,.w1c,0⟩, ⟨52,4,.rw,0⟩, ⟨32,20,.rw,0⟩, ⟨0,32,.rw,0⟩]⟩
  | .PCI_MWIN_BASE => ⟨0, 0x00510000, 17, 0x80, 8, 0x10, 64, [⟨12,52,.rwa,0⟩]⟩
  | .PCI_MWIN_LIMIT => ⟨0, 0x00510008, 17, 0x80, 8, 0x10, 64, [⟨12,52,.rwa,0⟩, ⟨1,1,.rwa,0⟩, ⟨0,1,.rwa,0⟩]⟩
  | .PCI_IDE_STATE => ⟨0, 0x00511000, 17, 0x4, 1, 0x0, 32, [⟨16,16,.ro,0⟩, ⟨1,1,.rw,0⟩, ⟨0,1,.ro,0⟩]⟩
  | .INTC_SRC_CFG => ⟨0, 0x00600000, 512, 0x4, 1, 0x0, 32, [⟨31,1,.ro,0⟩, ⟨16,6,.rw,0⟩, ⟨8,5,.rw,0⟩, ⟨4,4,.rw,0⟩, ⟨0,4,.rw,0⟩]⟩
  | .INTC_MASK => ⟨0, 0x00601000, 16, 0x4, 1, 0x0, 32, [⟨0,32,.rw,4294967295⟩]⟩
  | .INTC_PEND => ⟨0, 0x00601040, 16, 0x4, 1, 0x0, 32, [⟨0,32,.ro,0⟩]⟩
  | .INTC_ACTIVE => ⟨0, 0x00601080, 16, 0x4, 1, 0x0, 32, [⟨0,32,.ro,0⟩]⟩
  | .INTC_TGT_CFG => ⟨0, 0x00601100, 10, 0x4, 1, 0x0, 32, [⟨31,1,.rw,0⟩, ⟨5,15,.rw,0⟩, ⟨0,4,.rw,0⟩]⟩
  | .INTC_TGT_STATE => ⟨0, 0x00601140, 10, 0x4, 1, 0x0, 32, [⟨28,4,.ro,0⟩, ⟨24,4,.ro,0⟩, ⟨0,9,.ro,0⟩]⟩
  | .INTC_CPL => ⟨0, 0x00601180, 10, 0x4, 1, 0x0, 32, [⟨0,9,.wo,0⟩]⟩
  | .INTC_STRAY_COUNT => ⟨0, 0x006011C0, 10, 0x4, 1, 0x0, 32, [⟨0,32,.ro,0⟩]⟩
  | .INTC_ERR_LOG => ⟨0, 0x00601200, 1, 0x0, 1, 0x0, 64, [⟨60,4,.ro,0⟩, ⟨48,9,.ro,0⟩, ⟨0,48,.ro,0⟩]⟩
  | .INTC_SWSET => ⟨0, 0x00601300, 16, 0x4, 1, 0x0, 32, [⟨0,16,.wo,0⟩]⟩
  | .PWR_CFG => ⟨0, 0x00700000, 1, 0x0, 1, 0x0, 32, [⟨30,2,.rw,0⟩, ⟨29,1,.rw,1⟩, ⟨16,12,.rw,500⟩, ⟨8,8,.rw,100⟩, ⟨0,8,.rw,50⟩]⟩
  | .PWR_HOST_CAP => ⟨0, 0x00700004, 1, 0x0, 1, 0x0, 32, [⟨0,16,.rw,1200⟩]⟩
  | .PWR_RM_CFG => ⟨0, 0x00700008, 1, 0x0, 1, 0x0, 32, [⟨31,1,.rw,1⟩, ⟨16,8,.rw,0⟩, ⟨0,16,.rw,650⟩]⟩
  | .PWR_STEP_CAP => ⟨0, 0x00700010, 8, 0x4, 1, 0x0, 32, [⟨0,16,.rw,0⟩]⟩
  | .PWR_STATUS => ⟨0, 0x00700040, 1, 0x0, 1, 0x0, 64, [⟨48,16,.ro,1200⟩, ⟨32,16,.ro,1200⟩, ⟨31,1,.ro,0⟩, ⟨30,1,.ro,0⟩, ⟨29,1,.ro,0⟩, ⟨28,1,.ro,0⟩, ⟨27,1,.ro,0⟩, ⟨26,1,.ro,0⟩, ⟨25,1,.ro,0⟩, ⟨24,1,.w1c,0⟩, ⟨21,3,.ro,7⟩, ⟨19,2,.ro,0⟩, ⟨17,2,.ro,0⟩, ⟨10,7,.ro,64⟩, ⟨7,3,.ro,0⟩, ⟨0,7,.ro,0⟩]⟩
  | .PWR_MEAS => ⟨0, 0x00700048, 1, 0x0, 1, 0x0, 64, [⟨48,16,.ro,0⟩, ⟨32,16,.ro,0⟩, ⟨16,16,.ro,0⟩, ⟨0,16,.ro,0⟩]⟩
  | .PWR_OVERSHOOT => ⟨0, 0x00700050, 1, 0x0, 1, 0x0, 64, [⟨48,16,.ro,0⟩, ⟨32,16,.ro,0⟩, ⟨0,32,.ro,0⟩]⟩
  | .PWR_OVERSHOOT_TIME => ⟨0, 0x00700058, 1, 0x0, 1, 0x0, 64, [⟨0,64,.ro,0⟩]⟩
  | .PWR_TEMP => ⟨0, 0x00700060, 1, 0x0, 1, 0x0, 64, [⟨52,12,.ro,0⟩, ⟨40,12,.ro,0⟩, ⟨32,7,.ro,0⟩]⟩
  | .PWR_THERM_CFG => ⟨0, 0x00700068, 1, 0x0, 1, 0x0, 32, [⟨24,8,.rw,95⟩, ⟨16,8,.rw,100⟩]⟩
  | .CLK_STATUS => ⟨0, 0x00701000, 1, 0x0, 1, 0x0, 32, [⟨31,1,.ro,0⟩, ⟨0,16,.ro,0⟩]⟩
  | .CLK_TIME => ⟨0, 0x00701008, 1, 0x0, 1, 0x0, 64, [⟨0,64,.ro,0⟩]⟩
  | .CLK_TIME_CAP => ⟨0, 0x00701010, 1, 0x0, 1, 0x0, 64, [⟨0,64,.ro,0⟩]⟩
  | .CLK_CAP_CTRL => ⟨0, 0x00701018, 1, 0x0, 1, 0x0, 32, [⟨16,16,.ro,0⟩, ⟨0,1,.wo,0⟩]⟩
  | .SEC_UID => ⟨0, 0x00800000, 1, 0x0, 1, 0x0, 128, []⟩
  | .SEC_BOOT_STATUS => ⟨0, 0x00800010, 1, 0x0, 1, 0x0, 64, [⟨56,8,.ro,0⟩, ⟨52,4,.ro,0⟩, ⟨48,4,.ro,0⟩, ⟨44,4,.ro,0⟩, ⟨40,1,.ro,0⟩, ⟨0,32,.ro,0⟩]⟩
  | .SEC_FUSE_STATE => ⟨0, 0x00800018, 1, 0x0, 1, 0x0, 64, [⟨26,6,.ro,0⟩, ⟨20,6,.ro,0⟩, ⟨14,6,.ro,0⟩, ⟨8,6,.ro,0⟩, ⟨3,2,.ro,0⟩, ⟨2,1,.ro,0⟩, ⟨0,1,.ro,0⟩]⟩
  | .SEC_NONCE => ⟨0, 0x00800020, 1, 0x0, 1, 0x0, 64, [⟨0,64,.ro,0⟩]⟩
  | .SEC_TOKEN_CTRL => ⟨0, 0x00800028, 1, 0x0, 1, 0x0, 32, [⟨31,1,.wo,0⟩, ⟨30,1,.wo,0⟩, ⟨24,6,.rw,63⟩, ⟨16,8,.rw,24⟩, ⟨0,16,.rw,0⟩]⟩
  | .SEC_TOKEN_STATUS => ⟨0, 0x00800030, 1, 0x0, 1, 0x0, 64, [⟨63,1,.ro,0⟩, ⟨62,1,.w1c,0⟩, ⟨61,1,.w1c,0⟩, ⟨48,8,.ro,0⟩, ⟨40,8,.ro,0⟩, ⟨32,8,.ro,0⟩, ⟨0,32,.ro,0⟩]⟩
  | .SEC_DIRECT_LOG => ⟨0, 0x00800038, 1, 0x0, 1, 0x0, 64, [⟨48,16,.ro,0⟩, ⟨0,32,.ro,0⟩]⟩
  | .SEC_AUTH_STATE => ⟨0, 0x00800100, 8, 0x4, 1, 0x0, 32, [⟨0,2,.ro,0⟩]⟩
  | .SEC_AUTH_HASH => ⟨0, 0x00800200, 8, 0x20, 1, 0x0, 256, []⟩
  | .SEC_MEAS => ⟨0, 0x00801000, 32, 0x20, 1, 0x0, 256, []⟩
  | .SEC_MEAS_EXT_DATA => ⟨0, 0x00801400, 16, 0x40, 1, 0x0, 256, []⟩
  | .SEC_MEAS_EXT_CTRL => ⟨0, 0x00801420, 16, 0x40, 1, 0x0, 32, [⟨0,1,.wo,0⟩]⟩
  | .SEC_TOKEN_BUF => ⟨0, 0x00810000, 1, 0x0, 1, 0x0, 393216, []⟩
  | .SEC_REPORT_BUF => ⟨0, 0x00820000, 1, 0x0, 1, 0x0, 196608, []⟩
  | .OBS_FATAL => ⟨0, 0x00900000, 1, 0x0, 1, 0x0, 64, [⟨63,1,.ro,0⟩, ⟨62,1,.ro,0⟩, ⟨61,1,.ro,0⟩, ⟨60,1,.ro,0⟩, ⟨59,1,.ro,0⟩, ⟨48,8,.ro,0⟩, ⟨32,16,.ro,0⟩, ⟨24,8,.ro,0⟩, ⟨0,24,.ro,0⟩]⟩
  | .OBS_FATAL_TIME => ⟨0, 0x00900008, 1, 0x0, 1, 0x0, 64, [⟨0,64,.ro,0⟩]⟩
  | .OBS_FATAL_CFG => ⟨0, 0x00900010, 1, 0x0, 1, 0x0, 32, [⟨0,8,.rw,255⟩]⟩
  | .OBS_CLASS_CNT => ⟨0, 0x00900020, 4, 0x4, 1, 0x0, 32, [⟨0,32,.ro,0⟩]⟩
  | .OBS_UPD_STATUS => ⟨0, 0x00900040, 1, 0x0, 1, 0x0, 64, [⟨60,4,.ro,0⟩, ⟨56,4,.ro,0⟩, ⟨48,8,.ro,0⟩, ⟨44,4,.ro,0⟩, ⟨32,8,.ro,0⟩, ⟨0,32,.ro,0⟩]⟩
  | .OBS_CAL_STATUS => ⟨0, 0x00900048, 1, 0x0, 1, 0x0, 64, [⟨56,8,.ro,0⟩, ⟨54,2,.ro,0⟩, ⟨40,8,.ro,0⟩]⟩
  | .OBS_CONFLICT => ⟨0, 0x00900050, 1, 0x0, 1, 0x0, 64, [⟨56,8,.ro,0⟩, ⟨48,8,.ro,0⟩, ⟨40,8,.ro,0⟩, ⟨0,32,.ro,0⟩]⟩
  | .OBS_SAMPLE_CTRL => ⟨0, 0x00900100, 1, 0x0, 1, 0x0, 32, [⟨16,16,.rw,100⟩, ⟨12,4,.rw,0⟩, ⟨11,1,.rw,0⟩, ⟨8,3,.ro,0⟩, ⟨7,1,.ro,0⟩, ⟨6,1,.w1c,0⟩, ⟨0,1,.rw,0⟩]⟩
  | .OBS_TRACE_CTRL => ⟨0, 0x00900104, 1, 0x0, 1, 0x0, 32, [⟨11,1,.rw,0⟩, ⟨8,3,.ro,0⟩, ⟨7,1,.ro,0⟩, ⟨6,1,.w1c,0⟩, ⟨0,1,.rw,0⟩]⟩
  | .OBS_TRACE_MASK => ⟨0, 0x00900108, 1, 0x0, 1, 0x0, 64, [⟨1,12,.rw,0⟩]⟩
  | .OBS_TRIG_MASK => ⟨0, 0x00900110, 1, 0x0, 1, 0x0, 64, [⟨1,12,.rw,0⟩]⟩
  | .OBS_BUF_CFG => ⟨0, 0x00900200, 2, 0x10, 1, 0x0, 64, [⟨60,4,.rw,0⟩, ⟨59,1,.rw,1⟩, ⟨0,32,.rw,0⟩]⟩
  | .OBS_BUF_POS => ⟨0, 0x00900208, 2, 0x10, 1, 0x0, 64, [⟨63,1,.w1c,0⟩, ⟨32,16,.ro,0⟩, ⟨0,32,.ro,0⟩]⟩
  | .OBS_GPIO_CLAIM => ⟨0, 0x00900300, 16, 0x4, 1, 0x0, 32, [⟨31,1,.ro,0⟩, ⟨0,4,.rw,0⟩]⟩
  | .OBS_GPIO_CFG => ⟨0, 0x00900340, 16, 0x4, 1, 0x0, 32, [⟨16,16,.ro,0⟩, ⟨8,1,.ro,0⟩, ⟨4,2,.rw,0⟩, ⟨0,2,.rw,0⟩]⟩

namespace F

-- PCI_CHIP_ID (R2)
abbrev PCI_CHIP_ID.PART : Fld := ⟨.PCI_CHIP_ID, 16, 16⟩
abbrev PCI_CHIP_ID.STEP_LETTER : Fld := ⟨.PCI_CHIP_ID, 12, 4⟩
abbrev PCI_CHIP_ID.STEP_NUM : Fld := ⟨.PCI_CHIP_ID, 8, 4⟩
-- COG_FENCE_MAP (R80)
abbrev COG_FENCE_MAP.FENCED : Fld := ⟨.COG_FENCE_MAP, 0, 32⟩
-- COG_FENCE_SUMMARY (R80)
abbrev COG_FENCE_SUMMARY.MAX_PER_BLOCK : Fld := ⟨.COG_FENCE_SUMMARY, 16, 5⟩
abbrev COG_FENCE_SUMMARY.USABLE : Fld := ⟨.COG_FENCE_SUMMARY, 0, 16⟩
-- COG_STALL_CFG (R80)
abbrev COG_STALL_CFG.STREAM_STALL_LIMIT : Fld := ⟨.COG_STALL_CFG, 0, 16⟩
-- COG_FW_CTRL (R80)
abbrev COG_FW_CTRL.ENTRY : Fld := ⟨.COG_FW_CTRL, 8, 8⟩
abbrev COG_FW_CTRL.FW_EN : Fld := ⟨.COG_FW_CTRL, 0, 1⟩
-- COG_LINK_ERR (R80)
abbrev COG_LINK_ERR.FAILS : Fld := ⟨.COG_LINK_ERR, 32, 32⟩
abbrev COG_LINK_ERR.REPLAYS : Fld := ⟨.COG_LINK_ERR, 0, 32⟩
-- COG_BLK_STATE (R80)
abbrev COG_BLK_STATE.FENCED : Fld := ⟨.COG_BLK_STATE, 18, 9⟩
abbrev COG_BLK_STATE.FREEWHEEL : Fld := ⟨.COG_BLK_STATE, 9, 9⟩
abbrev COG_BLK_STATE.RUNNING : Fld := ⟨.COG_BLK_STATE, 0, 9⟩
-- COG_NUM_CFG (R106)
abbrev COG_NUM_CFG.SAT8 : Fld := ⟨.COG_NUM_CFG, 1, 1⟩
abbrev COG_NUM_CFG.NZN : Fld := ⟨.COG_NUM_CFG, 0, 1⟩
-- GEAR_BLK_STATE (R142)
abbrev GEAR_BLK_STATE.ENTRY_TAG : Fld := ⟨.GEAR_BLK_STATE, 8, 1⟩
abbrev GEAR_BLK_STATE.B_STATE : Fld := ⟨.GEAR_BLK_STATE, 4, 3⟩
abbrev GEAR_BLK_STATE.A_STATE : Fld := ⟨.GEAR_BLK_STATE, 0, 3⟩
-- GEAR_BLK_ID (R142)
abbrev GEAR_BLK_ID.B_ID : Fld := ⟨.GEAR_BLK_ID, 32, 32⟩
abbrev GEAR_BLK_ID.A_ID : Fld := ⟨.GEAR_BLK_ID, 0, 32⟩
-- GEAR_PAN_STAT (R142)
abbrev GEAR_PAN_STAT.FULLS : Fld := ⟨.GEAR_PAN_STAT, 48, 16⟩
abbrev GEAR_PAN_STAT.PEAK : Fld := ⟨.GEAR_PAN_STAT, 32, 16⟩
abbrev GEAR_PAN_STAT.SPILLS : Fld := ⟨.GEAR_PAN_STAT, 0, 32⟩
-- GEAR_DL_CFG (R142)
abbrev GEAR_DL_CFG.DEADLOCK_WINDOW : Fld := ⟨.GEAR_DL_CFG, 0, 16⟩
-- GEAR_LOAD_DIAG (R158)
abbrev GEAR_LOAD_DIAG.CHECK : Fld := ⟨.GEAR_LOAD_DIAG, 56, 8⟩
abbrev GEAR_LOAD_DIAG.ADDR : Fld := ⟨.GEAR_LOAD_DIAG, 48, 8⟩
abbrev GEAR_LOAD_DIAG.X : Fld := ⟨.GEAR_LOAD_DIAG, 40, 8⟩
abbrev GEAR_LOAD_DIAG.Y : Fld := ⟨.GEAR_LOAD_DIAG, 32, 8⟩
abbrev GEAR_LOAD_DIAG.GEAR_ID : Fld := ⟨.GEAR_LOAD_DIAG, 0, 32⟩
-- TNS_TABLE_FREE (R196)
abbrev TNS_TABLE_FREE.FREE : Fld := ⟨.TNS_TABLE_FREE, 0, 19⟩
-- TNS_FAULT (R196)
abbrev TNS_FAULT.CAUSE : Fld := ⟨.TNS_FAULT, 56, 8⟩
abbrev TNS_FAULT.TIER : Fld := ⟨.TNS_FAULT, 52, 4⟩
abbrev TNS_FAULT.DETAIL : Fld := ⟨.TNS_FAULT, 32, 16⟩
abbrev TNS_FAULT.TID : Fld := ⟨.TNS_FAULT, 0, 32⟩
-- TNS_FAULT_TIME (R196)
abbrev TNS_FAULT_TIME.TIME : Fld := ⟨.TNS_FAULT_TIME, 0, 64⟩
-- TNS_REPAIR_CNT (R196)
abbrev TNS_REPAIR_CNT.LOST : Fld := ⟨.TNS_REPAIR_CNT, 32, 32⟩
abbrev TNS_REPAIR_CNT.REFETCH : Fld := ⟨.TNS_REPAIR_CNT, 0, 32⟩
-- POOL_TOTAL (R196)
abbrev POOL_TOTAL.PAGES : Fld := ⟨.POOL_TOTAL, 0, 25⟩
-- POOL_FREE (R196)
abbrev POOL_FREE.PAGES : Fld := ⟨.POOL_FREE, 0, 25⟩
-- POOL_FLOOR (R196)
abbrev POOL_FLOOR.FLOOR_ERR : Fld := ⟨.POOL_FLOOR, 31, 1⟩
abbrev POOL_FLOOR.FLOOR : Fld := ⟨.POOL_FLOOR, 0, 25⟩
-- POOL_USED (R196)
abbrev POOL_USED.PAGES : Fld := ⟨.POOL_USED, 0, 25⟩
-- POOL_SHADOW (R196)
abbrev POOL_SHADOW.PAGES : Fld := ⟨.POOL_SHADOW, 0, 25⟩
-- POOL_EVICT (R196)
abbrev POOL_EVICT.WRITTEN : Fld := ⟨.POOL_EVICT, 32, 32⟩
abbrev POOL_EVICT.EVICTED : Fld := ⟨.POOL_EVICT, 0, 32⟩
-- BLK_STATUS (R221)
abbrev BLK_STATUS.READY : Fld := ⟨.BLK_STATUS, 31, 1⟩
abbrev BLK_STATUS.OP : Fld := ⟨.BLK_STATUS, 29, 2⟩
abbrev BLK_STATUS.FRAG : Fld := ⟨.BLK_STATUS, 28, 1⟩
abbrev BLK_STATUS.ENTRIES : Fld := ⟨.BLK_STATUS, 0, 11⟩
-- BLK_GEOMETRY (R221)
abbrev BLK_GEOMETRY.CELL : Fld := ⟨.BLK_GEOMETRY, 60, 4⟩
abbrev BLK_GEOMETRY.TARGETS : Fld := ⟨.BLK_GEOMETRY, 56, 4⟩
abbrev BLK_GEOMETRY.PLANES : Fld := ⟨.BLK_GEOMETRY, 52, 4⟩
abbrev BLK_GEOMETRY.PPB : Fld := ⟨.BLK_GEOMETRY, 32, 16⟩
abbrev BLK_GEOMETRY.UNIT_KIB : Fld := ⟨.BLK_GEOMETRY, 0, 32⟩
-- BLK_CAP (R221)
abbrev BLK_CAP.USABLE_UNITS : Fld := ⟨.BLK_CAP, 32, 32⟩
abbrev BLK_CAP.FREE_UNITS : Fld := ⟨.BLK_CAP, 0, 32⟩
-- BLK_RD_CFG (R221)
abbrev BLK_RD_CFG.RD_KREADS : Fld := ⟨.BLK_RD_CFG, 16, 16⟩
abbrev BLK_RD_CFG.SCRUB_DAYS : Fld := ⟨.BLK_RD_CFG, 8, 8⟩
abbrev BLK_RD_CFG.BUDGET_PCT : Fld := ⟨.BLK_RD_CFG, 0, 8⟩
-- BLK_CH_STATE (R221)
abbrev BLK_CH_STATE.MODE : Fld := ⟨.BLK_CH_STATE, 29, 3⟩
abbrev BLK_CH_STATE.RATE : Fld := ⟨.BLK_CH_STATE, 16, 8⟩
abbrev BLK_CH_STATE.DEGRADED : Fld := ⟨.BLK_CH_STATE, 15, 1⟩
abbrev BLK_CH_STATE.WRITE_STOP : Fld := ⟨.BLK_CH_STATE, 14, 1⟩
abbrev BLK_CH_STATE.SPARE : Fld := ⟨.BLK_CH_STATE, 0, 14⟩
-- BLK_STAT (R221)
abbrev BLK_STAT.RELOCATIONS : Fld := ⟨.BLK_STAT, 32, 32⟩
abbrev BLK_STAT.REBUILDS : Fld := ⟨.BLK_STAT, 0, 32⟩
-- BLK_STAT2 (R221)
abbrev BLK_STAT2.UNCORRECTABLE : Fld := ⟨.BLK_STAT2, 32, 32⟩
abbrev BLK_STAT2.RETIRED : Fld := ⟨.BLK_STAT2, 0, 32⟩
-- LPX_STATUS (R242)
abbrev LPX_STATUS.READY : Fld := ⟨.LPX_STATUS, 31, 1⟩
abbrev LPX_STATUS.RATE : Fld := ⟨.LPX_STATUS, 28, 3⟩
abbrev LPX_STATUS.RETIRED : Fld := ⟨.LPX_STATUS, 0, 3⟩
-- LPX_GEOMETRY (R242)
abbrev LPX_GEOMETRY.PKG_GIB : Fld := ⟨.LPX_GEOMETRY, 56, 8⟩
abbrev LPX_GEOMETRY.RANKS : Fld := ⟨.LPX_GEOMETRY, 54, 2⟩
abbrev LPX_GEOMETRY.DATA_MIB : Fld := ⟨.LPX_GEOMETRY, 0, 32⟩
-- LPX_CFG (R242)
abbrev LPX_CFG.REPLAY_TRIG : Fld := ⟨.LPX_CFG, 16, 16⟩
abbrev LPX_CFG.TRACK_MS : Fld := ⟨.LPX_CFG, 8, 8⟩
abbrev LPX_CFG.DBI_WR : Fld := ⟨.LPX_CFG, 1, 1⟩
abbrev LPX_CFG.DBI_RD : Fld := ⟨.LPX_CFG, 0, 1⟩
-- LPX_PG_CNT (R242)
abbrev LPX_PG_CNT.NEXT : Fld := ⟨.LPX_PG_CNT, 16, 6⟩
abbrev LPX_PG_CNT.RETIRED : Fld := ⟨.LPX_PG_CNT, 0, 16⟩
-- LPX_CH_STATE (R242)
abbrev LPX_CH_STATE.STATE : Fld := ⟨.LPX_CH_STATE, 29, 3⟩
abbrev LPX_CH_STATE.HOT : Fld := ⟨.LPX_CH_STATE, 28, 1⟩
abbrev LPX_CH_STATE.RETIRE_PEND : Fld := ⟨.LPX_CH_STATE, 27, 1⟩
abbrev LPX_CH_STATE.MIGR_WAIT : Fld := ⟨.LPX_CH_STATE, 26, 1⟩
abbrev LPX_CH_STATE.MR4 : Fld := ⟨.LPX_CH_STATE, 16, 8⟩
abbrev LPX_CH_STATE.RETIRED_PAGES : Fld := ⟨.LPX_CH_STATE, 8, 8⟩
abbrev LPX_CH_STATE.FULL_RETRAINS : Fld := ⟨.LPX_CH_STATE, 0, 8⟩
-- LPX_CH_CTRL (R242)
abbrev LPX_CH_CTRL.IGNORED : Fld := ⟨.LPX_CH_CTRL, 31, 1⟩
abbrev LPX_CH_CTRL.RETIRE : Fld := ⟨.LPX_CH_CTRL, 2, 1⟩
abbrev LPX_CH_CTRL.FULL : Fld := ⟨.LPX_CH_CTRL, 1, 1⟩
abbrev LPX_CH_CTRL.SHORT : Fld := ⟨.LPX_CH_CTRL, 0, 1⟩
-- LPX_CH_ERR (R242)
abbrev LPX_CH_ERR.REREADS : Fld := ⟨.LPX_CH_ERR, 32, 32⟩
abbrev LPX_CH_ERR.RESENDS : Fld := ⟨.LPX_CH_ERR, 0, 32⟩
-- LPX_PG_LOG (R242)
abbrev LPX_PG_LOG.VALID : Fld := ⟨.LPX_PG_LOG, 63, 1⟩
abbrev LPX_PG_LOG.RETIRED : Fld := ⟨.LPX_PG_LOG, 62, 1⟩
abbrev LPX_PG_LOG.CHANNEL : Fld := ⟨.LPX_PG_LOG, 56, 6⟩
abbrev LPX_PG_LOG.RANK : Fld := ⟨.LPX_PG_LOG, 55, 1⟩
abbrev LPX_PG_LOG.PAGE : Fld := ⟨.LPX_PG_LOG, 0, 25⟩
-- HUB_STATE (R287)
abbrev HUB_STATE.SEQ : Fld := ⟨.HUB_STATE, 16, 48⟩
abbrev HUB_STATE.PART : Fld := ⟨.HUB_STATE, 12, 4⟩
abbrev HUB_STATE.STATE : Fld := ⟨.HUB_STATE, 10, 2⟩
abbrev HUB_STATE.QUEUE : Fld := ⟨.HUB_STATE, 0, 10⟩
-- HUB_CFG (R287)
abbrev HUB_CFG.PARKED : Fld := ⟨.HUB_CFG, 17, 3⟩
abbrev HUB_CFG.VBASE : Fld := ⟨.HUB_CFG, 0, 15⟩
-- HUB_EVENT (R287)
abbrev HUB_EVENT.COUNT : Fld := ⟨.HUB_EVENT, 0, 32⟩
-- HUB_EVENT_ADD (R287)
abbrev HUB_EVENT_ADD.ADD : Fld := ⟨.HUB_EVENT_ADD, 0, 32⟩
-- Q_BASE (R287)
abbrev Q_BASE.BASE : Fld := ⟨.Q_BASE, 0, 64⟩
-- Q_CFG (R287)
abbrev Q_CFG.LOC : Fld := ⟨.Q_CFG, 31, 1⟩
abbrev Q_CFG.CLASS : Fld := ⟨.Q_CFG, 28, 2⟩
abbrev Q_CFG.SIZE_LOG2 : Fld := ⟨.Q_CFG, 16, 4⟩
-- Q_CTRL (R287)
abbrev Q_CTRL.CANCEL : Fld := ⟨.Q_CTRL, 2, 1⟩
abbrev Q_CTRL.DISABLE : Fld := ⟨.Q_CTRL, 1, 1⟩
abbrev Q_CTRL.ENABLE : Fld := ⟨.Q_CTRL, 0, 1⟩
-- Q_STATE (R287)
abbrev Q_STATE.WAIT_US : Fld := ⟨.Q_STATE, 48, 16⟩
abbrev Q_STATE.DB_IGNORED : Fld := ⟨.Q_STATE, 32, 16⟩
abbrev Q_STATE.ENABLE_PEND : Fld := ⟨.Q_STATE, 7, 1⟩
abbrev Q_STATE.WAITED : Fld := ⟨.Q_STATE, 6, 1⟩
abbrev Q_STATE.DB_ERR : Fld := ⟨.Q_STATE, 5, 1⟩
abbrev Q_STATE.CFG_ERR : Fld := ⟨.Q_STATE, 4, 1⟩
abbrev Q_STATE.STATE : Fld := ⟨.Q_STATE, 0, 3⟩
-- JNL_STATUS (R287)
abbrev JNL_STATUS.EPOCH : Fld := ⟨.JNL_STATUS, 48, 16⟩
abbrev JNL_STATUS.LAST_SEQ : Fld := ⟨.JNL_STATUS, 0, 48⟩
-- JNL_COUNT (R287)
abbrev JNL_COUNT.SKIPS : Fld := ⟨.JNL_COUNT, 32, 32⟩
abbrev JNL_COUNT.LIVE : Fld := ⟨.JNL_COUNT, 0, 17⟩
-- DOORBELL (R287)
abbrev DOORBELL.TAIL : Fld := ⟨.DOORBELL, 0, 32⟩
-- Q_POS (R287)
abbrev Q_POS.ACCEPT : Fld := ⟨.Q_POS, 32, 32⟩
abbrev Q_POS.HEAD : Fld := ⟨.Q_POS, 0, 32⟩
-- HUB_CTRL (R312)
abbrev HUB_CTRL.WAIT_US : Fld := ⟨.HUB_CTRL, 16, 16⟩
abbrev HUB_CTRL.ENABLE_PEND : Fld := ⟨.HUB_CTRL, 7, 1⟩
abbrev HUB_CTRL.WAITED : Fld := ⟨.HUB_CTRL, 6, 1⟩
abbrev HUB_CTRL.STATE : Fld := ⟨.HUB_CTRL, 4, 2⟩
abbrev HUB_CTRL.DISABLE : Fld := ⟨.HUB_CTRL, 1, 1⟩
abbrev HUB_CTRL.ENABLE : Fld := ⟨.HUB_CTRL, 0, 1⟩
-- HUB_PART_CFG (R312)
abbrev HUB_PART_CFG.BULK_SHARE : Fld := ⟨.HUB_PART_CFG, 52, 4⟩
abbrev HUB_PART_CFG.LEAD_HUBS : Fld := ⟨.HUB_PART_CFG, 48, 4⟩
abbrev HUB_PART_CFG.LEAD_HOLD : Fld := ⟨.HUB_PART_CFG, 32, 8⟩
abbrev HUB_PART_CFG.SLICE_US : Fld := ⟨.HUB_PART_CFG, 16, 16⟩
abbrev HUB_PART_CFG.CMD_MAXLEN : Fld := ⟨.HUB_PART_CFG, 0, 16⟩
-- HUB_CYCLE (R312)
abbrev HUB_CYCLE.VALID : Fld := ⟨.HUB_CYCLE, 31, 1⟩
abbrev HUB_CYCLE.PART : Fld := ⟨.HUB_CYCLE, 0, 4⟩
-- HUB_CYCLE_CTRL (R312)
abbrev HUB_CYCLE_CTRL.COMMIT : Fld := ⟨.HUB_CYCLE_CTRL, 31, 1⟩
abbrev HUB_CYCLE_CTRL.PENDING : Fld := ⟨.HUB_CYCLE_CTRL, 30, 1⟩
abbrev HUB_CYCLE_CTRL.CUR_SLOT : Fld := ⟨.HUB_CYCLE_CTRL, 0, 7⟩
-- HUB_LEAD_STAT (R312)
abbrev HUB_LEAD_STAT.OVER_BOUND : Fld := ⟨.HUB_LEAD_STAT, 48, 16⟩
abbrev HUB_LEAD_STAT.HOLD_OVER : Fld := ⟨.HUB_LEAD_STAT, 32, 16⟩
abbrev HUB_LEAD_STAT.MAX_START : Fld := ⟨.HUB_LEAD_STAT, 0, 32⟩
-- SEC_PART_MAP (R312)
abbrev SEC_PART_MAP.ENABLE : Fld := ⟨.SEC_PART_MAP, 32, 1⟩
abbrev SEC_PART_MAP.HUBS : Fld := ⟨.SEC_PART_MAP, 24, 8⟩
abbrev SEC_PART_MAP.RECT : Fld := ⟨.SEC_PART_MAP, 0, 16⟩
-- SEC_PART_STATE (R312)
abbrev SEC_PART_STATE.WAIT_US : Fld := ⟨.SEC_PART_STATE, 48, 16⟩
abbrev SEC_PART_STATE.OWNER : Fld := ⟨.SEC_PART_STATE, 32, 16⟩
abbrev SEC_PART_STATE.LAST_ERR : Fld := ⟨.SEC_PART_STATE, 24, 8⟩
abbrev SEC_PART_STATE.ENABLE_PEND : Fld := ⟨.SEC_PART_STATE, 7, 1⟩
abbrev SEC_PART_STATE.WAITED : Fld := ⟨.SEC_PART_STATE, 6, 1⟩
abbrev SEC_PART_STATE.STATE : Fld := ⟨.SEC_PART_STATE, 0, 3⟩
-- SRV_BATCH_CFG (R346)
abbrev SRV_BATCH_CFG.PART : Fld := ⟨.SRV_BATCH_CFG, 60, 4⟩
abbrev SRV_BATCH_CFG.VOCAB : Fld := ⟨.SRV_BATCH_CFG, 40, 19⟩
abbrev SRV_BATCH_CFG.VEC : Fld := ⟨.SRV_BATCH_CFG, 32, 8⟩
abbrev SRV_BATCH_CFG.MAXP : Fld := ⟨.SRV_BATCH_CFG, 16, 16⟩
abbrev SRV_BATCH_CFG.COLD_US : Fld := ⟨.SRV_BATCH_CFG, 0, 16⟩
-- SRV_BATCH_CTRL (R346)
abbrev SRV_BATCH_CTRL.WAIT_US : Fld := ⟨.SRV_BATCH_CTRL, 16, 16⟩
abbrev SRV_BATCH_CTRL.ENABLE_PEND : Fld := ⟨.SRV_BATCH_CTRL, 7, 1⟩
abbrev SRV_BATCH_CTRL.WAITED : Fld := ⟨.SRV_BATCH_CTRL, 6, 1⟩
abbrev SRV_BATCH_CTRL.STATE : Fld := ⟨.SRV_BATCH_CTRL, 4, 2⟩
abbrev SRV_BATCH_CTRL.DISABLE : Fld := ⟨.SRV_BATCH_CTRL, 1, 1⟩
abbrev SRV_BATCH_CTRL.ENABLE : Fld := ⟨.SRV_BATCH_CTRL, 0, 1⟩
-- SRV_RING_BASE (R346)
abbrev SRV_RING_BASE.BASE : Fld := ⟨.SRV_RING_BASE, 0, 64⟩
-- SRV_RING_CFG (R346)
abbrev SRV_RING_CFG.LOC : Fld := ⟨.SRV_RING_CFG, 31, 1⟩
abbrev SRV_RING_CFG.SIZE_LOG2 : Fld := ⟨.SRV_RING_CFG, 0, 5⟩
-- SRV_RING_POS (R346)
abbrev SRV_RING_POS.READ : Fld := ⟨.SRV_RING_POS, 32, 32⟩
abbrev SRV_RING_POS.WRITE : Fld := ⟨.SRV_RING_POS, 0, 32⟩
-- SRV_BATCH_STAT (R346)
abbrev SRV_BATCH_STAT.GAP_NS : Fld := ⟨.SRV_BATCH_STAT, 32, 32⟩
abbrev SRV_BATCH_STAT.OVERRUN : Fld := ⟨.SRV_BATCH_STAT, 16, 16⟩
abbrev SRV_BATCH_STAT.LIVE : Fld := ⟨.SRV_BATCH_STAT, 0, 10⟩
-- SRV_STEP_CNT (R346)
abbrev SRV_STEP_CNT.LATE : Fld := ⟨.SRV_STEP_CNT, 32, 32⟩
abbrev SRV_STEP_CNT.STEPS : Fld := ⟨.SRV_STEP_CNT, 0, 32⟩
-- SRV_COST (R346)
abbrev SRV_COST.STEP_NS : Fld := ⟨.SRV_COST, 0, 32⟩
-- RLT_DEV_ID (R378)
abbrev RLT_DEV_ID.VALID : Fld := ⟨.RLT_DEV_ID, 31, 1⟩
abbrev RLT_DEV_ID.DEV_ID : Fld := ⟨.RLT_DEV_ID, 0, 20⟩
-- RLT_PORT_CFG (R378)
abbrev RLT_PORT_CFG.ROLE : Fld := ⟨.RLT_PORT_CFG, 63, 1⟩
abbrev RLT_PORT_CFG.VER_MAX : Fld := ⟨.RLT_PORT_CFG, 60, 3⟩
abbrev RLT_PORT_CFG.PATTERN : Fld := ⟨.RLT_PORT_CFG, 58, 2⟩
abbrev RLT_PORT_CFG.BER_EXP : Fld := ⟨.RLT_PORT_CFG, 54, 4⟩
abbrev RLT_PORT_CFG.TEST_S : Fld := ⟨.RLT_PORT_CFG, 32, 16⟩
abbrev RLT_PORT_CFG.PEER_ERR_MAX : Fld := ⟨.RLT_PORT_CFG, 24, 8⟩
abbrev RLT_PORT_CFG.MSG_TIMEOUT : Fld := ⟨.RLT_PORT_CFG, 16, 8⟩
abbrev RLT_PORT_CFG.REPLAY_NS : Fld := ⟨.RLT_PORT_CFG, 0, 16⟩
-- RLT_PORT_CTRL (R378)
abbrev RLT_PORT_CTRL.WAIT_US : Fld := ⟨.RLT_PORT_CTRL, 16, 16⟩
abbrev RLT_PORT_CTRL.ENABLE_PEND : Fld := ⟨.RLT_PORT_CTRL, 7, 1⟩
abbrev RLT_PORT_CTRL.WAITED : Fld := ⟨.RLT_PORT_CTRL, 6, 1⟩
abbrev RLT_PORT_CTRL.TEST : Fld := ⟨.RLT_PORT_CTRL, 2, 1⟩
abbrev RLT_PORT_CTRL.DISABLE : Fld := ⟨.RLT_PORT_CTRL, 1, 1⟩
abbrev RLT_PORT_CTRL.ENABLE : Fld := ⟨.RLT_PORT_CTRL, 0, 1⟩
-- RLT_PORT_STATE (R378)
abbrev RLT_PORT_STATE.PEER_ID : Fld := ⟨.RLT_PORT_STATE, 44, 20⟩
abbrev RLT_PORT_STATE.PEER_KIND : Fld := ⟨.RLT_PORT_STATE, 43, 1⟩
abbrev RLT_PORT_STATE.VER : Fld := ⟨.RLT_PORT_STATE, 40, 3⟩
abbrev RLT_PORT_STATE.HALF_RATE : Fld := ⟨.RLT_PORT_STATE, 39, 1⟩
abbrev RLT_PORT_STATE.FAIL : Fld := ⟨.RLT_PORT_STATE, 38, 1⟩
abbrev RLT_PORT_STATE.CAUSE : Fld := ⟨.RLT_PORT_STATE, 24, 8⟩
abbrev RLT_PORT_STATE.RETRAINS : Fld := ⟨.RLT_PORT_STATE, 16, 8⟩
abbrev RLT_PORT_STATE.STATE : Fld := ⟨.RLT_PORT_STATE, 0, 3⟩
-- RLT_PORT_ERR (R378)
abbrev RLT_PORT_ERR.FEC_CORR : Fld := ⟨.RLT_PORT_ERR, 40, 24⟩
abbrev RLT_PORT_ERR.FEC_UNCORR : Fld := ⟨.RLT_PORT_ERR, 24, 16⟩
abbrev RLT_PORT_ERR.REPLAYS : Fld := ⟨.RLT_PORT_ERR, 8, 16⟩
abbrev RLT_PORT_ERR.PEER_FAULTS : Fld := ⟨.RLT_PORT_ERR, 0, 8⟩
-- RLT_PORT_DROP (R378)
abbrev RLT_PORT_DROP.SLICE_DENY : Fld := ⟨.RLT_PORT_DROP, 52, 12⟩
abbrev RLT_PORT_DROP.NO_ROUTE : Fld := ⟨.RLT_PORT_DROP, 40, 12⟩
abbrev RLT_PORT_DROP.HOPS : Fld := ⟨.RLT_PORT_DROP, 28, 12⟩
abbrev RLT_PORT_DROP.NO_PART : Fld := ⟨.RLT_PORT_DROP, 16, 12⟩
abbrev RLT_PORT_DROP.CREDIT_OVER : Fld := ⟨.RLT_PORT_DROP, 8, 8⟩
abbrev RLT_PORT_DROP.UNBOUND : Fld := ⟨.RLT_PORT_DROP, 0, 8⟩
-- RLT_PORT_BER (R378)
abbrev RLT_PORT_BER.PASS : Fld := ⟨.RLT_PORT_BER, 63, 1⟩
abbrev RLT_PORT_BER.BITS_G : Fld := ⟨.RLT_PORT_BER, 48, 15⟩
abbrev RLT_PORT_BER.ERRORS : Fld := ⟨.RLT_PORT_BER, 0, 48⟩
-- RLT_PART_SLICE (R378)
abbrev RLT_PART_SLICE.SLICE_VER : Fld := ⟨.RLT_PART_SLICE, 28, 4⟩
abbrev RLT_PART_SLICE.SLICE : Fld := ⟨.RLT_PART_SLICE, 0, 12⟩
-- RLT_XFER_CFG (R378)
abbrev RLT_XFER_CFG.ENABLE : Fld := ⟨.RLT_XFER_CFG, 63, 1⟩
abbrev RLT_XFER_CFG.SIZE_LOG2 : Fld := ⟨.RLT_XFER_CFG, 56, 4⟩
abbrev RLT_XFER_CFG.EVT : Fld := ⟨.RLT_XFER_CFG, 48, 8⟩
abbrev RLT_XFER_CFG.LATE_DONE : Fld := ⟨.RLT_XFER_CFG, 40, 8⟩
abbrev RLT_XFER_CFG.TID : Fld := ⟨.RLT_XFER_CFG, 0, 32⟩
-- RLT_EDGE_BIND (R378)
abbrev RLT_EDGE_BIND.VALID : Fld := ⟨.RLT_EDGE_BIND, 31, 1⟩
abbrev RLT_EDGE_BIND.VC : Fld := ⟨.RLT_EDGE_BIND, 29, 2⟩
abbrev RLT_EDGE_BIND.REMOTE_LINK : Fld := ⟨.RLT_EDGE_BIND, 20, 7⟩
abbrev RLT_EDGE_BIND.DST : Fld := ⟨.RLT_EDGE_BIND, 0, 20⟩
-- RLT_ROUTE (R378)
abbrev RLT_ROUTE.VALID : Fld := ⟨.RLT_ROUTE, 31, 1⟩
abbrev RLT_ROUTE.ALT_EN : Fld := ⟨.RLT_ROUTE, 30, 1⟩
abbrev RLT_ROUTE.ALT : Fld := ⟨.RLT_ROUTE, 24, 4⟩
abbrev RLT_ROUTE.PORT : Fld := ⟨.RLT_ROUTE, 20, 4⟩
-- RLT_LOCAL (R378)
abbrev RLT_LOCAL.VALID : Fld := ⟨.RLT_LOCAL, 31, 1⟩
abbrev RLT_LOCAL.ALT_EN : Fld := ⟨.RLT_LOCAL, 30, 1⟩
abbrev RLT_LOCAL.ALT : Fld := ⟨.RLT_LOCAL, 24, 4⟩
abbrev RLT_LOCAL.PORT : Fld := ⟨.RLT_LOCAL, 20, 4⟩
-- RLT_SLICE_ALLOW (R378)
abbrev RLT_SLICE_ALLOW.ALLOW : Fld := ⟨.RLT_SLICE_ALLOW, 0, 32⟩
-- RLT_MCAST (R378)
abbrev RLT_MCAST.VALID : Fld := ⟨.RLT_MCAST, 31, 1⟩
abbrev RLT_MCAST.LOCAL : Fld := ⟨.RLT_MCAST, 30, 1⟩
abbrev RLT_MCAST.SLICE : Fld := ⟨.RLT_MCAST, 16, 12⟩
abbrev RLT_MCAST.PORTS : Fld := ⟨.RLT_MCAST, 0, 16⟩
-- RLT_MCAST_X (R378)
abbrev RLT_MCAST_X.COUNT : Fld := ⟨.RLT_MCAST_X, 16, 12⟩
abbrev RLT_MCAST_X.FIRST : Fld := ⟨.RLT_MCAST_X, 0, 12⟩
-- RLT_MCAST_EXP (R378)
abbrev RLT_MCAST_EXP.VALID : Fld := ⟨.RLT_MCAST_EXP, 31, 1⟩
abbrev RLT_MCAST_EXP.PORT : Fld := ⟨.RLT_MCAST_EXP, 24, 4⟩
abbrev RLT_MCAST_EXP.DST : Fld := ⟨.RLT_MCAST_EXP, 0, 20⟩
-- PCI_LINK_STATUS (R403)
abbrev PCI_LINK_STATUS.FLIT : Fld := ⟨.PCI_LINK_STATUS, 31, 1⟩
abbrev PCI_LINK_STATUS.DEGRADED : Fld := ⟨.PCI_LINK_STATUS, 30, 1⟩
abbrev PCI_LINK_STATUS.SPEED : Fld := ⟨.PCI_LINK_STATUS, 27, 3⟩
abbrev PCI_LINK_STATUS.WIDTH : Fld := ⟨.PCI_LINK_STATUS, 22, 5⟩
abbrev PCI_LINK_STATUS.RETRAINS : Fld := ⟨.PCI_LINK_STATUS, 0, 16⟩
-- PCI_RESET_STAT (R403)
abbrev PCI_RESET_STAT.CAUSE : Fld := ⟨.PCI_RESET_STAT, 56, 8⟩
abbrev PCI_RESET_STAT.COUNT : Fld := ⟨.PCI_RESET_STAT, 32, 16⟩
abbrev PCI_RESET_STAT.DURATION_US : Fld := ⟨.PCI_RESET_STAT, 0, 32⟩
-- PCI_MBX_CTRL (R403)
abbrev PCI_MBX_CTRL.VEC : Fld := ⟨.PCI_MBX_CTRL, 8, 8⟩
abbrev PCI_MBX_CTRL.GO : Fld := ⟨.PCI_MBX_CTRL, 0, 1⟩
-- PCI_MBX_STATUS (R403)
abbrev PCI_MBX_STATUS.BUSY : Fld := ⟨.PCI_MBX_STATUS, 31, 1⟩
abbrev PCI_MBX_STATUS.DONE : Fld := ⟨.PCI_MBX_STATUS, 30, 1⟩
abbrev PCI_MBX_STATUS.OVERRUN : Fld := ⟨.PCI_MBX_STATUS, 29, 1⟩
-- PCI_ERR_CNT (R403)
abbrev PCI_ERR_CNT.RX_REQ : Fld := ⟨.PCI_ERR_CNT, 48, 16⟩
abbrev PCI_ERR_CNT.DMA_FAIL : Fld := ⟨.PCI_ERR_CNT, 32, 16⟩
abbrev PCI_ERR_CNT.WIN_DENY : Fld := ⟨.PCI_ERR_CNT, 16, 16⟩
abbrev PCI_ERR_CNT.DENIED : Fld := ⟨.PCI_ERR_CNT, 0, 16⟩
-- PCI_ERR_POS (R403)
abbrev PCI_ERR_POS.TOTAL : Fld := ⟨.PCI_ERR_POS, 16, 16⟩
abbrev PCI_ERR_POS.NEXT : Fld := ⟨.PCI_ERR_POS, 0, 4⟩
-- PCI_ERR_LOG (R403)
abbrev PCI_ERR_LOG.VALID : Fld := ⟨.PCI_ERR_LOG, 63, 1⟩
abbrev PCI_ERR_LOG.KIND : Fld := ⟨.PCI_ERR_LOG, 58, 5⟩
abbrev PCI_ERR_LOG.FUNC : Fld := ⟨.PCI_ERR_LOG, 53, 5⟩
abbrev PCI_ERR_LOG.ADDR : Fld := ⟨.PCI_ERR_LOG, 0, 48⟩
-- PCI_ERR_TIME (R403)
abbrev PCI_ERR_TIME.TIME : Fld := ⟨.PCI_ERR_TIME, 0, 64⟩
-- PCI_WIN_MAP (R403)
abbrev PCI_WIN_MAP.VALID : Fld := ⟨.PCI_WIN_MAP, 63, 1⟩
abbrev PCI_WIN_MAP.WR : Fld := ⟨.PCI_WIN_MAP, 62, 1⟩
abbrev PCI_WIN_MAP.MAP_ERR : Fld := ⟨.PCI_WIN_MAP, 61, 1⟩
abbrev PCI_WIN_MAP.PART : Fld := ⟨.PCI_WIN_MAP, 52, 4⟩
abbrev PCI_WIN_MAP.PAGE : Fld := ⟨.PCI_WIN_MAP, 32, 20⟩
abbrev PCI_WIN_MAP.TID : Fld := ⟨.PCI_WIN_MAP, 0, 32⟩
-- PCI_MWIN_BASE (R403)
abbrev PCI_MWIN_BASE.BASE : Fld := ⟨.PCI_MWIN_BASE, 12, 52⟩
-- PCI_MWIN_LIMIT (R403)
abbrev PCI_MWIN_LIMIT.LIMIT : Fld := ⟨.PCI_MWIN_LIMIT, 12, 52⟩
abbrev PCI_MWIN_LIMIT.W : Fld := ⟨.PCI_MWIN_LIMIT, 1, 1⟩
abbrev PCI_MWIN_LIMIT.R : Fld := ⟨.PCI_MWIN_LIMIT, 0, 1⟩
-- PCI_IDE_STATE (R403)
abbrev PCI_IDE_STATE.FAILS : Fld := ⟨.PCI_IDE_STATE, 16, 16⟩
abbrev PCI_IDE_STATE.REQUIRE : Fld := ⟨.PCI_IDE_STATE, 1, 1⟩
abbrev PCI_IDE_STATE.SECURE : Fld := ⟨.PCI_IDE_STATE, 0, 1⟩
-- INTC_SRC_CFG (R416)
abbrev INTC_SRC_CFG.FWO : Fld := ⟨.INTC_SRC_CFG, 31, 1⟩
abbrev INTC_SRC_CFG.VEC : Fld := ⟨.INTC_SRC_CFG, 16, 6⟩
abbrev INTC_SRC_CFG.FUNC : Fld := ⟨.INTC_SRC_CFG, 8, 5⟩
abbrev INTC_SRC_CFG.TARGET : Fld := ⟨.INTC_SRC_CFG, 4, 4⟩
abbrev INTC_SRC_CFG.PRIO : Fld := ⟨.INTC_SRC_CFG, 0, 4⟩
-- INTC_MASK (R416)
abbrev INTC_MASK.MASK : Fld := ⟨.INTC_MASK, 0, 32⟩
-- INTC_PEND (R416)
abbrev INTC_PEND.BITS : Fld := ⟨.INTC_PEND, 0, 32⟩
-- INTC_ACTIVE (R416)
abbrev INTC_ACTIVE.BITS : Fld := ⟨.INTC_ACTIVE, 0, 32⟩
-- INTC_TGT_CFG (R416)
abbrev INTC_TGT_CFG.MODE : Fld := ⟨.INTC_TGT_CFG, 31, 1⟩
abbrev INTC_TGT_CFG.VBASE : Fld := ⟨.INTC_TGT_CFG, 5, 15⟩
abbrev INTC_TGT_CFG.THRESHOLD : Fld := ⟨.INTC_TGT_CFG, 0, 4⟩
-- INTC_TGT_STATE (R416)
abbrev INTC_TGT_STATE.RUN_LEVEL : Fld := ⟨.INTC_TGT_STATE, 28, 4⟩
abbrev INTC_TGT_STATE.DEPTH : Fld := ⟨.INTC_TGT_STATE, 24, 4⟩
abbrev INTC_TGT_STATE.TOP : Fld := ⟨.INTC_TGT_STATE, 0, 9⟩
-- INTC_CPL (R416)
abbrev INTC_CPL.SOURCE : Fld := ⟨.INTC_CPL, 0, 9⟩
-- INTC_STRAY_COUNT (R416)
abbrev INTC_STRAY_COUNT.COUNT : Fld := ⟨.INTC_STRAY_COUNT, 0, 32⟩
-- INTC_ERR_LOG (R416)
abbrev INTC_ERR_LOG.TARGET : Fld := ⟨.INTC_ERR_LOG, 60, 4⟩
abbrev INTC_ERR_LOG.SOURCE : Fld := ⟨.INTC_ERR_LOG, 48, 9⟩
abbrev INTC_ERR_LOG.TIME : Fld := ⟨.INTC_ERR_LOG, 0, 48⟩
-- INTC_SWSET (R416)
abbrev INTC_SWSET.SET : Fld := ⟨.INTC_SWSET, 0, 16⟩
-- PWR_CFG (R446)
abbrev PWR_CFG.MODE : Fld := ⟨.PWR_CFG, 30, 2⟩
abbrev PWR_CFG.IDLE_EN : Fld := ⟨.PWR_CFG, 29, 1⟩
abbrev PWR_CFG.IDLE_US : Fld := ⟨.PWR_CFG, 16, 12⟩
abbrev PWR_CFG.UP_SLEW : Fld := ⟨.PWR_CFG, 8, 8⟩
abbrev PWR_CFG.BRAKE_TOL : Fld := ⟨.PWR_CFG, 0, 8⟩
-- PWR_HOST_CAP (R446)
abbrev PWR_HOST_CAP.CAP : Fld := ⟨.PWR_HOST_CAP, 0, 16⟩
-- PWR_RM_CFG (R446)
abbrev PWR_RM_CFG.HB_EN : Fld := ⟨.PWR_RM_CFG, 31, 1⟩
abbrev PWR_RM_CFG.RM_EID : Fld := ⟨.PWR_RM_CFG, 16, 8⟩
abbrev PWR_RM_CFG.SAFE_CAP : Fld := ⟨.PWR_RM_CFG, 0, 16⟩
-- PWR_STEP_CAP (R446)
abbrev PWR_STEP_CAP.CAP : Fld := ⟨.PWR_STEP_CAP, 0, 16⟩
-- PWR_STATUS (R446)
abbrev PWR_STATUS.CAP_EFF : Fld := ⟨.PWR_STATUS, 48, 16⟩
abbrev PWR_STATUS.CAP_RM : Fld := ⟨.PWR_STATUS, 32, 16⟩
abbrev PWR_STATUS.BRAKE : Fld := ⟨.PWR_STATUS, 31, 1⟩
abbrev PWR_STATUS.KICKSTAND : Fld := ⟨.PWR_STATUS, 30, 1⟩
abbrev PWR_STATUS.KICK_SAFE : Fld := ⟨.PWR_STATUS, 29, 1⟩
abbrev PWR_STATUS.THROTTLE : Fld := ⟨.PWR_STATUS, 28, 1⟩
abbrev PWR_STATUS.COOLANT : Fld := ⟨.PWR_STATUS, 27, 1⟩
abbrev PWR_STATUS.IDLE : Fld := ⟨.PWR_STATUS, 26, 1⟩
abbrev PWR_STATUS.HALTED : Fld := ⟨.PWR_STATUS, 25, 1⟩
abbrev PWR_STATUS.MIN_CLAMP : Fld := ⟨.PWR_STATUS, 24, 1⟩
abbrev PWR_STATUS.PIN_CODE : Fld := ⟨.PWR_STATUS, 21, 3⟩
abbrev PWR_STATUS.ACLK_DIV : Fld := ⟨.PWR_STATUS, 19, 2⟩
abbrev PWR_STATUS.MODE_EFF : Fld := ⟨.PWR_STATUS, 17, 2⟩
abbrev PWR_STATUS.DUTY : Fld := ⟨.PWR_STATUS, 10, 7⟩
abbrev PWR_STATUS.LIMITER : Fld := ⟨.PWR_STATUS, 7, 3⟩
abbrev PWR_STATUS.HOT_CH : Fld := ⟨.PWR_STATUS, 0, 7⟩
-- PWR_MEAS (R446)
abbrev PWR_MEAS.AVG_W : Fld := ⟨.PWR_MEAS, 48, 16⟩
abbrev PWR_MEAS.INST_W : Fld := ⟨.PWR_MEAS, 32, 16⟩
abbrev PWR_MEAS.CORE_MV : Fld := ⟨.PWR_MEAS, 16, 16⟩
abbrev PWR_MEAS.CORE_A : Fld := ⟨.PWR_MEAS, 0, 16⟩
-- PWR_OVERSHOOT (R446)
abbrev PWR_OVERSHOOT.COUNT : Fld := ⟨.PWR_OVERSHOOT, 48, 16⟩
abbrev PWR_OVERSHOOT.PEAK_W : Fld := ⟨.PWR_OVERSHOOT, 32, 16⟩
abbrev PWR_OVERSHOOT.DURATION_US : Fld := ⟨.PWR_OVERSHOOT, 0, 32⟩
-- PWR_OVERSHOOT_TIME (R446)
abbrev PWR_OVERSHOOT_TIME.T0 : Fld := ⟨.PWR_OVERSHOOT_TIME, 0, 64⟩
-- PWR_TEMP (R446)
abbrev PWR_TEMP.TJ : Fld := ⟨.PWR_TEMP, 52, 12⟩
abbrev PWR_TEMP.TJ_PEAK : Fld := ⟨.PWR_TEMP, 40, 12⟩
abbrev PWR_TEMP.SENSOR : Fld := ⟨.PWR_TEMP, 32, 7⟩
-- PWR_THERM_CFG (R446)
abbrev PWR_THERM_CFG.T_WARN : Fld := ⟨.PWR_THERM_CFG, 24, 8⟩
abbrev PWR_THERM_CFG.T_CTRL : Fld := ⟨.PWR_THERM_CFG, 16, 8⟩
-- CLK_STATUS (R446)
abbrev CLK_STATUS.ROOT_LOCK : Fld := ⟨.CLK_STATUS, 31, 1⟩
abbrev CLK_STATUS.DIV_CHANGES : Fld := ⟨.CLK_STATUS, 0, 16⟩
-- CLK_TIME (R446)
abbrev CLK_TIME.TIME : Fld := ⟨.CLK_TIME, 0, 64⟩
-- CLK_TIME_CAP (R446)
abbrev CLK_TIME_CAP.TIME : Fld := ⟨.CLK_TIME_CAP, 0, 64⟩
-- CLK_CAP_CTRL (R446)
abbrev CLK_CAP_CTRL.CAPTURES : Fld := ⟨.CLK_CAP_CTRL, 16, 16⟩
abbrev CLK_CAP_CTRL.CAPTURE : Fld := ⟨.CLK_CAP_CTRL, 0, 1⟩
-- SEC_BOOT_STATUS (R473)
abbrev SEC_BOOT_STATUS.STATE : Fld := ⟨.SEC_BOOT_STATUS, 56, 8⟩
abbrev SEC_BOOT_STATUS.FAIL_A : Fld := ⟨.SEC_BOOT_STATUS, 52, 4⟩
abbrev SEC_BOOT_STATUS.FAIL_B : Fld := ⟨.SEC_BOOT_STATUS, 48, 4⟩
abbrev SEC_BOOT_STATUS.FAIL_COMP : Fld := ⟨.SEC_BOOT_STATUS, 44, 4⟩
abbrev SEC_BOOT_STATUS.BUNDLE : Fld := ⟨.SEC_BOOT_STATUS, 40, 1⟩
abbrev SEC_BOOT_STATUS.VERSION : Fld := ⟨.SEC_BOOT_STATUS, 0, 32⟩
-- SEC_FUSE_STATE (R473)
abbrev SEC_FUSE_STATE.FLOOR4 : Fld := ⟨.SEC_FUSE_STATE, 26, 6⟩
abbrev SEC_FUSE_STATE.FLOOR3 : Fld := ⟨.SEC_FUSE_STATE, 20, 6⟩
abbrev SEC_FUSE_STATE.FLOOR2 : Fld := ⟨.SEC_FUSE_STATE, 14, 6⟩
abbrev SEC_FUSE_STATE.FLOOR1 : Fld := ⟨.SEC_FUSE_STATE, 8, 6⟩
abbrev SEC_FUSE_STATE.VKEY_REVOKE : Fld := ⟨.SEC_FUSE_STATE, 3, 2⟩
abbrev SEC_FUSE_STATE.DEBUG_SEEN : Fld := ⟨.SEC_FUSE_STATE, 2, 1⟩
abbrev SEC_FUSE_STATE.DEBUG_CLOSED : Fld := ⟨.SEC_FUSE_STATE, 0, 1⟩
-- SEC_NONCE (R473)
abbrev SEC_NONCE.NONCE : Fld := ⟨.SEC_NONCE, 0, 64⟩
-- SEC_TOKEN_CTRL (R473)
abbrev SEC_TOKEN_CTRL.APPLY : Fld := ⟨.SEC_TOKEN_CTRL, 31, 1⟩
abbrev SEC_TOKEN_CTRL.NEW_NONCE : Fld := ⟨.SEC_TOKEN_CTRL, 30, 1⟩
abbrev SEC_TOKEN_CTRL.VEC : Fld := ⟨.SEC_TOKEN_CTRL, 24, 6⟩
abbrev SEC_TOKEN_CTRL.NONCE_TTL : Fld := ⟨.SEC_TOKEN_CTRL, 16, 8⟩
abbrev SEC_TOKEN_CTRL.LEN : Fld := ⟨.SEC_TOKEN_CTRL, 0, 16⟩
-- SEC_TOKEN_STATUS (R473)
abbrev SEC_TOKEN_STATUS.BUSY : Fld := ⟨.SEC_TOKEN_STATUS, 63, 1⟩
abbrev SEC_TOKEN_STATUS.DONE : Fld := ⟨.SEC_TOKEN_STATUS, 62, 1⟩
abbrev SEC_TOKEN_STATUS.OVERRUN : Fld := ⟨.SEC_TOKEN_STATUS, 61, 1⟩
abbrev SEC_TOKEN_STATUS.CHECK : Fld := ⟨.SEC_TOKEN_STATUS, 48, 8⟩
abbrev SEC_TOKEN_STATUS.ACTION : Fld := ⟨.SEC_TOKEN_STATUS, 40, 8⟩
abbrev SEC_TOKEN_STATUS.ERROR : Fld := ⟨.SEC_TOKEN_STATUS, 32, 8⟩
abbrev SEC_TOKEN_STATUS.OWNER : Fld := ⟨.SEC_TOKEN_STATUS, 0, 32⟩
-- SEC_DIRECT_LOG (R473)
abbrev SEC_DIRECT_LOG.COUNT : Fld := ⟨.SEC_DIRECT_LOG, 48, 16⟩
abbrev SEC_DIRECT_LOG.OFFSET : Fld := ⟨.SEC_DIRECT_LOG, 0, 32⟩
-- SEC_AUTH_STATE (R473)
abbrev SEC_AUTH_STATE.STATE : Fld := ⟨.SEC_AUTH_STATE, 0, 2⟩
-- SEC_MEAS_EXT_CTRL (R473)
abbrev SEC_MEAS_EXT_CTRL.GO : Fld := ⟨.SEC_MEAS_EXT_CTRL, 0, 1⟩
-- OBS_FATAL (R494)
abbrev OBS_FATAL.FATAL : Fld := ⟨.OBS_FATAL, 63, 1⟩
abbrev OBS_FATAL.STOPPED : Fld := ⟨.OBS_FATAL, 62, 1⟩
abbrev OBS_FATAL.JOURNAL_FINAL : Fld := ⟨.OBS_FATAL, 61, 1⟩
abbrev OBS_FATAL.SAVED : Fld := ⟨.OBS_FATAL, 60, 1⟩
abbrev OBS_FATAL.JNL_LOST : Fld := ⟨.OBS_FATAL, 59, 1⟩
abbrev OBS_FATAL.CAUSE : Fld := ⟨.OBS_FATAL, 48, 8⟩
abbrev OBS_FATAL.STOP_US : Fld := ⟨.OBS_FATAL, 32, 16⟩
abbrev OBS_FATAL.FINAL_MS : Fld := ⟨.OBS_FATAL, 24, 8⟩
abbrev OBS_FATAL.DETAIL : Fld := ⟨.OBS_FATAL, 0, 24⟩
-- OBS_FATAL_TIME (R494)
abbrev OBS_FATAL_TIME.TIME : Fld := ⟨.OBS_FATAL_TIME, 0, 64⟩
-- OBS_FATAL_CFG (R494)
abbrev OBS_FATAL_CFG.VEC : Fld := ⟨.OBS_FATAL_CFG, 0, 8⟩
-- OBS_CLASS_CNT (R494)
abbrev OBS_CLASS_CNT.COUNT : Fld := ⟨.OBS_CLASS_CNT, 0, 32⟩
-- OBS_UPD_STATUS (R494)
abbrev OBS_UPD_STATUS.STATE : Fld := ⟨.OBS_UPD_STATUS, 60, 4⟩
abbrev OBS_UPD_STATUS.COMP : Fld := ⟨.OBS_UPD_STATUS, 56, 4⟩
abbrev OBS_UPD_STATUS.HUBS_LEFT : Fld := ⟨.OBS_UPD_STATUS, 48, 8⟩
abbrev OBS_UPD_STATUS.BUNDLE : Fld := ⟨.OBS_UPD_STATUS, 44, 4⟩
abbrev OBS_UPD_STATUS.LAST_ERR : Fld := ⟨.OBS_UPD_STATUS, 32, 8⟩
abbrev OBS_UPD_STATUS.LAST_VERSION : Fld := ⟨.OBS_UPD_STATUS, 0, 32⟩
-- OBS_CAL_STATUS (R494)
abbrev OBS_CAL_STATUS.TRIM_MV : Fld := ⟨.OBS_CAL_STATUS, 56, 8⟩
abbrev OBS_CAL_STATUS.DIV_STEPS : Fld := ⟨.OBS_CAL_STATUS, 54, 2⟩
abbrev OBS_CAL_STATUS.EXCLUDED : Fld := ⟨.OBS_CAL_STATUS, 40, 8⟩
-- OBS_CONFLICT (R494)
abbrev OBS_CONFLICT.ERROR : Fld := ⟨.OBS_CONFLICT, 56, 8⟩
abbrev OBS_CONFLICT.RESOURCE : Fld := ⟨.OBS_CONFLICT, 48, 8⟩
abbrev OBS_CONFLICT.INDEX : Fld := ⟨.OBS_CONFLICT, 40, 8⟩
abbrev OBS_CONFLICT.OWNER : Fld := ⟨.OBS_CONFLICT, 0, 32⟩
-- OBS_SAMPLE_CTRL (R494)
abbrev OBS_SAMPLE_CTRL.PERIOD_US : Fld := ⟨.OBS_SAMPLE_CTRL, 16, 16⟩
abbrev OBS_SAMPLE_CTRL.PART : Fld := ⟨.OBS_SAMPLE_CTRL, 12, 4⟩
abbrev OBS_SAMPLE_CTRL.SCOPE : Fld := ⟨.OBS_SAMPLE_CTRL, 11, 1⟩
abbrev OBS_SAMPLE_CTRL.STATE : Fld := ⟨.OBS_SAMPLE_CTRL, 8, 3⟩
abbrev OBS_SAMPLE_CTRL.ENABLE_PEND : Fld := ⟨.OBS_SAMPLE_CTRL, 7, 1⟩
abbrev OBS_SAMPLE_CTRL.WAITED : Fld := ⟨.OBS_SAMPLE_CTRL, 6, 1⟩
abbrev OBS_SAMPLE_CTRL.EN : Fld := ⟨.OBS_SAMPLE_CTRL, 0, 1⟩
-- OBS_TRACE_CTRL (R494)
abbrev OBS_TRACE_CTRL.TS : Fld := ⟨.OBS_TRACE_CTRL, 11, 1⟩
abbrev OBS_TRACE_CTRL.STATE : Fld := ⟨.OBS_TRACE_CTRL, 8, 3⟩
abbrev OBS_TRACE_CTRL.ENABLE_PEND : Fld := ⟨.OBS_TRACE_CTRL, 7, 1⟩
abbrev OBS_TRACE_CTRL.WAITED : Fld := ⟨.OBS_TRACE_CTRL, 6, 1⟩
abbrev OBS_TRACE_CTRL.EN : Fld := ⟨.OBS_TRACE_CTRL, 0, 1⟩
-- OBS_TRACE_MASK (R494)
abbrev OBS_TRACE_MASK.EVENTS : Fld := ⟨.OBS_TRACE_MASK, 1, 12⟩
-- OBS_TRIG_MASK (R494)
abbrev OBS_TRIG_MASK.EVENTS : Fld := ⟨.OBS_TRIG_MASK, 1, 12⟩
-- OBS_BUF_CFG (R494)
abbrev OBS_BUF_CFG.PART : Fld := ⟨.OBS_BUF_CFG, 60, 4⟩
abbrev OBS_BUF_CFG.WRAP : Fld := ⟨.OBS_BUF_CFG, 59, 1⟩
abbrev OBS_BUF_CFG.TID : Fld := ⟨.OBS_BUF_CFG, 0, 32⟩
-- OBS_BUF_POS (R494)
abbrev OBS_BUF_POS.FULL : Fld := ⟨.OBS_BUF_POS, 63, 1⟩
abbrev OBS_BUF_POS.DROPPED : Fld := ⟨.OBS_BUF_POS, 32, 16⟩
abbrev OBS_BUF_POS.WRITE : Fld := ⟨.OBS_BUF_POS, 0, 32⟩
-- OBS_GPIO_CLAIM (R494)
abbrev OBS_GPIO_CLAIM.FWO : Fld := ⟨.OBS_GPIO_CLAIM, 31, 1⟩
abbrev OBS_GPIO_CLAIM.FUNC : Fld := ⟨.OBS_GPIO_CLAIM, 0, 4⟩
-- OBS_GPIO_CFG (R502)
abbrev OBS_GPIO_CFG.TACH : Fld := ⟨.OBS_GPIO_CFG, 16, 16⟩
abbrev OBS_GPIO_CFG.LEVEL : Fld := ⟨.OBS_GPIO_CFG, 8, 1⟩
abbrev OBS_GPIO_CFG.LED : Fld := ⟨.OBS_GPIO_CFG, 4, 2⟩
abbrev OBS_GPIO_CFG.EDGE : Fld := ⟨.OBS_GPIO_CFG, 0, 2⟩

end F

/-- Every register kind, in the order of the chapters. -/
def RegKind.all : List RegKind :=
  List.flatten ([
    [.PCI_CHIP_ID, .COG_FENCE_MAP, .COG_FENCE_SUMMARY, .COG_STALL_CFG, .COG_FW_CTRL, .COG_LINK_ERR, .COG_BLK_STATE, .COG_NUM_CFG, .GEAR_BLK_STATE, .GEAR_BLK_ID, .GEAR_PAN_STAT, .GEAR_DL_CFG, .GEAR_LOAD_DIAG, .TNS_TABLE_FREE, .TNS_FAULT, .TNS_FAULT_TIME, .TNS_REPAIR_CNT, .POOL_TOTAL, .POOL_FREE, .POOL_FLOOR],
    [.POOL_USED, .POOL_SHADOW, .POOL_EVICT, .BLK_STATUS, .BLK_GEOMETRY, .BLK_CAP, .BLK_RD_CFG, .BLK_CH_STATE, .BLK_STAT, .BLK_STAT2, .BLK_CAT_ENTRY, .LPX_STATUS, .LPX_GEOMETRY, .LPX_CFG, .LPX_PG_CNT, .LPX_CH_STATE, .LPX_CH_CTRL, .LPX_CH_ERR, .LPX_PG_LOG, .HUB_STATE],
    [.HUB_CFG, .HUB_EVENT, .HUB_EVENT_ADD, .Q_BASE, .Q_CFG, .Q_CTRL, .Q_STATE, .JNL_STATUS, .JNL_COUNT, .DOORBELL, .Q_POS, .HUB_CTRL, .HUB_PART_CFG, .HUB_CYCLE, .HUB_CYCLE_CTRL, .HUB_LEAD_STAT, .SEC_PART_MAP, .SEC_PART_STATE, .SRV_BATCH_CFG, .SRV_BATCH_CTRL],
    [.SRV_RING_BASE, .SRV_RING_CFG, .SRV_RING_POS, .SRV_BATCH_STAT, .SRV_STEP_CNT, .SRV_COST, .RLT_DEV_ID, .RLT_PORT_CFG, .RLT_PORT_CTRL, .RLT_PORT_STATE, .RLT_PORT_ERR, .RLT_PORT_DROP, .RLT_PORT_BER, .RLT_PART_SLICE, .RLT_XFER_CFG, .RLT_EDGE_BIND, .RLT_ROUTE, .RLT_LOCAL, .RLT_SLICE_ALLOW, .RLT_MCAST],
    [.RLT_MCAST_X, .RLT_MCAST_EXP, .PCI_LINK_STATUS, .PCI_RESET_STAT, .PCI_MBX_CTRL, .PCI_MBX_STATUS, .PCI_MBX_REQ, .PCI_MBX_RSP, .PCI_ERR_CNT, .PCI_ERR_POS, .PCI_ERR_LOG, .PCI_ERR_TIME, .PCI_WIN_MAP, .PCI_MWIN_BASE, .PCI_MWIN_LIMIT, .PCI_IDE_STATE, .INTC_SRC_CFG, .INTC_MASK, .INTC_PEND, .INTC_ACTIVE],
    [.INTC_TGT_CFG, .INTC_TGT_STATE, .INTC_CPL, .INTC_STRAY_COUNT, .INTC_ERR_LOG, .INTC_SWSET, .PWR_CFG, .PWR_HOST_CAP, .PWR_RM_CFG, .PWR_STEP_CAP, .PWR_STATUS, .PWR_MEAS, .PWR_OVERSHOOT, .PWR_OVERSHOOT_TIME, .PWR_TEMP, .PWR_THERM_CFG, .CLK_STATUS, .CLK_TIME, .CLK_TIME_CAP, .CLK_CAP_CTRL],
    [.SEC_UID, .SEC_BOOT_STATUS, .SEC_FUSE_STATE, .SEC_NONCE, .SEC_TOKEN_CTRL, .SEC_TOKEN_STATUS, .SEC_DIRECT_LOG, .SEC_AUTH_STATE, .SEC_AUTH_HASH, .SEC_MEAS, .SEC_MEAS_EXT_DATA, .SEC_MEAS_EXT_CTRL, .SEC_TOKEN_BUF, .SEC_REPORT_BUF, .OBS_FATAL, .OBS_FATAL_TIME, .OBS_FATAL_CFG, .OBS_CLASS_CNT, .OBS_UPD_STATUS, .OBS_CAL_STATUS],
    [.OBS_CONFLICT, .OBS_SAMPLE_CTRL, .OBS_TRACE_CTRL, .OBS_TRACE_MASK, .OBS_TRIG_MASK, .OBS_BUF_CFG, .OBS_BUF_POS, .OBS_GPIO_CLAIM, .OBS_GPIO_CFG]] : List (List RegKind))

/-- The number of a register kind: its place among the constructors. -/
def RegKind.code (k : RegKind) : Nat := k.ctorIdx

/-- The key of instance `i` of a register kind in the register file. -/
def RegKind.key (k : RegKind) (i : Nat) : Nat := k.code + 256 * i

/-- The instance of a register with two indices. -/
def RegKind.idx (k : RegKind) (i j : Nat) : Nat := i * k.info.n1 + j

/-- The address of an instance in its BAR. -/
def RegKind.addr (k : RegKind) (i : Nat) : Nat := k.info.base + i / k.info.n1 * k.info.s0 + i % k.info.n1 * k.info.s1

/-- The number of instances of a register kind. -/
def RegKind.count (k : RegKind) : Nat := k.info.n0 * k.info.n1

/-- PWR_STEP_CAP[code] after reset (R435). -/
def stepCapReset (i : Nat) : Nat := [350, 500, 650, 800, 900, 1000, 1100, 1200].getD i 1200

/-- What a list of fields reads as after cold reset (R11). -/
def fieldsReset : List FieldInfo → Nat
  | [] => 0
  | f :: fs => setBits (fieldsReset fs) f.lo f.w f.reset

/-- The value of a register instance after cold reset (R11): its fields' reset values, with FWO of INTC_SRC_CFG set for
sources 160 to 163 (R416) and PWR_STEP_CAP as R435 lists it. -/
def RegKind.resetVal (k : RegKind) (i : Nat) : Nat :=
  match k with
  | .INTC_SRC_CFG => if 160 ≤ i ∧ i ≤ 163 then 2 ^ 31 else 0
  | .PWR_STEP_CAP => stepCapReset i
  | _ => fieldsReset k.info.flds

/-- The register, instance and byte within it that an offset of a BAR names, if any. -/
def RegInfo.find (r : RegInfo) (bar off : Nat) : Option (Nat × Nat) :=
  if r.bar = bar ∧ r.base ≤ off then
    let o := off - r.base
    let i := if r.s0 = 0 then 0 else o / r.s0
    let o := o - i * r.s0
    let j := if r.s1 = 0 then 0 else o / r.s1
    let o := o - j * r.s1
    if i < r.n0 ∧ j < r.n1 ∧ o < r.width / 8 then some (i * r.n1 + j, o) else none
  else none

/-- The register that an offset of a BAR lies in: kind, instance, byte within it. -/
def regAt (bar off : Nat) : Option (RegKind × Nat × Nat) :=
  RegKind.all.findSome? fun k => (k.info.find bar off).map fun p => (k, p.1, p.2)

end Sys2Proof
end

