-- ==== Sys2Proof/Machine/TypesBulk.lean ====
section
/-! DEFINITION. The data of the bulk tier: catalogue, map and blocks (chapter 07). -/

namespace Sys2Proof.Machine

/-- The states of a catalogue entry (R215). -/
inductive CatState where
  | free | installing | ready | damaged | deleting
  deriving DecidableEq, Repr

/-- A catalogue entry (R215). -/
structure CatEntry where
  modelId : Nat
  state : CatState
  kind : Nat
  grant : Nat
  nunits : Nat
  base : Nat
  length : Nat
  digest : Nat
  sealTime : Nat
  damaged : Nat
  written : Nat
  deriving DecidableEq, Repr

/-- A FREE catalogue entry. -/
def CatEntry.free : CatEntry := ⟨0, .free, 0, 0, 0, 0, 0, 0, 0, 0, 0⟩

/-- A physical flash block: the unit it holds a block of, with the write generation in its sector headers (R200); the units whose parity
pages it keeps and how many sets of parity pages have been written into it since its last erase (R203); page reads since its last erase,
its erases since the last format, whether it is retired or factory-bad, the relocation scheduled for it (0 none, 1 normal, 2 urgent), and
when it was written or the patrol last read it (R207 to R211). -/
structure FlashBlock where
  unit : Option Nat
  gen : Nat
  parity : List Nat
  sets : Nat
  reads : Nat
  erases : Nat
  retired : Bool
  sched : Nat
  readAt : Nat
  deriving DecidableEq, Repr

/-- A block that has never been written. -/
def FlashBlock.fresh : FlashBlock := ⟨none, 0, [], 0, 0, 0, false, 0, 0⟩

/-- The bulk tier: contents by logical byte address, the catalogue by slot, the map from (unit, channel), packed as 32 × unit + channel,
to a block, its three copies in flash by channel (R202), the parity pages of the rows, row `i` of unit `u` at 16,384 × (PPB × u + i)
(R203), the blocks, packed as 2³² × channel + block, the logical pages that have failed rung 4 (R207), how often it has been formatted,
which fraction the last format set, and the blocks retired since then (R201 to R215). -/
structure Blk where
  data : Memory
  cat : Tab CatEntry
  map : Tab Nat
  copies : Tab (Tab Nat)
  parity : Memory
  blocks : Tab FlashBlock
  bad : List Nat
  formats : Nat
  op : Nat
  retired : Nat
  deriving DecidableEq, Repr

end Sys2Proof.Machine
end

