-- ==== Sys2Proof/Machine/TypesHub.lean ====
section
/-! DEFINITION. The data of command queues, commands, tasks, the journal and the hub engines (chapters 09 and 10). -/

namespace Sys2Proof.Machine

/-- The header slot of a command (R251). -/
structure Header where
  fmt : Nat
  kind : Nat
  link : Bool
  nslot : Nat
  bodyLen : Nat
  nrun : Nat
  vec : Nat
  cookie : Nat
  ndecl : Nat
  declOff : Nat
  deadline : Nat
  budget : Nat
  runblk : List Nat
  evtDone : Nat
  deriving DecidableEq, Repr

/-- The states of a journal entry (R279). -/
inductive JState where
  | empty | accepted | dispatched | completed | aborted | refused
  deriving DecidableEq, Repr

/-- A journal entry (R279). -/
structure JEntry where
  kind : Nat
  link : Bool
  cls : Nat
  ver : Nat
  state : JState
  seq : Nat
  pos : Nat
  error : Nat
  status : Nat
  part : Nat
  queue : Nat
  time : Nat
  note : Nat
  cookie : Nat
  deriving DecidableEq, Repr

/-- The empty journal entry: all zeros (R283). -/
def JEntry.zero : JEntry := ⟨0, false, 0, 0, .empty, 0, 0, 0, 0, 0, 0, 0, 0, 0⟩

/-- An asynchronous hub operation (R264, R265). -/
inductive HOp where
  | load (tid : Nat)
  | flush (tid : Nat)
  | evict (tid : Nat)
  | copy (src dst : Nat)
  | gload (tid rect plane : Nat)
  | run (block : Nat)
  | step (ra imm : Nat)
  | hlib (tid : Nat)
  deriving DecidableEq, Repr

/-- An operation handle of a command (R265): whether it is a RUN's, the TRY bit and word address of the instruction that
issued it, whether the operation waited, and its outcome word once final. -/
structure Handle where
  run : Bool
  tryBit : Bool
  addr : Nat
  waited : Bool
  outcome : Option Nat
  deriving DecidableEq, Repr

/-- An asynchronous operation under way (R265, R267): what it is, the partition, task, acceptance time and class of the command that
issued it, whether it has started, for a gear load whether its image has passed every check, and the work clock at its issue. It outlives
an abort of the task where R267 says so. -/
structure AOp where
  op : HOp
  part : Nat
  task : Nat
  acc : Nat
  started : Bool
  passed : Bool
  since : Nat
  deriving DecidableEq, Repr

/-- A RUN waits for the array to wake (R423). -/
def AOp.sleeps (o : AOp) : Bool :=
  match o.op with
  | .run _ => !o.started
  | _ => false

/-- Where an accepted command stands between acceptance and its final state (R260, R268, R273). -/
inductive CmdStage where
  | accepted
  | taken
  | running
  | parked
  | ended
  | live
  deriving DecidableEq, Repr

/-- An entry of the declaration list (R252). -/
structure Decl where
  tid : Nat
  mode : Nat
  deriving DecidableEq, Repr

/-- A command that is accepted and not final (R250 to R273). Times are device times: acceptance, readiness, taking by a hub,
END, and the start of the present stretch of hub time (R306); `startedAt`, `spans` and `runEnd` are in the units of the work clock
(R432): the disjoint stretches that R309 leaves out so far, and when its latest RUN ended. `dstep` is the dispatch step it waits at. -/
structure Cmd where
  queue : Nat
  pos : Nat
  hdr : Header
  acceptedAt : Nat
  deadline : Nat
  budget : Nat
  task : Nat
  stage : CmdStage
  hub : Nat
  frame : Nat
  readyAt : Nat
  takenAt : Nat
  startedAt : Nat
  endedAt : Nat
  segAt : Nat
  dstep : Nat
  maxLen : Nat
  cfg : RunCfg
  spans : List (Nat × Nat)
  runEnd : Nat
  zeroExtent : Bool
  held : Bool
  decls : List Decl
  handles : Tab Handle
  issued : List Nat
  deriving DecidableEq, Repr

/-- A task that is open (R255): its queue, its accepted commands in order, its shadows by tensor key, its reserved shadow
pages not yet used (R173), the near-home tensors it began to fill or to write (R174), and when its last ended LINK = 1
command ended (R258). -/
structure Task where
  queue : Nat
  cmds : List Nat
  shadows : Tab Shadow
  reserved : Nat
  fills : List Nat
  nearRW : List Nat
  linkEnd : Option Nat
  deriving DecidableEq, Repr

/-- The context of a queue: the save area of R302 with the positions of R247, and what acceptance and a pended enable
remember (R253 check 5, R257, R286). -/
structure Queue where
  nextPos : Nat
  accept : Nat
  head : Nat
  tail : Nat
  taskSeq : Nat
  readyTime : Nat
  sliceUsed : Nat
  home : Nat
  inDeque : Bool
  running : Bool
  parked : Bool
  taskOpen : Bool
  linkPrev : Bool
  doomed : Bool
  readySeq : Nat
  pendAt : Nat
  adrift : Bool
  deriving DecidableEq, Repr

/-- A queue whose context save area is clear (R285, R296). -/
def Queue.clear : Queue := ⟨0, 0, 0, 0, 0, 0, 0, 0, false, false, false, false, false, false, 0, 0, false⟩

/-- What a hub instruction waits for (R265, R273, R276). -/
inductive WaitKind where
  | handle (h : Nat)
  | fence
  | event (e : Nat) (target : Nat)
  | finish
  deriving DecidableEq, Repr

/-- A wait in progress: what for, the register that receives the outcome, the device time at which its limit runs out
(`timeNone` for no limit), the time it was issued, and the device time at which it was first met. -/
structure HubWait where
  kind : WaitKind
  rd : Nat
  limit : Nat
  since : Nat
  met : Option Nat
  deriving DecidableEq, Repr

/-- A park slot (R268): the command's number, registers, program counter and wait, when it parked, and once its wait
has ended, when it ended and the word it returns. -/
structure Parked where
  seq : Nat
  regs : Tab Word64
  pc : Nat
  wait : Option HubWait
  since : Nat
  result : Option (Nat × Nat)
  deriving DecidableEq, Repr

/-- A hub engine: its `stalled` says that the instruction at the program counter has begun to wait (R170, R189), its `waited` that it has
waited in a way that WAITED reports (R123, R170, R265); its return stack holds
source, program counter and suspended wait of each level (R243, R262, R303, R306, R409, R475). -/
structure Hub where
  regs : Tab Word64
  irqBank : Tab Word64
  imem : Tab Word64
  scratch : Memory
  pc : Nat
  cur : Option Nat
  wait : Option HubWait
  stalled : Bool
  waited : Bool
  park : List Parked
  stack : List (Nat × Nat × Option HubWait)
  irqSince : Nat
  lead : List Nat
  pack : List Nat
  broom : List Nat
  cont : Option Nat
  part : Option Nat
  fails : List Nat
  pendAt : Nat
  loadOnEnable : Bool
  deriving DecidableEq, Repr

/-- A hub whose memories, registers, park slots and return stack are zero (R244, R415). -/
def Hub.clear : Hub :=
  ⟨[], [], [], [], 0, none, none, false, false, [], [], 0, [], [], [], none, none, [], 0, false⟩

end Sys2Proof.Machine
end

