-- ==== Sys2Proof/Machine/TypesDev.lean ====
section
/-! DEFINITION. The data of the main-tier channels (chapter 08), the host interface (13), the governor (15), boot, identity
and approval (16), live update (17), and the pins and the board (18). -/

namespace Sys2Proof.Machine

/-- A main-tier channel beside its registers (R229 to R241): by rank, the oscillator counts of its last training, the last counts read,
which are also those that the PHY's delays follow, and the last refresh; when the oscillators were read and when MR4 was; the write and
read DBI in force; resends and rereads with their times; when its last short retrain ended, when its full retrains of the last hour ended,
whether a short or full retrain waits, since when a device-initiated full retrain waits, whether retirement is due, whether its granules
are being copied, the pages whose granule on it a write has moved before the copy came to it, the consecutive MR4 readings in range, and
what waits for it while it is paused, in order, as region and stream, or as the number of an access that the controllers hold (R236). -/
structure LpxChan where
  base : List Nat
  osc : List Nat
  refreshAt : List Nat
  trackAt : Nat
  pollAt : Nat
  dbiWr : Bool
  dbiRd : Bool
  events : List (Nat × Nat)
  shortAt : Option Nat
  fulls : List Nat
  shortPend : Bool
  fullPend : Bool
  leadWait : Option Nat
  retire : Bool
  copying : Bool
  moved : List Nat
  cool : Nat
  waiting : List (Nat × Nat)
  deriving DecidableEq, Repr

/-- A channel that nothing has happened on. -/
def LpxChan.clear : LpxChan :=
  ⟨[], [], [], 0, 0, false, false, [], none, [], false, false, none, false, false, [], 0, []⟩

/-- An access that a controller of the main tier holds while a retrain pauses its channel (R236): a read of BAR2, by function, BAR2 offset,
partition, tensor, byte and length; or bytes that a host, a record or the transfer engine writes into a tensor, the last through its
shadows too. -/
inductive MainReq where
  | read (f off p tid o len : Nat)
  | put (p tid o : Nat) (bytes : List Byte) (ring : Bool)
  deriving DecidableEq, Repr

/-- The main tier (R230, R238): its channels, the pool pages that have suffered one stored-data failure with the channel it lay on, the
retired-page list, the number of pages below which the pool lies, and the remap table as retired channels, each with the first of
its remap pages and the retired pages that lie among them; the accesses that its controllers hold, oldest first by number, and the next
number (R236). -/
structure Lpx where
  chans : Tab LpxChan
  failed : Tab Nat
  retired : List Nat
  top : Nat
  remaps : List (Nat × Nat × List Nat)
  held : List (Nat × MainReq)
  heldNo : Nat
  deriving DecidableEq, Repr

/-- An outstanding DMA read (R390, R396): function, the partition and tensor it loads, host address and bytes, whether it has been
sent, whether it has been requested again, and whether its completion is to be discarded (R399). -/
structure Dma where
  f : Nat
  part : Nat
  tid : Nat
  addr : Nat
  len : Nat
  sent : Bool
  again : Bool
  dropped : Bool
  deriving DecidableEq, Repr

/-- A load from host memory that has not sent all its requests (R390): partition and tensor, the tensor byte from which the next request
reads, and the host address of one that no window lets the device send. -/
structure HostRead where
  part : Nat
  tid : Nat
  next : Nat
  denied : Option Nat
  deriving DecidableEq, Repr

/-- Advanced Error Reporting and Device Control of a function (R379, R396): the four enables of error messages; ECRC generation (bit 6) and checking
(bit 8); the status, mask and severity of uncorrectable errors; status and mask of correctable errors; the header log. -/
structure Aer where
  ctl : Nat
  cap : Nat
  status : Nat
  mask : Nat
  severity : Nat
  corr : Nat
  corrMask : Nat
  header : Nat
  deriving DecidableEq, Repr

/-- Error reporting after reset: ECRC is off (R379); the other values are those of PCI Express (PRESUMED, log 91). -/
def Aer.start : Aer := ⟨0, 0, 0, 0x00400000, 0x00462030, 0, 0xE000, 0⟩

/-- The host interface beside its registers (R381 to R402): by function, Memory Space Enable, Bus Master Enable, MSI-X Enable, and D3hot;
NumVFs; the MSI-X tables by 64 × function + vector as address, data and unmasked; outstanding reads by tag; the loads that have more to
read, oldest first, and Max Read Request Size; whether the PF has become ready since cold reset; the mailbox buffers; the mailbox request
that firmware holds, as OP, TAG, payload and when it was taken; the keys of the IDE streams, and the streams whose TLPs are discarded
until new keys come (R395). Then MSI-X Function Mask by function, VF Enable and Max Payload Size; error reporting by function; the 32-bit
words of the IDE extended capability, nine for each stream's block (R394); the K bit of each stream; the device time until which a function
is in reset (R401), and the functions whose next reset waits for that (R398). -/
structure Pci where
  mse : Tab Bool
  bme : Tab Bool
  msixEn : Tab Bool
  d3 : Tab Bool
  numVfs : Nat
  msixTab : Tab (Nat × Nat × Bool)
  dma : Tab Dma
  reads : List HostRead
  mrrs : Nat
  ready : Bool
  req : Memory
  rsp : Memory
  held : Option (Nat × Nat × List Byte × Nat)
  ideKeys : Tab Word256
  ideDown : Tab Bool
  fnMask : Tab Bool
  vfEn : Bool
  mps : Nat
  aer : Tab Aer
  ideCap : Tab Nat
  ideK : Tab Bool
  resetEnd : Tab Nat
  flrPend : List Nat
  deriving DecidableEq, Repr

/-- The governor's target (R428, R429): it moves in a line from `w0` at `t0` to `w1` at `t1`. -/
structure Ramp where
  t0 : Nat
  w0 : Nat
  t1 : Nat
  w1 : Nat
  deriving DecidableEq, Repr

/-- What the evaluation of R425 in a device time is judged from, should another limit change in the same TCLK cycle (R445): that time,
CAP_EFF, the target, the cap brake, the overshoot window and BRAKE as they stood before the first change, and the ramp time of the change
that sets CAP_EFF. -/
structure Judged where
  at_ : Nat
  cap : Nat
  target : Ramp
  brakeCap : Option Nat
  window : Option (Nat × Nat × Nat)
  brake : Bool
  ms : Option Nat
  deriving DecidableEq, Repr

/-- The governor beside its registers (R421 to R445, R485): the last 1,000 power samples, newest first; its target; RAMP; the kickstand
input and when kickstand began; the last valid message; the thermal input and its last step; the two pins and when each returned high; the
brake's causes (a cap, by the time applied; THROTTLE_N; COOLANT_ALERT_N, by the time applied); the overshoot window as t₀, largest excess
and cap; the hold of R441; the divisor chosen; when the last RUN or phase ended; since when one waits in Idle-serve, by the work clock;
the MODE applied (R445) and the fused estimate of the setting chosen; sensors' outlying checks and the excluded ones; what the last
evaluation of the caps was judged from. -/
structure Pwr where
  samples : List Nat
  ramp : Ramp
  rampMs : Nat
  kick : Option (Nat × Nat)
  lastMsg : Option Nat
  thermal : Option Nat
  thermalAt : Nat
  throttleUp : Option Nat
  coolLow : Bool
  coolUp : Option Nat
  brakeCap : Option Nat
  brakeThr : Bool
  brakeCool : Option Nat
  window : Option (Nat × Nat × Nat)
  hotHold : Bool
  wantDiv : Nat
  idleFrom : Nat
  wake : Option Nat
  mode : Nat
  /-- The fused power estimate of the setting that the governor chose last, once it has chosen one (R431). -/
  est : Option Nat
  /-- How VDD_CORE moves, in mV; none until the device first sets it after a cold reset (R418, R504). -/
  vdd : Option Ramp
  outlier : Tab Nat
  excluded : List Nat
  judged : Option Judged
  deriving DecidableEq, Repr

/-- A running image (R448, R480): the bundle it came from (0 A, 1 B), VERSION, SVN and VKEY. -/
structure Running where
  bundle : Nat
  version : Nat
  svn : Nat
  vkey : Nat
  deriving DecidableEq, Repr

/-- An activation in progress (R481): COMP, the hubs of the mask not yet done, the image's header hash and what will run. -/
structure Activation where
  comp : Nat
  hubs : List Nat
  hash : Word256
  image : Running
  deriving DecidableEq, Repr

/-- The fuses before the burn that came last, and the device time of that burn (R470): SEC_FUSE_STATE, and the states of the authority
slots. -/
structure Burn where
  at_ : Nat
  fuse : Nat
  slots : List Nat
  deriving DecidableEq, Repr

/-- How a token ends (R461, R463): when, and its outcome as SEC_TOKEN_STATUS shows it. -/
structure TokenEnd where
  until_ : Nat
  check : Nat
  action : Nat
  error : Nat
  owner : Nat
  deriving DecidableEq, Repr

/-- Boot, identity and approval beside the registers (R447 to R470): UID and identity seed fuses; the other manufacture fuses (voltage
table and trims) and whether the CRC of every manufacture group passes; the boot flash; the certificate chain of its device data; the
measurement registers; SEC_MEAS_EXT_DATA; the hashes of the authority slots; token and report buffers; when the nonce was issued; the
running images by COMP; an activation in progress; the last burn of field fuses; and whether the part's field fuses do not take what is
burnt, so that a readback differs (R469). -/
structure Sec where
  uid : Nat
  seed : Nat
  trims : Nat
  fuseCrc : Bool
  flash : Memory
  cert : List Byte
  meas : Tab Word256
  ext : Tab Word256
  authHash : Tab Word256
  token : Memory
  report : Memory
  nonceAt : Nat
  running : Tab Running
  active : Option Activation
  burn : Option Burn
  fuseFails : Bool
  /-- The token that is being applied: BUSY (R461). -/
  apply : Option TokenEnd
  /-- The gear-format tables activated since boot, newest first: the work count at the activation and VERSION (R481). -/
  tables : List (Nat × Nat)
  deriving DecidableEq, Repr

/-- The pins (R498, R499, R508, R512): whether POR_N is low, THERMTRIP_N and DEV_FAULT_N driven low, GPIO levels, the
JTAG instruction register, the SMBus address straps, pulses per revolution of the tachometer pins (R500), and how the board drives
PWR_STEP, THROTTLE_N and COOLANT_ALERT_N, the latter two as low or not (R435 to R437, R516). -/
structure Pins where
  porLow : Bool
  thermTrip : Bool
  devFault : Bool
  gpio : Tab Bool
  jtag : Nat
  smbAddr : Nat
  pulses : Tab Nat
  step : Nat
  throttle : Bool
  coolant : Bool
  deriving DecidableEq, Repr

/-- What stands on the board (R197 to R199, R222, R223, R231, R500): the LPDDR5X packages in GiB and ranks, whether the population is
otherwise valid, the sites whose MR5, MR6 and MR8 differ from site 0's and the channels with another number of ranks, the channels that
fail training by rate code 1 to 5; the flash part's cell type, targets, planes, pages per block, blocks per channel, factory-bad blocks by
channel and whether its population is otherwise valid; the part's data and spare bytes per page, GiB per target, read-retry levels, rated
endurance and highest rates of NV-LPDDR4 and NV-DDR3 in 100 MT/s as the parameter page has them; the targets, by 8 × channel + target,
whose manufacturer and model fields differ from target 0's, and the channels with another number of targets; the modes and rates at which
a channel fails training; and the configuration EEPROM. -/
structure Board where
  pkgGib : Nat
  ranks : Nat
  lpxOk : Bool
  lpxOdd : List Nat
  rankOdd : List Nat
  lpxFails : Tab (List Nat)
  cell : Nat
  targets : Nat
  planes : Nat
  ppb : Nat
  blocksPerCh : Nat
  factoryBad : Tab (List Nat)
  flashOk : Bool
  pageBytes : Nat
  spareBytes : Nat
  tgtGib : Nat
  retries : Nat
  endurance : Nat
  maxRate : Nat × Nat
  partOdd : List Nat
  tgtOdd : List Nat
  flashFails : Tab (List (Nat × Nat))
  eeprom : List Byte
  deriving DecidableEq, Repr

/-- A saved journal (R444, R477): the entries and JNL_STATUS. -/
structure SavedJournal where
  entries : Tab JEntry
  status : Nat
  deriving DecidableEq, Repr

end Sys2Proof.Machine
end

