-- ==== Sys2Proof/Machine/TypesRlt.lean ====
section
/-! DEFINITION. The data of the Ralet fabric (chapter 12): frames, ports, messages and transfers. -/

namespace Sys2Proof.Machine

/-- A frame without its trailer (R350): header fields and words 1 to 30. -/
structure Frame where
  type : Nat
  hops : Nat
  slice : Nat
  dst : Nat
  src : Nat
  vc : Nat
  first : Bool
  last : Bool
  poison : Bool
  words : List Word64
  deriving DecidableEq, Repr

/-- A frame that waits for an output port: the input buffer entry it holds (0 for none), and the transfer it belongs to as
partition and position (R354, R366, R373). -/
structure Queued where
  frame : Frame
  entry : Nat
  xfer : Option (Nat × Nat)
  deriving DecidableEq, Repr

/-- A flow (R360): SRC, DST, SLICE, VC, and the branch it is cut on (16 for all). -/
structure Flow where
  src : Nat
  dst : Nat
  slice : Nat
  vc : Nat
  branch : Nat
  deriving DecidableEq, Repr

/-- A Ralet port beside its registers (R351 to R360, R375, R376). Sending: the frames that wait by VC, the place of the weighted
round robin, the LINK frames to send, the next LSEQ, the replay buffer as LSEQ and frame, oldest first, how many of its
last frames are still to be replayed, how often its oldest has been replayed, when ACK_SEQ last advanced; credits by VC:
announced, used, freed, and last report. Receiving: ACK_SEQ, whether NAK is due, whether it waits for a replayed frame; entries freed by VC,
the next VC to report, and when a report of each VC was last accepted. Then the peer faults of the last second, corrected
symbols not yet counted, the device time the present state began, whether the lanes are trained, whether a retrain keeps the
sequence numbers, what follows STOPPING, the test's stage and when an enable was pended. Then the version that the link runs, which it
keeps while it drains, when CREDIT was last due, and a HELLO of the peer that waits for this device's ID (R355, R358, R359). Last, whether
every LSEQ has been sent since the link came up (R365), and ROLE as the present TRAINING took it (R378). -/
structure Port where
  out : Tab (List Queued)
  wrr : Nat
  links : List (List Word64)
  lseq : Nat
  sent : List (Nat × Queued)
  resend : Nat
  replays : Nat
  ackAt : Nat
  granted : Tab Nat
  used : Tab Nat
  freed : Tab Nat
  report : Tab Nat
  ack : Nat
  nak : Bool
  waiting : Bool
  given : Tab Nat
  crvc : Nat
  heardAt : Tab Nat
  faults : List Nat
  corr : Nat
  since : Nat
  trained : Bool
  retrain : Bool
  toTest : Bool
  test : Nat
  pendAt : Nat
  ver : Nat
  creditAt : Nat
  heard : Option (List Byte)
  wrapped : Bool
  role : Bool
  deriving DecidableEq, Repr

/-- A port whose lanes are off: sequence numbers and credits start over. -/
def Port.clear : Port :=
  ⟨[], 0, [], 0, [], 0, 0, 0, [], [], [], [], 4095, false, false, [], 0, [], [], 0, 0, false, false, false, 0, 0, 0, 0, none, false, false⟩

/-- A message being received (R360, R368): its flow and partition, the port its last frame came by and when, header and
argument words, the bytes so far, whether it is whole, whether it is lost, and for a TOKEN the bytes already delivered. Then when its
first frame came, whether a PUT has passed its checks and holds its tensor (R372), and for a TOKEN the input buffer entries that its
frames keep while its link is full (R369). -/
structure Msg where
  flow : Flow
  part : Nat
  port : Nat
  at_ : Nat
  head : Nat
  arg : Nat
  data : List Byte
  done : Bool
  bad : Bool
  given : Nat
  came : Nat
  begun : Bool
  held : List Nat
  deriving DecidableEq, Repr

/-- OP of a message (R368). -/
def Msg.op (m : Msg) : Nat := m.head / 2 ^ 56 % 256
/-- TID of a message header. -/
def Msg.tid (m : Msg) : Nat := m.head % 2 ^ 32
/-- EVT of a message header. -/
def Msg.evt (m : Msg) : Nat := m.head / 2 ^ 40 % 256
/-- LINK of a message header. -/
def Msg.link (m : Msg) : Nat := m.head / 2 ^ 32 % 128

/-- A transfer in flight (R371 to R373): partition, position, the fields of its descriptor, whether its PUT still waits for its
source, the frames not yet sent, the port they leave by, when the last was sent, whether one was lost, and the ring tensor and SIZE_LOG2 of the ring that its slot is in. -/
structure Xfer where
  part : Nat
  pos : Nat
  op : Nat
  vc : Nat
  dst : Nat
  src : Nat
  dstTid : Nat
  remoteEvt : Nat
  localEvt : Nat
  flags : Nat
  value : Nat
  started : Bool
  left : Nat
  port : Nat
  sentAt : Nat
  lost : Bool
  ring : Nat
  log2 : Nat
  deriving DecidableEq, Repr

/-- The fabric core: ports, input buffer entries in use by number (port, VC, copies still to leave), the next entry number,
the flows that have lost frames, messages being received, the transfers in flight, oldest first, and the engine's ring
position by partition. -/
structure Rlt where
  ports : Tab Port
  entries : Tab (Nat × Nat × Nat)
  nextEntry : Nat
  cut : List Flow
  msgs : List Msg
  xfers : List Xfer
  xpos : Tab Nat
  deriving DecidableEq, Repr

end Sys2Proof.Machine
end

