-- ==== Sys2Proof/Machine/TypesSrv.lean ====
section
/-! DEFINITION. The data of the serving engine (chapter 11): sequences, steps, and records that wait. -/

namespace Sys2Proof.Machine

/-- A request descriptor with its extension (R316). -/
structure Request where
  batch : Nat
  mflags : Nat
  chunk : Nat
  promptTid : Nat
  promptLen : Nat
  maxNew : Nat
  seed : Nat
  temp : Nat
  topP : Nat
  topK : Nat
  lateMax : Nat
  pageLog2 : Nat
  kvTemplate : Nat
  kvTid : Nat
  pdaTid : Nat
  bitmapTid : Nat
  stops : List Nat
  tokenDl : Nat
  deriving DecidableEq, Repr

/-- A live sequence (R315): its REQUEST's number and partition, its descriptor, committed length, last token, tokens
emitted, automaton state and stack, deadline, consecutive LATE outcomes and ENDING; and once an abort has ended its REQUEST
while a step holds it, the error its record carries (R333). -/
structure Seq where
  req : Nat
  part : Nat
  desc : Request
  n : Nat
  last : Nat
  emitted : Nat
  pdaState : Nat
  pdaStack : List Nat
  dl : Nat
  lateRun : Nat
  ending : Bool
  dead : Option Nat
  deriving DecidableEq, Repr

/-- What the sampler found for a sampled sequence (R334 to R341). -/
inductive Sampled where
  | waiting
  | token (t logprob : Nat)
  | none_
  | fault
  deriving DecidableEq, Repr

/-- A participant of a step, or a sequence SKIPPED at its freeze (R324): slot, REQUEST, rows, whether it samples, whether it
was SKIPPED, and what was sampled. -/
structure Participant where
  slot : Nat
  req : Nat
  rows : Nat
  samples : Bool
  skipped : Bool
  got : Sampled
  deriving DecidableEq, Repr

/-- A step in flight (R322 to R330): the command and handle of its STEP, its task and partition, its descriptor's fields, its
phases with their stream descriptors, the next phase, whether a phase runs, the freeze's device time, its rows and
participants, the tokens and the unfinished token that have come over the west edge (R327), and the step tensors that it has written
(R325). -/
structure Step where
  seq : Nat
  handle : Nat
  task : Nat
  part : Nat
  edge : Bool
  bf16 : Bool
  rowBind : Nat
  seqBind : Nat
  logitTid : Nat
  phases : List (RunBlk × List StreamDesc)
  phase : Nat
  running : Bool
  tf : Nat
  rows : Nat
  parts : List Participant
  tokens : List (List Word256)
  flits : List Word256
  writes : List Nat
  /-- The work count at which the phase became ready to start (R423). -/
  readyAt : Nat
  deriving DecidableEq, Repr

/-- A phase is ready to start and does not run. -/
def Step.waits (x : Step) : Bool := !x.running && decide (x.phase < x.phases.length)

/-- The end of a REQUEST that follows its END record (R281, R332): its number, whether it ABORTED, error and DETAIL, and the TIDs
that stay reserved until then: partition, first and count (R317). -/
structure SeqEnd where
  req : Nat
  aborted : Bool
  error : Nat
  detail : Nat
  part : Nat
  kvTid : Nat
  pages : Nat
  deriving DecidableEq, Repr

/-- Records that wait for the ring of their batch, the REQUESTs that end with them, and whether the wait is counted (R345). -/
structure RecordGroup where
  batch : Nat
  recs : List (List Byte)
  ends : List SeqEnd
  counted : Bool
  deriving DecidableEq, Repr

/-- What a batch remembers beside its registers: the rows of its last freeze, the device time of its last drain while no
freeze has followed it (R319), and when its pended ENABLE was written (R314). -/
structure BatchMem where
  lastRows : Nat
  drainAt : Option Nat
  pendAt : Nat
  deriving DecidableEq, Repr

/-- The serving engine: sequences by 512 × batch + slot, steps in flight by batch, records that wait, oldest first, and each
batch's memory. -/
structure Srv where
  seqs : Tab Seq
  steps : Tab Step
  groups : List RecordGroup
  mem : Tab BatchMem
  deriving DecidableEq, Repr

end Sys2Proof.Machine
end

