-- ==== Sys2Proof/Machine/State.lean ====
section
/-! DEFINITION. The state of the block: everything the manual gives the device, as plain data, and the queue of commands
that wait. -/

namespace Sys2Proof.Machine

/-- Why the block stops with a fault. -/
inductive Fault where
  /-- A command whose operands are outside what a sender can form (a list of the wrong length, a number wider than its
  field); raised by `exec` of that command. Safe: nothing is claimed of such a command. -/
  | illFormed
  deriving DecidableEq, Repr

/-- Why the block has no meaning for a command. -/
inductive Refusal where
  /-- A row of the table that this model gives no meaning; raised by `exec`. Safe: nothing is claimed of it. -/
  | notModelled (mnemonic : String)
  deriving DecidableEq, Repr

/-- What the device sends out of its package, newest first (MODEL'S OWN record). -/
inductive Sent where
  | msix (f vec : Nat)
  | pldm (event : Nat)
  | frame (port : Nat) (bytes : List Byte)
  | readData (f : Nat) (bytes : List Byte)
  | readPoisoned (f : Nat)
  | unsupported (f : Nat)
  | retryStatus (f : Nat)
  | error (f severity : Nat)
  | ide (stream sub : Nat) (k : Bool) (m : Sent)
  | mailbox (bytes : List Byte)
  | boundary (code value : Nat)
  deriving DecidableEq, Repr

/-- What the fabric core holds for an east link (R369): flits as payload and EOT, the tokens the RUN has been given, and whether
one of them is under way. -/
structure EastIn where
  flits : List (Word256 × Bool)
  tok : Nat
  mid : Bool
  deriving DecidableEq, Repr

/-- The array (chapters 02, 04): cogs by index, the edge links into it, the flits that left it by its edge links, the
planes of each block (2 × block + plane), the regions with a RUN in progress by north-western block, and for each east link
the flits that have come for it and the tokens that the RUN has been given (R369). -/
structure Arr where
  cogs : Tab Cog
  edges : Tab EdgeIn
  sinks : Tab (List Flit)
  planes : Tab BlockPlane
  regions : Tab Region
  east : Tab EastIn
  deriving DecidableEq, Repr

/-- The tensor table and the pool (chapter 06): tensors by key, evictions under way, the unused remainder of each admission
reservation by the sequence number of its REQUEST, as partition and pages (R321), the shadow pages of KV tensors (R326), and the number
of write-backs requested so far (R218). -/
structure Mem where
  tensors : Tab Tensor
  evicts : List EvictWait
  admits : Tab (Nat × Nat)
  kvShadows : Tab Shadow
  wbCount : Nat
  deriving DecidableEq, Repr

/-- A partition enable that waits for a shutdown: RECT, HUBS and when the write was accepted (R297). -/
structure PartPend where
  rect : Nat
  hubs : Nat
  since : Nat
  deriving DecidableEq, Repr

/-- Queues, commands, tasks, the operations under way by 16 × sequence number + handle, the journal's two copies, the sequence counter,
the hubs, the active slot table, the slot that runs, the pended partition enables, and by 8 × shared engine + rank the partition whose
turn it is and the units left of it (chapters 09, 10). -/
structure Ctl where
  queues : Tab Queue
  cmds : Tab Cmd
  tasks : Tab Task
  ops : Tab AOp
  jnlA : Tab JEntry
  jnlB : Tab JEntry
  nextSeq : Nat
  hubs : Tab Hub
  table : Tab (Option Nat)
  slot : Nat
  partPend : Tab PartPend
  turns : Tab (Nat × Nat)
  deriving DecidableEq, Repr

/-- The interrupt controller beside its registers (R407 to R410): deliveries in flight, each target's source, priority and
time of selection, and the active handlers, innermost first, as target, source and level. -/
structure Intc where
  flight : Tab (Nat × Nat × Nat)
  active : List (Nat × Nat × Nat)
  /-- The vector address that each management core last jumped to, by target number 8 or 9 (R408). -/
  vec : Tab Nat
  deriving DecidableEq, Repr

/-- Observation beside its registers (R486, R490 to R492): the capture FIFO, oldest first, each record with its stream (0 samples, 1 trace);
the running number of trace records,
the holder of the sampling timer (the owner code of R486), and when the pins claimed as trace triggers last pulsed (R490). -/
structure Obs where
  fifo : List (Nat × List Byte)
  runNo : Nat
  timer : Option Nat
  trigAt : Option Nat
  /-- After a device-fatal latch: the device times at which the device is STOPPED and at which the journal is final (R477). -/
  stops : Option (Nat × Nat)
  deriving DecidableEq, Repr

/-- The state of the block. `work` is the counted time of R432 since cold reset, in units of 1 ÷ 38,400 ns of Max-mode time; `aclk`
counts ACLK since cold reset in 40ths of a cycle (R16); `saved`
is the journal saved in the bulk-tier reserve; `beats` is when each event that the device makes periodically last happened, by number. -/
structure State where
  time : Nat
  work : Nat
  aclk : Nat
  clocks : Bool
  regs : Tab Word64
  arr : Arr
  mem : Mem
  ctl : Ctl
  blk : Blk
  srv : Srv
  intc : Intc
  obs : Obs
  lpx : Lpx
  rlt : Rlt
  pci : Pci
  pwr : Pwr
  sec : Sec
  pins : Pins
  board : Board
  saved : Option SavedJournal
  fresh : Nat
  beats : Tab Nat
  msix : List Nat
  out : List Sent
  hostMem : Memory
  pending : List Instr
  deriving DecidableEq, Repr

/-- The governor after cold reset: nothing sampled, no limit but those of the registers. -/
def Pwr.reset : Pwr :=
  ⟨[], ⟨0, 1200, 0, 1200⟩, 0, none, none, none, 0, none, false, none, none, false, none, none, false, 0, 0, none, 0, none, none, [], [], none⟩

/-- Nothing in the fabric core. -/
def Rlt.reset : Rlt := ⟨[], [], 1, [], [], [], []⟩

/-- The host interface after cold reset (PRESUMED, logs 2 and 91: what PCI Express resets to; the enables are clear, NumVFs is 0, Max
Payload Size 128 and Max Read Request Size 512). -/
def Pci.reset : Pci := ⟨[], [], [], [], 0, [], [], [], 512, false, [], [], none, [], [], [], false, 128, [], [], [], [], []⟩

/-- Fuses as an unprogrammed part has them, an empty boot flash (DESIGN CHOICE, log 2). -/
def Sec.reset : Sec := ⟨0, 0, 0, true, [], [], [], [], [], [], [], 0, [], none, none, false, none, []⟩

/-- Pins at the levels of their pull-ups (R498); IDCODE is selected (R512). -/
def Pins.reset : Pins := ⟨false, false, false, [], 1, 0, [], 7, false, false⟩

/-- A board as the manual's examples have it (DESIGN CHOICE, log 29): sixteen packages of 64 GiB, two ranks (R225); TLC flash of 8
targets of 256 GiB, 4 planes and 1,536 pages per block (R201, R204); pages of 16 KiB and 1,920 B, the highest rates of R197, five retry
levels and a rated endurance of 3,000 erases. -/
def Board.reset : Board :=
  ⟨64, 2, true, [], [], [], 1, 8, 4, 1536, 87381, [], true, 16384, 1920, 256, 5, 3000, (36, 16), [], [], [], []⟩

/-- The state after cold reset. -/
def State.reset : State where
  time := 0
  work := 0
  aclk := 0
  clocks := true
  regs := []
  arr := ⟨[], [], [], [], [], []⟩
  mem := ⟨[], [], [], [], 0⟩
  ctl := ⟨[], [], [], [], [], [], 1, [], [], 0, [], []⟩
  blk := ⟨[], [], [], [], [], [], [], 0, 1, 0⟩
  srv := ⟨[], [], [], []⟩
  intc := ⟨[], [], []⟩
  obs := ⟨[], 0, none, none, none⟩
  lpx := ⟨[], [], [], 0, [], [], 0⟩
  rlt := Rlt.reset
  pci := Pci.reset
  pwr := Pwr.reset
  sec := Sec.reset
  pins := Pins.reset
  board := Board.reset
  saved := none
  fresh := 0
  beats := []
  msix := []
  out := []
  hostMem := []
  pending := []

end Sys2Proof.Machine
end

