-- ==== Sys2Proof/Machine/Ops.lean ====
section
/-! DEFINITION. The operations that every chapter shares: reading and writing registers and counters, free values,
geometry of blocks and cogs, raising interrupt sources, messages to the host, trace records and journal entries. -/

namespace Sys2Proof.Machine

/-- The outcome type of the block's commands. -/
abbrev Result := Host.Outcome State Fault Refusal

/-! ## Registers and counters -/

/-- A register instance as it is held (R10, R11). -/
def State.reg (s : State) (k : RegKind) (i : Nat) : Nat :=
  (Tab.get (BitVec.ofNat 64 (k.resetVal i)) s.regs (k.key i)).toNat

/-- A register instance written whole. -/
def State.setReg (s : State) (k : RegKind) (i v : Nat) : State :=
  { s with regs := Tab.set (BitVec.ofNat 64 (k.resetVal i)) s.regs (k.key i) (BitVec.ofNat 64 v) }

/-- A field of instance `i` of a register. -/
def State.rd (s : State) (f : Fld) (i : Nat) : Nat := bits (s.reg f.kind i) f.lo f.w

/-- A field of instance `i` of a register written, truncated to the field's width. -/
def State.wr (s : State) (f : Fld) (i v : Nat) : State :=
  s.setReg f.kind i (setBits (s.reg f.kind i) f.lo f.w v)

/-- A one-bit field as a truth value. -/
def State.on (s : State) (f : Fld) (i : Nat) : Bool := s.rd f i != 0

/-- A one-bit field set to a truth value. -/
def State.put (s : State) (f : Fld) (i : Nat) (b : Bool) : State := s.wr f i (b2n b)

/-- A saturating counter field raised by `n` (R493). -/
def State.count (s : State) (f : Fld) (i n : Nat) : State := s.wr f i (satAdd (maxOf f.w) (s.rd f i) n)

/-- A field that saturates at its largest value, written with a measured value. -/
def State.wrSat (s : State) (f : Fld) (i v : Nat) : State := s.wr f i (min v (maxOf f.w))

/-- One bit `n` of a register array of 32-bit words. -/
def State.bitAt (s : State) (f : Fld) (n : Nat) : Bool := bit (s.rd f (n / 32)) (n % 32)

/-- One bit `n` of a register array of 32-bit words, written. -/
def State.putBit (s : State) (f : Fld) (n : Nat) (b : Bool) : State :=
  s.wr f (n / 32) (setBits (s.rd f (n / 32)) (n % 32) 1 (b2n b))

/-- A free value: the next of the values that nothing constrains (log 1). -/
def State.draw (s : State) (w : Nat) : Nat × State :=
  (Config.freeValue s.fresh % 2 ^ w, { s with fresh := s.fresh + 1 })

/-- A message that leaves the package. -/
def State.send (s : State) (m : Sent) : State := { s with out := m :: s.out }

/-! ## When the device works -/

/-- The device is in the fatal state (R477). -/
def State.fatal (s : State) : Bool := s.on F.OBS_FATAL.FATAL 0

/-- The device is halted (R442). -/
def State.halted (s : State) : Bool := s.on F.PWR_STATUS.HALTED 0

/-- The device did not boot: BOOT_FAIL or RECOVERY (R450, R451). -/
def State.unbooted (s : State) : Bool := decide (2 ≤ s.rd F.SEC_BOOT_STATUS.STATE 0)

/-- Whether the device drives the QSPI pins: while POR_N is low and in RECOVERY they are in high impedance, in BOOT_FAIL they are driven
(R450, R451, R499). -/
def State.qspiDriven (s : State) : Bool := !s.pins.porLow && s.rd F.SEC_BOOT_STATUS.STATE 0 != 3

/-- The clocks run, the device did not fail to boot, and it is neither in the fatal state nor halted: it serves its commands (R442,
R443, R450, R451, R477, R479, R508). -/
def State.live (s : State) : Bool := s.clocks && !s.pins.porLow && !s.fatal && !s.halted && !s.unbooted

/-- One ns of Max-mode time in the units of the work clock (R432): ACLK divisors and issue fractions divide it. -/
def workUnit : Nat := 38400

/-- The rate of the work clock per ns (R432): ACLK ÷ 2.25 GHz times the issue fraction, in 38,400ths. -/
def State.workRate (s : State) : Nat :=
  let div := [120, 96, 80, 60].getD (s.rd F.PWR_STATUS.ACLK_DIV 0) 120
  if s.on F.PWR_STATUS.BRAKE 0 then div * 128 else div * 5 * s.rd F.PWR_STATUS.DUTY 0

/-- The rate of ACLK in 40ths of a cycle per ns: the 9.0 GHz root clock over the divisor 4, 5, 6 or 8 that ACLK_DIV codes (R16,
R418); it stands in Idle-serve (R422). -/
def State.aclkRate (s : State) : Nat := if s.on F.PWR_STATUS.IDLE 0 || s.halted || s.fatal then 0 else [90, 72, 60, 45].getD (s.rd F.PWR_STATUS.ACLK_DIV 0) 90

/-- The ACLK cycle that runs, counted from cold reset (R16). -/
def State.cycle (s : State) : Nat := s.aclk / 40

/-- The device time has reached a time and a duration after it (R15). -/
def State.due (s : State) (t d : Nat) : Bool := decide (timeAdd t d ≤ s.time)

/-- Event `k` that the device makes once every `d` ns has not happened for that time, or not yet at all. -/
def State.beatDue (s : State) (k d : Nat) : Bool := (Tab.find s.beats k).all fun t => s.due t d

/-- Event `k` happens now. -/
def State.beat (s : State) (k : Nat) : State := { s with beats := Tab.insert s.beats k s.time }

/-- The numbers of the periodic events: the governor's sample and evaluation (R424, R427), the temperatures (R440), margin and sensor
checks (R484, R485), queue-depth samples (R489), and the windows of the tachometer pins (R502). -/
def beatSample : Nat := 0
def beatEval : Nat := 1
def beatTemp : Nat := 2
def beatMargin : Nat := 3
def beatSensors : Nat := 4
def beatDepth : Nat := 5
def beatTach (n : Nat) : Nat := 16 + n

/-- The next state `t` where the device serves its commands, the same state where it does not. -/
def State.ifLive (s : State) (t : State) : Result := .next (if s.live then t else s)

/-- The next state `t` where the clocks run (what the fatal and halted states still serve). -/
def State.ifClocked (s : State) (t : State) : Result := .next (if s.clocks && !s.pins.porLow then t else s)

/-! ## Blocks, rectangles and functions -/

/-- The column of a cog (R80). -/
def cogX (c : Nat) : Nat := c % 144
/-- The row of a cog (R80). -/
def cogY (c : Nat) : Nat := c / 144
/-- The block of a cog: blocks are 16 × 16 cogs, nine to a row (R289, R290). -/
def blockOf (c : Nat) : Nat := (cogY c / 16) * 9 + cogX c / 16
/-- The cogs of a block, in order of rising y and then x. -/
def cogsOf (b : Nat) : List Nat :=
  (List.range 16).flatMap fun dy => (List.range 16).map fun dx => (b / 9 * 16 + dy) * 144 + b % 9 * 16 + dx
/-- BX0 of a packed rectangle (R163). -/
def rectX (r : Nat) : Nat := bits r 0 4
/-- BY0 of a packed rectangle. -/
def rectY (r : Nat) : Nat := bits r 4 4
/-- BW of a packed rectangle. -/
def rectW (r : Nat) : Nat := bits r 8 4
/-- BH of a packed rectangle. -/
def rectH (r : Nat) : Nat := bits r 12 4
/-- A packed rectangle that lies on the array (R109, R289). -/
def rectOk (r : Nat) : Bool :=
  decide (1 ≤ rectW r ∧ 1 ≤ rectH r ∧ rectX r + rectW r ≤ 9 ∧ rectY r + rectH r ≤ 8)
/-- Whether block `b` lies in a packed rectangle. -/
def inRect (r b : Nat) : Bool :=
  decide (rectX r ≤ b % 9 ∧ b % 9 < rectX r + rectW r ∧ rectY r ≤ b / 9 ∧ b / 9 < rectY r + rectH r)
/-- The blocks of a packed rectangle, lowest number first. -/
def rectBlocks (r : Nat) : List Nat := (List.range 72).filter (inRect r)
/-- The cogs of a packed rectangle in record order: rising y, and within one y rising x (R109). -/
def rectCogs (r : Nat) : List Nat :=
  (List.range (rectH r * 16)).flatMap fun dy =>
    (List.range (rectW r * 16)).map fun dx => (rectY r * 16 + dy) * 144 + rectX r * 16 + dx
/-- The number of a rectangle's north-western block, by which its region is known. -/
def rectKey (r : Nat) : Nat := rectY r * 9 + rectX r
/-- Whether two packed rectangles share a block. -/
def rectMeets (r r' : Nat) : Bool := (rectBlocks r).any (inRect r')
/-- Whether every block of the first rectangle lies in the second. -/
def rectInside (r r' : Nat) : Bool := (rectBlocks r).all (inRect r')

/-- The cog at the far end of a mesh link, or none where the link leaves the array (R47). -/
def neighbour (c : Nat) : Side → Option Nat
  | .n => if cogY c = 0 then none else some (c - 144)
  | .e => if cogX c = 143 then none else some (c + 1)
  | .s => if cogY c = 127 then none else some (c + 144)
  | .w => if cogX c = 0 then none else some (c - 1)

/-- The number of a side: N 0, E 1, S 2, W 3 (R40). -/
def Side.num : Side → Nat
  | .n => 0 | .e => 1 | .s => 2 | .w => 3

/-- The side of a number. -/
def Side.ofNum : Nat → Side
  | 0 => .n | 1 => .e | 2 => .s | _ => .w

/-- The opposite side. -/
def Side.opp : Side → Side
  | .n => .s | .e => .w | .s => .n | .w => .e

/-- The four sides. -/
def sides : List Side := [.n, .e, .s, .w]

/-- Whether the fuse map fences a cog (R70, R80). -/
def State.fenced (s : State) (c : Nat) : Bool := s.bitAt F.COG_FENCE_MAP.FENCED c

/-- Whether function `f` is the physical function. -/
def isPF (f : Nat) : Bool := f == 0

/-- A write that an access rule does not allow is ignored and counted (R403). -/
def State.deny (s : State) (f : Nat) : State := s.count F.PCI_ERR_CNT.DENIED f 1

/-- Whether function `f` may reach what belongs to partition `p`: the physical function or the partition's own virtual
function. -/
def ownFn (f p : Nat) : Bool := f == 0 || f == p + 1

/-- Whether function `f` is present: the PF, or a VF that VF Enable and NumVFs give (R381). -/
def State.present (s : State) (f : Nat) : Bool := f == 0 || (s.pci.vfEn && decide (f ≤ s.pci.numVfs))

/-- Whether function `f` is in reset (R401). -/
def State.inReset (s : State) (f : Nat) : Bool := decide (s.time < Tab.get 0 s.pci.resetEnd f)

/-- Whether function `f` may master the bus: it is present and not in reset, Bus Master Enable is set, and it is not in D3hot (R381, R391, R399,
R402). -/
def State.busOk (s : State) (f : Nat) : Bool :=
  s.present f && !s.inReset f && Tab.get false s.pci.bme f && !Tab.get false s.pci.d3 f

/-- A TLP that the device sends for function `f`: in its IDE stream while that is Secure, in the sub-stream of posted requests (0), of non-posted
ones (1) or of completions (2), with the K bit of its keys (R394). -/
def State.sendTlp (s : State) (f sub : Nat) (m : Sent) : State :=
  s.send (if s.on F.PCI_IDE_STATE.SECURE f then .ide f sub (Tab.get false s.pci.ideK f) m else m)

/-- The bit of the uncorrectable error status that reports an event of R396: those of PCI Express, and Uncorrectable Internal Error for a request
outside the windows, for which it has none (PRESUMED, log 91). -/
def aerBit (kind : Nat) : Nat :=
  match kind with
  | 1 => 18
  | 2 => 19
  | 7 => 16
  | 8 => 14
  | 9 => 22
  | 10 => 28
  | _ => 20

/-- An event of R396 is reported through AER (R379, R396): its status bit, the header of the first (a free value), and, where it is not masked and
Device Control enables it, a message at the severity that AER selects. A poisoned write is an advisory non-fatal error. Kind 0 is none. -/
def State.report (s : State) (kind f : Nat) : State :=
  let x := Tab.get Aer.start s.pci.aer f
  let put (s : State) (x : Aer) : State := { s with pci := { s.pci with aer := Tab.set Aer.start s.pci.aer f x } }
  if kind = 0 then s
  else if kind = 5 then
    let s := put s { x with status := setBits x.status 12 1 1, corr := setBits x.corr 13 1 1 }
    if bit x.corrMask 13 || !bit x.ctl 0 then s else s.sendTlp f 0 (.error f 0)
  else
    let k := aerBit kind
    let fatal := bit x.severity k
    if bit x.mask k then put s { x with status := setBits x.status k 1 1 }
    else
      let (h, s) := if x.status = 0 then s.draw 128 else (x.header, s)
      let s := put s { x with status := setBits x.status k 1 1, header := h }
      if (fatal && bit x.ctl 2) || (!fatal && bit x.ctl 1) || (k == 20 && bit x.ctl 3) then s.sendTlp f 0 (.error f (if fatal then 2 else 1)) else s

/-- An event of R396 is counted for its function and logged (R397), and reported through AER: kinds 1 to 6 and 10 are received requests, 7 and 8 DMA failures, 9
a request outside the windows. -/
def State.pciEvent (s : State) (kind f addr : Nat) : State :=
  let i := s.rd F.PCI_ERR_POS.NEXT 0
  let s := s.count (if kind = 9 then F.PCI_ERR_CNT.WIN_DENY else if kind = 7 ∨ kind = 8 then F.PCI_ERR_CNT.DMA_FAIL else F.PCI_ERR_CNT.RX_REQ) f 1
  let s := ((((s.setReg .PCI_ERR_LOG i 0).put F.PCI_ERR_LOG.VALID i true).wr F.PCI_ERR_LOG.KIND i kind).wr F.PCI_ERR_LOG.FUNC i f).wr
    F.PCI_ERR_LOG.ADDR i addr
  (((s.wr F.PCI_ERR_TIME.TIME i s.time).wr F.PCI_ERR_POS.NEXT 0 (i + 1)).count F.PCI_ERR_POS.TOTAL 0 1).report kind f

/-- Whether a TLP for function `f` is refused or discarded for its IDE stream: the stream has failed, or it is not Secure though REQUIRE is set
(R394, R395). -/
def State.ideRefuses (s : State) (f : Nat) : Bool :=
  Tab.get false s.pci.ideDown f || (s.on F.PCI_IDE_STATE.REQUIRE f && !s.on F.PCI_IDE_STATE.SECURE f)

/-- Why a memory request to function `f` is turned away, as its kind of R396: IDE_FAIL where its stream refuses it; UNSUPPORTED where Memory Space
Enable is clear, the function is absent, in D3hot, or in reset (R401). -/
def State.turnedAway (s : State) (f : Nat) : Option Nat :=
  if s.ideRefuses f then some 10
  else if !Tab.get false s.pci.mse f || !s.present f || Tab.get false s.pci.d3 f || s.inReset f then some 6
  else none

/-- The main tier has come up (R223, R231). -/
def State.mainUp (s : State) : Bool := s.on F.LPX_STATUS.READY 0

/-- A memory request of the host to function `f` at BAR offset `off`: the next state `t` where the device serves requests and the
function takes it; where the function turns it away, the event is logged (R396, R397). Without a main tier only the PF's
registers in BAR0 respond (R223). -/
def State.ifHost (s : State) (f off : Nat) (t : State) : Result :=
  s.ifLive (match s.turnedAway f with
    | some k => s.pciEvent k f off
    | none => if f = 0 ∨ s.mainUp = true then t else s)

/-! ## Interrupt sources and messages (R404, R405, R414) -/

/-- The MSI-X sender takes a request for vector `vec` of function `f`; a request for a vector already pending merges. -/
def State.request (s : State) (f vec : Nat) : State :=
  if s.msix.contains (f * 64 + vec) then s else { s with msix := s.msix ++ [f * 64 + vec] }

/-- A request for a vector that 0xFF means "none" in. -/
def State.requestVec (s : State) (f vec : Nat) : State := if vec = 0xFF then s else s.request f (vec % 64)

/-- The partition a source belongs to, if it is a partition source (R404). -/
def State.srcPart (s : State) (n : Nat) : Option Nat :=
  if 72 ≤ n ∧ n ≤ 87 then some (n - 72)
  else if 88 ≤ n ∧ n ≤ 103 then some (n - 88)
  else if 104 ≤ n ∧ n ≤ 135 then some (s.rd F.SRV_BATCH_CFG.PART (n - 104))
  else if 256 ≤ n ∧ n ≤ 511 then some ((n - 256) / 16)
  else none

/-- A host-routed source that is pending, unmasked and of PRIO 1 or more hands its message to the sender, and PENDING clears
(R406, R414). -/
def State.handOver (s : State) (n : Nat) : State :=
  if s.bitAt F.INTC_PEND.BITS n && s.rd F.INTC_SRC_CFG.TARGET n == 10 && decide (1 ≤ s.rd F.INTC_SRC_CFG.PRIO n) &&
      !s.bitAt F.INTC_MASK.MASK n && !s.bitAt F.INTC_ACTIVE.BITS n
  then (s.putBit F.INTC_PEND.BITS n false).request (s.rd F.INTC_SRC_CFG.FUNC n) (s.rd F.INTC_SRC_CFG.VEC n)
  else s

/-- An event of source `n` arrives: PENDING is set, events merge, and a host-routed source is handed to the sender (R404,
R405, R414). Sources 180 to 255 are reserved and never pending. -/
def State.raise (s : State) (n : Nat) : State :=
  if 180 ≤ n ∧ n ≤ 255 then s else (s.putBit F.INTC_PEND.BITS n true).handOver n

/-- The cog error source of block `b` is raised. -/
def State.cogError (s : State) (b : Nat) : State := s.raise b

/-! ## Observation (R474, R490, R493) -/

/-- A class-`k` event of R474 is counted. -/
def State.fault (s : State) (k : Nat) : State := s.count F.OBS_CLASS_CNT.COUNT k 1

/-- A host read for function `f` from address `a` outside the loads of tensors (R396): as a free value says, it completes, completes at its
re-request, or fails at both and so as a host read (R192; log 92). -/
def State.hostTry {α : Type} (s : State) (f a : Nat) (fails go : State → α) : α :=
  let (v, s) := s.draw 2
  let again (s : State) : State := (s.pciEvent 8 f a).fault 0
  if v < 2 then go s
  else if v = 2 then go (again s)
  else fails ((again s).pciEvent 8 f a)

/-- Device time for a trace record with TS = 1, the record's running number with TS = 0 (R490). A trace that was enabled with
TS = 0 holds no timer and stamps no time, whatever TS became since (R488; DEDUCED, log 60). -/
def State.traceStamp (s : State) : Nat := if s.on F.OBS_TRACE_CTRL.TS 0 && s.obs.timer == some 0x102 then s.time else s.obs.runNo

/-- The 32 bytes of a trace record (R490). -/
def traceBytes (stamp event seq a1 a2 : Nat) : List Byte :=
  toBytes 8 stamp ++ toBytes 8 (seq % 2 ^ 48 + event % 256 * 2 ^ 48 + 2 * 2 ^ 56 + 1 * 2 ^ 60) ++ toBytes 8 a1 ++ toBytes 8 a2

/-- A trace event (R490, R491): a record goes to the capture FIFO of 64 when trace runs and OBS_TRACE_MASK selects the event, or is
dropped and counted when the FIFO is full; after the device-fatal record nothing is captured; a recorded event of OBS_TRIG_MASK pulses the
trigger pins. -/
def State.trace (s : State) (event seq a1 a2 : Nat) : State :=
  if s.rd F.OBS_TRACE_CTRL.STATE 0 = 1 ∧ bit (s.rd F.OBS_TRACE_MASK.EVENTS 0) (event - 1) ∧ (s.fatal = false ∨ event = 0x0C) then
    if s.obs.fifo.length < 64 then
      { s with obs := { s.obs with
          fifo := s.obs.fifo ++ [(1, traceBytes s.traceStamp event seq a1 a2)]
          runNo := s.obs.runNo + 1
          trigAt := if bit (s.rd F.OBS_TRIG_MASK.EVENTS 0) (event - 1) then some s.time else s.obs.trigAt } }
    else s.count F.OBS_BUF_POS.DROPPED 1 1
  else s

/-- A power event: record 0x09 with PWR_STATUS and PWR_MEAS, and POWER_EVT is raised (R404, R490). -/
def State.powerEvent (s : State) : State :=
  (s.trace 0x09 0 (s.reg .PWR_STATUS 0) (s.reg .PWR_MEAS 0)).raise 157

/-! ## The journal (R254, R278 to R282) -/

/-- The number of a journal state (R279). -/
def JState.num : JState → Nat
  | .empty => 0 | .accepted => 1 | .dispatched => 2 | .completed => 3 | .aborted => 4 | .refused => 5

/-- Whether an entry is ACCEPTED or DISPATCHED (R254). -/
def JState.open_ : JState → Bool
  | .accepted => true | .dispatched => true | _ => false

/-- Word 0 of a journal entry (R279). -/
def JEntry.word0 (e : JEntry) : Nat :=
  e.seq % 2 ^ 48 + e.state.num * 2 ^ 48 + e.ver % 16 * 2 ^ 52 + e.cls % 4 * 2 ^ 56 + b2n e.link * 2 ^ 58 + e.kind % 2 * 2 ^ 59
/-- Word 1 of a journal entry (R279). -/
def JEntry.word1 (e : JEntry) : Nat :=
  e.queue % 2 ^ 10 + e.part % 16 * 2 ^ 10 + e.status % 256 * 2 ^ 16 + e.error % 256 * 2 ^ 24 + e.pos % 2 ^ 32 * 2 ^ 32
/-- Word 3 of a journal entry (R279). -/
def JEntry.word3 (e : JEntry) : Nat := e.cookie % 2 ^ 32 + e.note % 2 ^ 32 * 2 ^ 32
/-- The 32 bytes of a journal entry (R279). -/
def JEntry.bytes (e : JEntry) : List Byte :=
  toBytes 8 e.word0 ++ toBytes 8 e.word1 ++ toBytes 8 e.time ++ toBytes 8 e.word3

/-- The journal entry of sequence number `n` (R278). -/
def State.jget (s : State) (n : Nat) : JEntry := Tab.get JEntry.zero s.ctl.jnlA (n % 65536)

/-- A journal entry written: both copies take it (R478). -/
def State.jput (s : State) (n : Nat) (e : JEntry) : State :=
  { s with ctl := { s.ctl with
      jnlA := Tab.set JEntry.zero s.ctl.jnlA (n % 65536) e
      jnlB := Tab.set JEntry.zero s.ctl.jnlB (n % 65536) e } }

/-- A change of a journal entry's state: the entry is written with the device time of the change (R279, R280), and the
change is a trace event (R490). -/
def State.jset (s : State) (n : Nat) (e : JEntry) : State :=
  (s.jput n { e with time := s.time }).trace 0x01 e.seq e.word1 e.word0

/-- The entries ACCEPTED or DISPATCHED (JNL_COUNT.LIVE). -/
def State.jlive (s : State) : Nat := (s.ctl.jnlA.filter fun e => e.2.state.open_).length

/-! ## Host memory -/

/-- Bytes of host memory as a DMA read of the device sees them (R389; MODEL'S OWN field). -/
def State.hostRead (s : State) (a n : Nat) : List Byte := s.hostMem.readN a n

/-- Bytes the device writes to host memory. -/
def State.hostWrite (s : State) (a : Nat) (bs : List Byte) : State := { s with hostMem := s.hostMem.writeN a bs }

/-- Whether every byte of a run of host addresses lies in windows of function `f` that permit the access (R389): windows
are BASE to LIMIT inclusive in units of 4 KiB pages, with R and W. -/
def State.window (s : State) (f a n : Nat) (write : Bool) : Bool :=
  let ok (page : Nat) : Bool := (List.range 8).any fun w =>
    let i := RegKind.idx .PCI_MWIN_BASE f w
    decide (s.rd F.PCI_MWIN_BASE.BASE i ≤ page ∧ page ≤ s.rd F.PCI_MWIN_LIMIT.LIMIT i) &&
      (if write then s.on F.PCI_MWIN_LIMIT.W i else s.on F.PCI_MWIN_LIMIT.R i)
  decide (a + n ≤ 2 ^ 64) && (n == 0 || (List.range ((a + n - 1) / 4096 + 1 - a / 4096)).all fun k => ok (a / 4096 + k))

end Sys2Proof.Machine
end

