-- ==== Sys2Proof/Machine/Flash.lean ====
section
/-! DEFINITION. The bulk tier under the tensors (R197 to R203): the population and its training, units and striping, sectors, stripe
parity, and what a page that has failed gives. -/

namespace Sys2Proof.Machine

/-! ## The population and its training (R197 to R199) -/

/-- The options of R197 that the parameter page must show: TLC or QLC, pages of 16 KiB with at least 1,920 spare bytes, 2, 4 or 6 planes,
targets of at most 256 GiB. -/
def Board.partOk (b : Board) : Bool :=
  (b.cell == 1 || b.cell == 2) && b.pageBytes == 16384 && decide (1920 ≤ b.spareBytes) && [2, 4, 6].contains b.planes &&
  decide (b.tgtGib ≤ 256)

/-- Every target is the same part, and every channel carries 1, 2, 4 or 8 of them (R197, R198). -/
def Board.population (b : Board) : Bool := b.flashOk && b.partOk && [1, 2, 4, 8].contains b.targets && b.partOdd.isEmpty && b.tgtOdd.isEmpty

/-- The modes (1 NV-LPDDR4, 2 NV-DDR3) and rates in 100 MT/s in the order in which a channel tries them, those that the parameter page
permits (R197, R199). -/
def Board.rates (b : Board) : List (Nat × Nat) :=
  ([36, 32, 24, 16].filter fun r => decide (r ≤ b.maxRate.1)).map (fun r => (1, r)) ++
  ([16, 12, 8].filter fun r => decide (r ≤ b.maxRate.2)).map fun r => (2, r)

/-- Mode and rate at which a channel trains: the first that does not fail; 0 and 0 where each fails (R199). -/
def State.flashTrain (s : State) (c : Nat) : Nat × Nat :=
  (s.board.rates.find? fun e => !(Tab.get [] s.board.flashFails c).contains e).getD (0, 0)

/-- The bulk tier can come up: a population that R197 and R198 allow, every channel trained (R198, R199). -/
def State.flashValid (s : State) : Bool := s.board.population && (List.range 32).all fun c => (s.flashTrain c).1 != 0

/-- The bulk tier is up (R198, R202). -/
def State.blkReady (s : State) : Bool := s.on F.BLK_STATUS.READY 0

/-- The bulk tier does not come up, and what needs it is refused with E_NOSPACE (R198). -/
def State.blkAbsent (s : State) : Bool := !s.blkReady && !s.flashValid

/-- The bulk tier is coming up, and what needs it waits (R202). -/
def State.blkComing (s : State) : Bool := !s.blkReady && s.flashValid

/-! ## Units, striping and sectors (R200, R201) -/

/-- U in bytes (R201). -/
def State.unitBytes (s : State) : Nat := s.rd F.BLK_GEOMETRY.PPB 0 * 524288

/-- The unit of a bulk logical address (R201). -/
def State.unitOf (s : State) (a : Nat) : Nat := a / max 1 s.unitBytes

/-- The channel a bulk logical address lies on (R201). -/
def State.chanOf (s : State) (a : Nat) : Nat := a % s.unitBytes / 16384 % 32

/-- The page index of a bulk logical address in its physical block (R201). -/
def State.pageIdx (s : State) (a : Nat) : Nat := a % s.unitBytes / 16384 / 32

/-- The physical block that the map assigns to (unit, channel) (R202). -/
def State.mapped_ (s : State) (u c : Nat) : Option Nat := Tab.find s.blk.map (32 * u + c)

/-- A physical block. -/
def State.block (s : State) (c b : Nat) : FlashBlock := Tab.get FlashBlock.fresh s.blk.blocks (c * 2 ^ 32 + b)
/-- A physical block written. -/
def State.setBlock (s : State) (c b : Nat) (x : FlashBlock) : State :=
  { s with blk := { s.blk with blocks := Tab.set FlashBlock.fresh s.blk.blocks (c * 2 ^ 32 + b) x } }

/-- The sector header: logical unit, channel, page index and write generation in four bytes each (R200; DESIGN CHOICE, log 44, for the
widths of the first three). -/
def sectorHead (u c i gen : Nat) : List Byte := toBytes 4 u ++ toBytes 4 c ++ toBytes 4 i ++ toBytes 4 gen

/-- The word parity of 4,096 bytes: one bit for each 64-bit word (R200). -/
def sectorParity (bs : List Byte) : List Byte :=
  (List.range 64).map fun j => BitVec.ofNat 8
    (((List.range 8).map fun i => ((List.range 64).foldl (fun n k => n + b2n (bit (fieldAt bs (64 * j + 8 * i) 8) k)) 0) % 2 * 2 ^ i).foldl (· + ·) 0)

/-- The 4,576 bytes that the controller writes for the sector at a bulk logical address in a block of the map (R200). -/
def State.sectorBytes (s : State) (a : Nat) : List Byte :=
  let u := s.unitOf a
  let c := s.chanOf a
  let gen := match s.mapped_ u c with
    | some b => (s.block c b).gen
    | none => 0
  let bs := s.blk.data.readN (a / 4096 * 4096) 4096
  let body := bs ++ sectorParity bs ++ sectorHead u c (s.pageIdx a) gen
  body ++ (Config.ldpc body ++ List.replicate 400 0).take 400

/-- The header of a sector read in the block that the map gives names the unit that was asked for (R200). -/
def State.headerOk (s : State) (u c : Nat) : Bool :=
  match s.mapped_ u c with
  | some b => (s.block c b).unit == some u
  | none => false

/-- A page of the bulk tier has failed rung 4, and every later read of it fails the same way (R207). -/
def State.pageBad (s : State) (a : Nat) : Bool := s.blk.bad.contains (a / 16384)

/-! ## Contents and stripe parity (R203) -/

/-- The place of byte `a`'s byte in its row's parity page. -/
def parityAt (a : Nat) : Nat := a / 524288 * 16384 + a % 16384

/-- A byte written into the bulk tier: the parity page of its row changes with it (R203, R218). -/
def Blk.write (k : Blk) (a : Nat) (b : Byte) : Blk :=
  { k with data := k.data.write a b, parity := k.parity.write (parityAt a) (k.parity.read (parityAt a) ^^^ k.data.read a ^^^ b) }

/-- Bytes written into the bulk tier. -/
def Blk.writeN (k : Blk) : Nat → List Byte → Blk
  | _, [] => k
  | a, b :: bs => Blk.writeN (k.write a b) (a + 1) bs

/-- The byte that rung 4 rebuilds: the exclusive OR of the row's parity page and of its 31 other data pages (R203, R206). -/
def Blk.rebuilt (k : Blk) (a : Nat) : Byte :=
  ((List.range 32).filter fun c => c != a / 16384 % 32).foldl (fun b c => b ^^^ k.data.read (a / 524288 * 524288 + c * 16384 + a % 16384))
    (k.parity.read (parityAt a))

/-- Bulk contents of a range of whole rows forgotten. -/
def Blk.wipe (k : Blk) (a n : Nat) : Blk :=
  { k with
    data := k.data.filter fun e => !decide (a ≤ e.1 ∧ e.1 < a + n)
    parity := k.parity.filter fun e => !decide (a / 32 ≤ e.1 ∧ e.1 < (a + n) / 32)
    bad := k.bad.filter fun g => !decide (a ≤ g * 16384 ∧ g * 16384 < a + n) }

end Sys2Proof.Machine
end

