-- ==== Sys2Proof/Machine/MainTier.lean ====
section
/-! DEFINITION. The main tier under the tensors (R186, R224, R226, R228, R229, R236, R238): pool pages, where a main address lies among channels and
ranks, the parity store, the remap table, errors on the bus, and channels that are paused. -/

namespace Sys2Proof.Machine

/-! ## Channels in the state -/

/-- A channel beside its registers. -/
def State.chan (s : State) (c : Nat) : LpxChan := Tab.get LpxChan.clear s.lpx.chans c
/-- A channel written. -/
def State.setChan (s : State) (c : Nat) (x : LpxChan) : State :=
  { s with lpx := { s.lpx with chans := Tab.set LpxChan.clear s.lpx.chans c x } }

def cTraining : Nat := 0
def cOnline : Nat := 1
def cShort : Nat := 2
def cFull : Nat := 3
def cMigrating : Nat := 4
def cRetired : Nat := 5

/-- The state of a channel (LPX_CH_STATE). -/
def State.chanState (s : State) (c : Nat) : Nat := s.rd F.LPX_CH_STATE.STATE c
/-- A channel changes state. -/
def State.moveChan (s : State) (c st : Nat) : State := s.wr F.LPX_CH_STATE.STATE c st
/-- The channels in a state. -/
def State.chansIn (s : State) (st : Nat) : Nat := ((List.range 64).filter fun c => s.chanState c == st).length

/-- A channel is paused by a retrain (R233, R234, R236). -/
def State.paused (s : State) (c : Nat) : Bool := s.chanState c == cShort || s.chanState c == cFull

/-! ## Ranks and the parity store (R224, R225) -/

/-- The bytes of the data area of one rank of one channel, 63/64 of the rank's raw capacity (R224, R225). -/
def State.rankData (s : State) : Nat := s.rd F.LPX_GEOMETRY.DATA_MIB 0 * 2 ^ 20 / 64 / max 1 (s.rd F.LPX_GEOMETRY.RANKS 0)

/-- R: the raw bytes of one rank of one channel. -/
def State.rankRaw (s : State) : Nat := s.rankData * 64 / 63

/-- The first byte of a rank's parity area (R224). -/
def State.parityBase (s : State) : Nat := 63 * s.rankRaw / 64

/-- The first byte of a rank's training area (R224). -/
def State.trainBase (s : State) : Nat := s.rankRaw - s.rankRaw / 4096

/-- The place in the rank of the parity byte of the burst at data offset `r` (R224). -/
def State.parityPlace (s : State) (r : Nat) : Nat := s.parityBase + r / 64

/-- The parity of a 64-bit word. -/
def wordParity (w : Nat) : Bool := (List.range 64).foldl (fun p i => p ^^ bit w i) false

/-- The parity byte of a 64-byte burst: bit i is the parity of word i (R224, R228). -/
def parityByte (burst : List Byte) : Nat :=
  ((List.range 8).map fun i => b2n (wordParity (fieldAt burst (8 * i) 8)) * 2 ^ i).foldl (· + ·) 0

/-! ## Addresses (R226, R238) -/

/-- The channel of byte `o` of pool page `n`, unless it is retired (R226). -/
def mainChan (n o : Nat) : Nat := (o / 1024 + n) % 64

/-- The byte offset in the channel's data space of byte `o` of pool page `n` (R226). -/
def mainOff (n o : Nat) : Nat := n * 1024 + o % 1024

/-- The rank of a data offset of a channel (R226). -/
def State.rankOf (s : State) (d : Nat) : Nat := d / max 1 s.rankData

/-- The offset inside its rank of a data offset of a channel (R226). -/
def State.inRank (s : State) (d : Nat) : Nat := d % max 1 s.rankData

/-- M: the remap pages of a retirement (R238). -/
def State.remapPages (s : State) : Nat := ceilDiv (s.rd F.LPX_GEOMETRY.DATA_MIB 0 * 16) 64

/-- Page `j` of the pages from `first` on that are not among `holes`. -/
def pastHoles (holes : List Nat) (first j : Nat) : Nat :=
  (List.range (holes.length + 1)).foldl (fun p _ => first + j + (holes.filter fun h => decide (first ≤ h ∧ h ≤ p)).length) (first + j)

/-- The place in the `m` remap pages of the granule that page `n` has on channel `c`: each remap page offers the 63 granules that are not
on `c`, taken in the order of the pages that are not remap pages themselves (R238; DESIGN CHOICE, log 33: R238 leaves the slot free). -/
def remapSlot (m c first : Nat) (holes : List Nat) (n : Nat) : Nat × Nat :=
  let k := n - min m (n - first - (holes.filter fun h => decide (first ≤ h ∧ h < n)).length)
  let page := pastHoles holes first (k / 63)
  let own := (c + 64 - page % 64) % 64
  (page, if k % 63 < own then k % 63 else k % 63 + 1)

/-- Where granule `g` of page `n` is at this moment, as page and granule: on a retired channel, or where a write has moved it before the
copy came to it, in the remap pages, whose channel may be retired too (R238). -/
def State.granule (s : State) : Nat → Nat → Nat → Nat × Nat
  | 0, n, g => (n, g)
  | k + 1, n, g =>
    let c := mainChan n (g * 1024)
    match s.lpx.remaps.find? fun e => e.1 == c with
    | some (_, first, holes) =>
      if s.chanState c = cRetired ∨ (s.chan c).moved.contains n = true then
        let e := remapSlot s.remapPages c first holes n
        s.granule k e.1 e.2
      else (n, g)
    | none => (n, g)

/-- The channel that holds granule `g` of page `n` at this moment (R226, R238). -/
def State.chanAt (s : State) (n g : Nat) : Nat :=
  let e := s.granule 5 n g
  mainChan e.1 (e.2 * 1024)

/-- The channels that `n` bytes from offset `o` of a run of pages lie on. -/
def State.chansOf (s : State) (frames : List Nat) (o n : Nat) : List Nat :=
  ((List.range (if n = 0 then 0 else (o + n - 1) / 1024 + 1 - o / 1024)).map fun i =>
    let g := o / 1024 + i
    s.chanAt (frames.getD (g / 64) 0) (g % 64)).dedup

/-- The 64-byte bursts that `n` bytes from offset `o` of a run of pages take, by granule: its channel and the bursts in it (R224, R226). -/
def State.burstsOf (s : State) (frames : List Nat) (o n : Nat) : List (Nat × Nat) :=
  (List.range (if n = 0 then 0 else (o + n - 1) / 1024 + 1 - o / 1024)).map fun i =>
    let g := o / 1024 + i
    (s.chanAt (frames.getD (g / 64) 0) (g % 64), (min (o + n) (g * 1024 + 1024) - 1) / 64 + 1 - max o (g * 1024) / 64)

/-- Bytes of a run of pages are written while a channel's granules are being copied: a granule of it that the copy has not come to goes to its
new place, and counts as copied (R238). -/
def State.moveWritten (s : State) (frames : List Nat) (o n : Nat) : State :=
  (List.range (if n = 0 then 0 else (o + n - 1) / 1024 + 1 - o / 1024)).foldl (fun s i =>
    let g := o / 1024 + i
    let page := frames.getD (g / 64) 0
    let c := mainChan page (g % 64 * 1024)
    let x := s.chan c
    if s.chanState c = cMigrating ∧ x.copying = true ∧ x.moved.contains page = false then s.setChan c { x with moved := page :: x.moved } else s) s

/-! ## Errors on the bus (R192, R228, R229, R233) -/

/-- The time over which R233 counts resends and rereads. -/
def trigSpan : Nat := 1000000000

/-- The resends and rereads of a channel in the last second (R233). -/
def State.replaySum (s : State) (c : Nat) : Nat :=
  (((s.chan c).events.filter fun e => decide (s.time < e.1 + trigSpan)).map (·.2)).foldl (· + ·) 0

/-- An access of the main tier has met bursts that resends of the write, at most eight, or the one reread put right: how many there were on
each of its channels is a free value (R192, R228, R229; log 8). They count by channel, and as corrected faults (R474). -/
def State.busErrors (s : State) (write : Bool) (bs : List (Nat × Nat)) : State :=
  bs.foldl (fun s e =>
    let (v, s) := s.draw 16
    let n := v % ((if write then 8 else 1) * e.2 + 1)
    let x := s.chan e.1
    let x := { x with events := (s.time, n) :: x.events.filter fun e => decide (s.time < e.1 + trigSpan) }
    ((s.setChan e.1 x).count (if write then F.LPX_CH_ERR.RESENDS else F.LPX_CH_ERR.REREADS) e.1 n).count F.OBS_CLASS_CNT.COUNT 0 n) s

/-- A run of pages has been written over `n` bytes from offset `o`: granules that a retirement has yet to copy (R238), and what the bus did
to the words (R228). -/
def State.framesWritten (s : State) (frames : List Nat) (o n : Nat) : State :=
  let s := s.moveWritten frames o n
  s.busErrors true (s.burstsOf frames o n)

/-! ## Paused channels (R236) -/

/-- The place that the instruction of a hub has among the accesses that wait for a channel. -/
def hubReq (h : Nat) : Nat × Nat := (2 ^ 30 + h, 0)

/-- The place of an access that a controller holds. -/
def heldReq (k : Nat) : Nat × Nat := (2 ^ 31 + k, 0)

/-- Whether an access has to wait: a channel that it needs is paused, or another access waits for that channel since before. -/
def State.mainWaits (s : State) (id : Nat × Nat) (chs : List Nat) : Bool :=
  chs.any fun c => s.paused c || !((s.chan c).waiting.takeWhile (· != id)).isEmpty

/-- An access waits in the controllers of its channels, behind those that came before. -/
def State.waitMain (s : State) (id : Nat × Nat) (chs : List Nat) : State :=
  chs.foldl (fun s c => let x := s.chan c
    if x.waiting.contains id then s else s.setChan c { x with waiting := x.waiting ++ [id] }) s

/-- Accesses wait for no channel any more. -/
def State.leaveMain (s : State) (gone : Nat × Nat → Bool) : State :=
  { s with lpx := { s.lpx with chans := s.lpx.chans.map fun e => (e.1, { e.2 with waiting := e.2.waiting.filter fun i => !gone i }) } }

/-- A controller holds an access until its channels are free (R236). -/
def State.holdMain (s : State) (chs : List Nat) (x : MainReq) : State :=
  let k := s.lpx.heldNo
  ({ s with lpx := { s.lpx with held := s.lpx.held ++ [(k, x)], heldNo := k + 1 } } : State).waitMain (heldReq k) chs

end Sys2Proof.Machine
end

