-- ==== Sys2Proof/Machine/Tensor.lean ====
section
/-! DEFINITION. Tensors and the main-tier pool (chapter 06): descriptors, contents and backings, holds, pages, eviction,
write-backs and stored-data failures. -/

namespace Sys2Proof.Machine

/-! ## Descriptors (R161 to R165) -/

/-- The bits of one element of an ETYPE (R161): 0 for a reserved value. -/
def elemBits : Nat → Nat
  | 0 => 32 | 1 => 16 | 2 => 8 | 3 => 8 | 4 => 4 | 5 => 4 | 8 => 8 | 9 => 32 | _ => 0

/-- A descriptor read from its 64 bytes (R161). -/
def Desc.parse (b : List Byte) : Desc where
  tid := fieldAt b 0 4
  ndim := fieldAt b 4 1
  etype := fieldAt b 5 1
  kind := fieldAt b 6 1
  home := fieldAt b 7 1
  back := fieldAt b 8 1
  sdim := fieldAt b 9 1
  scnt := fieldAt b 10 2
  sidx := fieldAt b 12 2
  dims := (List.range 5).map fun d => fieldAt b (16 + 4 * d) 4
  homeAddr := fieldAt b 40 8
  backAddr := fieldAt b 48 8
  owner := fieldAt b 56 8

/-- The reserved bytes of a descriptor are zero (R9, R161). -/
def descReserved (b : List Byte) : Bool := fieldAt b 14 2 == 0 && fieldAt b 36 4 == 0

/-- The extents of the dimensions in use. -/
def Desc.extents (d : Desc) : List Nat := d.dims.take d.ndim

/-- The number of elements. -/
def Desc.elems (d : Desc) : Nat := d.extents.foldl (· * ·) 1

/-- The data length in bytes (R162). -/
def Desc.dataLen (d : Desc) : Nat := d.elems * elemBits d.etype / 8

/-- The length: the data length rounded up to 32 bytes (R162). -/
def Desc.length (d : Desc) : Nat := roundUp d.dataLen 32

/-- The pool pages of a length (R186). -/
def pagesOf (len : Nat) : Nat := ceilDiv len 65536

/-- Whether the descriptor is of a shard (R161). -/
def Desc.shard (d : Desc) : Bool := d.sdim != 0xFF

/-- The length of the full tensor of R165: the shard's data length times SCNT, rounded as R162 rounds. -/
def Desc.fullLength (d : Desc) : Nat :=
  if d.shard then roundUp (d.elems * d.scnt * elemBits d.etype / 8) 32 else d.length

/-- The bits of one contiguous run of a shard: DIM[SDIM] times the inner extents (R165). -/
def Desc.runBits (d : Desc) : Nat := (d.extents.drop d.sdim).foldl (· * ·) 1 * elemBits d.etype

/-- Where byte `o` of a tensor lies in its backing (R165): its own offset, or the offset in the full tensor. -/
def Desc.backOff (d : Desc) (o : Nat) : Nat :=
  if d.shard then
    let r := d.runBits / 8
    if r = 0 then o else o / r * (r * d.scnt) + d.sidx * r + o % r
  else o

/-- The runs of the backing that the device reads for a tensor, as offset and length (R165, R166): for a shard one for each combination of
outer indices, else the whole length. -/
def Desc.backRuns (d : Desc) : List (Nat × Nat) :=
  if d.shard then
    let r := d.runBits / 8
    (List.range (if r = 0 then 0 else d.dataLen / r)).map fun i => (d.backOff (i * r), r)
  else [(0, d.length)]

/-- The block rectangle of a near-home tensor (R163). -/
def Desc.nearRect (d : Desc) : Nat := bits d.homeAddr 0 16
/-- The first bank byte of a near-home tensor's range (R163). -/
def Desc.nearBase (d : Desc) : Nat := bits d.homeAddr 16 13 * 32
/-- The bytes of each bank a near-home tensor reserves (R163). -/
def Desc.nearLen (d : Desc) : Nat := bits d.homeAddr 29 14 * 32

/-- The combinations of R164. -/
def Desc.combination (d : Desc) : Bool :=
  match d.home, d.kind with
  | 1, 0 => d.back == 1
  | 1, 1 => d.back == 0 || d.back == 1
  | 2, 0 => d.back == 1 || d.back == 2 || d.back == 3
  | 2, 1 => decide (d.back ≤ 3)
  | 3, 0 => d.back == 0
  | _, _ => false

/-- HOME_ADDR has the form of R163 for the tensor's home. -/
def State.homeForm (s : State) (d : Desc) : Bool :=
  match d.home with
  | 1 => rectOk d.nearRect && decide (1 ≤ d.nearLen ∧ d.nearBase + d.nearLen ≤ 262144) && d.homeAddr / 2 ^ 43 == 0 &&
      decide (d.length ≤ d.nearLen * ((rectCogs d.nearRect).filter fun c => !s.fenced c).length)
  | 2 => d.homeAddr == 0
  | _ => decide (d.homeAddr < 2 ^ 46) && d.homeAddr % 4096 == 0

/-- BACK_ADDR has the form of R161 for BACK. No alignment is asked of a bulk or host address (DESIGN CHOICE, log 77: R161 names none). -/
def Desc.backForm (d : Desc) : Bool :=
  match d.back with
  | 0 => d.backAddr == 0
  | 1 => decide (d.backAddr < 2 ^ 32)
  | 2 => decide (d.backAddr < 2 ^ 46)
  | _ => true

/-- Check 2 of R166: every field in range, reserved fields zero, R162 and R164. Where SDIM is 0xFF, SIDX is ignored as SCNT is (DESIGN
CHOICE, log 77: R161 says it of SCNT alone). -/
def State.descOk (s : State) (d : Desc) (b : List Byte) : Bool :=
  descReserved b && decide (1 ≤ d.ndim ∧ d.ndim ≤ 5) && elemBits d.etype != 0 && decide (d.kind ≤ 1) &&
  decide (1 ≤ d.home ∧ d.home ≤ 3) && decide (d.back ≤ 3) && (d.sdim == 0xFF || decide (d.sdim < d.ndim)) &&
  (d.sdim == 0xFF || decide (1 ≤ d.scnt)) && (d.sdim == 0xFF || decide (d.sidx < d.scnt)) &&
  (d.extents.all fun n => decide (1 ≤ n ∧ n ≤ 16777216)) && ((d.dims.drop d.ndim).all (· == 0)) &&
  decide (d.owner < 2 ^ 48) && d.elems * elemBits d.etype % 8 == 0 && decide (d.length ≤ 2 ^ 36) &&
  d.combination && s.homeForm d && d.backForm && (!d.shard || (d.back != 0 && d.runBits % 8 == 0))

/-! ## The table -/

/-- Tensor `tid` of partition `p`, if defined (R160). -/
def State.tensor (s : State) (p tid : Nat) : Option Tensor := Tab.find s.mem.tensors (tkey p tid)

/-- The table entry of a tensor written. -/
def State.setTensor (s : State) (p tid : Nat) (t : Tensor) : State :=
  { s with mem := { s.mem with tensors := Tab.insert s.mem.tensors (tkey p tid) t } }

/-- Retired pages among pages that a tensor holds no longer leave the pool (R230). -/
def State.leavePool (s : State) (frames : List Nat) : State :=
  s.wr F.POOL_TOTAL.PAGES 0 (s.rd F.POOL_TOTAL.PAGES 0 - (frames.filter s.lpx.retired.contains).length)

/-- The table entry of a tensor removed. -/
def State.dropTensor (s : State) (p tid : Nat) : State :=
  let s := s.leavePool (((s.tensor p tid).map (·.frames)).getD [])
  { s with mem := { s.mem with tensors := Tab.erase s.mem.tensors (tkey p tid), kvShadows := Tab.erase s.mem.kvShadows (tkey p tid) } }

/-- A defined tensor changed; an undefined one stays undefined. -/
def State.modTensor (s : State) (p tid : Nat) (f : Tensor → Tensor) : State :=
  match s.tensor p tid with
  | some t => s.setTensor p tid (f t)
  | none => s

/-- Whether a state is resident: a copy stands in the home tier (R167). -/
def TState.resident : TState → Bool
  | .clean => true | .dirty => true | .writing => true | _ => false

/-- Whether the tensor's home is near (R161). -/
def Tensor.near (t : Tensor) : Bool := t.desc.home == 1
/-- Whether the tensor's home is main. -/
def Tensor.main (t : Tensor) : Bool := t.desc.home == 2
/-- Whether the tensor's home is bulk. -/
def Tensor.bulk (t : Tensor) : Bool := t.desc.home == 3
/-- Whether the tensor is RW (R161). -/
def Tensor.rw_ (t : Tensor) : Bool := t.desc.kind == 1

/-- The pool pages a tensor holds: none unless main-home and not ABSENT (R168, R186). -/
def Tensor.pages (t : Tensor) : Nat := if t.main && t.state != .absent then pagesOf t.desc.length else 0

/-! ## The pool (R186, R187) -/

/-- A message that is a PUT which has begun to write tensor `tid` of a partition (step 4 of R372). -/
def Msg.puts (m : Msg) (p tid : Nat) : Bool := m.begun && m.op == 1 && m.part == p && m.tid == tid

/-- The shadow pages of partition `p`: reserved or in use by its tasks, KV shadows in use, and those of PUTs that arrive (POOL_SHADOW). -/
def State.shadowPages (s : State) (p : Nat) : Nat :=
  ((s.ctl.tasks.filter fun e => e.2.queue / 64 == p).map fun e =>
      e.2.reserved + (e.2.shadows.map fun h => h.2.pages.length).foldl (· + ·) 0).foldl (· + ·) 0 +
  ((s.mem.kvShadows.filter fun e => e.1 / 2 ^ 32 == p).map fun e => e.2.pages.length).foldl (· + ·) 0 +
  ((s.rlt.msgs.filter fun m => m.puts p m.tid).map fun m => pagesOf m.arg).foldl (· + ·) 0

/-- The pages partition `p` uses, shadows and admission reservations included (POOL_USED). -/
def State.usedPages (s : State) (p : Nat) : Nat :=
  ((s.mem.tensors.filter fun e => e.2.part == p).map fun e => e.2.pages).foldl (· + ·) 0 + s.shadowPages p +
  ((s.mem.admits.filter fun e => e.2.1 == p).map fun e => e.2.2).foldl (· + ·) 0

/-- The pages no partition holds (POOL_FREE). -/
def State.freePages (s : State) : Nat :=
  s.rd F.POOL_TOTAL.PAGES 0 - ((List.range 16).map s.usedPages).foldl (· + ·) 0

/-- The pages available to partition `p`, below zero where the unused floors of the others exceed the free pages (R187). -/
def State.avail (s : State) (p : Nat) : Int :=
  let unused := (((List.range 16).filter (· != p)).map fun q => s.rd F.POOL_FLOOR.FLOOR q - s.usedPages q).foldl (· + ·) 0
  (s.freePages : Int) - (unused : Nat)

/-- A tensor with no copy in its home tier: it holds no page, and nothing is under way for it (R167, R168). -/
def Tensor.gone (t : Tensor) : Tensor :=
  { t with state := .absent, data := [], frames := [], wb := none, landed := false, repairing := false, struck := [], awaited := false,
           waiters := [], granules := [] }

/-- A tensor becomes ABSENT and its pages go back to the pool (R168, R230). -/
def State.vacate (s : State) (p tid : Nat) : State :=
  match s.tensor p tid with
  | some t => (s.leavePool t.frames).setTensor p tid t.gone
  | none => s

/-- The pool pages that tensors and shadows hold. -/
def State.heldFrames (s : State) : List Nat :=
  s.mem.tensors.flatMap (·.2.frames) ++ s.ctl.tasks.flatMap (fun e => e.2.shadows.flatMap fun h => h.2.frames.map (·.2)) ++
  s.mem.kvShadows.flatMap fun h => h.2.frames.map (·.2)

/-- The first page from `v` on, around the pool of `top` pages, that is not among `taken`. -/
def pickFrame (taken : List Nat) (top v : Nat) : Nat :=
  (((List.range (taken.length + 1)).map fun i => (v + i) % max 1 top).find? fun n => !taken.contains n).getD 0

/-- Pages are drawn for a tensor or a shadow: which free pages is the device's to choose (R163, R186), a free value; retired pages and those
that serve for a retired channel are not among them (R230, R238). -/
def State.drawFrames (s : State) : Nat → List Nat → List Nat × State
  | 0, fs => (fs, s)
  | n + 1, fs =>
    let (v, s) := s.draw 25
    s.drawFrames n (fs ++ [pickFrame (fs ++ s.heldFrames ++ s.lpx.retired) s.lpx.top v])

/-- A tensor is given the pages of its length. -/
def State.placePages (s : State) (p tid : Nat) : State :=
  match s.tensor p tid with
  | some t =>
    let (fs, s) := s.drawFrames (pagesOf t.desc.length) []
    s.setTensor p tid { t with frames := fs }
  | none => s

/-- HOME_ADDR as it reads back (R163): of a main-home tensor the main address of its first page, 0 while it is not resident. -/
def Tensor.homeAddr (t : Tensor) : Nat :=
  if t.main then (if t.state.resident then t.frames.headD 0 * 65536 else 0) else t.desc.homeAddr

/-! ## Contents and backings -/

/-- A byte of a tensor's own copy as its task sees it: the shadow page where there is one (R172). -/
def shadowed (sh : Option Shadow) (data : Memory) (o : Nat) : Byte :=
  match sh with
  | some h => if h.pages.contains (o / 65536) then h.data.read o else data.read o
  | none => data.read o

/-- The shadow that task `k` holds of a tensor, if any. -/
def State.taskShadow (s : State) (k p tid : Nat) : Option Shadow :=
  (Tab.find s.ctl.tasks k).bind fun t => Tab.find t.shadows (tkey p tid)

/-- The shadow through which task `k` reads a tensor: its own, or, while a serving step of it is in flight, the KV shadow of a
sequence's page (R172, R326). -/
def State.viewShadow (s : State) (k p tid : Nat) : Option Shadow :=
  (s.taskShadow k p tid).or (if s.srv.steps.any (fun e => e.2.task == k) then Tab.find s.mem.kvShadows (tkey p tid) else none)

/-- The place of byte `o` of a tensor in its backing (R161, R165); `next` follows a tensor backing. -/
def Desc.backFrom (d : Desc) (next : Nat → Nat → Option Source) (o : Nat) : Option Source :=
  match d.back with
  | 1 => next d.backAddr (d.backOff o)
  | 2 => some (.bulk (d.backAddr + d.backOff o))
  | 3 => some (.host (d.backAddr + d.backOff o))
  | _ => none

/-- Where byte `o` of tensor `tid` is read (R165, R179, R194): its main-tier copy where it is resident there, or LOST there, else the bulk or
host bytes it is backed by, following tensor backings; none beyond its data, and where it can be reached by none of these. The first
number bounds the chain of backings. -/
def State.sourceOf (s : State) (p : Nat) : Nat → Nat → Nat → Option Source
  | 0, _, _ => none
  | n + 1, tid, o =>
    match s.tensor p tid with
    | none => none
    | some t =>
      if o ≥ t.desc.dataLen then none
      else if t.bulk then some (.bulk (t.desc.homeAddr + o))
      else if t.main && (t.state.resident || t.state == .lost) then some (.main tid o)
      else t.desc.backFrom (s.sourceOf p n) o

/-- The byte at a place, as task `k` reads it: the task's shadow page where there is one (R172). -/
def State.byteAt (s : State) (k p : Nat) : Source → Byte
  | .main tid o => match s.tensor p tid with
    | some t => shadowed (s.viewShadow k p tid) t.data o
    | none => 0
  | .bulk a => s.blk.data.read a
  | .host a => s.hostMem.read a

/-- Byte `o` of tensor `tid` as task `k` reads it (R165, R172, R179). -/
def State.byteOf (s : State) (k p n tid o : Nat) : Option Byte := (s.sourceOf p n tid o).map (s.byteAt k p)

/-- A bound on the length of any chain of backings. -/
def State.chain (s : State) : Nat := s.mem.tensors.length + 1

/-- Byte `o` of a tensor as task `k` reads it, +0 where nothing reaches it. -/
def State.tbyte (s : State) (k p tid o : Nat) : Byte := (s.byteOf k p s.chain tid o).getD 0

/-- Bytes of a tensor as task `k` reads them. -/
def State.tbytes (s : State) (k p tid o n : Nat) : List Byte := (List.range n).map fun i => s.tbyte k p tid (o + i)

/-- The place of byte `o` of a tensor's home copy in its backing, for a load, a write-back or a repair. -/
def State.backSource (s : State) (p : Nat) (t : Tensor) (o : Nat) : Option Source := t.desc.backFrom (s.sourceOf p s.chain) o

/-- Where the bytes of tensor `tid` come from: 2 main, 3 bulk, 4 host, as the TIER field of TNS_FAULT, or 0 where nothing reaches it
(R179, R196). -/
def State.sourceTier (s : State) (p : Nat) : Nat → Nat → Nat
  | 0, _ => 0
  | n + 1, tid =>
    match s.tensor p tid with
    | none => 0
    | some t =>
      if t.bulk then 3
      else if t.main && (t.state.resident || t.state == .lost) then 2
      else match t.desc.back with
        | 1 => s.sourceTier p n t.desc.backAddr
        | 2 => 3
        | 3 => 4
        | _ => 0

/-- A tensor's whole contents read from its backing (R165, R168); the bytes beyond the data read as zero (R162). -/
def State.backingData (s : State) (p : Nat) (t : Tensor) : Memory :=
  Memory.writeN [] 0 ((List.range t.desc.dataLen).map fun o => ((s.backSource p t o).map (s.byteAt 0 p)).getD 0)

/-- The tier a load of a tensor reads: 2, 3 or 4. -/
def State.backingTier (s : State) (p : Nat) (t : Tensor) : Nat :=
  match t.desc.back with
  | 1 => s.sourceTier p s.chain t.desc.backAddr
  | 2 => 3
  | 3 => 4
  | _ => 0

/-- The TNS_FAULT cause of a failed read of a backing (R196): HOST_READ, BULK_UNCORRECTABLE, or PARITY_UNREPAIRED in the main tier. -/
def tierCause (tier : Nat) : Nat := if tier = 4 then 5 else if tier = 3 then 6 else 2

/-- The next request of a load from tensor byte `o` on (R390): tensor byte, host address and length. It reads one stretch of host memory,
crosses no 4 KiB boundary and does not exceed Max Read Request Size. -/
def State.hostReq (s : State) (p : Nat) (t : Tensor) (o : Nat) : Option (Nat × Nat × Nat) :=
  (((List.range t.desc.dataLen).drop o).findSome? fun i => match s.backSource p t i with
    | some (.host a) => some (i, a)
    | _ => none).map fun e =>
      (e.1, e.2, ((List.range (min s.pci.mrrs (4096 - e.2 % 4096))).takeWhile fun i =>
        s.backSource p t (e.1 + i) == some (.host (e.2 + i))).length)

/-- The tensors of the main tier through which the bytes of tensor `tid` are read: itself, or the resident backing that its chain reaches
(R179, R193). -/
def State.readHome (s : State) (p : Nat) : Nat → Nat → Option Nat
  | 0, _ => none
  | n + 1, tid =>
    match s.tensor p tid with
    | none => none
    | some t =>
      if t.bulk then none
      else if t.main && (t.state.resident || t.state == .lost) then some tid
      else if t.desc.back = 1 then s.readHome p n t.desc.backAddr else none

/-- Whether the chain of backings of a tensor comes to a LOST tensor, which nothing reads any more (R195). -/
def State.backLost (s : State) (p : Nat) (t : Tensor) : Bool :=
  t.desc.back == 1 && ((s.readHome p s.chain t.desc.backAddr).bind (s.tensor p)).any fun b => b.state == .lost

/-- Whether what an operation needs of a tensor is LOST: its own copy, or, where it is ABSENT, the backing that it would be read from (R195;
DEDUCED, log 84: a LOST backing is read no more than the LOST tensor itself). -/
def State.lostNow (s : State) (p : Nat) (t : Tensor) : Bool := t.state == .lost || (t.state == .absent && s.backLost p t)

/-- Whether a load of a tensor cannot end well: outside the granules that fills have captured (R219) it reads a bulk page that has failed
rung 4 (R207), or its backing is LOST (R195, log 84). -/
def State.readsBad (s : State) (p : Nat) (t : Tensor) : Bool :=
  s.backLost p t || (List.range t.desc.dataLen).any fun o => !t.granules.contains (o / 4096) && match s.backSource p t o with
    | some (.bulk a) => s.pageBad a
    | _ => false

/-- The requests in which the device moves rising host addresses (R390): stretches of at most `most` bytes, none across a 4 KiB boundary. -/
def hostCuts (most : Nat) (as : List Nat) : List (Nat × Nat) :=
  (as.foldl (fun acc a => match acc with
    | [] => [(a, 1)]
    | (b, n) :: rest => if a = b + n ∧ n < most ∧ a % 4096 ≠ 0 then (b, n + 1) :: rest else (a, 1) :: acc) []).reverse

/-- What a read outside a load meets (R192, R198, R202, R207, R390, R391, R395, R402). -/
inductive ReadMeets where
  | waits
  | denied (addr : Nat)
  | insecure (addr : Nat)
  | bad
  | ready
  deriving DecidableEq, Repr

/-- The bulk tier must be up, and the page must not have failed rung 4; a function must be free to master the bus, its IDE stream sound, and
the address in its windows. -/
def State.readMeets (s : State) (p : Nat) (srcs : List Source) : ReadMeets :=
  let hosts := srcs.filterMap fun a => match a with
    | .host x => some x
    | _ => none
  let bulks := srcs.filterMap fun a => match a with
    | .bulk x => some x
    | _ => none
  if (!bulks.isEmpty && !s.blkReady) || (!hosts.isEmpty && !s.busOk (p + 1)) then .waits
  else match (hostCuts s.pci.mrrs hosts).find? fun r => !s.window (p + 1) r.1 r.2 false with
    | some r => .denied r.1
    | none =>
      if Tab.get false s.pci.ideDown (p + 1) && !hosts.isEmpty then .insecure (hosts.headD 0)
      else if bulks.any s.pageBad then .bad
      else .ready

/-- The places from which the whole of a tensor is read. -/
def State.wholeSources (s : State) (p tid : Nat) : List Source :=
  (List.range (((s.tensor p tid).map (·.desc.dataLen)).getD 0)).filterMap fun o => s.sourceOf p s.chain tid o

/-- Whether reading tensor `tid` passes through tensor `b`: it is it, or its chain of backings comes to it (R170, R179). -/
def State.readsThrough (s : State) (p : Nat) : Nat → Nat → Nat → Bool
  | 0, _, _ => false
  | n + 1, tid, b => tid == b || match s.tensor p tid with
    | some t => !t.bulk && !(t.main && (t.state.resident || t.state == .lost)) && t.desc.back == 1 && s.readsThrough p n t.desc.backAddr b
    | none => false

/-- The task of a region's command. -/
def State.regionTask (s : State) (r : Region) : Nat := ((Tab.find s.ctl.cmds r.seq).map (·.task)).getD 0

/-- Whether an index stream of kind TENSOR names tensor `b` (R181), as task `k` reads the index. -/
def State.gathers (s : State) (k p b : Nat) (d : StreamDesc) : Bool :=
  d.mode == 1 && d.ikind == 1 && match s.tensor p d.itid with
    | some u => (List.range u.desc.elems).any fun i => ofBytes (s.tbytes k p d.itid (4 * i) 4) == b
    | none => false

/-- Whether a stream descriptor reads tensor `b` at this moment: as its tensor, an index or pointer list, a tensor that an index names, or
as the backing of one of these (R170, R179, R193). -/
def State.descReads (s : State) (k p pl b : Nat) (d : StreamDesc) : Bool :=
  (d.dir == 0 && (s.readsThrough p s.chain d.tid b || s.gathers k p b d)) ||
  (d.mode == 1 && s.readsThrough p s.chain d.itid b) || (d.mode == 2 && s.readsThrough p s.chain pl b)

/-- Whether a stream descriptor writes tensor `b` (R172, R181). -/
def State.descWrites (s : State) (k p b : Nat) (d : StreamDesc) : Bool := d.dir == 1 && (d.tid == b || s.gathers k p b d)

/-- Whether a stream of a region reads tensor `b` at this moment. -/
def State.streamReads (s : State) (r : Region) (b : Nat) (st : Stream) : Bool := s.descReads (s.regionTask r) r.part r.plist b st.desc

/-- Whether a stream of a region writes tensor `b`. -/
def State.streamWrites (s : State) (r : Region) (b : Nat) (st : Stream) : Bool := s.descWrites (s.regionTask r) r.part b st.desc

/-- The channels of the main tier on which bytes of a tensor's copy lie, shadow pages among them (R172, R226). -/
def State.tensorChans (s : State) (t : Tensor) (o n : Nat) : List Nat := s.chansOf t.frames o n

/-- The contents of a tensor as its load ends: granules of 4 KiB that fills have captured stand already, and the load itself reads the others
(R168, R219). -/
def State.loadedData (s : State) (p : Nat) (t : Tensor) : Memory :=
  let rest := s.backingData p t
  Memory.writeN [] 0 ((List.range t.desc.dataLen).map fun o => if t.granules.contains (o / 4096) then t.data.read o else rest.read o)

/-- A tensor with its contents just loaded whole: CLEAN, touched now (R168, R191). -/
def State.finishLoad (s : State) (p tid : Nat) : State :=
  match s.tensor p tid with
  | some t => s.setTensor p tid { t with state := .clean, data := s.loadedData p t, touch := s.time, awaited := false, waiters := [], granules := [] }
  | none => s

/-! ## Faults (R182, R189, R193, R196) -/

/-- TNS_FAULT[p] and TNS_FAULT_TIME[p] are written and the partition's source is raised (R196, R404). -/
def State.tnsFault (s : State) (p cause tier detail tid : Nat) : State :=
  let s := ((((s.wr F.TNS_FAULT.CAUSE p cause).wr F.TNS_FAULT.TIER p tier).wr F.TNS_FAULT.DETAIL p detail).wr
    F.TNS_FAULT.TID p tid).wr F.TNS_FAULT_TIME.TIME p s.time
  (s.trace 0x0B 0 (s.reg .TNS_FAULT p) (s.reg .TNS_FAULT_TIME p)).raise (72 + p)

/-- The first place of host memory among places. -/
def hostOf (srcs : List Source) : Option Nat := srcs.findSome? fun a => match a with
  | .host x => some x
  | _ => none

/-- A read outside a load of places for tensor `tid` of a partition: it waits, fails as what it meets says, with the fault recorded (R192,
R196, R207, R396), or goes on. -/
def State.readPlaces (s : State) (p tid : Nat) (srcs : List Source) (fails go : State → State) : State :=
  match s.readMeets p srcs with
  | .waits => s
  | .denied a => fails ((s.pciEvent 9 (p + 1) a).tnsFault p 5 4 0 tid)
  | .insecure a => fails ((s.pciEvent 10 (p + 1) a).tnsFault p 5 4 0 tid)
  | .bad => fails (s.tnsFault p 6 3 0 tid)
  | .ready => match hostOf srcs with
    | some a => s.hostTry (p + 1) a (fun s => fails (s.tnsFault p 5 4 0 tid)) go
    | none => go s

/-- A tensor becomes LOST and is counted and reported (R194). Its stored words stay, and are delivered as read. -/
def State.loseTensor (s : State) (p tid tier : Nat) : State :=
  ((s.modTensor p tid fun t => { t with state := .lost, wb := none, landed := false, repairing := false, struck := [], waiters := [] }).count
    F.TNS_REPAIR_CNT.LOST p 1).tnsFault p 3 tier 0 tid

/-- The streams that read a tensor hold at a failed word, or go on, in the regions that `sel` chooses (R193). -/
def State.holdStreams (s : State) (p tid : Nat) (sel : Region → Bool) (hold : Bool) : State :=
  let rs := s.arr.regions.map fun e =>
    if e.2.part == p && sel e.2 then
      (e.1, { e.2 with streams := e.2.streams.map fun st =>
        if s.streamReads e.2 tid st then { st with holds := hold } else st })
    else e
  { s with arr := { s.arr with regions := rs } }

/-- The commands with a stream that holds at a failed word of a tensor. -/
def State.holders (s : State) (p tid : Nat) : List Nat :=
  (s.arr.regions.filter fun e => e.2.part == p && e.2.streams.any fun st =>
    st.holds && s.streamReads e.2 tid st).map (·.2.seq)

/-! ## Holds (R170, R171, R188) -/

/-- Whether a command that is dispatched holds tensor `tid` of partition `p` for writing only, or at all. -/
def Cmd.holds (c : Cmd) (p tid : Nat) (writing : Bool) : Bool :=
  c.held && c.queue / 64 == p && c.decls.any fun d => d.tid == tid && (!writing || d.mode != 1)

/-- Whether a structure of the device other than a command pins a tensor: a ring of a queue or batch with LOC = 1 that is
not DISABLED, an observation buffer whose stream is not OFF, the transfer ring of a partition (R246, R343, R371, R491). -/
def State.pinned (s : State) (p tid : Nat) : Bool :=
  ((List.range 64).any fun i => let q := 64 * p + i
    s.rd F.Q_STATE.STATE q != 0 && s.on F.Q_CFG.LOC q && s.rd F.Q_BASE.BASE q % 2 ^ 32 == tid) ||
  ((List.range 32).any fun b =>
    s.rd F.SRV_BATCH_CTRL.STATE b != 0 && s.on F.SRV_RING_CFG.LOC b && s.rd F.SRV_BATCH_CFG.PART b == p &&
      s.rd F.SRV_RING_BASE.BASE b % 2 ^ 32 == tid) ||
  (s.rd F.OBS_SAMPLE_CTRL.STATE 0 != 0 && s.rd F.OBS_BUF_CFG.PART 0 == p && s.rd F.OBS_BUF_CFG.TID 0 == tid) ||
  (s.rd F.OBS_TRACE_CTRL.STATE 0 != 0 && s.rd F.OBS_BUF_CFG.PART 1 == p && s.rd F.OBS_BUF_CFG.TID 1 == tid) ||
  (s.on F.RLT_XFER_CFG.ENABLE p && s.rd F.RLT_XFER_CFG.TID p == tid)

/-- Whether a window slot of BAR2 maps a tensor: it then counts as held for R170 and R188 (R386). -/
def State.mapped (s : State) (p tid : Nat) : Bool :=
  (List.range 272).any fun i => s.on F.PCI_WIN_MAP.VALID i && s.rd F.PCI_WIN_MAP.TID i == tid &&
    (if i < 16 then s.rd F.PCI_WIN_MAP.PART i else i / 16 - 1) == p

/-- Whether a transfer reads a tensor (R372): its PUT has begun and not sent its last frame. -/
def State.putReads (s : State) (p tid : Nat) : Bool :=
  s.rlt.xfers.any fun x => x.part == p && x.op == 1 && x.src == tid && x.started && decide (0 < x.left)

/-- Whether a PUT that arrives write-holds a tensor (step 4 of R372). -/
def State.putWrites (s : State) (p tid : Nat) : Bool := s.rlt.msgs.any fun m => m.puts p tid

/-- Whether any dispatched command, a pin or a transfer holds a tensor: what a write-back into it waits for (R175). -/
def State.heldBy (s : State) (p tid : Nat) : Bool :=
  s.pinned p tid || s.putReads p tid || s.putWrites p tid || s.ctl.cmds.any fun e => e.2.holds p tid false

/-- Whether any dispatched command, a pin, a window slot or a transfer holds a tensor (R188, R386). -/
def State.heldAny (s : State) (p tid : Nat) : Bool := s.mapped p tid || s.heldBy p tid

/-- Whether a dispatched command of another task, a pin, a window slot or a transfer holds a tensor. -/
def State.heldByOther (s : State) (p tid task : Nat) : Bool :=
  s.pinned p tid || s.mapped p tid || s.putReads p tid || s.putWrites p tid ||
    s.ctl.cmds.any fun e => e.2.holds p tid false && e.2.task != task

/-- Whether command `c` can take the holds it declares: no command of another task write-holds what it reads, none holds
what it writes (R171; DEDUCED: the commands of one task do not exclude each other, log 12). -/
def State.canHold (s : State) (c : Cmd) : Bool :=
  c.decls.all fun d => !(d.mode != 1 && s.putReads (c.queue / 64) d.tid) && !s.putWrites (c.queue / 64) d.tid && !(s.ctl.cmds.any fun e =>
    e.2.task != c.task && e.2.holds (c.queue / 64) d.tid (d.mode == 1))

/-- The pins of R246 and R491 also keep writers waiting for the tensor to be free of them. -/
def State.writable (s : State) (p tid : Nat) : Bool :=
  match s.tensor p tid with
  | some t => t.state != .writing && t.state != .loading
  | none => false

/-- Whether a tensor's owning request is still dispatched (R188). -/
def State.ownerLive (s : State) (t : Tensor) : Bool :=
  t.desc.owner != 0 && (let e := s.jget t.desc.owner; e.seq == t.desc.owner && e.state == .dispatched)

/-- The evictable tensors of R188. -/
def State.evictable (s : State) (p tid : Nat) (t : Tensor) : Bool :=
  t.main && (t.state == .clean || t.state == .dirty) && t.desc.back != 0 && !s.heldAny p tid && !s.ownerLive t

/-! ## Eviction (R189 to R191) -/

/-- Insertion of a victim into a list ordered by touch, then TID. -/
def insertVictim (v : Nat × Tensor) : List (Nat × Tensor) → List (Nat × Tensor)
  | [] => [v]
  | w :: ws =>
    if v.2.touch < w.2.touch ∨ (v.2.touch = w.2.touch ∧ v.1 % 2 ^ 32 < w.1 % 2 ^ 32) then v :: w :: ws
    else w :: insertVictim v ws

/-- The candidates of a request accepted at `acc`: evictable tensors touched before it, oldest first, lower TID first on a
tie (R189). -/
def State.victims (s : State) (acc : Nat) : List (Nat × Tensor) :=
  (s.mem.tensors.filter fun e => s.evictable e.2.part (e.1 % 2 ^ 32) e.2 && decide (e.2.touch < acc)).foldr insertVictim []

/-- The pages of the candidates that a request of partition `p` could free, in the loop's order with its floor test (R189):
`used` follows the pages that earlier candidates would give back. -/
def State.couldFree (s : State) (p : Nat) : (Nat → Nat) → List (Nat × Tensor) → Nat
  | _, [] => 0
  | used, (_, t) :: vs =>
    let q := t.part
    if q ≠ p ∧ used q - t.pages < s.rd F.POOL_FLOOR.FLOOR q then s.couldFree p used vs
    else t.pages + s.couldFree p (fun r => if r = q then used r - t.pages else used r) vs

/-- How a request for pages ended. -/
inductive Grant where
  | granted | waits | refused
  deriving DecidableEq, Repr

/-- The tensor is freed by eviction: its pages go back and it becomes ABSENT (R189). A repair of it is over, and what held for that goes on
from the backing. -/
def State.evictNow (s : State) (p tid : Nat) : State :=
  ((s.holdStreams p tid (fun _ => true) false).vacate p tid).count F.POOL_EVICT.EVICTED p 1

/-- A write-back of a tensor begins, next in the order of the write-backs (R175, R218). -/
def State.startWrite (s : State) (p tid : Nat) (w : WriteBack) : State :=
  let s := s.modTensor p tid fun t => { t with state := .writing, wb := some w, landed := false, wbNo := s.mem.wbCount, awaited := false }
  { s with mem := { s.mem with wbCount := s.mem.wbCount + 1 } }

/-- The wait record of a request. -/
def State.evictWait (s : State) (req : Nat) : Option EvictWait := s.mem.evicts.find? fun e => e.req == req

/-- The wait record of a request dropped. -/
def State.evictDone (s : State) (req : Nat) : State :=
  { s with mem := { s.mem with evicts := s.mem.evicts.filter fun e => e.req != req } }

/-- The loop of R189 over the candidates left, which were fixed as the request came: it frees clean victims, and stops at a dirty one, whose
write-back the request then waits for; one that is evictable no longer is passed over. -/
def State.evictLoop (s : State) (req p n : Nat) : List Nat → State × Grant
  | [] => (s.evictDone req, if n ≤ s.avail p then .granted else .refused)
  | k :: ks =>
    if n ≤ s.avail p then (s.evictDone req, .granted)
    else match Tab.find s.mem.tensors k with
      | none => s.evictLoop req p n ks
      | some t =>
        if s.evictable t.part (k % 2 ^ 32) t = false then s.evictLoop req p n ks
        else if t.part ≠ p ∧ s.usedPages t.part - t.pages < s.rd F.POOL_FLOOR.FLOOR t.part then s.evictLoop req p n ks
        else if t.state = .dirty then
          let s := (s.evictDone req).startWrite t.part (k % 2 ^ 32) (.eviction req)
          ({ s with mem := { s.mem with evicts := ⟨req, ks⟩ :: s.mem.evicts } }, .waits)
        else (s.evictNow t.part (k % 2 ^ 32)).evictLoop req p n ks

/-- A request for `n` pages of partition `p` by request `req`, accepted at `acc` (R189): granted, refused, or waiting for the
write-back of a dirty victim. A request that waits asks again; the pages themselves are taken by the caller. -/
def State.takePages (s : State) (req p acc n : Nat) : State × Grant :=
  if n ≤ s.avail p then (s.evictDone req, .granted)
  else match s.evictWait req with
    | some w =>
      if s.mem.tensors.any fun e => e.2.wb == some (.eviction req) then (s, .waits)
      else s.evictLoop req p n w.rest
    | none =>
      let vs := s.victims acc
      if s.avail p + s.couldFree p s.usedPages vs < n then (s, .refused)
      else s.evictLoop req p n (vs.map (·.1))

/-! ## Write-back (R175, R218) -/

/-- Whether a write-back of a tensor can be received: its backing, and every ABSENT one behind it that the bytes go through, is RW, and the
last is bulk, host or resident (R175). -/
def State.takesBack (s : State) (p : Nat) : Nat → Desc → Bool
  | 0, _ => false
  | n + 1, d =>
    match d.back with
    | 1 => match s.tensor p d.backAddr with
      | some b => b.rw_ && b.main && (b.state.resident || (b.state == .absent && s.takesBack p n b.desc))
      | none => false
    | 2 => true
    | 3 => true
    | _ => false

/-- Whether a backing can take a write-back now (R175, R202, R236, R391): a resident tensor that no command holds, that is not WRITING and
whose channels are not paused; behind an ABSENT one its own backing; the bulk tier once it is up; host memory where the function may
master the bus. -/
def State.backReady (s : State) (p : Nat) : Nat → Desc → Bool
  | 0, _ => true
  | n + 1, d =>
    match d.back with
    | 1 => match s.tensor p d.backAddr with
      | some b =>
        if b.state.resident then
          b.state != .writing && !s.heldBy p d.backAddr && !b.repairing && !(s.tensorChans b 0 b.desc.length).any s.paused
        else if b.state = .absent then s.backReady p n b.desc
        else b.state != .loading
      | none => true
    | 2 => !s.blkComing
    | 3 => s.busOk (p + 1)
    | _ => true

/-- Whether the backing of a tensor can take its write-back now. -/
def State.backingReady (s : State) (p : Nat) (t : Tensor) : Bool := s.backReady p s.chain t.desc

/-- Where the bytes of a tensor's home copy go in a write-back, with the bytes (R165, R175). -/
def State.backPairs (s : State) (p : Nat) (t : Tensor) : List (Source × Byte) :=
  (List.range t.desc.dataLen).filterMap fun o => (s.backSource p t o).map fun a => (a, t.data.read o)

/-- One byte of a write-back reaches its place: a resident backing becomes DIRTY (R175); a host byte outside the windows is discarded
(R396). -/
def State.putBack (s : State) (p : Nat) (e : Source × Byte) : State :=
  match e.1 with
  | .main tid o => s.modTensor p tid fun b => { b with state := .dirty, data := b.data.write o e.2 }
  | .bulk a => { s with blk := s.blk.write a e.2 }
  | .host a => if s.window (p + 1) a 1 true then s.hostWrite a [e.2] else s

/-- The write requests of a write-back, none above Max Payload Size, that no window allows (R390). -/
def State.lostWrites (s : State) (p : Nat) (ps : List (Source × Byte)) : List (Nat × Nat) :=
  (hostCuts s.pci.mps (ps.filterMap fun e => match e.1 with
    | .host a => some a
    | _ => none)).filter fun r => !s.window (p + 1) r.1 r.2 true

/-- A tensor's copy in the main tier has been written over `n` bytes from offset `o` (R228, R238). -/
def State.mainWritten (s : State) (t : Tensor) (o n : Nat) : State := s.framesWritten t.frames o n

/-- The bursts of the main tier that a read of `n` bytes of a tensor from offset `o` takes, by channel: in its own copy, or in the backing it
is read from (R179, R226). -/
def State.readBursts (s : State) (p tid o n : Nat) : List (Nat × Nat) :=
  match s.readHome p s.chain tid with
  | none => []
  | some u => match s.tensor p u with
    | none => []
    | some b =>
      if u = tid then s.burstsOf b.frames o n
      else ((List.range n).filterMap fun i => match s.sourceOf p s.chain tid (o + i) with
        | some (.main _ a) => some (a / 64)
        | _ => none).dedup.map fun k => (s.chanAt (b.frames.getD (k / 1024) 0) (k % 1024 / 16), 1)

/-- The main tier has been read over `n` bytes of a tensor from offset `o`: what the bus did to the words (R229). -/
def State.mainRead (s : State) (p tid o n : Nat) : State := s.busErrors false (s.readBursts p tid o n)

/-- The channels that a read of `n` bytes of a tensor from offset `o` needs. -/
def State.readChans (s : State) (p tid o n : Nat) : List Nat := ((s.readBursts p tid o n).map (·.1)).dedup

/-- An access to `n` bytes of a tensor's copy from offset `o` waits for a channel that a retrain has paused (R236). -/
def State.mainPaused (s : State) (p tid o n : Nat) : Bool := (s.readChans p tid o n).any s.paused

/-- A whole tensor written to its backing through its shard selection (R175, R396); none where the write-back fails. Bytes for the bulk tier
have landed there before, under R218. -/
def State.writeBack (s : State) (p : Nat) (t : Tensor) : Option State :=
  let tier := s.backingTier p t
  if s.takesBack p s.chain t.desc = false ∨ (tier = 3 ∧ t.landed = false) then none
  else if tier = 3 then some s
  else
    let ps := s.backPairs p t
    let s := (s.lostWrites p ps).foldl (fun s r => s.pciEvent 9 (p + 1) r.1) s
    let s := ps.foldl (fun s e => s.putBack p e) s
    some (match (s.readHome p s.chain t.desc.backAddr).bind (s.tensor p) with
      | some b => if tier = 2 then s.mainWritten b 0 b.desc.length else s
      | none => s)

/-! ## Shadows (R172 to R174) -/

/-- A task changed. -/
def State.modTask (s : State) (k : Nat) (f : Task → Task) : State :=
  match Tab.find s.ctl.tasks k with
  | some t => { s with ctl := { s.ctl with tasks := Tab.insert s.ctl.tasks k (f t) } }
  | none => s

/-- A shadow with page `g` of a tensor's copy taken into it. -/
def Shadow.take (h : Shadow) (data : Memory) (g : Nat) : Shadow :=
  if h.pages.contains g then h
  else { h with pages := g :: h.pages, data := (data.filter fun e => e.1 / 65536 == g).foldl (fun m e => Memory.write m e.1 e.2) h.data }

/-- Bytes written into a shadow, taking pages as they are first touched. -/
def Shadow.writeN (h : Shadow) (data : Memory) : Nat → List Byte → Shadow
  | _, [] => h
  | o, b :: bs =>
    let h := h.take data (o / 65536)
    Shadow.writeN { h with data := h.data.write o b } data (o + 1) bs

/-- The pool pages of a shadow in the order of its tensor's bytes. -/
def Shadow.frameList (h : Shadow) (n : Nat) : List Nat := (List.range n).map fun g => (Tab.find h.frames g).getD 0

/-- A shadow in which bytes have been written, with pool pages for the pages it has taken newly (R172). -/
def State.placeShadow (s : State) (h h' : Shadow) : Shadow × State :=
  let new := h'.pages.filter fun g => !h.pages.contains g
  let (fs, s) := s.drawFrames new.length []
  ({ h' with frames := (new.zip fs).foldl (fun m e => Tab.insert m e.1 e.2) h'.frames }, s)

/-- Bytes that task `k` writes into a main-home tensor: they go to shadow pages, each new page coming out of the task's
reservation (R172, R173). -/
def State.shadowWrite (s : State) (k p tid o : Nat) (bs : List Byte) : State :=
  match s.tensor p tid with
  | none => s
  | some t =>
    let h := (s.taskShadow k p tid).getD Shadow.empty
    let (h', s) := s.placeShadow h (h.writeN t.data o bs)
    let s := s.modTask k fun w =>
      { w with shadows := Tab.insert w.shadows (tkey p tid) h', reserved := w.reserved - (h'.pages.length - h.pages.length) }
    s.framesWritten (h'.frameList (pagesOf t.desc.length)) o bs.length

/-- A shadow swapped in: its pages replace the tensor's, which becomes DIRTY (R172). -/
def Tensor.swap (t : Tensor) (h : Shadow) : Tensor :=
  { t with state := .dirty
           frames := t.frames.zipIdx.map fun e => (Tab.find h.frames e.2).getD e.1
           data := h.data.foldl (fun m e => Memory.write m e.1 e.2) (t.data.filter fun e => !h.pages.contains (e.1 / 65536)) }

/-- The pool pages of a tensor that a shadow replaces. -/
def Tensor.replaced (t : Tensor) (h : Shadow) : List Nat := (t.frames.zipIdx.filter fun e => h.pages.contains e.2).map (·.1)

/-- A shadow swapped into its tensor: the pages it replaces go back to the pool, retired ones out of it (R172, R230). -/
def State.commitShadow (s : State) (p tid : Nat) (h : Shadow) : State :=
  match s.tensor p tid with
  | some t => (s.leavePool (t.replaced h)).setTensor p tid (t.swap h)
  | none => s

/-- Every shadow of a task swapped in (R172, R256). -/
def State.commitShadows (s : State) (shadows : Tab Shadow) : State :=
  shadows.foldl (fun s e => s.commitShadow (e.1 / 2 ^ 32) (e.1 % 2 ^ 32) e.2) s

/-! ## Overlaps in the banks (R117, R166, R176) -/

/-- The ranges [a, a+m) and [b, b+n) share a byte; an empty one shares none. -/
def overlap (a m b n : Nat) : Bool := decide (0 < m ∧ 0 < n ∧ a < b + n ∧ b < a + m)

/-- The near-home tensors of every partition that are resident, with partition and TID. -/
def State.residentNear (s : State) : List (Nat × Tensor) := s.mem.tensors.filter fun e => e.2.near && e.2.state.resident

/-- The planes of a block (R114). -/
def State.bplane (s : State) (b : Nat) (pl : Bool) : BlockPlane :=
  Tab.get BlockPlane.empty s.arr.planes (2 * b + b2n pl)

/-- A plane of a block written. -/
def State.setBplane (s : State) (b : Nat) (pl : Bool) (x : BlockPlane) : State :=
  { s with arr := { s.arr with planes := Tab.set BlockPlane.empty s.arr.planes (2 * b + b2n pl) x } }

/-- A cog (chapters 02, 04). -/
def State.cog (s : State) (c : Nat) : Cog := Tab.get Cog.reset s.arr.cogs c

/-- A cog written. -/
def State.setCog (s : State) (c : Nat) (x : Cog) : State :=
  { s with arr := { s.arr with cogs := Tab.set Cog.reset s.arr.cogs c x } }

/-- A cog's plane: false is A, true is B. -/
def Cog.planeOf (x : Cog) (pl : Bool) : Plane := if pl then x.planeB else x.planeA

/-- A cog with a plane written. -/
def Cog.setPlane (x : Cog) (pl : Bool) (v : Plane) : Cog := if pl then { x with planeB := v } else { x with planeA := v }

/-- The plane state counts as holding a gear for the pannier checks (R114). -/
def PState.holdsGear : PState → Bool
  | .empty => false | _ => true

/-- The pannier of a plane: first byte and length in the bank (R134). -/
def Plane.pannier (v : Plane) : Nat × Nat := (v.panBase * 4096, v.panSize * 4096)

/-- The GEAR_ID whose pannier, in plane `pl` of cog `c`, overlaps a range of the bank, if any. -/
def State.pannierClash (s : State) (c base len : Nat) (pl : Bool) : Option Nat :=
  let bp := s.bplane (blockOf c) pl
  let pan := ((s.cog c).planeOf pl).pannier
  if bp.state.holdsGear && overlap base len pan.1 pan.2 then bp.gear.map (·.id) else none

/-- Whether a near-home tensor's range in its rectangle overlaps that of another. -/
def nearMeets (a b : Desc) : Bool :=
  rectMeets a.nearRect b.nearRect && overlap a.nearBase a.nearLen b.nearBase b.nearLen

/-- What stands in the way of a near-home tensor's range: the GEAR_ID of a pannier it overlaps in a cog of its rectangle, or
the TID of a resident near-home RW tensor (check 6 of R166, R176). Where several stand in the way, the pannier of the lowest cog is named, in
plane A before plane B, and then the tensor of the lowest partition and TID (DESIGN CHOICE, log 77: R166 and R176 give no order). -/
def State.nearOwner (s : State) (key : Nat) (d : Desc) : Option Nat :=
  match (rectCogs d.nearRect).findSome? fun c =>
      (s.pannierClash c d.nearBase d.nearLen false).or (s.pannierClash c d.nearBase d.nearLen true) with
  | some g => some g
  | none => (s.residentNear.find? fun e => e.1 != key && e.2.rw_ && nearMeets d e.2.desc).map fun e => e.1 % 2 ^ 32

/-- Every resident near-home RO tensor that a range displaces becomes ABSENT (R176, R486). -/
def State.displace (s : State) (key : Nat) (d : Desc) : State :=
  (s.residentNear.filter fun e => e.1 != key && !e.2.rw_ && nearMeets d e.2.desc).foldl
    (fun s e => s.modTensor (e.1 / 2 ^ 32) (e.1 % 2 ^ 32) Tensor.gone) s

/-- A bank range of every cog of a rectangle zero-filled (R166). -/
def State.zeroBanks (s : State) (rect base len : Nat) : State :=
  (rectCogs rect).foldl (fun s c =>
    let x := s.cog c
    s.setCog c { x with bank := x.bank.filter fun e => !decide (base ≤ e.1 ∧ e.1 < base + len) }) s

/-! ## DEFINE (R166) -/

/-- Whether [a, a + n) lies inside a READY or DAMAGED catalogue entry granted to partition `p` (R216). -/
def State.granted (s : State) (p a n : Nat) : Bool :=
  s.blk.cat.any fun e => (e.2.state == .ready || e.2.state == .damaged) && bit e.2.grant p &&
    decide (e.2.base ≤ a ∧ a + n ≤ e.2.base + e.2.length)

/-- Check 3 of R166. -/
def State.backingOk (s : State) (p : Nat) (d : Desc) : Bool :=
  (match d.back with
    | 1 => match s.tensor p d.backAddr with
      | some b => !b.near && b.desc.length == d.fullLength
      | none => false
    | 2 => s.granted p d.backAddr d.fullLength
    | 3 => d.backRuns.all fun r =>
        s.window (p + 1) (d.backAddr + r.1) r.2 false && (d.kind == 0 || s.window (p + 1) (d.backAddr + r.1) r.2 true)
    | _ => true) &&
  (d.home != 3 || s.granted p d.homeAddr d.length)

/-- Free entries of the tensor table (R160). -/
def State.tableFree (s : State) : Nat := 262144 - s.mem.tensors.length

/-- A new tensor's entry: ABSENT with a backing; CLEAN where bulk-home; resident and DIRTY, every byte zero, where it has no
backing (R166, R167). -/
def Desc.fresh (d : Desc) (p now : Nat) (frames : List Nat) : Tensor where
  part := p
  desc := d
  state := if d.home = 3 then .clean else if d.back = 0 then .dirty else .absent
  data := []
  touch := now
  frames := frames
  wb := none
  landed := false
  wbNo := 0
  repairing := false
  struck := []
  awaited := false
  waiters := []
  granules := []

end Sys2Proof.Machine
end

