-- ==== Sys2Proof/Machine/RltBase.lean ====
section
/-! DEFINITION. The fabric core that other chapters reach (chapter 12): ports, routing and messages (R350, R360 to R368), the
transfer engine's ring (R370 to R374), and event counters (R275), whose changes wake it. -/

namespace Sys2Proof.Machine

/-! ## Ports and their state -/

/-- A port (R351 to R360). -/
def State.port (s : State) (p : Nat) : Port := Tab.get Port.clear s.rlt.ports p
/-- A port written. -/
def State.setPort (s : State) (p : Nat) (x : Port) : State :=
  { s with rlt := { s.rlt with ports := Tab.set Port.clear s.rlt.ports p x } }

def pDisabled : Nat := 0
def pTraining : Nat := 1
def pUp : Nat := 2
def pDown : Nat := 3
def pStopping : Nat := 4
def pTest : Nat := 5
def pQuarantined : Nat := 6

/-- The state of a port (R375). -/
def State.portState (s : State) (p : Nat) : Nat := s.rd F.RLT_PORT_STATE.STATE p

/-- A port changes state (R375): PORT[p] is raised, and VER is 0 when not UP. -/
def State.movePort (s : State) (p st : Nat) : State :=
  let s := s.setPort p { s.port p with since := s.time }
  if s.portState p = st then s
  else
    let s := s.wr F.RLT_PORT_STATE.STATE p st
    (if st = pUp then s else s.wr F.RLT_PORT_STATE.VER p 0).raise (139 + p)

/-- Whether a slice may enter and leave through a port (R362). -/
def State.allowed (s : State) (p slice : Nat) : Bool :=
  bit (s.rd F.RLT_SLICE_ALLOW.ALLOW (RegKind.idx .RLT_SLICE_ALLOW p (slice / 32))) (slice % 32)

/-- This device's ID. -/
def State.devId (s : State) : Nat := s.rd F.RLT_DEV_ID.DEV_ID 0

/-- The partition whose SLICE is a frame's and which is ENABLED (R364). -/
def State.slicePart (s : State) (slice : Nat) : Option Nat :=
  (List.range 16).find? fun p => s.rd F.RLT_PART_SLICE.SLICE p == slice && s.rd F.SEC_PART_STATE.STATE p == 1

/-! ## Flows that have lost frames (R360) -/

/-- The flow of a frame on a branch. -/
def Frame.flow (f : Frame) (branch : Nat) : Flow := ⟨f.src, f.dst, f.slice, f.vc, branch⟩

/-- A flow has lost frames on a branch. -/
def State.cutFlow (s : State) (f : Frame) (branch : Nat) : State :=
  let w := f.flow branch
  if s.rlt.cut.contains w then s else { s with rlt := { s.rlt with cut := w :: s.rlt.cut } }

/-- A frame on its way out by port `o`: a FIRST mends its flow, a later frame of a flow that lost some is poisoned. -/
def State.poisoned (s : State) (f : Frame) (o : Nat) : Bool × State :=
  if f.first then
    (f.poison, { s with rlt := { s.rlt with cut := s.rlt.cut.filter fun w => w != f.flow 16 && w != f.flow o } })
  else (f.poison || s.rlt.cut.contains (f.flow 16) || s.rlt.cut.contains (f.flow o), s)

/-! ## Input buffer entries (R354, R366) -/

/-- One copy of the frame in an input buffer entry has left or gone; the last frees the entry. -/
def State.freeCopy (s : State) (entry : Nat) : State :=
  match Tab.find s.rlt.entries entry with
  | none => s
  | some (p, vc, n) =>
    if 1 < n then { s with rlt := { s.rlt with entries := Tab.insert s.rlt.entries entry (p, vc, n - 1) } }
    else
      let x := s.port p
      let s := s.setPort p { x with given := Tab.set 0 x.given vc (Tab.get 0 x.given vc + 1) }
      { s with rlt := { s.rlt with entries := Tab.erase s.rlt.entries entry } }

/-! ## Transfers: bookkeeping -/

/-- A transfer in flight. -/
def State.xfer (s : State) (p pos : Nat) : Option Xfer := s.rlt.xfers.find? fun x => x.part == p && x.pos == pos

/-- A transfer in flight changed. -/
def State.modXfer (s : State) (p pos : Nat) (f : Xfer → Xfer) : State :=
  { s with rlt := { s.rlt with xfers := s.rlt.xfers.map fun x => if x.part = p ∧ x.pos = pos then f x else x } }

/-- A frame of a transfer has left by port `o`, or will never leave. -/
def State.xferSent (s : State) (x : Option (Nat × Nat)) (o : Nat) : State :=
  match x with
  | none => s
  | some (p, pos) => s.modXfer p pos fun x => { x with
      left := x.left - 1, port := o, sentAt := if x.left ≤ 1 then s.time else x.sentAt }

/-! ## Messages that arrive (R360, R364, R368) -/

/-- The bytes that a message's header announces (R368). -/
def msgLen (head arg : Nat) : Nat := if bits head 56 8 = 1 ∨ bits head 56 8 = 0x10 then arg else 0

/-- A message with a frame's words taken in; at LAST it is whole, or lost where bytes are missing. -/
def Msg.take (m : Msg) (f : Frame) (port now : Nat) (ws : List Word64) : Msg :=
  let d := m.data ++ ws.flatMap fun w => toBytes 8 w.toNat
  let n := msgLen m.head m.arg
  { m with port := port, at_ := now, data := d.take n, done := f.last && decide (n ≤ d.length), bad := f.last && decide (d.length < n) }

/-- Whether a message is open. -/
def Msg.isOpen (m : Msg) : Bool := !m.done && !m.bad

/-- The destination takes a frame of partition `p` in (R360): poison, a FIRST while a message is open and a continuation with
none open discard. -/
def State.takeFrame (s : State) (p port : Nat) (f : Frame) : State :=
  let w := f.flow 16
  let mine (m : Msg) : Bool := m.isOpen && m.flow == w
  let set (l : List Msg) : State := { s with rlt := { s.rlt with msgs := l } }
  if f.poison then set (s.rlt.msgs.map fun m => if mine m then { m with bad := true } else m)
  else if f.first then
    let old := s.rlt.msgs.map fun m => if mine m then { m with bad := true } else m
    let m : Msg := ⟨w, p, port, s.time, (f.words.getD 0 0).toNat, (f.words.getD 1 0).toNat, [], false, false, 0, s.time, false, []⟩
    set (old ++ [m.take f port s.time (f.words.drop 2)])
  else set (s.rlt.msgs.map fun m => if mine m then m.take f port s.time f.words else m)

/-! ## Routing (R362 to R364) -/

/-- Why a frame is dropped (RLT_PORT_DROP). -/
inductive Drop where
  | sliceDeny | noRoute | hops | noPart
  deriving DecidableEq, Repr

/-- The counter of a drop cause. -/
def Drop.fld : Drop → Fld
  | .sliceDeny => F.RLT_PORT_DROP.SLICE_DENY
  | .noRoute => F.RLT_PORT_DROP.NO_ROUTE
  | .hops => F.RLT_PORT_DROP.HOPS
  | .noPart => F.RLT_PORT_DROP.NO_PART

/-- A drop is counted at the input port, or at port 0 for a frame that this device originates (R362). -/
def State.countDrop (s : State) (i : Nat) (d : Drop) : State := s.count d.fld (if i < 16 then i else 0) 1

/-- A frame is dropped under R362: its flow has lost a frame, its entry and its transfer are rid of it. -/
def State.dropFrame (s : State) (i : Nat) (d : Drop) (q : Queued) : State :=
  (((s.countDrop i d).cutFlow q.frame 16).freeCopy q.entry).xferSent q.xfer 0

/-- A frame waits at output port `o`, poisoned where its flow has lost frames; on a version 2 output a poisoned frame is dropped
(R358, R360). -/
def State.enqueue (s : State) (o : Nat) (q : Queued) : State :=
  let (bad, s) := s.poisoned q.frame o
  if bad && (s.port o).ver == 2 then (s.freeCopy q.entry).xferSent q.xfer o
  else
    let x := s.port o
    let q := { q with frame := { q.frame with poison := bad } }
    s.setPort o { x with out := Tab.set [] x.out q.frame.vc (Tab.get [] x.out q.frame.vc ++ [q]) }

/-- What the fabric core holds for an east link (R369). -/
def State.eastIn (s : State) (l : Nat) : EastIn := Tab.get ⟨[], 0, false⟩ s.arr.east l

/-- The flits that wait on east link `l`, and the bytes of TOKEN messages for it that wait behind them, in bytes (R369). -/
def State.eastHeld (s : State) (l : Nat) : Nat :=
  (s.eastIn l).flits.length * 32 + ((s.rlt.msgs.filter fun m => m.op == 0x10 && m.link == l).map fun m => m.data.length - m.given).foldl (· + ·) 0

/-- What is held for an east link has come down to 64 KiB: the frames beyond it give their entries back (R354, R369). -/
def State.eastFrees (s : State) (l : Nat) : State :=
  if 65536 < s.eastHeld l then s
  else
    let mine (m : Msg) : Bool := m.op == 0x10 && m.link == l
    let es := s.rlt.msgs.flatMap fun m => if mine m then m.held else []
    es.foldl State.freeCopy { s with rlt := { s.rlt with msgs := s.rlt.msgs.map fun m => if mine m then { m with held := [] } else m } }

/-- A frame that has been delivered gives its entry back, but for one of a TOKEN whose link holds more than 64 KiB: there credits stop until
the link has room (R369). -/
def State.takenIn (s : State) (q : Queued) : State :=
  let mine (m : Msg) : Bool := m.op == 0x10 && !m.bad && m.flow == q.frame.flow 16
  let ms := s.rlt.msgs
  match (List.range ms.length).reverse.find? fun i => (ms[i]?).any mine with
  | some i => match ms[i]? with
    | some m =>
      if 65536 < s.eastHeld m.link ∧ q.entry ≠ 0 then
        { s with rlt := { s.rlt with msgs := ms.set i { m with held := m.held ++ [q.entry] } } }
      else s.freeCopy q.entry
    | none => s.freeCopy q.entry
  | none => s.freeCopy q.entry

/-- A frame for this device reaches the partition of its slice, or is dropped as NO_PART (R364). -/
def State.deliver (s : State) (i : Nat) (q : Queued) : State :=
  match s.slicePart q.frame.slice with
  | none => (((s.countDrop i .noPart).freeCopy q.entry).xferSent q.xfer 0)
  | some p => ((s.takeFrame p (if i < 16 then i else 0) q.frame).takenIn q).xferSent q.xfer 0

/-- The port that the tables name for a destination from input `i`, if it or its alternate is UP (R362). -/
def State.routePort (s : State) (i dst : Nat) : Option Nat :=
  let (valid, alt, altEn, port) :=
    if dst / 256 = s.devId / 256 then
      let k := RegKind.idx .RLT_LOCAL i (dst % 256)
      (s.on F.RLT_LOCAL.VALID k, s.rd F.RLT_LOCAL.ALT k, s.on F.RLT_LOCAL.ALT_EN k, s.rd F.RLT_LOCAL.PORT k)
    else
      let k := RegKind.idx .RLT_ROUTE i (dst / 256)
      (s.on F.RLT_ROUTE.VALID k, s.rd F.RLT_ROUTE.ALT k, s.on F.RLT_ROUTE.ALT_EN k, s.rd F.RLT_ROUTE.PORT k)
  if !valid then none
  else if s.portState port = pUp then some port
  else if altEn && s.portState alt == pUp then some alt
  else none

/-- R362: a UNICAST or TRANSPORT frame entering the fabric core by input `i` (16 for this device's own). -/
def State.routeFrame (s : State) (i : Nat) (q : Queued) : State :=
  let f := q.frame
  if i < 16 ∧ s.allowed i f.slice = false then s.dropFrame i .sliceDeny q
  else if f.dst = s.devId then s.deliver i q
  else if f.hops = 0 then s.dropFrame i .hops q
  else match s.routePort i f.dst with
    | none => s.dropFrame i .noRoute q
    | some o =>
      if s.allowed o f.slice then s.enqueue o { q with frame := { f with hops := f.hops - 1 } } else s.dropFrame i .sliceDeny q

/-! ## Messages that this device sends (R363, R368) -/

/-- Message payload in frames' words: 28 words in the FIRST frame, 30 in each later one. -/
def msgWords : Nat → List Word64 → List (List Word64)
  | 0, _ => []
  | n + 1, ws => if ws.isEmpty then [] else ws.take 30 :: msgWords n (ws.drop 30)

/-- Bytes as 64-bit words, padded with zeros. -/
def wordsOf (bs : List Byte) : List Word64 := (List.range (ceilDiv bs.length 8)).map fun i => BitVec.ofNat 64 (fieldAt bs (8 * i) 8)

/-- Words padded with zeros to the 30 of a frame. -/
def padFrame (ws : List Word64) : List Word64 := ws ++ List.replicate (30 - ws.length) 0

/-- The frames of a message of partition `p` (R350, R363, R368). -/
def State.msgFrames (s : State) (p type vc dst head arg : Nat) (data : List Byte) : List Frame :=
  let ws := wordsOf data
  let all := (BitVec.ofNat 64 head :: BitVec.ofNat 64 arg :: ws.take 28) :: msgWords ws.length (ws.drop 28)
  (all.zipIdx).map fun e =>
    ⟨type, 15, s.rd F.RLT_PART_SLICE.SLICE p, dst, s.devId, vc, e.2 == 0, e.2 + 1 == all.length, false, padFrame e.1⟩

/-- A message header (R368). -/
def msgHead (op status evt : Nat) (evtEn : Bool) (link tid : Nat) : Nat :=
  tid % 2 ^ 32 + link % 2 ^ 7 * 2 ^ 32 + b2n evtEn * 2 ^ 39 + evt % 256 * 2 ^ 40 + status % 256 * 2 ^ 48 + op % 256 * 2 ^ 56

/-- A message of this device enters the fabric core from input 16. -/
def State.originate (s : State) (fs : List Frame) (x : Option (Nat × Nat)) : State :=
  fs.foldl (fun s f => s.routeFrame 16 ⟨f, 0, x⟩) s

/-! ## Bytes written into committed pages -/

/-- Bytes written into a tensor's committed pages; a CLEAN tensor becomes DIRTY. -/
def State.tensorPut (s : State) (p tid o : Nat) (bs : List Byte) : State :=
  match s.tensor p tid with
  | some t => (s.setTensor p tid { t with
      data := t.data.writeN o bs
      state := if t.state = .clean then .dirty else t.state }).mainWritten t o bs.length
  | none => s

/-- Bytes that the transfer engine writes also reach every shadow of the same page (R374). -/
def Shadow.also (h : Shadow) (o : Nat) (bs : List Byte) : Shadow :=
  { h with data := (bs.zipIdx).foldl (fun m e => if h.pages.contains ((o + e.2) / 65536) then m.write (o + e.2) e.1 else m) h.data }

/-- Bytes that the transfer engine writes into a ring: committed pages and shadows together (R374). -/
def State.ringPut (s : State) (p tid o : Nat) (bs : List Byte) : State :=
  let key := tkey p tid
  let s := s.tensorPut p tid o bs
  { s with ctl := { s.ctl with tasks := s.ctl.tasks.map fun e =>
      (e.1, { e.2 with shadows := e.2.shadows.map fun h => if h.1 = key then (h.1, h.2.also o bs) else h }) } }

/-- Bytes for a tensor's committed pages, from a host, a record or the transfer engine: they are written, or wait in the controllers while a
channel that they need is paused or others wait for it (R236). -/
def State.mainPut (s : State) (p tid o : Nat) (bs : List Byte) (ring : Bool) : State :=
  let chs := ((s.tensor p tid).map fun t => s.tensorChans t o bs.length).getD []
  if s.mainWaits (heldReq s.lpx.heldNo) chs then s.holdMain chs (.put p tid o bs ring)
  else if ring then s.ringPut p tid o bs
  else s.tensorPut p tid o bs

/-! ## What waits wait for (R264, R265, R273, R276) -/

/-- The final outcome of a handle, if it has one. -/
def Cmd.outcome (c : Cmd) (hd : Nat) : Option Nat := (Tab.find c.handles hd).bind (·.outcome)

/-- Every non-RUN handle of a command has its outcome. -/
def Cmd.fenced (c : Cmd) : Bool := c.handles.all fun e => e.2.run || e.2.outcome.isSome

/-- Every handle of a command has its outcome. -/
def Cmd.settled (c : Cmd) : Bool := c.handles.all fun e => e.2.outcome.isSome

/-- Whether event `e` of a partition has reached a target: the difference read as signed 32 bits is not negative (R264). -/
def State.eventMet (s : State) (p e target : Nat) : Bool :=
  decide (0 ≤ signed 32 (s.rd F.HUB_EVENT.COUNT (RegKind.idx .HUB_EVENT p e) + 2 ^ 32 - target % 2 ^ 32))

/-- Whether what a wait waits for holds now. -/
def State.waitMet (s : State) (c : Cmd) (k : WaitKind) : Bool :=
  match k with
  | .handle hd => (c.outcome hd).isSome
  | .fence => c.fenced
  | .event e t => s.eventMet (c.queue / 64) e t
  | .finish => c.settled

/-- A wait of command `n` with the time at which it was first met. -/
def State.noteMet (s : State) (n : Nat) (w : HubWait) : HubWait :=
  if w.met.isNone ∧ (Tab.find s.ctl.cmds n).any (fun c => s.waitMet c w.kind) = true then { w with met := some s.time } else w

/-- The event wait of a handler on a hub with no command, with the time at which it was first met (R276, R409). -/
def State.noteEvent (s : State) (p : Nat) (w : HubWait) : HubWait :=
  match w.kind with
  | .event e t => if w.met.isNone ∧ s.eventMet p e t = true then { w with met := some s.time } else w
  | _ => w

/-- The waits that are met now and were not before: those of running, suspended and parked commands (R268, R276, R409), and the event waits
of handlers on hubs with no command. -/
def State.markMet (s : State) : State :=
  let note (x : Hub) : Hub :=
    let own (w : Option HubWait) : Option HubWait := match x.cur, x.part with
      | some n, _ => w.map (s.noteMet n)
      | none, some p => w.map (s.noteEvent p)
      | none, none => w
    { x with wait := own x.wait, stack := x.stack.map fun e => (e.1, e.2.1, own e.2.2),
             park := x.park.map fun e => { e with wait := e.wait.map (s.noteMet e.seq) } }
  { s with ctl := { s.ctl with hubs := s.ctl.hubs.map fun e => (e.1, note e.2) } }

/-- Whether a wait was met no later than in the cycle in which its limit ran out (R276). -/
def HubWait.inTime (w : HubWait) : Bool := w.met.any fun t => decide (t ≤ w.limit)

/-! ## Event counters and the transfer ring (R275, R370 to R373) -/

/-- An event counter of a partition raised, modulo 2³² (R275), waking nothing. -/
def State.eventBump (s : State) (p e v : Nat) : State :=
  let i := RegKind.idx .HUB_EVENT p e
  (s.wr F.HUB_EVENT.COUNT i (s.rd F.HUB_EVENT.COUNT i + v)).markMet

def xOK : Nat := 1
def xRefused : Nat := 2
def xTimeout : Nat := 3
def xLost : Nat := 4

/-- Byte offset of a ring position's slot. -/
def ringSlot (log2 pos : Nat) : Nat := pos % 2 ^ log2 * 64

/-- A transfer's outcome is known (R373): XSTATUS, ERROR and DONE_TIME are written in place, LOCAL_EVT moves if enabled, and the
transfer ends. -/
def State.endXfer (s : State) (x : Xfer) (status error : Nat) : State :=
  let o := ringSlot x.log2 x.pos
  let tid := x.ring
  let s := (s.mainPut x.part tid (o + 6) [BitVec.ofNat 8 status, BitVec.ofNat 8 error] true).mainPut x.part tid (o + 0x20) (toBytes 8 s.time) true
  let s := if bit x.flags 1 then s.eventBump x.part x.localEvt 1 else s
  { s with rlt := { s.rlt with xfers := s.rlt.xfers.filter fun y => !(y.part == x.part && y.pos == x.pos) } }

/-- Whether a dispatched command, or a PUT that arrives, write-holds a tensor. -/
def State.writeHeld (s : State) (p tid : Nat) : Bool := s.putWrites p tid || s.ctl.cmds.any fun e => e.2.holds p tid true

/-- An earlier transfer of the partition to the same device on the same VC still waits for its source: the later ones wait behind it, as they
are delivered in ring order (R373). -/
def State.xferBehind (s : State) (x : Xfer) : Bool :=
  (s.rlt.xfers.takeWhile fun y => !(y.part == x.part && y.pos == x.pos)).any fun y =>
    y.part == x.part && y.dst == x.dst && y.vc == x.vc && !y.started

/-- A transfer tries to begin (R372): a PUT reads its source and sends it as one message, waiting while a command write-holds it;
an EVENT sends its message; a descriptor that is neither, or whose source fails step 1, is REFUSED with E_SHAPE. -/
def State.beginXfer (s : State) (x : Xfer) : State :=
  let refuse := s.endXfer x xRefused 0x02
  if s.xferBehind x then s
  else if 2 < x.vc then refuse
  else if x.op = 2 then
    let fs := s.msgFrames x.part 1 x.vc x.dst (msgHead 2 0 x.remoteEvt (bit x.flags 0) 0 x.pos) x.value []
    (s.modXfer x.part x.pos fun y => { y with started := true, left := fs.length }).originate fs (some (x.part, x.pos))
  else if x.op = 1 then
    match s.tensor x.part x.src with
    | none => refuse
    | some t =>
      if !(t.main && (t.state == .clean || t.state == .dirty)) then refuse
      else if s.writeHeld x.part x.src || s.mainPaused x.part x.src 0 t.desc.length then s
      else
        let bs := s.tbytes 0 x.part x.src 0 t.desc.length
        let s := s.mainRead x.part x.src 0 t.desc.length
        let head := msgHead 1 0 x.remoteEvt (bit x.flags 0) 0 x.dstTid
        let fs := s.msgFrames x.part 1 x.vc x.dst head t.desc.length bs
        (s.modXfer x.part x.pos fun y => { y with started := true, left := fs.length }).originate fs (some (x.part, x.pos))
  else refuse

/-- A descriptor of the transfer ring (R370). -/
def Xfer.parse (p pos ring log2 : Nat) (b : List Byte) : Xfer :=
  ⟨p, pos, fieldAt b 4 1, fieldAt b 5 1, fieldAt b 8 4 % 2 ^ 20, fieldAt b 0xC 4, fieldAt b 0x10 4, fieldAt b 0x14 1,
    fieldAt b 0x15 1, fieldAt b 0x16 2, fieldAt b 0x18 4, false, 1, 0, 0, false, ring, log2⟩

/-- XFER_RING_SCAN (R371): the engine takes slots at its position while they are committed for it and fewer than 64 transfers
of the partition are in flight. The first argument bounds the slots of one lap. -/
def State.scanSlots (s : State) (p : Nat) : Nat → State
  | 0 => s
  | n + 1 =>
    let pos := Tab.get 0 s.rlt.xpos p
    let ring := s.rd F.RLT_XFER_CFG.TID p
    let log2 := s.rd F.RLT_XFER_CFG.SIZE_LOG2 p
    let b := s.tbytes 0 p ring (ringSlot log2 pos) 64
    if (s.rlt.xfers.filter fun x => x.part == p).length < 64 ∧ fieldAt b 0 4 = pos ∧ fieldAt b 6 1 = 0 then
      let x := Xfer.parse p pos ring log2 b
      let s := { s with rlt := { s.rlt with
        xpos := Tab.set 0 s.rlt.xpos p ((pos + 1) % 2 ^ 32), xfers := s.rlt.xfers ++ [x] } }
      (s.beginXfer x).scanSlots p n
    else s

/-- The transfers of a partition that wait for their source try again, oldest first (R372, R373). -/
def State.retryXfers (s : State) (p : Nat) : State :=
  (s.rlt.xfers.filter fun x => x.part == p && !x.started).foldl State.beginXfer s

/-- The engine looks at a partition's ring (R371), and PUTs that waited for their source try again. -/
def State.scanRing (s : State) (p : Nat) : State :=
  if s.live && s.on F.RLT_XFER_CFG.ENABLE p then
    (s.retryXfers p).scanSlots p (2 ^ s.rd F.RLT_XFER_CFG.SIZE_LOG2 p + 1)
  else s

/-- An event counter of a partition raised, modulo 2³² (R275); a change of the counter that a transfer ring names wakes the engine
(R371). -/
def State.eventAdd (s : State) (p e v : Nat) : State :=
  let t := s.eventBump p e v
  if s.rd F.RLT_XFER_CFG.EVT p = e ∧ v % 2 ^ 32 ≠ 0 then t.scanRing p else t

/-- The transfers of a partition that wait for their source try again; where one of them has ended, so that LOCAL_EVT may have moved, the
engine looks at the ring (R371). -/
def State.wakeXfers (s : State) (p : Nat) : State :=
  let t := s.retryXfers p
  if t.rlt.xfers.length < s.rlt.xfers.length then t.scanRing p else t

/-- A transfer ends with an outcome, and the engine looks at its ring (R371, R373). -/
def State.finishXfer (s : State) (x : Xfer) (status error : Nat) : State := (s.endXfer x status error).scanRing x.part

/-! ## A port that loses its frames (R353, R360, R373) -/

/-- One frame is lost with a port: its flow has lost frames, on that branch only for a MULTICAST copy; its entry is free; its
transfer is LOST, with an error code that the manual does not give (a free value). -/
def State.loseFrame (s : State) (p : Nat) (q : Queued) : State :=
  let s := (s.cutFlow q.frame (if q.frame.type = 2 then p else 16)).freeCopy q.entry
  match q.xfer with
  | none => s
  | some (part, pos) => match s.xfer part pos with
    | none => s
    | some x =>
      let (e, s) := s.draw 8
      s.finishXfer x xLost e

/-- Every frame that a port holds is lost, and its sequence numbers and credits start over. -/
def State.losePort (s : State) (p : Nat) : State :=
  let x := s.port p
  let gone := x.sent.map (·.2) ++ (List.range 4).flatMap fun v => Tab.get [] x.out v
  let s := s.setPort p { Port.clear with
    since := x.since, faults := x.faults, corr := x.corr, toTest := x.toTest, test := x.test, pendAt := x.pendAt }
  gone.foldl (fun s q => s.loseFrame p q) s

end Sys2Proof.Machine
end

