-- ==== Sys2Proof/Machine/Journal.lean ====
section
/-! DEFINITION. Status words and error codes, queues and commands in the state, reading rings and headers, and final states
(R17, R18, R245 to R254, R265, R279 to R281). -/

namespace Sys2Proof.Machine

/-! ## Status words and error codes (R17, R18) -/

def stOK : Nat := 0
def stZeroExtent : Nat := 1
def stLate : Nat := 2
def stRefused : Nat := 3
def stAborted : Nat := 4
def eNoSpace : Nat := 0x01
def eShape : Nat := 0x02
def eAdmitSpace : Nat := 0x03
def eAdmitTime : Nat := 0x04
def eVersion : Nat := 0x05
def eApproval : Nat := 0x06
def eConflict : Nat := 0x07
def eDeadlock : Nat := 0x20
def eStall : Nat := 0x21
def eParity : Nat := 0x22
def eStateLost : Nat := 0x23
def eAborted : Nat := 0x24

/-- An outcome word (R265). -/
def outcomeWord (owner : Nat) (waited timeout : Bool) (status error : Nat) : Nat :=
  error % 256 + status % 256 * 2 ^ 8 + b2n timeout * 2 ^ 16 + b2n waited * 2 ^ 17 + owner % 2 ^ 32 * 2 ^ 32

/-- The outcome of a refusal with an error code and the owner it names. -/
def refusedWord (owner : Nat) (waited : Bool) (error : Nat) : Nat := outcomeWord owner waited false stRefused error

/-- The outcome OK. -/
def okWord (waited : Bool) : Nat := outcomeWord 0 waited false stOK 0

/-- An event source coded as a batch owner (R265). -/
def batchOwner (b : Nat) : Nat := 0x400 + b

/-! ## Queues, commands, hubs in the state -/

def State.queue (s : State) (q : Nat) : Queue := Tab.get Queue.clear s.ctl.queues q
def State.setQueue (s : State) (q : Nat) (x : Queue) : State :=
  { s with ctl := { s.ctl with queues := Tab.set Queue.clear s.ctl.queues q x } }
def State.hub (s : State) (h : Nat) : Hub := Tab.get Hub.clear s.ctl.hubs h
def State.setHub (s : State) (h : Nat) (x : Hub) : State :=
  { s with ctl := { s.ctl with hubs := Tab.set Hub.clear s.ctl.hubs h x } }
def State.cmd (s : State) (n : Nat) : Option Cmd := Tab.find s.ctl.cmds n
def State.setCmd (s : State) (n : Nat) (c : Cmd) : State :=
  { s with ctl := { s.ctl with cmds := Tab.insert s.ctl.cmds n c } }
def State.dropCmd (s : State) (n : Nat) : State := { s with ctl := { s.ctl with cmds := Tab.erase s.ctl.cmds n } }
def State.modCmd (s : State) (n : Nat) (f : Cmd → Cmd) : State :=
  match s.cmd n with
  | some c => s.setCmd n (f c)
  | none => s
/-- A stretch of the work clock added to a list of disjoint stretches (R309). -/
def addSpan : List (Nat × Nat) → Nat × Nat → List (Nat × Nat)
  | [], e => if e.2 ≤ e.1 then [] else [e]
  | d :: l, e => if e.2 < d.1 ∨ d.2 < e.1 ∨ e.2 ≤ e.1 then d :: addSpan l e else addSpan l (min d.1 e.1, max d.2 e.2)

/-- The length of disjoint stretches together. -/
def spanSum (l : List (Nat × Nat)) : Nat := (l.map fun e => e.2 - e.1).foldl (· + ·) 0

/-- A command whose counted time leaves out the stretch from `a` to `b`; what overlaps is left out once (R309). -/
def Cmd.exclude (c : Cmd) (a b : Nat) : Cmd := { c with spans := addSpan c.spans (a, b) }

def State.task (s : State) (k : Nat) : Option Task := Tab.find s.ctl.tasks k
def State.setTask (s : State) (k : Nat) (t : Task) : State :=
  { s with ctl := { s.ctl with tasks := Tab.insert s.ctl.tasks k t } }
def State.dropTask (s : State) (k : Nat) : State := { s with ctl := { s.ctl with tasks := Tab.erase s.ctl.tasks k } }

/-- The partition of a queue (R245). -/
def qPart (q : Nat) : Nat := q / 64
/-- The partition of a command. -/
def Cmd.part (c : Cmd) : Nat := qPart c.queue
/-- The class of a queue: 0 lead, 1 pack, 2 broom (R245, Q_CFG). -/
def State.qClass (s : State) (q : Nat) : Nat := s.rd F.Q_CFG.CLASS q
/-- SIZE of a queue's ring (R246). -/
def State.qSize (s : State) (q : Nat) : Nat := 2 ^ s.rd F.Q_CFG.SIZE_LOG2 q

/-- Bytes of a slot of a queue's ring (R246, R247). -/
def State.ringSlot (s : State) (q pos : Nat) : List Byte :=
  let o := pos % s.qSize q * 64
  if s.on F.Q_CFG.LOC q then s.tbytes 0 (qPart q) (s.rd F.Q_BASE.BASE q % 2 ^ 32) o 64
  else s.hostRead (s.rd F.Q_BASE.BASE q + o) 64

/-- Bytes of `n` slots of a ring from position `pos`. -/
def State.ringSlots (s : State) (q pos n : Nat) : List Byte :=
  (List.range n).flatMap fun i => s.ringSlot q ((pos + i) % 2 ^ 32)

/-- A header read from its slot (R251). EVT_DONE of a FMT 1 header reads as zero. -/
def Header.parse (b : List Byte) : Header where
  fmt := fieldAt b 0 1
  kind := fieldAt b 1 1
  link := bit (fieldAt b 2 1) 0
  nslot := fieldAt b 3 1
  bodyLen := fieldAt b 4 2
  nrun := fieldAt b 6 1
  vec := fieldAt b 7 1
  cookie := fieldAt b 8 4
  ndecl := fieldAt b 12 1
  declOff := fieldAt b 14 2
  deadline := fieldAt b 16 8
  budget := fieldAt b 24 8
  runblk := (List.range 4).map fun i => fieldAt b (32 + 2 * i) 2
  evtDone := if fieldAt b 0 1 = 2 then fieldAt b 40 2 else 0

/-- The bytes of a command's data area (R251). -/
def Header.dataLen (h : Header) : Nat := 64 * (h.nslot - ceilDiv h.bodyLen 8)

/-- The reserved fields and bits of a header slot are zero (R251, check 2 of R253). -/
def headerReserved (b : List Byte) : Bool :=
  fieldAt b 2 1 / 2 == 0 && fieldAt b 13 1 == 0 && (fieldAt b 0 1 != 2 || bits (fieldAt b 40 2) 8 7 == 0) &&
  (slice b 42 22).all (· == 0)

/-- Check 3 of R253. An NSLOT above 63, a RUNBLK offset that is no multiple of 64 and a DECL_OFF that is no multiple of 8 fail it (DESIGN CHOICE,
log 87: the check does not name them). -/
def Header.rangeOk (h : Header) : Bool :=
  decide (h.nslot ≤ 63 ∧ h.bodyLen ≤ 504 ∧ ceilDiv h.bodyLen 8 ≤ h.nslot ∧ h.nrun ≤ 4 ∧ h.ndecl ≤ 64) &&
  (decide (h.vec ≤ 63) || h.vec == 0xFF) &&
  ((h.runblk.take h.nrun).all fun o => o % 64 == 0 && decide (o + 192 ≤ h.dataLen)) &&
  (h.ndecl == 0 || (h.declOff % 8 == 0 && decide (h.declOff + 8 * h.ndecl ≤ h.dataLen)))

/-- The checks of R253 in order; 0 where the header passes. -/
def headerCheck (b : List Byte) (afterLink : Bool) : Nat :=
  let h := Header.parse b
  if h.fmt ≠ 1 ∧ h.fmt ≠ 2 then eVersion
  else if 1 < h.kind ∨ headerReserved b = false then eShape
  else if h.rangeOk = false then eShape
  else if h.kind = 1 ∧ ¬(h.bodyLen = 0 ∧ h.nrun = 0 ∧ h.ndecl = 0 ∧ h.link = false ∧ 1 ≤ h.nslot) then eShape
  else if afterLink = true ∧ h.kind = 1 then eShape
  else 0

/-- The commands of a queue that are not final, in ring order (their sequence numbers come in acceptance order within the
list of the task table; positions order them modulo 2³²). -/
def State.queueCmds (s : State) (q : Nat) : List (Nat × Cmd) := s.ctl.cmds.filter fun e => e.2.queue == q

/-- How far position `n` lies ahead of position `o`, modulo 2³² (R247). -/
def posDiff (n o : Nat) : Nat := (n + 2 ^ 32 - o % 2 ^ 32) % 2 ^ 32

/-- Whether a command has not been dispatched yet. -/
def Cmd.waiting (c : Cmd) : Bool := c.stage == .accepted || c.stage == .taken

/-- Whether a command is neither dispatched nor final: it waits, or it has ended with ZERO_EXTENT in an open task (R250, R261). -/
def Cmd.undispatched (c : Cmd) : Bool := c.waiting || (c.stage == .ended && c.zeroExtent)

/-- HEAD of a queue: the end of the commands that are dispatched or final (R247). -/
def State.headOf (s : State) (q : Nat) : Nat :=
  let x := s.queue q
  ((s.queueCmds q).filter (·.2.undispatched)).foldl
    (fun h e => if posDiff x.accept e.2.pos > posDiff x.accept h then e.2.pos else h) x.accept

/-- The earliest command of a queue that has not been dispatched, in ring order (R259, R302 NEXT_POS). -/
def State.nextCmd (s : State) (q : Nat) : Option (Nat × Cmd) :=
  let x := s.queue q
  ((s.queueCmds q).filter (·.2.waiting)).foldl
    (fun best e => match best with
      | none => some e
      | some b => if posDiff x.accept e.2.pos > posDiff x.accept b.2.pos then some e else some b) none

/-- HEAD and NEXT_POS brought up to date (R247, R302): where no accepted command waits to be dispatched, the next one will be the one at
ACCEPT. -/
def State.moveHead (s : State) (q : Nat) : State :=
  s.setQueue q { s.queue q with
    head := s.headOf q
    nextPos := match s.nextCmd q with
      | some (_, c) => c.pos
      | none => (s.queue q).accept }

/-! ## Final states (R280, R281) -/

/-- A command reaches a final state (R279 to R281): its journal entry, then the VEC message and the EVT_DONE addition; the
command leaves the table. NOTE keeps the last JNOTE value unless the command is ABORTED, when it takes DETAIL. -/
def State.finish (s : State) (n : Nat) (st : JState) (status error detail : Nat) : State :=
  match s.cmd n with
  | none => s
  | some c =>
    let e := s.jget n
    let s := s.jset n { e with state := st, status := status, error := error,
                               note := if st = .aborted then detail else e.note }
    let s := ((s.dropCmd n).wakeXfers c.part).requestVec (c.part + 1) c.hdr.vec
    let s := if bit c.hdr.evtDone 15 then s.eventAdd c.part (c.hdr.evtDone % 256) 1 else s
    s.moveHead c.queue

end Sys2Proof.Machine
end

