-- ==== Sys2Proof/Machine/SrvBase.lean ====
section
/-! DEFINITION. Batches, sequences and request descriptors: reading a descriptor, admission (R316 to R321), the freeing of a
sequence, the records of its end (R332, R333, R344), and what a task's abort ends (R328). -/

namespace Sys2Proof.Machine

/-! ## Sequences in the state -/

/-- The key of slot `s` of batch `b` in the sequence table. -/
def seqKey (b slot : Nat) : Nat := 512 * b + slot

/-- The states of a batch: 0 DISABLED, 1 ENABLED, 2 STOPPING (R314). -/
def State.batchState (s : State) (b : Nat) : Nat := s.rd F.SRV_BATCH_CTRL.STATE b

/-- The sequence table written at a key. -/
def State.setSeq (s : State) (k : Nat) (x : Seq) : State :=
  { s with srv := { s.srv with seqs := Tab.insert s.srv.seqs k x } }

/-- The sequences of a batch in slot order, with their keys. -/
def State.batchSeqs (s : State) (b : Nat) : List (Nat × Seq) := s.srv.seqs.filter fun e => e.1 / 512 == b

/-- The sequence of a REQUEST. -/
def State.findSeq (s : State) (req : Nat) : Option (Nat × Seq) := s.srv.seqs.find? fun e => e.2.req == req

/-- A batch's memory. -/
def State.bmem (s : State) (b : Nat) : BatchMem := Tab.get ⟨0, none, 0⟩ s.srv.mem b

/-- A batch's memory written. -/
def State.setBmem (s : State) (b : Nat) (m : BatchMem) : State :=
  { s with srv := { s.srv with mem := Tab.set ⟨0, none, 0⟩ s.srv.mem b m } }

/-- The step in flight on a batch. -/
def State.step? (s : State) (b : Nat) : Option Step := Tab.find s.srv.steps b

/-- A step in flight written. -/
def State.setStep (s : State) (b : Nat) (x : Step) : State :=
  { s with srv := { s.srv with steps := Tab.insert s.srv.steps b x } }

/-- A step in flight removed. -/
def State.dropStep (s : State) (b : Nat) : State := { s with srv := { s.srv with steps := Tab.erase s.srv.steps b } }

/-- Whether the step in flight on its batch holds a REQUEST's sequence. -/
def State.inStep (s : State) (b req : Nat) : Bool :=
  match s.step? b with
  | some x => x.parts.any fun p => p.req == req
  | none => false

/-! ## The request descriptor (R316) -/

/-- A request descriptor read from a REQUEST's data area (R316). -/
def Request.parse (d : List Byte) : Request where
  batch := fieldAt d 0 1
  mflags := fieldAt d 1 1
  chunk := fieldAt d 2 2
  promptTid := fieldAt d 4 4
  promptLen := fieldAt d 8 4
  maxNew := fieldAt d 0xC 4
  seed := fieldAt d 0x10 8
  temp := fieldAt d 0x18 4
  topP := fieldAt d 0x1C 4
  topK := fieldAt d 0x20 2
  lateMax := fieldAt d 0x22 1
  pageLog2 := fieldAt d 0x23 1
  kvTemplate := fieldAt d 0x24 4
  kvTid := fieldAt d 0x28 4
  pdaTid := fieldAt d 0x2C 4
  bitmapTid := fieldAt d 0x30 4
  stops := [fieldAt d 0x34 4, fieldAt d 0x38 4] ++
    (if bit (fieldAt d 1 1) 2 then (List.range 14).map fun i => fieldAt d (64 + 4 * i) 4 else [])
  tokenDl := fieldAt d 0x3C 4

/-- MFLAGS.PDA. -/
def Request.pda (r : Request) : Bool := bit r.mflags 0
/-- MFLAGS.BITMAP. -/
def Request.bitmap (r : Request) : Bool := bit r.mflags 1
/-- MFLAGS.EXT. -/
def Request.ext (r : Request) : Bool := bit r.mflags 2
/-- P: the KV pages the sequence can need (R317). -/
def Request.pages (r : Request) : Nat := ceilDiv (r.promptLen + r.maxNew) (2 ^ r.pageLog2)

/-- Whether a tensor of a partition is a KV page of a sequence (R325): KV_TID + j for a page j. -/
def Seq.holdsPage (x : Seq) (p tid : Nat) : Bool := x.part == p && decide (x.desc.kvTid ≤ tid ∧ tid < x.desc.kvTid + x.desc.pages)

/-- The batch to whose sequences a TID of a partition is reserved, if any, until their REQUESTs are final (check 6 of R317): that
of a sequence which aborted inside a step is final at once, though the sequence stays until the drain (R333). -/
def State.kvReserved (s : State) (p tid : Nat) : Option Nat :=
  ((s.srv.seqs.find? fun e => e.2.dead.isNone && e.2.holdsPage p tid).map
    fun e => e.1 / 512).or
  ((s.srv.groups.find? fun g => g.ends.any fun e => e.part == p && decide (e.kvTid ≤ tid ∧ tid < e.kvTid + e.pages)).map (·.batch))

/-- What ends with a sequence's record. -/
def Seq.endAs (x : Seq) (aborted : Bool) (error detail : Nat) : SeqEnd :=
  ⟨x.req, aborted, error, detail, x.part, x.desc.kvTid, x.desc.pages⟩

/-! ## Automata (R335) -/

/-- The header of an automaton tensor (R335). -/
structure PdaHead where
  nstate : Nat
  nedge : Nat
  nmask : Nat
  vocab : Nat
  start : Nat
  ntop : Nat
  stateOff : Nat
  edgeOff : Nat
  maskOff : Nat
  topOff : Nat
  deriving DecidableEq, Repr

/-- A number read from a tensor of a partition. -/
def State.tnum (s : State) (p tid o n : Nat) : Nat := ofBytes (s.tbytes 0 p tid o n)

/-- The header of an automaton. -/
def State.pdaHead (s : State) (p tid : Nat) : PdaHead where
  nstate := s.tnum p tid 8 4
  nedge := s.tnum p tid 0xC 4
  nmask := s.tnum p tid 0x10 4
  vocab := s.tnum p tid 0x14 4
  start := s.tnum p tid 0x18 4
  ntop := s.tnum p tid 0x1C 4
  stateOff := s.tnum p tid 0x20 8
  edgeOff := s.tnum p tid 0x28 8
  maskOff := s.tnum p tid 0x30 8
  topOff := s.tnum p tid 0x38 8

/-- The header passes R335: magic, format and ranges, and every table lies in the tensor. -/
def State.pdaOk (s : State) (p tid len : Nat) : Bool :=
  let h := s.pdaHead p tid
  s.tnum p tid 0 4 == 0x31414450 && s.tnum p tid 4 2 == 1 &&
  decide (64 ≤ len ∧ 1 ≤ h.nstate ∧ h.nstate ≤ 1048576 ∧ 1 ≤ h.nedge ∧ h.nedge ≤ 67108864 ∧ 1 ≤ h.nmask ∧ h.nmask ≤ 65536) &&
  decide (1 ≤ h.vocab ∧ h.vocab ≤ 262144 ∧ h.start < h.nstate) &&
  decide (h.stateOff + 16 * h.nstate ≤ len ∧ h.edgeOff + 16 * h.nedge ≤ len) &&
  decide (h.maskOff + h.nmask * (ceilDiv h.vocab 256 * 32) ≤ len ∧ h.topOff + 4 * h.ntop ≤ len)

/-! ## The checks of R317 -/

/-- A main-home tensor of a partition, if `tid` names one. -/
def State.mainTensor (s : State) (p tid : Nat) : Option Tensor := (s.tensor p tid).filter (·.main)

/-- TEMP is +0 or a positive finite FP32 value (check 4 of R317). -/
def tempOk (t : Nat) : Bool := decide (t < 0x7F800000)

/-- TOP_P is in (0, 1] (check 4 of R317). -/
def topPOk (t : Nat) : Bool := decide (1 ≤ t ∧ t ≤ 0x3F800000)

/-- The P TIDs of a REQUEST's KV pages are neither defined nor reserved (check 6 of R317). -/
def State.kvFree (s : State) (p : Nat) (r : Request) : Bool :=
  (List.range r.pages).all fun j => (s.tensor p (r.kvTid + j)).isNone && (s.kvReserved p (r.kvTid + j)).isNone

/-- The checks of R317, all of which refuse with E_SHAPE. -/
def State.requestOk (s : State) (p nslot : Nat) (r : Request) : Bool :=
  let vocab := s.rd F.SRV_BATCH_CFG.VOCAB r.batch
  decide (r.mflags < 8) && decide (1 + b2n r.ext ≤ nslot) &&
  (decide (r.batch < 32) && s.rd F.SRV_BATCH_CFG.PART r.batch == p && s.batchState r.batch != 0) &&
  (match s.mainTensor p r.promptTid with
    | some t => t.desc.etype == 9 && decide (1 ≤ r.promptLen ∧ r.promptLen ≤ t.desc.elems)
    | none => false) &&
  (decide (1 ≤ r.chunk ∧ r.chunk ≤ 512 ∧ 1 ≤ r.maxNew ∧ r.maxNew ≤ 16777216 ∧ r.topK ≤ 1024 ∧ r.pageLog2 ≤ 16) &&
    tempOk r.temp && topPOk r.topP) &&
  ((s.mainTensor p r.kvTemplate).isSome && decide (r.pages ≤ s.rd F.SRV_BATCH_CFG.MAXP r.batch)) &&
  decide (1 ≤ r.kvTid ∧ r.kvTid + r.pages - 1 ≤ 0xFFFFFFFF) && s.kvFree p r &&
  (!r.pda || (match s.mainTensor p r.pdaTid with
    | some t => !t.rw_ && t.desc.etype == 8 && s.pdaOk p r.pdaTid t.desc.dataLen && (s.pdaHead p r.pdaTid).vocab == vocab
    | none => false)) &&
  (!r.bitmap || (match s.mainTensor p r.bitmapTid with
    | some t => !t.rw_ && decide (ceilDiv vocab 8 ≤ t.desc.length)
    | none => false)) &&
  r.stops.all fun t => decide (t < vocab) || t == 0xFFFFFFFF

/-- The tensors a sequence read-holds: prompt, template, automaton and bitmap (R317). -/
def Request.reads (r : Request) : List Decl :=
  [⟨r.promptTid, 1⟩, ⟨r.kvTemplate, 1⟩] ++ (if r.pda then [⟨r.pdaTid, 1⟩] else []) ++
    (if r.bitmap then [⟨r.bitmapTid, 1⟩] else [])

/-! ## Admission (R318 to R321) -/

/-- The band of a row count (R319): 1–64 rows are band 0, and each later band doubles. -/
def bandOf (rows : Nat) : Nat := min 7 (if rows ≤ 64 then 0 else Nat.log2 ((rows - 1) / 64) + 1)

/-- The step cost for a depth (R319): the lowest non-zero band at or above its own, else the highest non-zero band below it,
else COLD_US. -/
def State.stepCost (s : State) (b depth : Nat) : Nat :=
  let cost (k : Nat) := s.rd F.SRV_COST.STEP_NS (RegKind.idx .SRV_COST b k)
  let d := bandOf depth
  match ((List.range 8).filter fun k => decide (d ≤ k) && cost k != 0).head?.or
      ((List.range 8).filter fun k => decide (k < d) && cost k != 0).getLast? with
  | some k => cost k
  | none => s.rd F.SRV_BATCH_CFG.COLD_US b * 1000

/-- K of R320: step cost and gap. -/
def State.stepPeriod (s : State) (r : Request) : Nat :=
  s.stepCost r.batch ((s.bmem r.batch).lastRows + min r.chunk r.promptLen) + s.rd F.SRV_BATCH_STAT.GAP_NS r.batch

/-- The time conditions of R320, with the first-token deadline and the budget as absolute device times. -/
def State.timeOk (s : State) (r : Request) (dl budget : Nat) : Bool :=
  let k := s.stepPeriod r
  let npf := ceilDiv r.promptLen r.chunk
  (dl == timeNone || decide (timeAdd s.time ((npf + 1) * k) ≤ dl)) &&
  (r.tokenDl == 0xFFFFFFFF || decide (k ≤ r.tokenDl)) &&
  (budget == timeNone || decide (timeAdd s.time ((npf + r.maxNew) * k) ≤ budget))

/-- R_pages: the pages reserved for a sequence (R321). -/
def State.seqPages (s : State) (p : Nat) (r : Request) : Nat :=
  (r.pages + ceilDiv r.chunk (2 ^ r.pageLog2) + 1) * (match s.tensor p r.kvTemplate with
    | some t => pagesOf t.desc.length
    | none => 0)

/-- The lowest free slot of a batch. -/
def State.freeSlot (s : State) (b : Nat) : Option Nat := (List.range 512).find? fun i => (Tab.find s.srv.seqs (seqKey b i)).isNone

/-- A sequence joins its batch (R318), with its reservation (R321). -/
def State.admitSeq (s : State) (p req slot pages dl : Nat) (r : Request) : State :=
  let s := s.setSeq (seqKey r.batch slot) ⟨req, p, r, 0, 0, 0, if r.pda then (s.pdaHead p r.pdaTid).start else 0, [], dl, 0, false, none⟩
  { s with mem := { s.mem with admits := Tab.insert s.mem.admits req (p, pages) } }

/-! ## Records and the end of a sequence (R332, R333, R344) -/

def flEmit : Nat := 1
def flLate : Nat := 2
def flSkipped : Nat := 4
def flEnd : Nat := 8
def flStop : Nat := 16
def flLimit : Nat := 32
def flDead : Nat := 64

/-- The 32 bytes of a batch record (R344). -/
def recordBytes (req flags error token logprob step batch slot pos time : Nat) : List Byte :=
  toBytes 8 (req % 2 ^ 48 + flags % 256 * 2 ^ 48 + error % 256 * 2 ^ 56) ++ toBytes 8 (token % 2 ^ 18 + logprob % 2 ^ 32 * 2 ^ 32) ++
  toBytes 8 (pos % 2 ^ 32 + slot % 512 * 2 ^ 32 + batch % 32 * 2 ^ 41 + step % 4096 * 2 ^ 48 + 1 * 2 ^ 60) ++ toBytes 8 time

/-- The token index a sequence emits or would sample next (R315, R344). -/
def Seq.position (x : Seq) : Nat := x.desc.promptLen + x.emitted

/-- A group of records waits for its ring. -/
def State.pushGroup (s : State) (b : Nat) (recs : List (List Byte)) (ends : List SeqEnd) : State :=
  { s with srv := { s.srv with groups := s.srv.groups ++ [⟨b, recs, ends, false⟩] } }

/-- A sequence is over (R332): its KV pages are freed without write-back, its reservation is released, and its slot is cleared. Its holds end
as its REQUEST becomes final, as its reserved TIDs do (R317; DEDUCED, log 79). -/
def State.clearSeq (s : State) (k : Nat) : State :=
  match Tab.find s.srv.seqs k with
  | none => s
  | some x =>
    let s := (List.range x.desc.pages).foldl (fun s j => match s.tensor x.part (x.desc.kvTid + j) with
      | some t => if t.desc.owner = x.req then s.dropTensor x.part (x.desc.kvTid + j) else s
      | none => s) s
    { s with mem := { s.mem with admits := Tab.erase s.mem.admits x.req }
             srv := { s.srv with seqs := Tab.erase s.srv.seqs k } }

/-- A sequence ends outside a step: it is cleared and one record waits (R333, R344). -/
def State.seqRecord (s : State) (k : Nat) (flags error : Nat) (ends : List SeqEnd) : State :=
  match Tab.find s.srv.seqs k with
  | none => s
  | some x =>
    let b := k / 512
    (s.clearSeq k).pushGroup b [recordBytes x.req flags error 0 0 (s.rd F.SRV_STEP_CNT.STEPS b) b (k % 512) x.position s.time] ends

/-- A REQUEST in decode is aborted at once (R333): its sequence is discarded, at the drain of the step that holds it or now. -/
def State.seqAbort (s : State) (req error detail : Nat) : State :=
  match s.findSeq req with
  | none => s
  | some (k, x) =>
    if x.dead.isSome then s
    else
      let s := s.finish req .aborted stAborted error detail
      if s.inStep (k / 512) req then s.setSeq k { x with dead := some error }
      else s.seqRecord k (flDead + flEnd) error []

/-- A sequence ends COMPLETED outside a step (R333): its REQUEST becomes final after its record. -/
def State.seqDone (s : State) (req : Nat) : State :=
  match s.findSeq req with
  | none => s
  | some (k, x) => s.seqRecord k flEnd 0 [x.endAs false 0 0]

/-- The KV shadows of a sequence are released: their pages go back to its reservation (R321, R330). -/
def State.dropKvShadows (s : State) (x : Seq) : State :=
  (List.range x.desc.pages).foldl (fun s j =>
    let key := tkey x.part (x.desc.kvTid + j)
    match Tab.find s.mem.kvShadows key with
    | none => s
    | some h =>
      { s with mem := { s.mem with
          kvShadows := Tab.erase s.mem.kvShadows key
          admits := match Tab.find s.mem.admits x.req with
            | some (p, n) => Tab.insert s.mem.admits x.req (p, n + h.pages.length)
            | none => s.mem.admits } }) s

/-- A step that has no drain (R328): its KV shadows are released, and its sequences take part again, ENDING ones among them; one that an abort
has ended meanwhile leaves its record now, as no step holds it any more (R333). -/
def State.stepGone (s : State) (b : Nat) : State :=
  match s.step? b with
  | none => s
  | some st =>
    let s := s.dropStep b
    st.parts.foldl (fun s q =>
      match s.findSeq q.req with
      | none => s
      | some (k, x) =>
        let s := s.dropKvShadows x
        match x.dead with
        | some e => s.seqRecord k (flDead + flEnd) e []
        | none => s) s

/-- The steps of a task end with it (R328). -/
def State.srvTaskAborted (s : State) (task : Nat) : State :=
  ((s.srv.steps.filter fun e => e.2.task == task).map (·.1)).foldl State.stepGone s

/-- A REQUEST loses state (R194). -/
def State.srvLost (s : State) (req : Nat) : State := s.seqAbort req eStateLost 0

end Sys2Proof.Machine
end

