-- ==== Sys2Proof/Machine/Hub.lean ====
section
/-! DEFINITION. Queues, commands, tasks and hubs (chapters 09 and 10): reading rings, final states, completing and aborting
tasks, clearing hubs, and stopping the regions of a task (R62). -/

namespace Sys2Proof.Machine

/-! ## Regions (R62, R114) -/

/-- A cog that a command has left: IDLE, its results and queues discarded (R62, R271). Registers keep what they hold until the
next command clears them (R58). -/
def Cog.leave (x : Cog) : Cog :=
  { x with mode := .idle, freewheel := false, woken := false, waited := none, inq := [], outq := [], inflight := [], drain := none,
           uread := none, uwrite := none, loops := [] }

/-- Every plane that holds a gear in a block returns to LOADED (R114, R133). -/
def BlockPlane.settle (b : BlockPlane) : BlockPlane :=
  match b.state with
  | .live => { b with state := .loaded }
  | .draining => { b with state := .loaded }
  | _ => b

/-- The links of a rectangle's cogs to the outside of the array hold nothing. -/
def State.clearEdges (s : State) (rect : Nat) : State :=
  { s with arr := { s.arr with
      edges := s.arr.edges.filter fun e => !inRect rect (blockOf (e.1 / 4))
      sinks := s.arr.sinks.filter fun e => !inRect rect (blockOf (e.1 / 4)) } }

/-- A plane of a block that is LIVE or DRAINING is LOADED; one that was DRAINING is traced (R490). -/
def State.settlePlane (s : State) (seq b : Nat) (p : Bool) : State :=
  let x := s.bplane b p
  let t := s.setBplane b p x.settle
  if x.state = .draining then t.trace 0x05 seq b (b2n p) else t

/-- A region's command ends or aborts: cogs enter IDLE with their queues empty, edge links are clear, planes settle, and the
region is gone (R62, R114, R133, R139, R271). -/
def State.closeRegion (s : State) (k : Nat) : State :=
  match Tab.find s.arr.regions k with
  | none => s
  | some r =>
    let s := (rectCogs r.rect).foldl (fun s c => s.setCog c (s.cog c).leave) s
    let s := (rectBlocks r.rect).foldl (fun s b => (s.settlePlane r.seq b false).settlePlane r.seq b true) s
    let s := (s.clearEdges r.rect).leaveMain fun i => i.1 == k
    { s with arr := { s.arr with regions := Tab.erase s.arr.regions k }, pwr := { s.pwr with idleFrom := s.time } }

/-- The regions that a task's commands run. -/
def State.taskRegions (s : State) (task : Nat) : List Nat :=
  (s.arr.regions.filter fun e => match s.cmd e.2.seq with
    | some c => c.task == task
    | none => false).map (·.1)

/-! ## Requests: the end of a sequence by STATE_LOST reaches the serving engine through this list -/

/-- The request that owns a tensor is to be aborted with E_STATE_LOST (R194). -/
def State.loseRequest (s : State) (owner : Nat) : State :=
  match s.cmd owner with
  | some c => if c.stage = .live then s.srvLost owner else s
  | none => s

/-- A tensor with no clean copy is struck (R194): it becomes LOST; the request that owns it, if any, is aborted alone. The
caller aborts the reading task where OWNER is 0. -/
def State.strike (s : State) (p tid : Nat) : State :=
  match s.tensor p tid with
  | none => s
  | some t =>
    let s := s.loseTensor p tid (if t.near then 1 else 2)
    if t.desc.owner = 0 then s else (s.loseRequest t.desc.owner).fault 1

/-! ## Hubs -/

/-- A hub drops its running command: nothing runs on it (R262). -/
def Hub.dropCur (x : Hub) : Hub := { x with cur := none, wait := none, stalled := false, waited := false }

/-- A hub forgets a command that it runs or has parked. -/
def State.hubForget (s : State) (n : Nat) : State :=
  (List.range 8).foldl (fun s h =>
    let x := s.hub h
    let s := if x.cur = some n then s.leaveMain (· == hubReq h) else s
    let x := if x.cur = some n then x.dropCur else x
    s.setHub h { x with park := x.park.filter fun p => p.seq != n }) s

/-- A hub clears itself (R244): memories, registers and park slots are zero, its return stack empties and every source active
on it clears (R415); its deques, assignment and failure history are not part of what R244 clears. -/
def State.clearHub (s : State) (h : Nat) : State :=
  let x := s.hub h
  let s := s.leaveMain (· == hubReq h)
  let s := s.setHub h { Hub.clear with
    lead := x.lead, pack := x.pack, broom := x.broom, part := x.part, fails := x.fails, pendAt := x.pendAt,
    loadOnEnable := x.loadOnEnable }
  let gone := s.intc.active.filter fun a => a.1 == h
  let s := gone.foldl (fun s a => s.putBit F.INTC_ACTIVE.BITS a.2.1 false) s
  { s with intc := { s.intc with flight := Tab.erase s.intc.flight h, active := s.intc.active.filter fun a => a.1 != h } }

/-- A queue leaves every deque and is no hub's continuing queue. -/
def State.undeque (s : State) (q : Nat) : State :=
  (List.range 8).foldl (fun s h =>
    let x := s.hub h
    s.setHub h { x with lead := x.lead.filter (· != q), pack := x.pack.filter (· != q), broom := x.broom.filter (· != q),
                        cont := if x.cont = some q then none else x.cont }) s

/-- Hub time of a command's present stretch is added to its queue's SLICE_USED (R306). -/
def State.addSlice (s : State) (c : Cmd) : State :=
  let x := s.queue c.queue
  s.setQueue c.queue { x with sliceUsed := x.sliceUsed + (s.time - c.segAt) }

/-- Whether a lead command has held its hub longer than LEAD_HOLD (R311), counted as it ends, aborts or parks. -/
def State.leadHold (s : State) (c : Cmd) : State :=
  if s.qClass c.queue = 0 ∧ s.rd F.HUB_PART_CFG.LEAD_HOLD c.part * 1000 < s.time - c.segAt then
    s.count F.HUB_LEAD_STAT.HOLD_OVER c.part 1 else s

/-! ## Counted time (R309) -/

/-- The stretch of a wait that began at `since` and that the counted time leaves out (R309): all of an EVWAIT, of a WAIT on an operation other
than RUN, and of a FENCE, which waits on such operations alone (R264). END waits as if each handle had been waited for (R273): its wait counts
while a RUN goes on, as a DRAIN's does, and is left out from the end of the last RUN on (DESIGN CHOICE, log 88: the order is not said). -/
def Cmd.waitSpan (c : Cmd) (w : HubWait) (now : Nat) : Nat × Nat :=
  match w.kind with
  | .handle hd => match Tab.find c.handles hd with
    | some x => if x.run then (now, now) else (w.since, now)
    | none => (w.since, now)
  | .fence => (w.since, now)
  | .event _ _ => (w.since, now)
  | .finish => if c.handles.any fun e => e.2.run && e.2.outcome.isNone then (now, now) else (max w.since c.runEnd, now)

/-- The stretches that the counted time of a command leaves out at this moment beside what `spans` has gathered: the handler, wait or
parking it is in, quiet RUNs (R309), and in Idle-serve the RUNs and phases that wait for the array to wake (R423). -/
def State.openSpans (s : State) (n : Nat) (c : Cmd) : List (Nat × Nat) :=
  ((List.range 8).flatMap fun h =>
    let x := s.hub h
    (if x.cur = some n then
      (if x.stack.isEmpty then x.wait.toList.map fun w => c.waitSpan w s.work else [(x.irqSince, s.work)])
    else []) ++
    (x.park.filter fun e => e.seq == n).map fun e => (e.since, s.work)) ++
  (if s.on F.PWR_STATUS.IDLE 0 then
    ((s.ctl.ops.filter fun e => e.1 / 16 == n && e.2.sleeps).map fun e => (e.2.since, s.work)) ++
    ((s.srv.steps.filter fun e => e.2.seq == n && e.2.waits).map fun e => (e.2.readyAt, s.work))
  else []) ++
  (s.arr.regions.filter fun e => e.2.seq == n && e.2.step.isNone).map fun e => (e.2.quietWork, s.work)

/-- The counted time of a command in units of the work clock (R309, R432). -/
def State.countedWork (s : State) (n : Nat) (c : Cmd) : Nat :=
  s.work - c.startedAt - spanSum ((s.openSpans n c).foldl addSpan c.spans)

/-- The counted time of a command in ns of Max-mode time (R309, R432). -/
def State.countedTime (s : State) (n : Nat) (c : Cmd) : Nat := s.countedWork n c / workUnit

/-- How far the counted time of a command, or of a phase of a step of it, lies beyond 4 × CMD_MAXLEN, in units of the work clock
(R309, R326). -/
def State.overdue (s : State) (n : Nat) (c : Cmd) : Nat :=
  let most := 4 * c.maxLen * 1000 * workUnit
  ((s.arr.regions.filter fun e => e.2.seq == n && e.2.step.isSome).map fun e =>
    s.work - e.2.startedAt - e.2.uncounted - (s.work - e.2.quietWork) - most).foldl max (s.countedWork n c - most)

/-! ## Quiet regions and panniers (R79, R134, R141) -/

/-- Whether the pannier of a plane gives queue `q` a slice. -/
def Plane.spills (v : Plane) (q : Nat) : Bool := v.panSize != 0 && decide (q < 4) && bit v.panMask q

/-- The flits of one slice of a plane's pannier. -/
def Plane.sliceCap (v : Plane) : Nat :=
  let n := ((List.range 4).filter v.spills).length
  if n = 0 then 0 else v.panSize * 4096 / (32 * n)

/-- The time a region's deadlock window has run out, if it has (R141). -/
def State.deadAt (s : State) (r : Region) : Option Nat :=
  match r.deadSince with
  | some t => if s.due t (r.cfg.dlUs * 1000) then some (timeAdd t (r.cfg.dlUs * 1000)) else none
  | none => none

/-- The time a region's stall limit has run out, if it has (R79). -/
def State.stallAt (s : State) (r : Region) : Option Nat :=
  if s.due r.quietSince (r.cfg.stallMs * 1000000) then some (timeAdd r.quietSince (r.cfg.stallMs * 1000000)) else none

/-- The blocks of a region that hold a full slice. -/
def State.fullBlocks (s : State) (r : Region) : List Nat :=
  (rectBlocks r.rect).filter fun b => (cogsOf b).any fun c => (List.range 4).any fun q =>
    let v : InQ := Tab.get InQ.start (s.cog c).inq q
    match v.spill with
    | some pl => decide (((s.cog c).planeOf pl).sliceCap ≤ v.side.length)
    | none => false


/-- The end of every RUN of a task that aborts is a trace event (R490). -/
def State.traceRuns (s : State) (k error : Nat) : State :=
  (s.taskRegions k).foldl (fun s g => match Tab.find s.arr.regions g with
    | some r => match s.cmd r.seq with
      | some c => s.trace 0x03 r.seq (outcomeWord 0 false false stAborted error) (s.countedTime r.seq c)
      | none => s
    | none => s) s

/-! ## Completing and aborting tasks (R255 to R257, R174) -/

/-- What a queue's context forgets when its open task is over. -/
def State.closeTask (s : State) (q k : Nat) : State :=
  if (s.queue q).taskSeq = k then s.setQueue q { s.queue q with taskSeq := 0, taskOpen := false } else s

/-- A task completes (R256): its shadows swap in, and every command of it becomes COMPLETED, in ring order. -/
def State.completeTask (s : State) (k : Nat) : State :=
  match s.task k with
  | none => s
  | some t =>
    let s := (s.commitShadows t.shadows).dropTask k
    let s := t.cmds.foldl (fun s n => match s.cmd n with
      | some c => s.finish n .completed (if c.zeroExtent then stZeroExtent else stOK) 0 0
      | none => s) s
    s.closeTask t.queue k

/-- The operations of a task that an abort stops: RUNs, COPYs and STEPs (R267); the others go on. -/
def AOp.stops (o : AOp) : Bool :=
  match o.op with
  | .copy _ _ => true
  | .run _ => true
  | .step _ _ => true
  | _ => false

/-- What an abort of task `k` leaves of an operation: of a COPY, the load of its destination goes on (R172, R267). -/
def State.opLeft (s : State) (k : Nat) (e : Nat × AOp) : Option (Nat × AOp) :=
  if e.2.task == k && e.2.stops then
    match e.2.op with
    | .copy _ dst =>
      if e.2.started && (s.tensor e.2.part dst).any fun t => t.state == .loading then some (e.1, { e.2 with op := .load dst }) else none
    | _ => none
  else some e

/-- A task aborts (R174, R257). The regions it runs stop (R62), its steps end, its shadows and reservation are discarded,
near-home tensors it began to fill become ABSENT and those it began to write are struck, and `f` makes each command of it
final, in ring order. Later commands of the task find it aborted as acceptance reaches them. -/
def State.abortWith (s : State) (k : Nat) (f : State → Nat → State) : State :=
  match s.task k with
  | none => s
  | some t =>
    let s := (s.taskRegions k).foldl State.closeRegion s
    let s := s.srvTaskAborted k
    let s := { s with ctl := { s.ctl with ops := s.ctl.ops.filterMap (s.opLeft k) } }
    let s := { s with mem := { s.mem with evicts := s.mem.evicts.filter fun e => !t.cmds.contains (e.req / 32) } }
    let s := s.dropTask k
    let p := qPart t.queue
    let s := t.fills.foldl (fun s tid => s.modTensor p tid Tensor.gone) s
    let s := t.nearRW.foldl (fun s tid => s.strike p tid) s
    let s := t.cmds.foldl (fun s m => match s.cmd m with
      | some c => if c.stage = .running ∨ c.stage = .taken then s.leadHold c else s
      | none => s) s
    let s := t.cmds.foldl State.hubForget s
    let s := s.undeque t.queue
    let x := s.queue t.queue
    let s := s.setQueue t.queue { x with
      inDeque := false, running := false, parked := false, readySeq := 0, sliceUsed := 0
      doomed := if x.taskSeq = k then x.linkPrev else x.doomed }
    let s := s.closeTask t.queue k
    t.cmds.foldl f s

/-- An abort with this code and DETAIL is for a class-2 fault of R474: deadlock, stall, parity, lost state, or the watchdog. -/
def classTwo (error detail : Nat) : Bool := decide (eDeadlock ≤ error ∧ error ≤ eStateLost) || (error == eAborted && detail == 0xFB)

/-- An abort cause of a task: the device time of its detection, code, DETAIL, the command it lies in, and the blocks with a full
slice that FULLS counts (R21, R141). -/
structure Cause where
  at_ : Nat
  error : Nat
  detail : Nat
  seq : Nat
  full : List Nat
  deriving DecidableEq, Repr

/-- Whether a cause is reported before one of time `t` and code `e`: the earlier one is, and of causes detected in one TCLK cycle the
one of the lower code (R21). -/
def Cause.before (x : Cause) (t e : Nat) : Bool := decide (x.at_ < t) || (x.at_ == t && decide (x.error ≤ e))

/-- The causes that a task has met by limits that have run out: the deadlock windows and stall limits of its regions and the watchdog of
its commands (R79, R141, R309). A watchdog's limit has run out where the work clock, at its present rate, passed it (log 76). -/
def State.causesOf (s : State) (k : Nat) : List Cause :=
  ((s.taskRegions k).flatMap fun g => match Tab.find s.arr.regions g with
    | some r => (s.deadAt r).toList.map (fun t => ⟨t, eDeadlock, 0, r.seq, s.fullBlocks r⟩) ++
        (s.stallAt r).toList.map fun t => ⟨t, eStall, 0, r.seq, []⟩
    | none => []) ++
  match s.task k with
  | some t => t.cmds.filterMap fun n => match s.cmd n with
    | some c =>
      if (c.stage = .running ∨ c.stage = .parked) ∧ c.hdr.kind = 0 ∧ 0 < s.overdue n c then
        some ⟨s.time - s.overdue n c / max 1 s.workRate, eAborted, 0xFB, n, []⟩
      else none
    | none => none
  | none => []

/-- The cause that R21 reports among those of `causesOf` that come before one of time `t` and code `e`. -/
def State.firstCause (s : State) (k t e : Nat) : Option Cause :=
  (s.causesOf k).foldl (fun b x => match b with
    | none => if x.before t e then some x else none
    | some y => if x.before y.at_ y.error then some x else some y) none

/-- A task aborts by a cause (R257): the command it lies in becomes ABORTED with its code and DETAIL, the others with E_ABORTED; FULLS
counts the blocks that held a full slice where it is E_DEADLOCK (R141). -/
def State.abortBy (s : State) (k : Nat) (x : Cause) : State :=
  let s := if classTwo x.error x.detail && (s.task k).isSome then s.fault 2 else s
  let s := x.full.foldl (fun s b => s.count F.GEAR_PAN_STAT.FULLS b 1) s
  (s.traceRuns k x.error).abortWith k fun s m =>
    if m = x.seq then s.finish m .aborted stAborted x.error x.detail else s.finish m .aborted stAborted eAborted 0

/-- A task aborts because of its command `n` (R21, R257): that one becomes ABORTED with `error` and `detail`, unless the task has met
another cause before, or REFUSED where it was refused; the others ABORTED with E_ABORTED. -/
def State.abortTask (s : State) (k : Nat) (n : Nat) (refused : Bool) (error detail : Nat) : State :=
  if refused then
    (s.traceRuns k eAborted).abortWith k fun s m =>
      if m = n then s.finish m .refused stRefused error 0 else s.finish m .aborted stAborted eAborted 0
  else s.abortBy k ((s.firstCause k s.time error).getD ⟨s.time, error, detail, n, []⟩)

/-- A task aborts and every command of it carries the same code and DETAIL, as a CANCEL or a reset does (R284, R285). -/
def State.abortAll (s : State) (k : Nat) (error detail : Nat) : State :=
  match s.firstCause k s.time error with
  | some x => s.abortBy k x
  | none =>
  let s := if classTwo error detail && (s.task k).isSome then s.fault 2 else s
  (s.traceRuns k error).abortWith k fun s m => s.finish m .aborted stAborted error detail

/-- The task of a command aborts with the command as its cause. -/
def State.abortCmd (s : State) (n error detail : Nat) : State :=
  match s.cmd n with
  | some c => s.abortTask c.task n false error detail
  | none => s

/-- A refusal without TRY, an illegal instruction or handle exhaustion aborts the task with a DETAIL that names the word
address (R266). -/
def detailAt (code addr : Nat) : Nat := code % 256 + addr % 2 ^ 13 * 2 ^ 8

end Sys2Proof.Machine
end

