-- ==== Sys2Proof/Machine/Deque.lean ====
section
/-! DEFINITION. Ready commands, deques and stealing, and parking (R259, R268, R303, R304, R306). -/

namespace Sys2Proof.Machine

/-- The states of a hub in HUB_CTRL: 0 OFFLINE, 1 ONLINE, 2 STOPPING (R298). -/
def State.hubOnline (s : State) (h : Nat) : Bool := s.rd F.HUB_CTRL.STATE h == 1

/-- The hubs assigned to a partition, in rising number (R244). -/
def State.partHubs (s : State) (p : Nat) : List Nat := (List.range 8).filter fun h => (s.hub h).part == some p

/-- The lead hubs of a partition: its LEAD_HUBS lowest-numbered assigned hubs (R303). -/
def State.leadHubs (s : State) (p : Nat) : List Nat := (s.partHubs p).take (s.rd F.HUB_PART_CFG.LEAD_HUBS p)

/-- The hubs among which a queue's home hub is chosen (R303). -/
def State.homeSet (s : State) (q : Nat) : List Nat :=
  let p := qPart q
  let lead := s.leadHubs p
  if s.qClass q = 0 then (if lead.isEmpty then s.partHubs p else lead)
  else (s.partHubs p).drop lead.length

/-- The home hub of a queue (R303). -/
def State.homeOf (s : State) (q : Nat) : Option Nat :=
  let hs := s.homeSet q
  hs[q % 64 % max 1 hs.length]?

/-- The hub a ready queue is placed at: its home hub, or the next ONLINE hub of the set, counting cyclically (R303). -/
def State.homeHub (s : State) (q : Nat) : Option Nat :=
  let hs := s.homeSet q
  if hs.isEmpty then none
  else
    let k := q % 64 % hs.length
    ((hs.drop k) ++ (hs.take k)).find? s.hubOnline

/-- R259: every command of the queue before this one is final, or a REQUEST that is DISPATCHED, or an earlier member of the
same task that has reached END. -/
def State.mayDispatch (s : State) (n : Nat) (c : Cmd) : Bool :=
  let x := s.queue c.queue
  (s.queueCmds c.queue).all fun e =>
    e.1 == n || decide (posDiff x.accept e.2.pos < posDiff x.accept c.pos) || e.2.stage == .live ||
      (e.2.task == c.task && e.2.stage == .ended)

/-- The ready command of a queue, if it has one (R303). -/
def State.readyCmd (s : State) (q : Nat) : Option (Nat × Cmd) :=
  let st := s.rd F.Q_STATE.STATE q
  match s.nextCmd q with
  | some (n, c) => if (st = 1 ∨ st = 2) ∧ c.stage = .accepted ∧ s.mayDispatch n c = true then some (n, c) else none
  | none => none

/-- A deque of a hub by class. -/
def Hub.deque (x : Hub) (cls : Nat) : List Nat := if cls = 0 then x.lead else if cls = 1 then x.pack else x.broom

/-- A hub with a deque written. -/
def Hub.setDeque (x : Hub) (cls : Nat) (l : List Nat) : Hub :=
  if cls = 0 then { x with lead := l } else if cls = 1 then { x with pack := l } else { x with broom := l }

/-- Whether a hub serves a class: a lead hub only lead commands, every other hub all three (R304). -/
def State.serves (s : State) (p h cls : Nat) : Bool := cls == 0 || !(s.leadHubs p).contains h

/-- What a free hub takes next. -/
inductive Pick where
  | parked (seq : Nat)
  | cont (q : Nat)
  | own (cls q : Nat)
  | steal (from_ cls q : Nat)
  deriving DecidableEq, Repr

/-- The hub's parked command whose wait ended first (row 1 of R304). -/
def Hub.oldestEnded (x : Hub) : Option Nat :=
  (x.park.foldl (fun best e => match best, e.result with
    | none, some (t, _) => some (e.seq, t)
    | some (n, u), some (t, _) => if t < u then some (e.seq, t) else some (n, u)
    | b, none => b) none).map (·.1)

/-- The other online hubs of a partition in rising number, starting after `h` (R304). -/
def State.others (s : State) (p h : Nat) : List Nat :=
  let hs := (s.partHubs p).filter fun g => g != h && s.hubOnline g
  (hs.filter (h < ·)) ++ (hs.filter (· < h))

/-- Rows 3 to 8 of R304 for one class: the head of the hub's own deque, or the tail of the first other deque that is not
empty. -/
def State.pickClass (s : State) (p h cls : Nat) : Option Pick :=
  if s.serves p h cls then
    match ((s.hub h).deque cls).head? with
    | some q => some (.own cls q)
    | none => (s.others p h).findSome? fun g => ((s.hub g).deque cls).getLast?.map fun q => .steal g cls q
  else none

/-- Whether a lead command of a partition is ready other than that of the continuing queue `q` itself (row 2 of R304; DESIGN CHOICE, log 88: a
lead queue's own next command does not keep its hub from continuing with it). -/
def State.leadReady (s : State) (p q : Nat) : Bool :=
  (List.range 64).any fun i =>
    let k := 64 * p + i
    k != q && s.qClass k == 0 && (s.readyCmd k).isSome

/-- The first rule of R304 that yields a command for hub `h`. A hub that is not ONLINE resumes only what it has parked
(R298). -/
def State.pickNext (s : State) (h : Nat) : Option Pick :=
  let x := s.hub h
  match x.part with
  | none => none
  | some p =>
    match x.oldestEnded with
    | some n => some (.parked n)
    | none =>
      if s.hubOnline h then
        let rest := ((s.pickClass p h 0).or (s.pickClass p h 1)).or (s.pickClass p h 2)
        match x.cont with
        | some q => if !s.leadReady p q && s.serves p h (s.qClass q) then some (.cont q) else rest
        | none => rest
      else none

/-- The RUNs in progress of a command. -/
def State.runsOf (s : State) (n : Nat) : List (Nat × Region) :=
  s.arr.regions.filter fun e => e.2.seq == n && e.2.step.isNone

/-- Whether a command has a RUN in progress, one that waits for the array to wake among them. -/
def State.runGoes (s : State) (n : Nat) (c : Cmd) : Bool :=
  !(s.runsOf n).isEmpty || c.handles.any fun e => e.2.run && e.2.outcome.isNone

/-- Whether a wait is one that R268 parks and is not met: a WAIT, FENCE, EVWAIT or END, not a DRAIN. -/
def Cmd.parks (c : Cmd) (w : HubWait) : Bool :=
  w.met.isNone && match w.kind with
    | .handle hd => (Tab.find c.handles hd).any fun x => !x.run
    | _ => true

/-- Parking (R268): a command in such a wait moves to a free park slot when it has no RUN in progress and another command is ready
for the hub. A hub in an interrupt handler parks nothing. -/
def State.park (s : State) (h : Nat) : State :=
  let x := s.hub h
  match x.cur, x.wait with
  | some n, some w =>
    match s.cmd n with
    | some c =>
      if c.stage = .running ∧ x.stack.isEmpty ∧ x.park.length < 4 ∧ c.parks w = true ∧ s.runGoes n c = false ∧ (s.pickNext h).isSome then
        let s := (s.addSlice c).leadHold c
        let s := s.setCmd n { c with stage := .parked }
        let s := s.setQueue c.queue { s.queue c.queue with parked := true, running := false }
        s.setHub h { x with cur := none, wait := none, regs := [], pc := 0,
                            park := x.park ++ [⟨n, x.regs, x.pc, some w, s.work, none⟩] }
      else s
    | none => s
  | _, _ => s

end Sys2Proof.Machine
end

