-- ==== Sys2Proof/Machine/HubIsa.lean ====
section
/-! DEFINITION. The hub instruction set (R243, R262 to R268, R272 to R277): encoding, fetching, illegal instructions, and the
instructions that act on registers, scratch, control flow, events and waits. -/

namespace Sys2Proof.Machine

/-- A hub instruction taken apart (R263). -/
structure HubInstr where
  opc : Nat
  rd : Nat
  ra : Nat
  rb : Nat
  tr : Bool
  aux : Nat
  imm : Nat
  deriving DecidableEq, Repr

/-- The fields of a hub instruction word (R263). -/
def hubDecode (w : Word64) : HubInstr where
  opc := bits w.toNat 56 8
  rd := bits w.toNat 51 5
  ra := bits w.toNat 46 5
  rb := bits w.toNat 41 5
  tr := bit w.toNat 40
  aux := bits w.toNat 32 8
  imm := bits w.toNat 0 32

/-- The word of a hub instruction (R263). -/
def hubEncode (i : HubInstr) : Word64 :=
  BitVec.ofNat 64 (i.imm % 2 ^ 32 + i.aux % 2 ^ 8 * 2 ^ 32 + b2n i.tr * 2 ^ 40 + i.rb % 32 * 2 ^ 41 + i.ra % 32 * 2 ^ 46 +
    i.rd % 32 * 2 ^ 51 + i.opc % 2 ^ 8 * 2 ^ 56)

/-- The opcodes of R264. -/
def hubOpcodes : List Nat :=
  [0x00, 0x01, 0x02, 0x03, 0x04, 0x05, 0x06, 0x07, 0x08, 0x09, 0x0A, 0x0B, 0x0C, 0x0D, 0x0E, 0x10, 0x11, 0x12, 0x13, 0x14,
   0x15, 0x16, 0x20, 0x21, 0x22, 0x23, 0x24, 0x25, 0x26, 0x27, 0x30, 0x31, 0x38, 0x39, 0x40, 0x41, 0x42, 0x43, 0x44, 0x50,
   0x51, 0x58]

/-- Register `n` of a hub: h0 reads as zero (R243). -/
def Hub.reg (x : Hub) (n : Nat) : Word64 := if n = 0 then 0 else Tab.get 0 x.regs n

/-- A hub with register `n` written: writes to h0 are ignored (R243). -/
def Hub.setReg (x : Hub) (n : Nat) (v : Word64) : Hub :=
  if n = 0 then x else { x with regs := Tab.set 0 x.regs n v }

/-- The first word of the body of a frame: five bodies of 512 words from word 4,096 (DESIGN CHOICE, log 14). -/
def bodyBase (frame : Nat) : Nat := 4096 + 512 * frame

/-- The scratch address of a frame (R243). -/
def frameBase (frame : Nat) : Nat := 4096 * frame

/-- The command a hub runs. -/
def State.curCmd (s : State) (h : Nat) : Option (Nat × Cmd) :=
  (s.hub h).cur.bind fun n => (s.cmd n).map fun c => (n, c)

/-- Whether a hub executes instructions: it runs a command that is dispatched, or an interrupt handler, and it is not in a
wait (R262, R409). -/
def State.hubRuns (s : State) (h : Nat) : Bool :=
  let x := s.hub h
  x.wait.isNone && (!x.stack.isEmpty || (match s.curCmd h with
    | some (_, c) => c.stage == .running
    | none => false))

/-- Whether a program counter names a word of the routine area or of the running command's body (R263, R266). -/
def State.pcLegal (s : State) (h pc : Nat) : Bool :=
  decide (pc < 4096) || (match s.curCmd h with
    | some (_, c) => decide (bodyBase c.frame ≤ pc ∧ pc < bodyBase c.frame + c.hdr.bodyLen)
    | none => false)

/-- The target of BR or CALL: a word of the body or of the routine area, or none where it is not below BODY_LEN (R263). -/
def State.target (s : State) (h : Nat) (i : HubInstr) : Option Nat :=
  if bit i.imm 13 then
    match s.curCmd h with
    | some (_, c) => if bits i.imm 0 13 < c.hdr.bodyLen then some (bodyBase c.frame + bits i.imm 0 13) else none
    | none => none
  else if bits i.imm 0 13 < 4096 then some (bits i.imm 0 13) else none

/-- COND of SETC and BR (R263); none for the values above 5. -/
def condHolds (c : Nat) (a b : Word64) : Option Bool :=
  match c with
  | 0 => some (a == b)
  | 1 => some (a != b)
  | 2 => some (a.ult b)
  | 3 => some (!a.ult b)
  | 4 => some (a.slt b)
  | 5 => some (!a.slt b)
  | _ => none

/-- The handle a register names, of the running command: none where it is free. -/
def State.handleOf (s : State) (h : Nat) (v : Word64) : Option Handle :=
  (s.curCmd h).bind fun e => Tab.find e.2.handles v.toNat

/-- The word a hub's program counter names. -/
def State.hubWord (s : State) (h : Nat) : HubInstr := hubDecode (Tab.get 0 (s.hub h).imem (s.hub h).pc)

/-- An illegal instruction (R123, R264, R266, R272): a program counter past the body, an opcode outside R264, a COND above 5,
a bad target, DRAIN or SHIFT of a handle that is not a RUN's, WAIT of a handle that is not an operation's. A BR with a bad target is illegal
whether or not its condition holds (DESIGN CHOICE, log 86). -/
def State.illegal (s : State) (h : Nat) : Bool :=
  let i := s.hubWord h
  !s.pcLegal h (s.hub h).pc || !hubOpcodes.contains i.opc ||
  ((i.opc == 0x0B || i.opc == 0x10) && decide (5 < i.aux % 8)) ||
  ((i.opc == 0x10 || i.opc == 0x11) && (s.target h i).isNone) ||
  ((i.opc == 0x39 || i.opc == 0x31) && (match s.handleOf h ((s.hub h).reg i.ra) with
    | some x => !x.run
    | none => true)) ||
  (i.opc == 0x40 && (match s.handleOf h ((s.hub h).reg i.ra) with
    | some x => x.run
    | none => true))

/-- The instruction at a hub's program counter, where the hub executes, the instruction is legal and its opcode is `opc`. -/
def State.hubFetch (s : State) (h opc : Nat) : Option HubInstr :=
  if s.live && s.hubRuns h && !s.illegal h && (s.hubWord h).opc == opc then some (s.hubWord h) else none

/-- A hub's program counter moves to the next word. -/
def State.hubNext (s : State) (h : Nat) : State := s.setHub h { s.hub h with pc := ((s.hub h).pc + 1) % 8192 }

/-- RD receives a value and the program counter moves on. -/
def State.hubRet (s : State) (h rd : Nat) (v : Word64) : State :=
  s.setHub h { (s.hub h).setReg rd v with pc := ((s.hub h).pc + 1) % 8192 }

/-- RD receives a number. -/
def State.hubRetN (s : State) (h rd v : Nat) : State := s.hubRet h rd (BitVec.ofNat 64 v)

/-- An instruction of a hub: `f` where the hub's next instruction has this opcode, no effect otherwise. -/
def hubExec (h opc : Nat) (s : State) (f : HubInstr → State) : Result :=
  match s.hubFetch h opc with
  | some i => .next (f i)
  | none => .next s

/-- An instruction that writes RD from RA and RB (R264). -/
def hubAlu (h opc : Nat) (s : State) (f : HubInstr → Word64 → Word64 → Word64) : Result :=
  hubExec h opc s fun i => s.hubRet h i.rd (f i ((s.hub h).reg i.ra) ((s.hub h).reg i.rb))

/-- The partition that a hub serves: that of the command it runs, or for a hub with no command the one whose enable assigned it. -/
def State.hubPart (s : State) (h : Nat) : Option Nat :=
  match s.curCmd h with
  | some (_, c) => some c.part
  | none => (s.hub h).part

/-- An instruction that acts on the hub's partition (R264): a handler on a hub with no command may execute it too (R409). -/
def hubPartExec (h opc : Nat) (s : State) (f : HubInstr → Nat → State) : Result :=
  hubExec h opc s fun i => match s.hubPart h with
    | some p => f i p
    | none => s.hubNext h

/-- An instruction that acts on the command the hub runs; in a handler that interrupted no command it only moves on (DESIGN
CHOICE, log 15). -/
def hubCmdExec (h opc : Nat) (s : State) (f : HubInstr → Nat → Cmd → State) : Result :=
  hubExec h opc s fun i => match s.curCmd h with
    | some (n, c) => f i n c
    | none => s.hubNext h

/-! ## Registers and scratch -/

/-- NOP does nothing (R264). -/
def execHubNop (h : HubId) (s : State) : Result := hubExec h 0x00 s fun _ => s.hubNext h
/-- LI: rd := sext(IMM32). -/
def execLi (h : HubId) (s : State) : Result := hubAlu h 0x01 s fun i _ _ => sext64 (BitVec.ofNat 32 i.imm)
/-- LIH: rd[63:32] := IMM32. -/
def execLih (h : HubId) (s : State) : Result :=
  hubExec h 0x02 s fun i => s.hubRetN h i.rd (setBits ((s.hub h).reg i.rd).toNat 32 32 i.imm)
/-- ADD: rd := ra + rb + sext(IMM32). -/
def execAdd (h : HubId) (s : State) : Result := hubAlu h 0x03 s fun i a b => a + b + sext64 (BitVec.ofNat 32 i.imm)
/-- SUB: rd := ra − rb. -/
def execSub (h : HubId) (s : State) : Result := hubAlu h 0x04 s fun _ a b => a - b
/-- AND. -/
def execHubAnd (h : HubId) (s : State) : Result := hubAlu h 0x05 s fun _ a b => a &&& b
/-- OR. -/
def execHubOr (h : HubId) (s : State) : Result := hubAlu h 0x06 s fun _ a b => a ||| b
/-- XOR. -/
def execHubXor (h : HubId) (s : State) : Result := hubAlu h 0x07 s fun _ a b => a ^^^ b
/-- SHL: ra shifted left by (rb + IMM32) mod 64. -/
def execShl (h : HubId) (s : State) : Result := hubAlu h 0x08 s fun i a b => a <<< ((b.toNat + i.imm) % 64)
/-- SHR: ra shifted right logically by (rb + IMM32) mod 64. -/
def execShr (h : HubId) (s : State) : Result := hubAlu h 0x09 s fun i a b => a >>> ((b.toNat + i.imm) % 64)
/-- MUL: the low 64 bits of ra × rb. -/
def execMul (h : HubId) (s : State) : Result := hubAlu h 0x0A s fun _ a b => a * b
/-- SETC: rd := 1 if ra COND rb, else 0. -/
def execSetc (h : HubId) (s : State) : Result :=
  hubAlu h 0x0B s fun i a b => if condHolds (i.aux % 8) a b = some true then 1 else 0

/-- The scratch word address of LD and ST: (ra + IMM32) mod 65,536 with bits [2:0] ignored (R264). -/
def scratchAddr (a : Word64) (imm : Nat) : Nat := (a.toNat + imm) % 65536 / 8 * 8

/-- LD reads a scratch word. -/
def execLd (h : HubId) (s : State) : Result :=
  hubExec h 0x0C s fun i => s.hubRetN h i.rd ((s.hub h).scratch.num (scratchAddr ((s.hub h).reg i.ra) i.imm) 8)
/-- ST writes a scratch word. -/
def execSt (h : HubId) (s : State) : Result :=
  hubExec h 0x0D s fun i =>
    let x := s.hub h
    (s.setHub h { x with scratch := x.scratch.setNum (scratchAddr (x.reg i.ra) i.imm) 8 (x.reg i.rb).toNat }).hubNext h
/-- TIME: rd := device time (R14, R264). -/
def execTime (h : HubId) (s : State) : Result := hubExec h 0x0E s fun i => s.hubRetN h i.rd s.time

/-! ## Control flow -/

/-- BR: pc := target if ra COND rb. -/
def execHubBr (h : HubId) (s : State) : Result :=
  hubExec h 0x10 s fun i =>
    let x := s.hub h
    if condHolds (i.aux % 8) (x.reg i.ra) (x.reg i.rb) = some true then
      s.setHub h { x with pc := (s.target h i).getD x.pc }
    else s.hubNext h
/-- CALL: h31 := address of the next word; pc := target. -/
def execCall (h : HubId) (s : State) : Result :=
  hubExec h 0x11 s fun i =>
    let x := s.hub h
    s.setHub h { x.setReg 31 (BitVec.ofNat 64 (x.pc + 1)) with pc := (s.target h i).getD x.pc }
/-- RET: pc := h31, of which the 13 bits that a program counter has are taken (DESIGN CHOICE, log 86: the spec says nothing of the others). -/
def execRet (h : HubId) (s : State) : Result :=
  hubExec h 0x12 s fun _ => s.setHub h { s.hub h with pc := ((s.hub h).reg 31).toNat % 8192 }
/-- ABORT aborts the task with E_ABORTED; DETAIL := ra[31:0] (R257, R264). -/
def execAbort (h : HubId) (s : State) : Result :=
  hubCmdExec h 0x14 s fun i n _ => (s.hubNext h).abortCmd n eAborted (bits ((s.hub h).reg i.ra).toNat 0 32)
/-- JNOTE: the NOTE field of the command's journal entry := ra[31:0]. -/
def execJnote (h : HubId) (s : State) : Result :=
  hubCmdExec h 0x16 s fun i n _ =>
    (s.jput n { s.jget n with note := bits ((s.hub h).reg i.ra).toNat 0 32 }).hubNext h

/-- The words h24 to h30 of the two banks change places (R277). -/
def Hub.swapBank (x : Hub) : Hub :=
  let pick (m : Tab Word64) := m.filter fun e => decide (24 ≤ e.1 ∧ e.1 ≤ 30)
  let rest := x.regs.filter fun e => !decide (24 ≤ e.1 ∧ e.1 ≤ 30)
  { x with regs := (pick x.irqBank).foldl (fun m e => Tab.set 0 m e.1 e.2) rest, irqBank := pick x.regs }

/-- A source completed on a target (R410): ACTIVE clears. -/
def State.complete (s : State) (t src : Nat) : State :=
  let rest := s.intc.active.filter fun a => !(a.1 == t && a.2.1 == src)
  ({ (s.putBit F.INTC_ACTIVE.BITS src (rest.any fun a => a.2.1 == src)) with intc := { s.intc with active := rest } } : State).handOver src

/-- A completion that names a source (R410, R412, R413): one that is not ACTIVE on the target is an error in strict mode and counted in
relaxed mode. -/
def State.writeCpl (s : State) (t n : Nat) : State :=
  if s.intc.active.any fun a => a.1 == t && a.2.1 == n then s.complete t n
  else if s.on F.INTC_TGT_CFG.MODE t then s.count F.INTC_STRAY_COUNT.COUNT t 1
  else
    ((((s.wr F.INTC_ERR_LOG.TARGET 0 t).wr F.INTC_ERR_LOG.SOURCE 0 n).wr F.INTC_ERR_LOG.TIME 0 s.time)).raise 156

/-- IRET (R277, R409, R410): the source at the top of the return stack is completed, the program counter and the suspended
wait come back, and at the return to level 0 the interrupt bank is switched out. Handler time does not count toward the
interrupted command (R309). Outside a handler it only moves on (DESIGN CHOICE, log 15). -/
def execIret (h : HubId) (s : State) : Result :=
  hubExec h 0x15 s fun _ =>
    let x := s.hub h
    match x.stack with
    | [] => s.hubNext h
    | (src, pc, w) :: rest =>
      let x := { x with stack := rest, pc := pc, wait := w }
      let s := (s.setHub h (if rest.isEmpty then x.swapBank else x)).writeCpl h src
      match rest, x.cur with
      | [], some n => s.modCmd n fun c => c.exclude x.irqSince s.work
      | _, _ => s

/-- ILLEGAL_INSTRUCTION: the task aborts with E_ABORTED, DETAIL 0xFE and the word address (R266). In a handler on a hub with no command there
is no task to abort, and the hub stays at the instruction (DESIGN CHOICE, log 86). -/
def execIllegalInstruction (h : HubId) (s : State) : Result :=
  if s.live && s.hubRuns h && s.illegal h then
    match (s.hub h).cur with
    | some n => .next (s.abortCmd n eAborted (detailAt 0xFE (s.hub h).pc))
    | none => .next s
  else .next s

/-! ## Waits (R265, R268, R272, R273, R276) -/

/-- A command with a handle freed (R265). -/
def Cmd.freeHandle (c : Cmd) (hd : Nat) : Cmd :=
  { c with handles := Tab.erase c.handles hd, issued := c.issued.filter (· != hd) }

/-- FENCE's outcome: that of the first failed operation in issue order, else OK (R264). -/
def Cmd.fenceWord (c : Cmd) : Nat :=
  (c.issued.filterMap fun hd => match Tab.find c.handles hd with
    | some x => if x.run then none else x.outcome.filter fun w => bits w 8 8 != stOK
    | none => none).head?.getD (okWord false)

/-- The device time at which a wait of `ns` runs out; 0 waits without limit. -/
def State.limitAt (s : State) (ns : Nat) : Nat := if ns = 0 then timeNone else timeAdd s.time ns

/-- A hub enters a wait, and parks the command where R268 says so; the program counter stands after the instruction. -/
def State.enterWait (s : State) (h : Nat) (k : WaitKind) (rd limit : Nat) : State :=
  ((s.hubNext h).setHub h { (s.hubNext h).hub h with wait := some ⟨k, rd, limit, s.work, none⟩ }).markMet.park h

/-- DRAIN waits for a RUN handle's outcome, at most rb ns (R272). -/
def execDrain (h : HubId) (s : State) : Result :=
  hubCmdExec h 0x39 s fun i _ _ =>
    s.enterWait h (.handle ((s.hub h).reg i.ra).toNat) i.rd (s.limitAt ((s.hub h).reg i.rb).toNat)
/-- WAIT waits for a non-RUN handle's outcome, at most rb ns (R265). -/
def execWait (h : HubId) (s : State) : Result :=
  hubCmdExec h 0x40 s fun i _ _ =>
    s.enterWait h (.handle ((s.hub h).reg i.ra).toNat) i.rd (s.limitAt ((s.hub h).reg i.rb).toNat)
/-- FENCE waits for every non-RUN handle of the command. -/
def execFence (h : HubId) (s : State) : Result :=
  hubCmdExec h 0x41 s fun i _ _ => s.enterWait h .fence i.rd timeNone
/-- EVSIG: event ra[7:0] of the partition := event + IMM32 (R275). -/
def execEvsig (h : HubId) (s : State) : Result :=
  hubPartExec h 0x42 s fun i p => (s.eventAdd p (((s.hub h).reg i.ra).toNat % 256) i.imm).hubNext h
/-- EVWAIT waits until an event reaches a value, at most IMM32 µs; with IMM32 = 0 it tests once (R276). -/
def execEvwait (h : HubId) (s : State) : Result :=
  hubPartExec h 0x43 s fun i p =>
    let e := ((s.hub h).reg i.ra).toNat % 256
    let t := ((s.hub h).reg i.rb).toNat % 2 ^ 32
    if i.imm = 0 then s.hubRetN h i.rd (if s.eventMet p e t then 0 else 1)
    else s.enterWait h (.event e t) i.rd (timeAdd s.time (i.imm * 1000))
/-- NOTIFY sends MSI-X vector AUX[5:0] of the partition's function (R264, R414). -/
def execNotify (h : HubId) (s : State) : Result :=
  hubPartExec h 0x44 s fun i p => (s.request (p + 1) (i.aux % 64)).hubNext h

end Sys2Proof.Machine
end

