-- ==== Sys2Proof/Machine/Walk.lean ====
section
/-! DEFINITION. Run argument blocks, shape records, pointer lists and the walks of streams (R150 to R155, R165, R178 to
R182, R269, R517, R291). -/

namespace Sys2Proof.Machine

/-! ## Records -/

/-- A shape-record entry read from its 8 bytes (R150). -/
def ShapeEntry.parse (v : Nat) : ShapeEntry where
  valid := bit v 63
  list := bit v 62
  gran := bits v 57 5
  planned := bits v 32 25
  runtime := bits v 0 25

/-- A stream descriptor read from its 64 bytes (R178). -/
def StreamDesc.parse (b : List Byte) : StreamDesc where
  tid := fieldAt b 0 4
  dir := fieldAt b 4 1
  mode := fieldAt b 5 1
  link0 := fieldAt b 6 1
  nlink := fieldAt b 7 1
  tokenBase := fieldAt b 8 4
  tokenElems := fieldAt b 12 4
  perm := (List.range 5).map fun j => fieldAt b (16 + j) 1
  bind := (List.range 5).map fun j => fieldAt b (21 + j) 1
  start := (List.range 5).map fun d => bits (fieldAt b (32 + 4 * d) 4) 0 25
  itid := fieldAt b 0x34 4
  idim := fieldAt b 0x38 1
  ikind := fieldAt b 0x39 1
  resZero := fieldAt b 0x1A 6 == 0 && fieldAt b 0x3A 6 == 0

/-- A RUN argument block read from its 192 bytes (R269). -/
def RunBlk.parse (b : List Byte) : RunBlk where
  rect := fieldAt b 0 2
  plane := fieldAt b 2 1
  nstream := fieldAt b 3 1
  plist := fieldAt b 4 4
  aPad := (List.range 16).map fun i => bits (fieldAt b 8 8) (4 * i) 4
  aInit := (List.range 16).map fun i => fieldAt b (16 + 4 * i) 4
  shape := (List.range 8).map fun i => ShapeEntry.parse (fieldAt b (0x50 + 8 * i) 8)
  offs := (List.range 16).map fun i => fieldAt b (0x90 + 2 * i) 2

/-- The stream descriptors of a RUN block, read from a command's data area. -/
def RunBlk.streams (r : RunBlk) (data : List Byte) : List StreamDesc :=
  (r.offs.take (min r.nstream 16)).map fun o => StreamDesc.parse (slice data o 64)

/-- An unused shape entry. -/
def ShapeEntry.unused : ShapeEntry := ⟨false, false, 0, 0, 0⟩

/-- Entry `i` of a shape record. -/
def shapeAt (sh : List ShapeEntry) (i : Nat) : ShapeEntry := sh.getD i .unused

/-- The entry with LIST set, if any. -/
def listEntry (sh : List ShapeEntry) : Option Nat := (List.range 8).find? fun i => (shapeAt sh i).valid && (shapeAt sh i).list

/-- The padded extent of a dimension for a runtime extent (R151). -/
def ShapeEntry.pad (e : ShapeEntry) (runtime : Nat) : Nat := min e.planned (roundUp runtime (2 ^ e.gran))

/-- The padded extent of an entry without LIST (R151). -/
def ShapeEntry.padded (e : ShapeEntry) : Nat := e.pad e.runtime

/-! ## The checks of R152 -/

/-- Checks 1 to 3 of R152. -/
def shapeOk (sh : List ShapeEntry) (plist : Nat) : Bool :=
  let vs := sh.filter (·.valid)
  vs.all (fun e => decide (1 ≤ e.planned ∧ e.planned ≤ 16777216 ∧ e.gran ≤ 24)) &&
  decide ((vs.filter (·.list)).length ≤ 1) &&
  (match listEntry sh with
    | none => true
    | some i => i != 0 && (shapeAt sh 0).valid && plist != 0 && decide ((shapeAt sh 0).runtime ≤ 65536)) &&
  vs.all (fun e => e.list || decide (e.runtime ≤ e.planned))

/-- Every A_PAD nibble is valid (R269). -/
def RunBlk.padOk (r : RunBlk) : Bool :=
  r.aPad.all fun n => n == 0 || (decide (n ≤ 8) && (shapeAt r.shape (n - 1)).valid && !(shapeAt r.shape (n - 1)).list)

/-- The initial values of the address registers (R58, R269). -/
def RunBlk.aregs (r : RunBlk) : List Nat :=
  (List.range 16).map fun i =>
    let n := r.aPad.getD i 0
    if n = 0 then r.aInit.getD i 0 else (shapeAt r.shape (n - 1)).padded

/-- A valid entry without LIST has RUNTIME 0 (R153, R261). -/
def zeroExtent (sh : List ShapeEntry) : Bool := sh.any fun e => e.valid && !e.list && e.runtime == 0

/-- OFFSET of a pointer-list entry as task `k` reads it (R154). -/
def State.plOffset (s : State) (k p pl i : Nat) : Nat := ofBytes (s.tbytes k p pl (16 * i) 8)

/-- EXTENT of a pointer-list entry (R154). -/
def State.plExtent (s : State) (k p pl i : Nat) : Nat := bits (ofBytes (s.tbytes k p pl (16 * i + 8) 4)) 0 25

/-- Check 4 of R152. -/
def State.plistOk (s : State) (k p : Nat) (r : RunBlk) : Bool :=
  match listEntry r.shape with
  | none => true
  | some l =>
    match s.tensor p r.plist with
    | none => false
    | some t => t.main && decide (16 * (shapeAt r.shape 0).runtime ≤ t.desc.dataLen) &&
        ((List.range (shapeAt r.shape 0).runtime).all fun i => decide (s.plExtent k p r.plist i ≤ (shapeAt r.shape l).planned))

/-! ## Walks (R180) -/

/-- A walk level: of fixed counts, padded and real; over the items of a pointer list; or of the LIST extent of the item
(R180). -/
inductive LevelKind where
  | plain (n rt : Nat)
  | items (n rt : Nat)
  | list
  deriving DecidableEq, Repr

/-- A walk level and the tensor dimension it walks. -/
structure Level where
  dim : Nat
  kind : LevelKind
  deriving DecidableEq, Repr

/-- The levels of a stream's walk over a tensor of the given extents, outer to inner (R178, R180). -/
def StreamDesc.levels (d : StreamDesc) (dims : List Nat) (sh : List ShapeEntry) : List Level :=
  (List.range dims.length).map fun j =>
    let dm := d.perm.getD j 0
    let b := d.bind.getD j 0xFF
    let kind : LevelKind :=
      if b = 0xFF then .plain (dims.getD dm 0 - d.start.getD dm 0) (dims.getD dm 0 - d.start.getD dm 0)
      else if d.mode = 2 ∧ (shapeAt sh b).list = true then .list
      else if d.mode = 2 ∧ b = 0 then .items (shapeAt sh 0).padded (shapeAt sh 0).runtime
      else .plain (shapeAt sh b).padded (shapeAt sh b).runtime
    ⟨dm, kind⟩

/-- The number of positions of a walk. `pad i` is the padded LIST extent of item `i`, `m` the largest of them; `it` and `c`
are the item and the LIST position that outer levels have fixed. -/
def walkSize (pad : Nat → Nat) (m : Nat) : List Level → Option Nat → Option Nat → Nat
  | [], _, _ => 1
  | l :: ls, it, c =>
    match l.kind with
    | .plain n _ => n * walkSize pad m ls it c
    | .items n _ => ((List.range n).map fun i =>
        if (match c with
          | some k => decide (k < pad i)
          | none => true) then walkSize pad m ls (some i) c else 0).foldl (· + ·) 0
    | .list => match it with
      | some i => pad i * walkSize pad m ls it (some 0)
      | none => ((List.range m).map fun k => walkSize pad m ls none (some k)).foldl (· + ·) 0

/-- The part of a sequence of parts that holds position `n`, and the position inside it. -/
def findPart (size : Nat → Nat) : Nat → Nat → Nat → Nat × Nat
  | 0, i, n => (i, n)
  | f + 1, i, n => if n < size i then (i, n) else findPart size f (i + 1) (n - size i)

/-- The positions of the levels at walk position `n`, outer to inner. -/
def walkAt (pad : Nat → Nat) (m : Nat) : List Level → Option Nat → Option Nat → Nat → List Nat
  | [], _, _, _ => []
  | l :: ls, it, c, n =>
    match l.kind with
    | .plain _ _ =>
      let z := walkSize pad m ls it c
      (if z = 0 then 0 else n / z) :: walkAt pad m ls it c (if z = 0 then 0 else n % z)
    | .items k _ =>
      let (i, r) := findPart (fun i => if (match c with
          | some k => decide (k < pad i)
          | none => true) then walkSize pad m ls (some i) c else 0) k 0 n
      i :: walkAt pad m ls (some i) c r
    | .list => match it with
      | some _ =>
        let z := walkSize pad m ls it (some 0)
        (if z = 0 then 0 else n / z) :: walkAt pad m ls it (some 0) (if z = 0 then 0 else n % z)
      | none =>
        let (k, r) := findPart (fun k => walkSize pad m ls none (some k)) m 0 n
        k :: walkAt pad m ls none (some k) r

/-- The padded LIST extent of item `i` (R151): an item whose EXTENT is 0 and an item in the padding of entry 0 take one
granule. -/
def State.listPad (s : State) (k p pl : Nat) (sh : List ShapeEntry) (i : Nat) : Nat :=
  match listEntry sh with
  | none => 0
  | some l =>
    let e := shapeAt sh l
    let x := s.plExtent k p pl i
    if i < (shapeAt sh 0).runtime ∧ x ≠ 0 then e.pad x else min e.planned (2 ^ e.gran)

/-- The largest padded LIST extent. -/
def listMax (sh : List ShapeEntry) : Nat := match listEntry sh with
  | some l => (shapeAt sh l).planned
  | none => 0

/-- The number of element positions of a stream's walk (R180). -/
def State.walkLen (s : State) (k p : Nat) (d : StreamDesc) (dims : List Nat) (sh : List ShapeEntry) (pl : Nat) : Nat :=
  walkSize (s.listPad k p pl sh) (listMax sh) (d.levels dims sh) none none

/-- The number of tokens of a stream's walk. -/
def State.walkTokens (s : State) (k p : Nat) (d : StreamDesc) (dims : List Nat) (sh : List ShapeEntry) (pl : Nat) : Nat :=
  ceilDiv (s.walkLen k p d dims sh pl) d.tokenElems

/-- The flits of one token (R180). -/
def StreamDesc.tokenFlits (d : StreamDesc) (elem : Nat) : Nat := ceilDiv (d.tokenElems * elem) 256

/-- The row-major offset of coordinates in extents. -/
def rowMajor (dims cs : List Nat) : Nat := (dims.zip cs).foldl (fun a e => a * e.1 + e.2) 0

/-- Where a walk position lies: a tensor and the bit offset of the element in it; or +0, with the index value that R182
reports if there is one. -/
inductive Place where
  | at_ (tid bit : Nat)
  | zero (bad : Option Nat)
  deriving DecidableEq, Repr

/-- The place of walk position `n` of a stream (R155, R165, R180 to R182). -/
def State.place (s : State) (k p : Nat) (d : StreamDesc) (t : Tensor) (sh : List ShapeEntry) (pl n : Nat) : Place :=
  let dims := t.desc.extents
  let eb := elemBits t.desc.etype
  let ls := d.levels dims sh
  let ps := walkAt (s.listPad k p pl sh) (listMax sh) ls none none n
  let item := ((ls.zip ps).find? fun e => match e.1.kind with
    | .items _ _ => true
    | _ => false).map (·.2)
  let padding := (ls.zip ps).any fun e => match e.1.kind with
    | .plain _ rt => decide (rt ≤ e.2)
    | .items _ rt => decide (rt ≤ e.2)
    | .list => match item with
      | some i => decide ((shapeAt sh 0).runtime ≤ i ∨ s.plExtent k p pl i ≤ e.2)
      | none => true
  if padding then .zero none
  else
    let pos (dm : Nat) : Nat := (((ls.zip ps).find? fun e => e.1.dim == dm).map (·.2)).getD 0
    let isItem (dm : Nat) : Bool := ls.any fun l => l.dim == dm && (match l.kind with
      | .items _ _ => true
      | _ => false)
    let cs := (List.range dims.length).map fun dm =>
      if d.mode = 1 ∧ dm = d.idim then 0 else if isItem dm then 0 else d.start.getD dm 0 + pos dm
    if (List.range dims.length).any fun dm => decide (dims.getD dm 0 ≤ cs.getD dm 0) then .zero none
    else if d.mode = 1 then
      match s.tensor p d.itid with
      | none => .zero none
      | some u =>
        let i := pos d.idim
        if u.desc.elems ≤ i then .zero none
        else
          let v := ofBytes (s.tbytes k p d.itid (4 * i) 4)
          if v = 0xFFFFFFFF then .zero none
          else if d.ikind = 0 then
            if v < dims.getD d.idim 0 then .at_ d.tid (rowMajor dims (cs.set d.idim v) * eb) else .zero (some v)
          else
            match s.tensor p v with
            | none => .zero (some v)
            | some w =>
              if w.desc.etype = t.desc.etype ∧ w.desc.extents = dims.eraseIdx d.idim ∧ w.main = true ∧
                  (w.state.resident = true ∨ w.state = .lost)
              then .at_ v (rowMajor (dims.eraseIdx d.idim) (cs.eraseIdx d.idim) * eb) else .zero (some v)
    else
      let o := (match item with
        | some i => s.plOffset k p pl i * 8
        | none => 0) + rowMajor dims cs * eb
      if o + eb ≤ t.desc.dataLen * 8 then .at_ d.tid o else .zero none

/-- The bits of the element at a place, as task `k` reads it. -/
def State.elemAt (s : State) (k p eb : Nat) : Place → Nat
  | .at_ tid o => bits (ofBytes (s.tbytes k p tid (o / 8) (ceilDiv (o % 8 + eb) 8))) (o % 8) eb
  | .zero _ => 0

/-- The data of flit `f` of token `t` of a source stream, with the index values that named nothing (R155, R180, R182). -/
def State.sourceFlit (s : State) (k p : Nat) (d : StreamDesc) (x : Tensor) (sh : List ShapeEntry) (pl t f : Nat) :
    Nat × List Nat :=
  let eb := elemBits x.desc.etype
  let per := if eb = 0 then 0 else 256 / eb
  let len := s.walkLen k p d x.desc.extents sh pl
  (List.range per).foldl (fun acc i =>
    let j := f * per + i
    let n := t * d.tokenElems + j
    if j < d.tokenElems ∧ n < len then
      let pl' := s.place k p d x sh pl n
      (acc.1 + s.elemAt k p eb pl' * 2 ^ (eb * i), match pl' with
        | .zero (some v) => acc.2 ++ [v]
        | _ => acc.2)
    else acc) (0, [])

/-- The places from which flit `f` of token `t` of a source stream is read, byte by byte: those of its elements and of their index values
(R179 to R181). -/
def State.flitSources (s : State) (k p : Nat) (d : StreamDesc) (x : Tensor) (sh : List ShapeEntry) (pl t f : Nat) : List Source :=
  let eb := elemBits x.desc.etype
  let per := if eb = 0 then 0 else 256 / eb
  let len := s.walkLen k p d x.desc.extents sh pl
  (List.range per).flatMap fun i =>
    let j := f * per + i
    let n := t * d.tokenElems + j
    if j < d.tokenElems ∧ n < len then
      match s.place k p d x sh pl n with
      | .at_ tid o => (List.range (ceilDiv (o % 8 + eb) 8)).filterMap fun b => s.sourceOf p s.chain tid (o / 8 + b)
      | .zero _ => []
    else []

/-- The pool page of byte `o` of a tensor's copy as task `k` sees it: of its shadow where there is one (R172). -/
def State.frameAt (s : State) (k p tid o : Nat) : Option Nat :=
  match s.tensor p tid with
  | none => none
  | some t => ((s.viewShadow k p tid).bind fun h => Tab.find h.frames (o / 65536)).or t.frames[o / 65536]?

/-- The channels of the main tier on which places lie (R226, R238). -/
def State.chansAt (s : State) (k p : Nat) (srcs : List Source) : List Nat :=
  (srcs.filterMap fun a => match a with
    | .main tid o => (s.frameAt k p tid o).map fun n => s.chanAt n (o % 65536 / 1024)
    | _ => none).dedup

/-- The bursts of the main tier on which places lie, by channel (R224, R226). -/
def State.burstsAt (s : State) (k p : Nat) (srcs : List Source) : List (Nat × Nat) :=
  (srcs.filterMap fun a => match a with
    | .main tid o => (s.frameAt k p tid o).map fun n => (n, o % 65536 / 64)
    | _ => none).dedup.map fun e => (s.chanAt e.1 (e.2 / 16), 1)

/-- The granule of 4 KiB that a fill's read of byte `o` of a tensor captures, with its tensor: of a main-home RO tensor that is LOADING,
as the read goes through it to its bulk backing (R219; DEDUCED, log 39: the granules are those of the tensor's own bytes). -/
def State.captures (s : State) (p : Nat) : Nat → Nat → Nat → Option (Nat × Nat)
  | 0, _, _ => none
  | n + 1, tid, o =>
    match s.tensor p tid with
    | none => none
    | some t =>
      if o ≥ t.desc.dataLen ∨ (t.main && t.state.resident) = true ∨ t.bulk = true then none
      else if t.main && t.state == .loading && !t.rw_ && s.backingTier p t == 3 then some (tid, o / 4096)
      else if t.desc.back = 1 then s.captures p n t.desc.backAddr (t.desc.backOff o) else none

/-- The elements that flit `f` of token `t` of a sink stream writes, as bit offset and value (R155, R180). -/
def State.sinkElems (s : State) (k p : Nat) (d : StreamDesc) (x : Tensor) (sh : List ShapeEntry) (pl t f : Nat) (data : Word256) :
    List (Nat × Nat) :=
  let eb := elemBits x.desc.etype
  let per := if eb = 0 then 0 else 256 / eb
  let len := s.walkLen k p d x.desc.extents sh pl
  (List.range per).filterMap fun i =>
    let j := f * per + i
    let n := t * d.tokenElems + j
    if j < d.tokenElems ∧ n < len then
      match s.place k p d x sh pl n with
      | .at_ _ o => some (o, bits data.toNat (eb * i) eb)
      | .zero _ => none
    else none

/-- The tensors that a sink's flit writes to: MODE 1 TENSOR writes the tensors its index names. -/
def State.sinkTid (s : State) (k p : Nat) (d : StreamDesc) (x : Tensor) (sh : List ShapeEntry) (pl t f i : Nat) : Nat :=
  let eb := elemBits x.desc.etype
  let per := if eb = 0 then 0 else 256 / eb
  match s.place k p d x sh pl (t * d.tokenElems + f * per + i) with
  | .at_ tid _ => tid
  | .zero _ => d.tid

/-! ## Edges (R179, R290, R291, R517) -/

/-- The edge of a stream (R179); none where it can reach its tensor by no path. -/
def State.streamEdge (s : State) (p : Nat) (d : StreamDesc) : Option Edge :=
  match s.tensor p d.tid with
  | none => none
  | some t =>
    if d.dir = 1 then (if t.main && t.rw_ then some .north else none)
    else match s.sourceTier p s.chain d.tid with
      | 2 => some .north
      | 3 => some .bulk
      | 4 => some .host
      | _ => none

/-- The links of an edge (R47). -/
def Edge.links : Edge → Nat
  | .north => 144 | .bulk => 72 | .host => 72

/-- The cog and side of an edge's link `l` (R47, R290). -/
def Edge.port (e : Edge) (l : Nat) : Nat × Side :=
  match e with
  | .north => (l, .n)
  | .bulk => (127 * 144 + l, .s)
  | .host => (127 * 144 + 72 + l, .s)

/-- Checks 1 to 7 of R517 on one stream descriptor. -/
def State.streamOk (s : State) (p : Nat) (r : RunBlk) (d : StreamDesc) : Bool :=
  d.resZero && decide (d.dir ≤ 1 ∧ d.mode ≤ 2) && (d.mode != 1 || decide (d.ikind ≤ 1)) &&
  (match s.tensor p d.tid with
    | none => false
    | some t =>
      let n := t.desc.ndim
      (match s.streamEdge p d with
        | none => false
        | some e => decide (1 ≤ d.nlink ∧ d.nlink ≤ 144 ∧ d.link0 + d.nlink ≤ e.links)) &&
      ((List.range n).all fun i => ((d.perm.take n).filter (· == i)).length == 1) && (d.perm.drop n).all (· == 0xFF) &&
      ((d.bind.take n).all fun b => b == 0xFF || (decide (b < 8) && (shapeAt r.shape b).valid && (!(shapeAt r.shape b).list || d.mode == 2))) &&
      (d.bind.drop n).all (· == 0xFF) && ((d.bind.filter (· != 0xFF)).dedup == d.bind.filter (· != 0xFF)) &&
      decide (1 ≤ d.tokenElems ∧ d.tokenElems ≤ 16777216) &&
      ((List.range 5).all fun i => if i < n then decide (d.start.getD i 0 < t.desc.dims.getD i 0) else d.start.getD i 0 == 0) &&
      (match d.mode with
        | 1 => (match s.tensor p d.itid with
          | some u => u.main && u.desc.etype == 9 && decide (d.idim < n)
          | none => false)
        | 2 => d.itid == r.plist && (match listEntry r.shape with
          | some l => (d.bind.take n).contains 0 && (d.bind.take n).contains l
          | none => false)
        | _ => true))

/-- The edge links a stream uses, as cog and side number. -/
def State.streamPorts (s : State) (p : Nat) (d : StreamDesc) : List (Nat × Nat) :=
  match s.streamEdge p d with
  | none => []
  | some e => (List.range d.nlink).map fun i => ((e.port (d.link0 + i)).1, (e.port (d.link0 + i)).2.num)

/-- The checks of R517 on every stream descriptor of a RUN block. -/
def State.streamsOk (s : State) (p : Nat) (r : RunBlk) (ds : List StreamDesc) : Bool :=
  ds.all (s.streamOk p r) &&
  (let srcs := (ds.filter (·.dir == 0)).flatMap (s.streamPorts p)
   let snks := (ds.filter (·.dir == 1)).flatMap (s.streamPorts p)
   srcs.dedup == srcs && snks.dedup == snks)

/-- R291: every edge link that a stream names belongs to a cog of the rectangle. -/
def State.streamsInside (s : State) (p : Nat) (rect : Nat) (ds : List StreamDesc) : Bool :=
  ds.all fun d => (s.streamPorts p d).all fun e => inRect rect (blockOf e.1)

/-! ## Shadow reservations of sinks (R173) -/

/-- The contiguous runs of a walk over one set of counts: their number and length in elements. -/
def runShape (dims : List Nat) (count : Nat → Nat) (merges : Nat → Bool) : Nat × Nat :=
  let go := (List.range dims.length).reverse.foldl (fun (a : Nat × Nat × Bool) dm =>
    let (runs, len, open_) := a
    let n := count dm
    if n = 0 then (0, 0, false)
    else if open_ && merges dm then (runs, len * n, n == dims.getD dm 0)
    else (runs * n, len, false)) (1, 1, true)
  (go.1, go.2.1)

/-- The pages a sink stream of a command may touch: ⌈bytes ÷ 65,536⌉ + 1 for each contiguous run at the padded extents, item
by item in MODE 2 (R173). A descriptor that R517 refuses reserves nothing: its RUN is refused when it issues. -/
def State.sinkPages (s : State) (k p : Nat) (r : RunBlk) (d : StreamDesc) : Nat :=
  match s.tensor p d.tid with
  | none => 0
  | some t =>
    if d.dir = 1 ∧ s.streamOk p r d = true then
      let dims := t.desc.extents
      let eb := elemBits t.desc.etype
      let ls := d.levels dims r.shape
      let one (i : Nat) : Nat :=
        let count (dm : Nat) : Nat := match ls.find? fun l => l.dim == dm with
          | some l => match l.kind with
            | .plain n _ => if d.mode = 1 ∧ dm = d.idim then n else min n (dims.getD dm 0 - d.start.getD dm 0)
            | .items _ _ => 1
            | .list => min (s.listPad k p r.plist r.shape i) (dims.getD dm 0 - d.start.getD dm 0)
          | none => 1
        let merges (dm : Nat) : Bool := !(d.mode == 1 && dm == d.idim) && (ls.all fun l => l.dim != dm || (match l.kind with
          | .items _ _ => false
          | _ => true))
        let (runs, len) := runShape dims count merges
        runs * (ceilDiv (len * eb) (8 * 65536) + 1)
      if d.mode = 2 then ((List.range (shapeAt r.shape 0).padded).map one).foldl (· + ·) 0 else one 0
    else 0

end Sys2Proof.Machine
end

