-- ==== Sys2Proof/Machine/Engine.lean ====
section
/-! DEFINITION. Arbitration at the shared movement engines (R299, R301, R305): the requests that stand at an engine, their ranks, and the turns
of the partitions. -/

namespace Sys2Proof.Machine

/-! ## Regions -/

/-- The region with a RUN in progress that holds a cog. -/
def State.regionOf (s : State) (c : Nat) : Option (Nat × Region) := s.arr.regions.find? fun e => inRect e.2.rect (blockOf c)

/-- A region written. -/
def State.setRegion (s : State) (k : Nat) (r : Region) : State :=
  { s with arr := { s.arr with regions := Tab.insert s.arr.regions k r } }

/-- The edge link into the array at a cog's side. -/
def State.edgeIn (s : State) (c : Nat) (d : Side) : EdgeIn := Tab.get EdgeIn.start s.arr.edges (4 * c + d.num)
/-- An edge link into the array written. -/
def State.setEdgeIn (s : State) (c : Nat) (d : Side) (e : EdgeIn) : State :=
  { s with arr := { s.arr with edges := Tab.set EdgeIn.start s.arr.edges (4 * c + d.num) e } }

/-- The tokens of a stream's walk (R180). -/
def State.streamTotal (s : State) (r : Region) (st : Stream) : Nat :=
  match s.tensor r.part st.desc.tid with
  | some t => s.walkTokens (s.regionTask r) r.part st.desc t.desc.extents r.shape r.plist
  | none => 0

/-- The number of a request for pages: command and handle; 16 stands for an instruction without a handle, 17 for the
dispatch (R189). -/
def reqOf (n slot : Nat) : Nat := n * 32 + slot

/-- The low 32 bits of a register: a TID. -/
def State.tidOf (s : State) (h r : Nat) : Nat := ((s.hub h).reg r).toNat % 2 ^ 32

/-! ## The next flit of a source stream (R120, R126, R180, R192) -/

/-- Whether a flit that an edge source starts as token `t` of its count is stamped with the LIVE plane's tag (R120). -/
def Region.stamp (r : Region) (t : Nat) : Bool :=
  match r.shiftK with
  | some k => if r.draining && decide (t < k) then !r.live else r.live
  | none => r.live

/-- The link of a stream's token `t` (R180): the cog and side of its edge port. -/
def Stream.portOf (st : Stream) (t : Nat) : Nat × Side := st.edge.port (st.desc.link0 + t % max 1 st.desc.nlink)

/-- Whether a source stream has a flit to send that its edge port takes: it holds at no failed word, tokens are left, fewer than eight flits
wait to cross (DESIGN CHOICE, log 28), and a flit of the LIVE plane waits for no TURN mark (R126). -/
def State.sourceGoes (s : State) (g : Region) (st : Stream) : Bool :=
  let (c, d) := st.portOf st.tok
  let e := s.edgeIn c d
  st.desc.dir == 0 && !st.holds && decide (st.tok < s.streamTotal g st ∧ e.flits.length < 8) &&
    !(g.draining && g.stamp (st.desc.tokenBase + st.tok) == g.live && !e.turned)

/-- The places from which a source stream's next flit is read. -/
def State.nextSources (s : State) (g : Region) (st : Stream) (t : Tensor) : List Source :=
  s.flitSources (s.regionTask g) g.part st.desc t g.shape g.plist st.tok st.flit

/-- Whether a stream's next flit begins a transfer of 4 KiB, the unit in which the engines yield (R301, R305). -/
def Stream.unitStart (st : Stream) (t : Tensor) (tok flit : Nat) : Bool :=
  (tok * st.desc.tokenFlits (elemBits t.desc.etype) + flit) % 128 == 0

/-! ## Requests and their ranks (R301) -/

/-- A request at a shared engine: the partition and class of its command, whether it is a dispatch read, and whether the units of 4 KiB that it
moves are told one by one. -/
structure EngReq where
  part : Nat
  cls : Nat
  disp : Bool
  told : Bool
  deriving DecidableEq, Repr

/-- The shared engine that moves data between an edge port, the main tier and a source: 1 is the bulk tier's, 2 that of host memory, 0 the main
tier's. Number 3 is the serving engine. -/
def engineOf (srcs : List Source) : Nat :=
  if srcs.any (fun a => match a with
    | .bulk _ => true
    | _ => false) then 1
  else if srcs.any (fun a => match a with
    | .host _ => true
    | _ => false) then 2
  else 0

/-- The service class of a command's queue; pack where the command is gone. -/
def State.clsOf (s : State) (n : Nat) : Nat := ((s.cmd n).map fun c => s.qClass c.queue).getD 1

/-- The request that a stream's next flit is. -/
def State.streamReq (s : State) (g : Region) : EngReq := ⟨g.part, s.clsOf g.seq, false, true⟩

/-- The requests of source streams that stand at an engine: their next flit can be read now. -/
def State.streamReqs (s : State) (e : Nat) : List EngReq :=
  s.arr.regions.flatMap fun r => r.2.streams.filterMap fun st => match s.tensor r.2.part st.desc.tid with
    | none => none
    | some t =>
      if s.sourceGoes r.2 st then
        let srcs := s.nextSources r.2 st t
        if engineOf srcs == e && s.readMeets r.2.part srcs == .ready &&
            !s.mainWaits (r.1, st.idx) (s.chansAt (s.regionTask r.2) r.2.part srcs) then some (s.streamReq r.2) else none
      else none

/-- The sink stream of a region on an edge link, with the link's place among its links. -/
def Region.sinkOn (r : Region) (c : Nat) (d : Side) : Option (Stream × Nat) :=
  r.streams.findSome? fun st => if st.desc.dir = 1 then
    ((List.range st.desc.nlink).find? fun i => st.edge.port (st.desc.link0 + i) == (c, d)).map fun i => (st, i)
  else none

/-- The flits that left by an edge link and wait at its edge port. -/
def State.sinkAt (s : State) (c : Nat) (d : Side) : List Flit := Tab.get [] s.arr.sinks (4 * c + d.num)

/-- The places that a sink stream's flit `k` of token `tok` goes to (R155, R180). -/
def State.sinkPlaces (s : State) (r : Region) (st : Stream) (t : Tensor) (tok k : Nat) : List Source :=
  s.flitSources (s.regionTask r) r.part st.desc t r.shape r.plist tok k

/-- The requests of sink streams that stand at the main tier's engine: a flit waits at the edge port, and its tensor can take it now. -/
def State.sinkReqs (s : State) : List EngReq :=
  s.arr.sinks.filterMap fun e => match s.arr.regions.find? fun r => inRect r.2.rect (blockOf (e.1 / 4)) with
    | none => none
    | some (key, r) =>
      match (sides.find? fun d => d.num == e.1 % 4).bind fun d => r.sinkOn (e.1 / 4) d with
      | none => none
      | some (st, l) => match s.tensor r.part st.desc.tid with
        | none => none
        | some t =>
          let (n, k) := Tab.get (0, 0) st.links l
          let tok := l + n * st.desc.nlink
          if t.state.resident && decide (tok < s.streamTotal r st ∧ k < st.desc.tokenFlits (elemBits t.desc.etype)) &&
              !s.mainWaits (key, st.idx) (s.chansAt (s.regionTask r) r.part (s.sinkPlaces r st t tok k)) then some (s.streamReq r) else none

/-- The request that a hub's TRD or TWR is. -/
def State.hubAsk (s : State) (n : Nat) (c : Cmd) : EngReq := ⟨c.part, s.clsOf n, false, true⟩

/-- The request of a hub that has come to wait at its TRD or TWR, where no other thing makes it wait (R264). -/
def State.hubReqs (s : State) : List EngReq :=
  (List.range 8).filterMap fun h => match s.curCmd h with
    | none => none
    | some (n, c) =>
      let i := s.hubWord h
      let off := ((s.hub h).reg i.rb).toNat
      if (s.hub h).stalled && s.hubRuns h && !s.illegal h && (i.opc == 0x26 || i.opc == 0x27) then
        match s.tensor c.part (s.tidOf h i.ra) with
        | none => none
        | some t =>
          if t.state.resident && !s.mainWaits (hubReq h) (s.readChans c.part (s.tidOf h i.ra) off ((i.aux + 1) * 32)) &&
              !(s.mem.evicts.any fun v => v.req == reqOf n 16) then some (s.hubAsk n c) else none
      else none

/-- Whether a queue's ring can be read: its function is not in D3hot, and the ring stands in the main tier, or in host memory while
the function may master the bus and its IDE stream has not failed (R391, R395, R402; log 63). -/
def State.ringOpen (s : State) (q : Nat) : Bool :=
  let f := qPart q + 1
  !Tab.get false s.pci.d3 f && (s.on F.Q_CFG.LOC q || (s.busOk f && !Tab.get false s.pci.ideDown f))

/-- The engine of a queue's dispatch reads: its ring stands in the main tier or in host memory. -/
def State.ringEngine (s : State) (q : Nat) : Nat := if s.on F.Q_CFG.LOC q then 0 else 2

/-- The request that a command's dispatch read is (step 1 of R260). -/
def State.readReq (s : State) (c : Cmd) : EngReq := ⟨c.part, s.qClass c.queue, true, true⟩

/-- The dispatch reads that stand at an engine: of taken commands whose dispatch has not begun. -/
def State.readReqs (s : State) (e : Nat) : List EngReq :=
  (List.range 8).filterMap fun h => match s.curCmd h with
    | some (_, c) =>
      if c.stage == .taken && c.dstep == 0 && (s.hub h).stack.isEmpty && s.ringOpen c.queue && s.ringEngine c.queue == e then
        some (s.readReq c)
      else none
    | none => none

/-- An operation under way. -/
def State.aop (s : State) (n hd : Nat) : Option AOp := Tab.find s.ctl.ops (16 * n + hd)

/-- The tensor that an operation may load. -/
def HOp.loadTid : HOp → Option Nat
  | .load t => some t
  | .copy _ t => some t
  | .gload t _ _ => some t
  | _ => none
/-- The outstanding reads of a function. -/
def State.readsOf (s : State) (f : Nat) : Nat := (s.pci.dma.filter fun e => e.2.f == f).length

/-- Whether a load can send a request now (R390, R391): fewer than 1,024 reads are outstanding, and fewer than 512 of its function, which may
master the bus. -/
def State.maySend (s : State) (r : HostRead) : Bool :=
  r.denied.isNone && s.busOk (r.part + 1) && decide (s.pci.dma.length < 1024 ∧ s.readsOf (r.part + 1) < 512)

/-- The highest class of the commands for which a tensor is being loaded: those that wait for it and those whose operations load it. -/
def State.loadCls (s : State) (t : Tensor) : Nat :=
  let ns := t.waiters ++ (s.ctl.ops.filter fun e => e.2.part == t.part && e.2.op.loadTid == some t.desc.tid).map fun e => e.1 / 16
  ((ns.filter fun n => (s.cmd n).isSome).map s.clsOf).min?.getD 1

/-- The request that a load from host memory is: its next read (R390, R392). -/
def State.hostReadReq (s : State) (r : HostRead) : EngReq := ⟨r.part, ((s.tensor r.part r.tid).map s.loadCls).getD 1, false, true⟩

/-- The loads from host memory that have a read to send. -/
def State.hostReqs (s : State) : List EngReq := (s.pci.reads.filter s.maySend).map s.hostReadReq

/-- The engine that writes a tensor back (R175), unless its bytes have landed in the bulk tier: the backing's. -/
def State.backEngine (s : State) (p : Nat) (t : Tensor) : Option Nat :=
  match s.backingTier p t with
  | 3 => if t.landed then none else some 1
  | 4 => some 2
  | _ => some 0

/-- The engine at which an operation on a whole tensor stands, and its request: of a load from the bulk tier or the main tier, a COPY, an HLIB, a
gear load, a FLUSH or an EVICT that has started. The reads of a load from host memory stand for themselves. -/
def State.opReq (s : State) (n : Nat) (o : AOp) : Option (Nat × EngReq) :=
  let p := o.part
  let req (cls e : Nat) : Option (Nat × EngReq) := some (e, ⟨p, cls, false, false⟩)
  let loads (tid : Nat) : Option (Option (Nat × EngReq)) := match s.tensor p tid with
    | some t => if t.state = TState.loading then some (match s.backingTier p t with
        | 3 => if s.blkReady then req (s.loadCls t) 1 else none
        | 4 => none
        | _ => req (s.loadCls t) 0) else none
    | none => none
  let backs (tid : Nat) : Option (Nat × EngReq) := match s.tensor p tid with
    | some t => if t.state = TState.writing ∧ o.started = true then (s.backEngine p t).bind (req (s.clsOf n)) else none
    | none => none
  match o.op with
  | .load tid => (loads tid).getD none
  | .gload tid _ _ => (loads tid).getD (if o.started then req (s.clsOf n) 0 else none)
  | .copy src dst => (loads dst).getD (if o.started then req (s.clsOf n) (engineOf (s.wholeSources p src)) else none)
  | .hlib tid => if o.started then req (s.clsOf n) (engineOf (s.wholeSources p tid)) else none
  | .flush tid => backs tid
  | .evict tid => backs tid
  | _ => none

/-- The operations on whole tensors that stand at an engine. -/
def State.opReqs (s : State) (e : Nat) : List EngReq :=
  s.ctl.ops.filterMap fun x => ((s.opReq (x.1 / 16) x.2).filter fun y => y.1 == e).map (·.2)

/-- The request of a write-back: of the FLUSH or EVICT that it ends, else of the request for whose pages it is (R175, R189). -/
def State.backReq (s : State) (p : Nat) (t : Tensor) : Option (Nat × EngReq) :=
  (s.backEngine p t).map fun e => (e, match s.ctl.ops.find? fun x => x.2.part == p && (x.2.op == .flush t.desc.tid || x.2.op == .evict t.desc.tid) with
    | some x => ⟨p, s.clsOf (x.1 / 16), false, false⟩
    | none => match t.wb with
      | some (.eviction r) => ⟨p, s.clsOf (r / 32), false, false⟩
      | _ => ⟨p, 1, false, false⟩)

/-- The sampled participants of a step in sampled order (R324). -/
def Step.sampledOrder (x : Step) : List Participant := x.parts.filter (·.samples)

/-- Whether a step's phases are over. -/
def Step.ran (x : Step) : Bool := !x.running && decide (x.phases.length ≤ x.phase)

/-- Whether the serving engine can sample the sequence at a place of a step's order now (R327, R338). -/
def Step.samples (x : Step) (row : Nat) : Bool :=
  (x.sampledOrder[row]?).any fun q => q.got == .waiting && (if x.edge then decide (row < x.tokens.length) else x.ran)

/-- The request that a step's sampling is at the serving engine. -/
def State.sampleReq (s : State) (x : Step) : EngReq := ⟨x.part, s.clsOf x.seq, false, true⟩

/-- The steps with a sequence to sample. -/
def State.sampleReqs (s : State) : List EngReq :=
  (s.srv.steps.filter fun e => (List.range e.2.parts.length).any e.2.samples).map fun e => s.sampleReq e.2

/-- The requests at an engine (R301): 0 the main tier's, 1 the bulk tier's, 2 that of host memory, 3 the serving engine. -/
def State.engReqs (s : State) (e : Nat) : List EngReq :=
  s.readReqs e ++ s.streamReqs e ++ s.opReqs e ++
    (match e with
      | 0 => s.sinkReqs ++ s.hubReqs
      | 2 => s.hostReqs
      | 3 => s.sampleReqs
      | _ => [])

/-- The slot that runs at a device time (R299). -/
def slotAt (t : Nat) : Nat := t / 8000 % 128

/-- The rank of a request (R301), dispatch reads of the slot's partition before its other requests. The slot is that of the device time (R299). -/
def State.engRank (s : State) (q : EngReq) : Nat :=
  match q.cls with
  | 0 => if Tab.get none s.ctl.table (slotAt s.time) = some q.part then (if q.disp then 0 else 1) else 2
  | 1 => 3
  | _ => 4

/-! ## Turns of the partitions (R301, R305) -/

/-- The weight of a partition at an engine: BULK_SHARE for pack and broom requests at the bulk tier's, 0 counting as 1; one elsewhere. -/
def State.engWeight (s : State) (e rank p : Nat) : Nat := if e = 1 ∧ 3 ≤ rank then max 1 (s.rd F.HUB_PART_CFG.BULK_SHARE p) else 1

/-- The partition whose turn holds or came last at an engine in a rank, and the units left of the turn. -/
def State.engTurn (s : State) (e rank : Nat) : Nat × Nat := Tab.get (0, 0) s.ctl.turns (8 * e + rank)

/-- The partition to serve next among those that ask: the one whose turn it is while units of it are left, else the next one in rising number
after it, cyclically (DESIGN CHOICE, log 80). -/
def nextTurn (t : Nat × Nat) (asks : Nat → Bool) : Option Nat :=
  if 0 < t.2 && asks t.1 then some t.1 else ((List.range 16).map fun i => (t.1 + 1 + i) % 16).find? asks

/-- Whether a request may begin a unit of 4 KiB now: none of a higher rank stands, and among those of its rank it is its partition's turn; the
slot's partition takes no turns. An operation on a whole tensor takes a turn as it ends; those before are not told, and keep no other request
waiting (DESIGN CHOICE, log 80). -/
def State.engGrants (s : State) (e : Nat) (q : EngReq) : Bool :=
  let r := s.engRank q
  let all := s.engReqs e
  all.all (fun x => decide (r ≤ s.engRank x)) &&
    (decide (r < 2) || nextTurn (s.engTurn e r) (fun p => p == q.part || all.any fun x => x.told && s.engRank x == r && x.part == p) == some q.part)

/-- A unit of 4 KiB is begun for a request: its partition's turn goes on, or begins with its weight. -/
def State.engServe (s : State) (e : Nat) (q : EngReq) : State :=
  let r := s.engRank q
  let t := s.engTurn e r
  let t' : Nat × Nat := if t.1 = q.part ∧ 0 < t.2 then (t.1, t.2 - 1) else (q.part, s.engWeight e r q.part - 1)
  if r < 2 then s else { s with ctl := { s.ctl with turns := Tab.set (0, 0) s.ctl.turns (8 * e + r) t' } }

/-- A request is served at once where its engine grants it a unit, and does not act until then. -/
def State.atEngine (s : State) (q : Option (Nat × EngReq)) (f : State → State) : State :=
  match q with
  | none => f s
  | some (e, r) => if s.engGrants e r then f (s.engServe e r) else s

end Sys2Proof.Machine
end

