-- ==== Sys2Proof/Machine/HubOps.lean ====
section
/-! DEFINITION. The hub's tensor operations, handles and outcomes (R166 to R175, R264 to R267), END (R273), waits that end
(R265, R276), and the write-back, load and refetch events (R175, R193). -/

namespace Sys2Proof.Machine

/-! ## Outcomes and handles -/

/-- Whether an outcome word is a refusal (R266). -/
def isRefusal (w : Nat) : Bool := bits w 8 8 == stRefused

/-- An instruction that returns an outcome at once ends (R265, R266): RD receives it, with WAITED where it had waited under R170 or R123; a
refusal without TRY aborts the task. -/
def State.syncEnd (s : State) (h : Nat) (i : HubInstr) (n w : Nat) : State :=
  let x := s.hub h
  let w := setBits w 17 1 (b2n (bit w 17 || x.waited))
  let s := s.setHub h { x with stalled := false, waited := false }
  if isRefusal w && !i.tr then s.abortCmd n eAborted (detailAt (bits w 0 8) x.pc)
  else s.hubRetN h i.rd w

/-- A write into the main tier, or a hop of a stream's words in a movement engine, whose eighth resend fails aborts the command with E_PARITY
(R192): whether one does is a free value (log 78). -/
def State.orParity (s : State) (n : Nat) (f : State → State) : State :=
  let (v, s) := s.draw 1
  if v = 1 then s.abortCmd n eParity 0 else f s

/-- An instruction begins or goes on waiting: it stays at the program counter. -/
def State.stall (s : State) (h : Nat) : State := s.setHub h { s.hub h with stalled := true }

/-- An instruction begins or goes on waiting under R123 or R170, which its outcome reports in WAITED (R265). -/
def State.stallWaited (s : State) (h : Nat) : State := s.setHub h { s.hub h with stalled := true, waited := true }

/-- An operation under way written. -/
def State.setAop (s : State) (n hd : Nat) (o : AOp) : State :=
  { s with ctl := { s.ctl with ops := Tab.insert s.ctl.ops (16 * n + hd) o } }

/-- An operation is over. -/
def State.dropAop (s : State) (n hd : Nat) : State :=
  { s with ctl := { s.ctl with ops := Tab.erase s.ctl.ops (16 * n + hd) } }

/-- An operation's final outcome reaches its handle (R265, R266): a refusal without TRY aborts the task with the refusal code
and the word address, an abort cause aborts it with its own code. -/
def State.opEnd (s : State) (n hd w : Nat) : State :=
  let s := s.dropAop n hd
  match s.cmd n with
  | none => s
  | some c =>
    match Tab.find c.handles hd with
    | none => s
    | some x =>
      let w := setBits w 17 1 (b2n (bit w 17 || x.waited))
      if bits w 8 8 = stAborted then s.abortCmd n (bits w 0 8) 0
      else if isRefusal w && !x.tryBit then s.abortCmd n eAborted (detailAt (bits w 0 8) x.addr)
      else (s.setCmd n { c with handles := Tab.insert c.handles hd { x with outcome := some w }, runEnd := if x.run then s.work else c.runEnd }).markMet

/-- The handle numbers of a command that are free. -/
def Cmd.freeHandles (c : Cmd) : List Nat := (List.range 16).filter fun k => (Tab.find c.handles k).isNone

/-- An asynchronous operation is issued (R265): a free handle is taken, any of the free ones (its number is a free value, log
13), RD receives it and the instruction retires. With all 16 in use the task aborts with DETAIL 0xFC (R266). -/
def State.issue (s : State) (h : Nat) (i : HubInstr) (n : Nat) (c : Cmd) (run : Bool) (op : HOp) : State × Option Nat :=
  match c.freeHandles with
  | [] => (s.abortCmd n eAborted (detailAt 0xFC (s.hub h).pc), none)
  | k :: ks =>
    let (v, s) := s.draw 16
    let hd := (k :: ks).getD (v % (k :: ks).length) k
    let s := s.setCmd n { c with handles := Tab.insert c.handles hd ⟨run, i.tr, (s.hub h).pc, false, none⟩, issued := c.issued ++ [hd] }
    let s := s.setAop n hd ⟨op, c.part, c.task, c.acceptedAt, false, false, s.work⟩
    (s.hubRetN h i.rd hd, some hd)

/-- An operation that has to wait says so in its handle (R265 WAITED). -/
def State.opWaits (s : State) (n hd : Nat) : State :=
  s.modCmd n fun c => match Tab.find c.handles hd with
    | some x => { c with handles := Tab.insert c.handles hd { x with waited := true } }
    | none => c

/-- An operation has started. -/
def State.opStart (s : State) (n hd : Nat) : State :=
  match s.aop n hd with
  | some o => s.setAop n hd { o with started := true }
  | none => s

/-- The operations under way on one tensor of a partition, with command and handle. -/
def State.opsOn (s : State) (p : Nat) (f : HOp → Bool) : List (Nat × Nat) :=
  (s.ctl.ops.filter fun e => e.2.part == p && f e.2.op).map fun e => (e.1 / 16, e.1 % 16)

/-- Those of them that have started. -/
def State.startedOn (s : State) (p : Nat) (f : HOp → Bool) : List (Nat × Nat) :=
  (s.ctl.ops.filter fun e => e.2.part == p && e.2.started && f e.2.op).map fun e => (e.1 / 16, e.1 % 16)

/-- Several operations end with one outcome word. -/
def State.opsEnd (s : State) (es : List (Nat × Nat)) (w : Nat) : State := es.foldl (fun s e => s.opEnd e.1 e.2 w) s

def HOp.loads (o : HOp) (tid : Nat) : Bool :=
  match o with
  | .load t => t == tid
  | _ => false
def HOp.copies (o : HOp) (tid : Nat) : Bool :=
  match o with
  | .copy _ t => t == tid
  | _ => false
def HOp.flushes (tid : Nat) : HOp → Bool
  | .flush t => t == tid
  | _ => false
def HOp.evicts (tid : Nat) : HOp → Bool
  | .evict t => t == tid
  | _ => false

/-- Whether a step reads or writes a tensor (R322, R326). -/
def State.stepUses (s : State) (x : Step) (p tid : Nat) : Bool :=
  x.part == p && (x.logitTid == tid || x.writes.contains tid || x.phases.any fun e => e.2.any fun d =>
    s.descReads x.task p e.1.plist tid d || s.descWrites x.task p tid d)

/-- Whether a task's own work reads or writes a tensor at this moment: a RUN or step phase with a stream on it, a step, a COPY (R170). -/
def State.taskBusy (s : State) (task p tid : Nat) : Bool :=
  (s.arr.regions.any fun e => e.2.part == p && s.regionTask e.2 == task &&
    (e.2.streams.any (fun st => s.streamReads e.2 tid st || s.streamWrites e.2 tid st) || e.2.fills.contains tid)) ||
  (s.srv.steps.any fun e => e.2.task == task && s.stepUses e.2 p tid) ||
  (s.ctl.ops.any fun e => e.2.task == task && e.2.part == p && (match e.2.op with
      | .copy a b => s.readsThrough p s.chain a tid || b == tid
      | _ => false))

/-- Whether FLUSH, EVICT or FREE of a tensor by a task has to wait (R170). -/
def State.opBlocked (s : State) (task p tid : Nat) (t : Tensor) : Bool :=
  t.state == .loading || s.heldByOther p tid task || s.taskBusy task p tid

/-! ## Loads (R168, R169, R172, R198, R202) -/

/-- The lowest free tag. -/
def State.freeTag (s : State) : Nat :=
  ((List.range (s.pci.dma.length + 1)).find? fun k => (Tab.find s.pci.dma k).isNone).getD s.pci.dma.length

/-- The loads that wait, with that of a tensor replaced or gone. -/
def State.setRead (s : State) (r : HostRead) (x : Option HostRead) : State :=
  { s with pci := { s.pci with reads := s.pci.reads.filterMap fun y => if y.part = r.part ∧ y.tid = r.tid then x else some y } }

/-- A load sends its next request, or none is left, or the windows do not let it send one (R390, R396). -/
def State.sendRead (s : State) (r : HostRead) : State :=
  match (s.tensor r.part r.tid).bind fun t => s.hostReq r.part t r.next with
  | none => s.setRead r none
  | some (o, a, n) =>
    if s.window (r.part + 1) a n false then
      let s := s.setRead r (some { r with next := o + n })
      { s with pci := { s.pci with dma := Tab.insert s.pci.dma s.freeTag ⟨r.part + 1, r.part, r.tid, a, n, true, false, false⟩ } }
    else s.setRead r (some { r with denied := some a })

/-- Whether a load can send its next read now: one within a unit of 4 KiB that it has begun, or the first of one that the engine grants it
(R301, R392). -/
def State.readGoes (s : State) (r : HostRead) : Bool := s.maySend r && (r.next % 4096 != 0 || s.engGrants 2 (s.hostReadReq r))

/-- The host movement engine sends what it may (R390): by rank and turn at each 4 KiB (R301, R392), and of one partition and class the loads
in the order in which they began (DESIGN CHOICE, log 34). The number bounds the requests. -/
def State.sendReads : Nat → State → State
  | 0, s => s
  | n + 1, s => match s.pci.reads.find? s.readGoes with
    | some r => State.sendReads n ((if r.next % 4096 = 0 then s.engServe 2 (s.hostReadReq r) else s).sendRead r)
    | none => s

/-- The host movement engine goes on after a change. -/
def State.hostGoes (s : State) : State := State.sendReads (1025 + 2 * s.pci.reads.length) s

/-- A tensor that is being loaded from host memory is read there, once the function may master the bus (R390, R391). -/
def State.fetchHost (s : State) (p tid : Nat) : State :=
  match s.tensor p tid with
  | none => s
  | some t =>
    if s.backingTier p t = 4 then
      ({ s with pci := { s.pci with reads := s.pci.reads ++ [⟨p, tid, 0, none⟩] } } : State).hostGoes
    else s

/-- What the bulk tier does to a read of a tier: refused where it does not come up, and made to wait until it is up (R198, R202). -/
def State.bulkGate (s : State) (tier : Nat) : Grant :=
  if tier = 3 then (if s.blkAbsent then .refused else if s.blkComing then .waits else .granted) else .granted

/-- The pages of a load, and `more` beside them, are asked for (R169, R189). -/
def State.askLoad (s : State) (req p acc more : Nat) (t : Tensor) : State × Grant :=
  match s.bulkGate (s.backingTier p t) with
  | .granted => s.takePages req p acc (pagesOf t.desc.length + more)
  | g => (s, g)

/-- A load whose pages are granted begins (R167, R168). -/
def State.beginLoad (s : State) (p tid : Nat) : State :=
  ((s.modTensor p tid fun t => { t.gone with state := .loading }).placePages p tid).fetchHost p tid

/-- The number under which the load of a tensor stands that no LOAD, COPY or GLOAD asked for: that of a pointer list, of a tensor that a
TWR, a sink or a STEP writes (MODEL'S OWN; its handle is 0). -/
def loadSeq (p tid : Nat) : Nat := 2 ^ 60 + tkey p tid

/-- A command waits for the load of a tensor, and shares its failure (R168, R172). -/
def State.awaitLoad (s : State) (p tid n : Nat) : State :=
  s.modTensor p tid fun t => if t.waiters.contains n then t else { t with waiters := t.waiters ++ [n] }

/-- A command's write, or its pointer list, needs a tensor loaded first (R152, R172): the load begins, and ends at OPERATION_COMPLETE. -/
def State.loadFor (s : State) (p tid n : Nat) : State :=
  ((s.beginLoad p tid).awaitLoad p tid n).setAop (loadSeq p tid) 0 ⟨.load tid, p, 0, s.time, true, false, s.work⟩

/-- GEAR_LOAD_DIAG of a partition is written as a load ends (R158). -/
def State.gearDiag (s : State) (p check addr : Nat) (cog : Option Nat) (id : Nat) : State :=
  let s := ((s.wr F.GEAR_LOAD_DIAG.CHECK p check).wr F.GEAR_LOAD_DIAG.ADDR p addr).wr F.GEAR_LOAD_DIAG.GEAR_ID p id
  (s.wr F.GEAR_LOAD_DIAG.X p ((cog.map cogX).getD 0)).wr F.GEAR_LOAD_DIAG.Y p ((cog.map cogY).getD 0)

/-- The GEAR_ID of a gear load under way (R158): of the plane it writes, of the image that has passed its checks, else 0. -/
def State.gloadId (s : State) (o : AOp) (tid rect : Nat) (pl : Bool) : Nat :=
  if o.started then ((s.bplane (rectKey rect) pl).gear.map (·.id)).getD 0
  else if o.passed then fieldAt (s.tbytes o.task o.part tid 0 0x14) 0x10 4
  else 0

/-- Gear loads of the partitions that `sel` chooses end by a partition disable or a device-fatal stop: each writes GEAR_LOAD_DIAG, with
the check it had come to (R158), and is gone. -/
def State.endGloads (s : State) (sel : Nat → Bool) : State :=
  let s := s.ctl.ops.foldl (fun s e => match e.2.op with
    | .gload tid rect plane =>
      if sel e.2.part then
        s.gearDiag e.2.part (if e.2.started then 0 else if e.2.passed then 17 else 1) 0 none (s.gloadId e.2 tid rect (plane == 1))
      else s
    | _ => s) s
  { s with ctl := { s.ctl with ops := s.ctl.ops.filter fun e => !(sel e.2.part && (match e.2.op with
    | .gload _ _ _ => true
    | _ => false)) } }

/-- The gear loads that move a tensor as their image or wait for it. -/
def State.imageOps (s : State) (p tid : Nat) : List (Nat × Nat) :=
  (s.ctl.ops.filter fun e => e.2.part == p && !e.2.started && !e.2.passed && (match e.2.op with
    | .gload t _ _ => t == tid
    | _ => false)).map fun e => (e.1 / 16, e.1 % 16)

/-- A load of a tensor fails (R157, R158, R168, R193): the tensor is ABSENT again and its pages go back; the tasks that wait for it abort
with E_PARITY, and TNS_FAULT records the tier of the backing. -/
def State.loadFails (s : State) (p tid : Nat) (t : Tensor) : State :=
  let tier := s.backingTier p t
  let s := s.vacate p tid
  let s : State := { s with pci := { s.pci with
    dma := s.pci.dma.map fun e => if e.2.part = p ∧ e.2.tid = tid then (e.1, { e.2 with dropped := true }) else e
    reads := s.pci.reads.filter fun r => !(r.part == p && r.tid == tid) } }
  let s := s.tnsFault p (tierCause tier) tier 0 tid
  let w := outcomeWord 0 false false stAborted eParity
  let s := s.opsEnd (s.opsOn p (fun o => o.loads tid || o.copies tid)) w
  let s := (s.imageOps p tid).foldl (fun s e => (s.gearDiag p 1 0 none 0).opEnd e.1 e.2 w) s
  t.waiters.foldl (fun s n => s.abortCmd n eParity 0) s

/-- A load of a tensor ends well: every LOAD that shares it completes OK (R168, R170, R184). -/
def State.loadEnds (s : State) (p tid : Nat) : State :=
  let s := s.finishLoad p tid
  let s := match s.tensor p tid with
    | some t => s.mainWritten t 0 t.desc.length
    | none => s
  s.opsEnd (s.opsOn p (HOp.loads · tid)) (okWord false)

/-- A load comes to its end, well or not; one that reads a bulk page that has failed rung 4 fails (R168, R207). -/
def State.loadOver (s : State) (p tid : Nat) (t : Tensor) (ok : Bool) : State :=
  if ok && !s.readsBad p t then s.loadEnds p tid else s.loadFails p tid t

/-! ## Starting the operations of R169 -/

/-- LOAD starts, completes at once, waits or is refused (R169, R170, R189). One that meets a tensor WRITING under an EVICT waits, and then
loads it again (DESIGN CHOICE, log 77: R170 speaks of an eviction, of which EVICT is none). -/
def State.tryLoad (s : State) (n hd p acc tid : Nat) : State :=
  match s.tensor p tid with
  | none => s.opEnd n hd (refusedWord 0 false eShape)
  | some t =>
    if !t.main then s.opEnd n hd (refusedWord 0 false eShape)
    else match t.state with
      | .lost => s.opEnd n hd (outcomeWord 0 false false stAborted eStateLost)
      | .clean => s.opEnd n hd (okWord false)
      | .dirty => s.opEnd n hd (okWord false)
      | .loading => (s.opWaits n hd).opStart n hd
      | .writing =>
        match t.wb with
        | some (.eviction _) => ((s.setTensor p tid { t with awaited := true }).opWaits n hd).opStart n hd
        | some .evict => s.opWaits n hd
        | _ => s.opEnd n hd (okWord false)
      | .absent =>
        if s.backLost p t then s.opEnd n hd (outcomeWord 0 false false stAborted eStateLost)
        else match s.askLoad (reqOf n hd) p acc 0 t with
        | (s, .granted) => (s.beginLoad p tid).opStart n hd
        | (s, .waits) => s
        | (s, .refused) => s.opEnd n hd (refusedWord 0 false eNoSpace)

/-- FLUSH starts, completes at once, waits or is refused (R169, R170). -/
def State.tryFlush (s : State) (n hd p task tid : Nat) : State :=
  match s.tensor p tid with
  | none => s.opEnd n hd (refusedWord 0 false eShape)
  | some t =>
    if !t.main then s.opEnd n hd (refusedWord 0 false eShape)
    else if t.desc.back = 0 then s.opEnd n hd (refusedWord tid false eConflict)
    else if t.state = .lost then s.opEnd n hd (outcomeWord 0 false false stAborted eStateLost)
    else if t.state = .writing then s.opStart n hd
    else if s.opBlocked task p tid t then s.opWaits n hd
    else if t.state = .dirty then (s.startWrite p tid .flush).opStart n hd
    else s.opEnd n hd (okWord false)

/-- EVICT starts, completes at once, waits or is refused (R169, R170). -/
def State.tryEvict (s : State) (n hd p task tid : Nat) : State :=
  match s.tensor p tid with
  | none => s.opEnd n hd (refusedWord 0 false eShape)
  | some t =>
    if !t.main then s.opEnd n hd (refusedWord 0 false eShape)
    else if t.desc.back = 0 then s.opEnd n hd (refusedWord tid false eConflict)
    else if t.state = .lost then s.opEnd n hd (outcomeWord 0 false false stAborted eStateLost)
    else if t.state = .writing ∨ s.opBlocked task p tid t then s.opWaits n hd
    else match t.state with
      | .dirty => (s.startWrite p tid .evict).opStart n hd
      | .clean => (s.vacate p tid).opEnd n hd (okWord false)
      | _ => s.opEnd n hd (okWord false)

/-- The pages of a tensor not yet in a task's shadow of it. -/
def State.shadowNeed (s : State) (task p tid : Nat) (t : Tensor) : Nat :=
  pagesOf t.desc.length - ((s.taskShadow task p tid).map (·.pages.length)).getD 0

/-- COPY is checked and its shadow pages reserved (R172, R173, R264): a destination that is ABSENT with a backing is first
loaded. What its source and its destination read from the bulk tier meets R198 and R202. -/
def State.tryCopy (s : State) (n hd p task acc src dst : Nat) : State :=
  match s.tensor p src, s.tensor p dst with
  | some a, some b =>
    if !(a.main && b.main && b.rw_ && a.desc.length == b.desc.length) then s.opEnd n hd (refusedWord 0 false eShape)
    else if s.lostNow p a ∨ s.lostNow p b then s.opEnd n hd (outcomeWord 0 false false stAborted eStateLost)
    else if a.state = .loading ∨ b.state = .loading then s
    else if b.state = .writing then s.opWaits n hd
    else
      let gate := s.bulkGate (s.sourceTier p s.chain src)
      if gate = .refused then s.opEnd n hd (refusedWord 0 false eNoSpace)
      else if gate = .waits then s
      else
        let shadow := s.shadowNeed task p dst b
        match (if b.state = .absent then s.askLoad (reqOf n hd) p acc shadow b else s.takePages (reqOf n hd) p acc shadow) with
        | (s, .granted) =>
          let s := s.modTask task fun w => { w with reserved := w.reserved + shadow }
          let s := if b.state = .absent then s.beginLoad p dst else s
          s.opStart n hd
        | (s, .waits) => s
        | (s, .refused) => s.opEnd n hd (refusedWord 0 false eNoSpace)
  | _, _ => s.opEnd n hd (refusedWord 0 false eShape)

/-- HLIB is checked (R264): a main-home RO tensor of at most 32 KiB. -/
def State.tryHlib (s : State) (n hd p tid : Nat) : State :=
  match s.tensor p tid with
  | some t =>
    if !(t.main && !t.rw_ && decide (t.desc.length ≤ 32768)) then s.opEnd n hd (refusedWord 0 false eShape)
    else if s.lostNow p t then s.opEnd n hd (outcomeWord 0 false false stAborted eStateLost)
    else if t.state = .loading then s
    else match s.bulkGate (s.sourceTier p s.chain tid) with
      | .granted => s.opStart n hd
      | .waits => s
      | .refused => s.opEnd n hd (refusedWord 0 false eNoSpace)
  | none => s.opEnd n hd (refusedWord 0 false eShape)

/-- An operation that has not started tries to start. -/
def State.tryOp (s : State) (n hd : Nat) (o : AOp) : State :=
  match o.op with
  | .load t => s.tryLoad n hd o.part o.acc t
  | .flush t => s.tryFlush n hd o.part o.task t
  | .evict t => s.tryEvict n hd o.part o.task t
  | .copy a b => s.tryCopy n hd o.part o.task o.acc a b
  | .hlib t => s.tryHlib n hd o.part t
  | _ => s

/-- An asynchronous tensor operation issues and tries to start. -/
def asyncExec (h opc : Nat) (s : State) (f : HubInstr → HOp) : Result :=
  hubCmdExec h opc s fun i n c =>
    match s.issue h i n c false (f i) with
    | (s, some hd) => match s.aop n hd with
      | some o => s.tryOp n hd o
      | none => s
    | (s, none) => s

/-- LOAD starts reading a main-home tensor whole from its backing (R169). -/
def execLoad (h : HubId) (s : State) : Result := asyncExec h 0x21 s fun i => .load (s.tidOf h i.ra)
/-- FLUSH writes a DIRTY main-home tensor back (R169). -/
def execFlush (h : HubId) (s : State) : Result := asyncExec h 0x22 s fun i => .flush (s.tidOf h i.ra)
/-- EVICT writes back a dirty tensor and frees its pages (R169). -/
def execEvict (h : HubId) (s : State) : Result := asyncExec h 0x23 s fun i => .evict (s.tidOf h i.ra)
/-- COPY starts a whole-tensor copy into shadows (R264). -/
def execCopy (h : HubId) (s : State) : Result := asyncExec h 0x25 s fun i => .copy (s.tidOf h i.ra) (s.tidOf h i.rb)
/-- HLIB loads the routine area of every hub of the partition (R264). -/
def execHlib (h : HubId) (s : State) : Result := asyncExec h 0x58 s fun i => .hlib (s.tidOf h i.ra)

/-! ## DEFINE, FREE -/

/-- Bytes of a hub's scratch, addresses modulo 64 KiB (R264). -/
def Hub.scratchN (x : Hub) (a n : Nat) : List Byte := (List.range n).map fun k => x.scratch.read ((a + k) % 65536)

/-- DEFINE checks and registers a tensor descriptor (R166). The E_CONFLICT of TID 0 names owner 0 (DESIGN CHOICE, log 77: no tensor is
there to name). A bulk address is E_NOSPACE while the bulk tier does not come up (R198), and waits until it is up (R202). -/
def execDefine (h : HubId) (s : State) : Result :=
  hubCmdExec h 0x20 s fun i n c =>
    let b := (s.hub h).scratchN (((s.hub h).reg i.ra).toNat + i.imm) 64
    let d := Desc.parse b
    let p := c.part
    let key := tkey p d.tid
    if d.tid = 0 then s.syncEnd h i n (refusedWord 0 false eConflict)
    else if (s.tensor p d.tid).isSome then s.syncEnd h i n (refusedWord d.tid false eConflict)
    else match s.kvReserved p d.tid with
    | some b => s.syncEnd h i n (refusedWord (batchOwner b) false eConflict)
    | none =>
      if s.descOk d b = false then s.syncEnd h i n (refusedWord 0 false eShape)
      else if s.bulkGate (if d.back = 2 ∨ d.home = 3 then 3 else 0) = .refused then s.syncEnd h i n (refusedWord 0 false eNoSpace)
      else if s.bulkGate (if d.back = 2 ∨ d.home = 3 then 3 else 0) = .waits then s.stall h
      else if s.backingOk p d = false then s.syncEnd h i n (refusedWord 0 false eShape)
      else if s.tableFree = 0 then s.syncEnd h i n (refusedWord 0 false eNoSpace)
      else
        match (if d.home = 2 ∧ d.back = 0 then s.takePages (reqOf n 16) p c.acceptedAt (pagesOf d.length) else (s, .granted)) with
        | (s, .waits) => s.stall h
        | (s, .refused) => s.syncEnd h i n (refusedWord 0 false eNoSpace)
        | (s, .granted) =>
          match (if d.home = 1 ∧ d.back = 0 then s.nearOwner key d else none) with
          | some o => s.syncEnd h i n (refusedWord o false eConflict)
          | none =>
            let s := if d.home = 1 ∧ d.back = 0 then (s.displace key d).zeroBanks d.nearRect d.nearBase d.nearLen else s
            let s := s.setTensor p d.tid (d.fresh p s.time [])
            (if d.home = 2 ∧ d.back = 0 then s.placePages p d.tid else s).syncEnd h i n (okWord false)

/-- The lowest TID of the partition that names tensor `tid` as its backing (R169). -/
def State.dependant (s : State) (p tid : Nat) : Option Nat :=
  (s.mem.tensors.find? fun e => e.2.part == p && e.2.desc.back == 1 && e.2.desc.backAddr == tid).map fun e => e.1 % 2 ^ 32

/-- FREE frees a tensor's pages without write-back and removes its descriptor (R169, R170). -/
def execFree (h : HubId) (s : State) : Result :=
  hubCmdExec h 0x24 s fun i n c =>
    let p := c.part
    let tid := s.tidOf h i.ra
    match s.tensor p tid with
    | none => s.syncEnd h i n (refusedWord 0 false eShape)
    | some t =>
      match s.dependant p tid with
      | some o => s.syncEnd h i n (refusedWord o false eConflict)
      | none =>
        if t.state = .writing ∨ s.opBlocked c.task p tid t then s.stallWaited h
        else
          let s := s.modTask c.task fun w => { w with shadows := Tab.erase w.shadows (tkey p tid) }
          (s.dropTensor p tid).syncEnd h i n (okWord false)

/-! ## Operations that finish -/

/-- HLIB's words reach the routine area of every hub of the partition (R243, R264). -/
def State.hlibEnds (s : State) (n hd p tid : Nat) (t : Tensor) : State :=
  let bs := s.tbytes 0 p tid 0 t.desc.length
  let s := (s.partHubs p).foldl (fun s g =>
    let x := s.hub g
    let im := (List.range (t.desc.length / 8)).foldl (fun m k => Tab.set 0 m k (BitVec.ofNat 64 (fieldAt bs (8 * k) 8))) x.imem
    s.setHub g { x with imem := im }) s
  s.opEnd n hd (okWord false)

/-- The bytes of a COPY's source go into the task's shadow of its destination, and the COPY ends (R172, R264). -/
def State.copyBytes (s : State) (n hd : Nat) (o : AOp) (src dst : Nat) (b : Tensor) : State :=
  ((s.mainRead o.part src 0 b.desc.dataLen).shadowWrite o.task o.part dst 0
    (s.tbytes o.task o.part src 0 b.desc.dataLen)).opEnd n hd (okWord false)

/-- A started COPY comes to its end (R172, R264): a destination that it loads is loaded; then the bytes go into the task's shadow. One whose
destination has been evicted meanwhile starts again. What it reads of the bulk tier and of host memory meets what such a read meets (R207,
R390, R391, R395). -/
def State.copyGoes (s : State) (n hd : Nat) (o : AOp) (src dst : Nat) (ok : Bool) : State :=
  let fails (s : State) : State := s.opEnd n hd (outcomeWord 0 false false stAborted eParity)
  let copies (b : Tensor) (s : State) : State :=
    s.readPlaces o.part src (s.wholeSources o.part src) fails fun s => s.copyBytes n hd o src dst b
  match s.tensor o.part dst with
  | none => fails s
  | some b =>
    if b.state = .loading then
      if ok && !s.readsBad o.part b then copies b (s.loadEnds o.part dst) else s.loadFails o.part dst b
    else if !ok then fails s
    else if b.state = .absent then s.setAop n hd { o with started := false }
    else copies b s

/-- An asynchronous operation of a tensor goes on: one that has not started tries to start, one that has started ends, well or
not (R169, R193, R265). FLUSH and EVICT end with their write-back, or where the tensor has become LOST (R194). What needs a channel that is
paused waits (R236). -/
def State.opGoes (s : State) (n hd : Nat) (o : AOp) (ok : Bool) : State :=
  let lost (s : State) : State := s.opEnd n hd (outcomeWord 0 false false stAborted eStateLost)
  let writeBack (s : State) (tid : Nat) : State := match s.tensor o.part tid with
    | some t => if t.state = .lost then lost s else s
    | none => s.opEnd n hd (refusedWord 0 false eShape)
  if !o.started then s.tryOp n hd o
  else match o.op with
    | .load tid =>
      match s.tensor o.part tid with
      | some t => match t.state with
        | .loading => if (s.tensorChans t 0 t.desc.length).any s.paused then s else s.loadOver o.part tid t ok
        | .absent => s.setAop n hd { o with started := false }
        | .writing => s
        | .lost => lost s
        | _ => s.opEnd n hd (okWord false)
      | none => s.opEnd n hd (refusedWord 0 false eShape)
    | .flush tid => writeBack s tid
    | .evict tid => writeBack s tid
    | .copy src dst =>
      if s.mainPaused o.part src 0 (((s.tensor o.part src).map (·.desc.length)).getD 0) then s else s.copyGoes n hd o src dst ok
    | .hlib tid =>
      match s.tensor o.part tid with
      | some t =>
        if s.mainPaused o.part tid 0 t.desc.length then s
        else if ok then
          s.readPlaces o.part tid (s.wholeSources o.part tid) (fun s => s.opEnd n hd (outcomeWord 0 false false stAborted eParity))
            fun s => (s.mainRead o.part tid 0 t.desc.length).hlibEnds n hd o.part tid t
        else s.opEnd n hd (outcomeWord 0 false false stAborted eParity)
      | none => s.opEnd n hd (outcomeWord 0 false false stAborted eParity)
    | _ => s

/-- Whether the tensor that an EVICT has written back is held by now by something outside the EVICT's task, a window slot among them (R170,
R386). -/
def State.evictHeld (s : State) (p tid : Nat) : Bool :=
  s.ctl.ops.any fun e => e.2.part == p && e.2.started && e.2.op.evicts tid && s.heldByOther p tid e.2.task

/-- An EVICT whose tensor is held as its write-back ends waits again (R170). -/
def State.evictAgain (s : State) (p tid : Nat) : State :=
  (s.startedOn p (HOp.evicts tid)).foldl (fun s e => match s.aop e.1 e.2 with
    | some o => (s.setAop e.1 e.2 { o with started := false }).opWaits e.1 e.2
    | none => s) s

/-- A write-back has ended well (R169, R175, R189): the tensor is CLEAN; an eviction or EVICT frees its pages, but not an eviction whose
tensor is held or awaited by now, which is recorded as EVICT_CLAIMED. -/
def State.wroteBack (s : State) (p tid : Nat) (t : Tensor) : State :=
  let s := s.modTensor p tid fun t => { t with state := .clean, wb := none, landed := false }
  match t.wb with
  | some (.eviction _) =>
    let s := s.count F.POOL_EVICT.WRITTEN p 1
    if s.heldAny p tid || t.awaited then s.tnsFault p 8 2 0 tid else s.evictNow p tid
  | some .evict => if s.evictHeld p tid then s else s.vacate p tid
  | _ => s

/-- The operations that ended with a write-back take its outcome (R169, R170): a FLUSH that shares it, the EVICT that asked for it; a LOAD for
whose sake an eviction is given up completes OK. -/
def State.writersEnd (s : State) (p tid : Nat) (t : Tensor) (w : Nat) : State :=
  let s := s.opsEnd (s.startedOn p (HOp.flushes tid)) w
  let s := if t.wb ≠ some .evict then s
    else if isRefusal w = false ∧ s.evictHeld p tid = true then s.evictAgain p tid
    else s.opsEnd (s.startedOn p (HOp.evicts tid)) w
  if t.awaited then s.opsEnd (s.startedOn p (HOp.loads · tid)) (okWord false) else s

/-- WRITE_BACK_DONE (R169, R170, R175, R189): the bytes stand in the backing and the tensor is CLEAN, or the write-back failed
and it stays DIRTY with WRITEBACK_FAILED recorded. Then a FLUSH completes; an EVICT frees the pages, and so does an eviction. -/
def execWriteBackDone (p : PartId) (tid : Word32) (ok : Bool) (s : State) : Result :=
  let p := p.val
  let tid := tid.toNat
  s.ifLive <|
    match s.tensor p tid with
    | none => s
    | some t =>
      if t.state ≠ .writing ∨ s.backingReady p t = false ∨ (s.tensorChans t 0 t.desc.length).any s.paused = true then s
      else s.atEngine (s.backReq p t) fun s => match (if ok then (s.mainRead p tid 0 t.desc.length).writeBack p t else none) with
        | some s => (s.wroteBack p tid t).writersEnd p tid t (okWord false)
        | none =>
          let s := s.setTensor p tid { t with state := .dirty, wb := none, landed := false }
          (s.tnsFault p 7 2 0 tid).writersEnd p tid t (refusedWord 0 false eNoSpace)

/-! ## END and waits that end -/

/-- A hub that leaves its continuing queue for other work sends it back to be queued (R306). -/
def State.dropCont (s : State) (h : Nat) : State :=
  match (s.hub h).cont with
  | some q => (s.setHub h { s.hub h with cont := none }).setQueue q { (s.queue q) with sliceUsed := 0 }
  | none => s

/-- A hub that no longer serves its continuing queue's class, since LEAD_HUBS rose, sends the queue back to be queued (R303, R304, R306). -/
def State.dropUnserved (s : State) (q : Nat) : State :=
  (List.range 8).foldl (fun s h =>
    if (s.hub h).cont == some q && !s.serves (qPart q) h (s.qClass q) then s.dropCont h else s) s

/-- The first online hub of a queue's partition that serves its class: where an entry goes that R298 left waiting for one. -/
def State.anyHub (s : State) (q : Nat) : Option Nat :=
  (s.partHubs (qPart q)).find? fun g => s.hubOnline g && s.serves (qPart q) g (s.qClass q)

/-- A hub that has ended a command of a queue goes on with its next one, ready now, while the slice lasts; another queue
that it was to go on with is queued again (R306). -/
def State.yieldHub (s : State) (h q : Nat) : State :=
  match s.readyCmd q with
  | some (m, _) =>
    if (s.queue q).sliceUsed < s.rd F.HUB_PART_CFG.SLICE_US (qPart q) * 1000 ∧ s.serves (qPart q) h (s.qClass q) = true ∧
        s.hubOnline h = true then
      let s := (s.dropCont h).setQueue q { s.queue q with readyTime := s.time, readySeq := m }
      s.setHub h { s.hub h with cont := some q }
    else s.setQueue q { s.queue q with sliceUsed := 0 }
  | none => s.setQueue q { s.queue q with sliceUsed := 0 }

/-- A command ends (R256, R258, R261, R273, R306): its hub is free, its registers and handles are dead; its queue keeps the
hub while its slice lasts and its next command is ready; the last command of a task completes the task. -/
def State.endCommand (s : State) (h n : Nat) : State :=
  match s.cmd n with
  | none => s
  | some c =>
    let s := (s.addSlice c).leadHold c
    let x := s.hub h
    let s := s.setHub h { x with cur := none, wait := none, regs := [], pc := 0, stalled := false, waited := false }
    let s := s.setCmd n { c with stage := .ended, handles := [], issued := [], endedAt := s.time }
    let q := c.queue
    let s := s.setQueue q { s.queue q with running := false, parked := false }
    let s := if c.hdr.link then (s.modTask c.task fun t => { t with linkEnd := some s.time }).moveHead q else s.completeTask c.task
    s.yieldHub h q

/-- HUB_END (R273): END waits for every handle, then ends the command. -/
def execHubEnd (h : HubId) (s : State) : Result :=
  hubCmdExec h 0x13 s fun _ n c =>
    if c.settled then s.endCommand h n else s.enterWait h .finish 0 timeNone

/-- The word a wait returns when it is met. -/
def Cmd.waitWord (c : Cmd) (w : HubWait) : Nat :=
  match w.kind with
  | .handle hd => (c.outcome hd).getD (okWord false)
  | .fence => c.fenceWord
  | _ => 0

/-- The word a wait returns when its limit runs out: TIMEOUT, or 1 for EVWAIT (R264, R265). -/
def HubWait.timeoutWord (w : HubWait) : Nat :=
  match w.kind with
  | .event _ _ => 1
  | _ => outcomeWord 0 false true stOK 0

/-- The handle that a met wait frees (R265). -/
def Cmd.afterWait (c : Cmd) (w : HubWait) : Cmd :=
  match w.kind with
  | .handle hd => c.freeHandle hd
  | _ => c

/-- A hub's running command leaves its wait with a word for its destination register. -/
def State.leaveWait (s : State) (h n : Nat) (c : Cmd) (w : HubWait) (word : Nat) (met : Bool) : State :=
  let c' := c.exclude (c.waitSpan w s.work).1 (c.waitSpan w s.work).2
  let s := s.setCmd n (if met then c'.afterWait w else c')
  if w.kind = .finish then s.endCommand h n
  else
    let x := { s.hub h with wait := none }
    s.setHub h (x.setReg w.rd (BitVec.ofNat 64 word))

/-- A handler on a hub with no command leaves its event wait with a word for its destination register (R276, R409). -/
def State.leaveIdle (s : State) (h : Nat) (w : HubWait) (word : Nat) : State :=
  let x := { s.hub h with wait := none }
  s.setHub h (x.setReg w.rd (BitVec.ofNat 64 word))

/-- HANDLE_WAIT_DONE (R265, R268, R273, R276): the wait of the hub's command, or of one it has parked, was met before its limit ran out or in
the same cycle. -/
def execHandleWaitDone (h : HubId) (slot : Option Nat) (s : State) : Result :=
  s.ifLive <|
    let x := s.hub h
    match slot with
    | none =>
      match s.curCmd h, x.wait with
      | some (n, c), some w => if w.inTime then s.leaveWait h n c w (c.waitWord w) true else s
      | none, some w => if w.inTime then s.leaveIdle h w 0 else s
      | _, none => s
    | some k =>
      match x.park[k]? with
      | none => s
      | some e =>
        match s.cmd e.seq, e.wait, e.result with
        | some c, some w, none =>
          if w.inTime then
            (s.setHub h { x with park := x.park.set k { e with result := some (s.time, c.waitWord w) } }).setCmd e.seq (c.afterWait w)
          else s
        | _, _, _ => s

/-- HANDLE_WAIT_TIMEOUT (R265, R272, R276): the limit of a wait has run out and the wait had not been met by then. -/
def execHandleWaitTimeout (h : HubId) (slot : Option Nat) (s : State) : Result :=
  s.ifLive <|
    let x := s.hub h
    match slot with
    | none =>
      match s.curCmd h, x.wait with
      | some (n, c), some w =>
        if w.limit ≠ timeNone ∧ w.limit ≤ s.time ∧ w.inTime = false then s.leaveWait h n c w w.timeoutWord false else s
      | none, some w => if w.limit ≠ timeNone ∧ w.limit ≤ s.time ∧ w.inTime = false then s.leaveIdle h w w.timeoutWord else s
      | _, none => s
    | some k =>
      match x.park[k]? with
      | none => s
      | some e =>
        match s.cmd e.seq, e.wait, e.result with
        | some _, some w, none =>
          if w.limit ≠ timeNone ∧ w.limit ≤ s.time ∧ w.inTime = false then
            s.setHub h { x with park := x.park.set k { e with result := some (s.time, w.timeoutWord) } }
          else s
        | _, _, _ => s

/-- COMMAND_WATCHDOG (R309, R326): counted time of a command, or of a step's phase, beyond 4 × CMD_MAXLEN aborts the task with
DETAIL 0xFB. -/
def execCommandWatchdog (seq : Nat) (s : State) : Result :=
  s.ifLive <|
    match s.cmd seq with
    | some c =>
      if (c.stage = .running ∨ c.stage = .parked) ∧ c.hdr.kind = 0 ∧ 0 < s.overdue seq c then
        s.abortCmd seq eAborted 0xFB
      else s
    | none => s

end Sys2Proof.Machine
end

