-- ==== Sys2Proof/Machine/Stored.lean ====
section
/-! DEFINITION. Stored-data failures in the main tier (R193, R194, R229, R230), the triggers that retire a channel (R237), accesses that the
controllers hold (R236), what a window slot of BAR2 reads (R387, R388), and the hub's TRD and TWR (R264). -/

namespace Sys2Proof.Machine

/-! ## What a fill captures as it is read (R219) -/

/-- A granule is captured: its bytes stand in the tensor's pages; with the last one the load is complete (R219). -/
def State.capture (s : State) (p tid g : Nat) : State :=
  match s.tensor p tid with
  | none => s
  | some t =>
    if t.granules.contains g then s
    else
      let bs := (List.range (min 4096 (t.desc.dataLen - g * 4096))).map fun i => ((s.backSource p t (g * 4096 + i)).map (s.byteAt 0 p)).getD 0
      let t := { t with granules := g :: t.granules, data := t.data.writeN (g * 4096) bs }
      let s := s.setTensor p tid t
      if (List.range (ceilDiv t.desc.dataLen 4096)).all t.granules.contains then s.loadEnds p tid
      else s.mainWritten t (g * 4096) bs.length

/-- What flit `f` of token `t` of a fill's stream captures as it is read (R219). -/
def State.captureFlit (s : State) (k p : Nat) (d : StreamDesc) (x : Tensor) (sh : List ShapeEntry) (pl t f : Nat) : State :=
  let eb := elemBits x.desc.etype
  let per := if eb = 0 then 0 else 256 / eb
  let len := s.walkLen k p d x.desc.extents sh pl
  if !x.near then s
  else ((List.range per).filterMap fun i =>
    let j := f * per + i
    let n := t * d.tokenElems + j
    if j < d.tokenElems ∧ n < len then
      match s.place k p d x sh pl n with
      | .at_ tid o => s.captures p s.chain tid (o / 8)
      | .zero _ => none
    else none).dedup.foldl (fun s e => s.capture p e.1 e.2) s

/-! ## Retirement triggers (R237) -/

/-- The channels that are retired, being retired, or due to be (R237). -/
def State.retiring (s : State) : Nat :=
  ((List.range 64).filter fun c => s.chanState c == cRetired || s.chanState c == cMigrating || (s.chan c).retire).length

/-- A trigger of R237: the channel is to be retired, unless four already are. -/
def State.retireTrigger (s : State) (c : Nat) : State :=
  if s.chanState c = cMigrating ∨ s.chanState c = cRetired ∨ (s.chan c).retire = true then s
  else if 4 ≤ s.retiring then (s.put F.LPX_CH_STATE.RETIRE_PEND c true).raise 136
  else s.setChan c { s.chan c with retire := true }

/-! ## Stored-data failures (R193, R194, R229, R230) -/

/-- A pool page is put on the retired-page list, charged to the channels of its failures (R230, R237). It leaves the pool as its tensor gives
it up. -/
def State.retirePage (s : State) (n : Nat) (chs : List Nat) : State :=
  if s.lpx.retired.contains n then s
  else
    let s : State := { s with lpx := { s.lpx with retired := n :: s.lpx.retired } }
    chs.dedup.foldl (fun s c =>
      let s := s.count F.LPX_CH_STATE.RETIRED_PAGES c 1
      if 64 ≤ s.rd F.LPX_CH_STATE.RETIRED_PAGES c then s.retireTrigger c else s) (s.count F.LPX_PG_CNT.RETIRED 0 1)

/-- A stored-data failure of 64-bit word `w` of page `page` of a tensor is logged with the channel and rank it lies on (R226, R229); the
page is retired on its second one, and with the pages that failed before where it falls into a repair of the tensor (R193, R230). -/
def State.pageFail (s : State) (t : Tensor) (page w : Nat) : State :=
  match t.frames[page]? with
  | none => s
  | some n =>
    let e := s.granule 5 n (w / 128)
    let c := mainChan e.1 (e.2 * 1024)
    let second := (Tab.find s.lpx.failed n).isSome || t.repairing
    let i := s.rd F.LPX_PG_CNT.NEXT 0
    let s := (((((s.setReg .LPX_PG_LOG i 0).put F.LPX_PG_LOG.VALID i true).put F.LPX_PG_LOG.RETIRED i second).wr
      F.LPX_PG_LOG.CHANNEL i c).wr F.LPX_PG_LOG.RANK i (s.rankOf (mainOff e.1 (e.2 * 1024)))).wr F.LPX_PG_LOG.PAGE i n
    let s := s.wr F.LPX_PG_CNT.NEXT 0 (i + 1)
    if second then
      let s := s.retirePage n ((Tab.find s.lpx.failed n).toList ++ [c])
      if t.repairing then t.struck.foldl (fun s m => s.retirePage m (Tab.find s.lpx.failed m).toList) s else s
    else { s with lpx := { s.lpx with failed := Tab.insert s.lpx.failed n c } }

/-- What the failed word of a tensor with no clean copy is read as is a free value (R194): word `w` of page `page` of its copy in the main
tier, or a word of its range in a bank of its rectangle. -/
def State.garble (s : State) (p tid : Nat) (t : Tensor) (page w : Nat) : State :=
  let (v, s) := s.draw 64
  if t.near then
    let cs := rectCogs t.desc.nearRect
    let c := cs.getD ((page * 8192 + w) % max 1 cs.length) 0
    let o := t.desc.nearBase + w * 8 % max 1 t.desc.nearLen
    s.setCog c { s.cog c with bank := (s.cog c).bank.writeN o (toBytes 8 v) }
  else s.modTensor p tid fun t => { t with data := t.data.writeN (page * 65536 + w * 8) (toBytes 8 v) }

/-- A repair fails (R193): the tasks whose streams hold abort with E_PARITY, and the tensor becomes ABSENT. -/
def State.repairFails (s : State) (p tid cause tier : Nat) : State :=
  let s := (s.holders p tid).foldl (fun s n => s.abortCmd n eParity 0) s
  (s.vacate p tid).tnsFault p cause tier 0 tid

/-- A tensor with no clean copy is struck as command `seq` reads it: the request that owns it is aborted alone, or the reading task (R194). -/
def State.strikeRead (s : State) (p tid : Nat) (t : Tensor) (page w seq : Nat) : State :=
  let s := (s.garble p tid t page w).strike p tid
  if t.desc.owner = 0 then s.abortCmd seq eStateLost 0 else s

/-- A word of a CLEAN main-home tensor with a backing fails (R193): the reading stream holds and the tensor is refetched, unless a repair
of it runs already. -/
def State.repair (s : State) (p tid : Nat) (t : Tensor) (page seq : Nat) : State :=
  if t.repairing then (s.repairFails p tid 2 2).abortCmd seq eParity 0
  else
    let fs := t.frames[page]?.toList
    (s.modTensor p tid fun t => { t with repairing := true, struck := fs }).holdStreams p tid (fun r => r.seq == seq) true

/-- A word of page `page` of a tensor fails as command `seq` reads it, 0 where none does (R193, R194, R229, R230, R388); which word of the
page it is is a free value. -/
def State.storedFailure (s : State) (p tid page seq : Nat) : State :=
  match s.tensor p tid with
  | none => s
  | some t =>
    if t.bulk then (s.tnsFault p 6 3 0 tid).abortCmd seq eParity 0
    else if t.state.resident then
      let (w, s) := s.draw 13
      if t.near then
        if t.rw_ then s.strikeRead p tid t page w seq
        else ((s.modTensor p tid Tensor.gone).tnsFault p 2 1 0 tid).abortCmd seq eParity 0
      else if t.state = TState.clean ∧ t.desc.back ≠ 0 then (s.pageFail t page w).repair p tid t page seq
      else (s.pageFail t page w).strikeRead p tid t page w seq
    else if t.state = TState.lost then s
    else
      let tier := s.backingTier p t
      if tier = 3 ∨ tier = 4 then
        let s := (s.tnsFault p (tierCause tier) tier 0 tid).abortCmd seq eParity 0
        if t.state = TState.loading ∧ t.main = true then s.loadFails p tid t else s
      else s

/-! ## Reads of BAR2 (R387, R388) and accesses that are held (R236) -/

/-- A read of BAR2 meets a word that has failed and is being refetched (R388): a page that a stored-data failure has struck. -/
def State.meetsFailure (s : State) (p tid o len : Nat) : Bool :=
  match s.tensor p tid with
  | some t => t.repairing && (List.range len).any fun i => (t.frames[(o + i) / 65536]?).any t.struck.contains
  | none => false

/-- Poisoned data answers a read (R388). The manual logs that under R397 and gives no KIND for it: a free value (log 67). -/
def State.poison (s : State) (f off : Nat) : State :=
  let i := s.rd F.PCI_ERR_POS.NEXT 0
  let (k, s) := (s.pciEvent 0 f off).draw 5
  (s.wr F.PCI_ERR_LOG.KIND i k).sendTlp f 2 (.readPoisoned f)

/-- What a slot's tensor answers (R387, R388): its committed bytes, or poisoned data where the read meets a failure, one that is under repair
or, as a free value says, one that this read finds, which is then handled as a read with no reading task. -/
def State.readSlot (s : State) (f off p tid o len : Nat) : State :=
  match s.tensor p tid with
  | none => s.sendTlp f 2 (.readData f [])
  | some t =>
    if len = 0 then s.sendTlp f 2 (.readData f [])
    else
      let s := s.busErrors false (s.burstsOf t.frames o len)
      let (v, s) := s.draw 1
      if s.meetsFailure p tid o len then s.poison f off
      else if v = 1 then (s.poison f off).storedFailure p tid (o / 65536) 0
      else s.sendTlp f 2 (.readData f (t.data.readN o len))

/-- A read of BAR2 through a slot: it answers, or waits in the controllers while a channel that it needs is paused or others wait for it
(R236). -/
def State.readAsk (s : State) (f off p tid o len : Nat) : State :=
  let chs := ((s.tensor p tid).map fun t => s.tensorChans t o len).getD []
  if s.mainWaits (heldReq s.lpx.heldNo) chs then s.holdMain chs (.read f off p tid o len) else s.readSlot f off p tid o len

/-- The channels that a held access needs at this moment. -/
def State.heldChans (s : State) (x : MainReq) : List Nat :=
  match x with
  | .read _ _ p tid o len => ((s.tensor p tid).map fun t => s.tensorChans t o len).getD []
  | .put p tid o bs _ => ((s.tensor p tid).map fun t => s.tensorChans t o bs.length).getD []

/-- A held access is carried out. -/
def State.heldDo (s : State) (x : MainReq) : State :=
  match x with
  | .read f off p tid o len => s.readSlot f off p tid o len
  | .put p tid o bs ring => if ring then s.ringPut p tid o bs else s.tensorPut p tid o bs

/-- The accesses that the controllers hold go on, each once none came before it on its channels. The number bounds them. -/
def State.heldGo : Nat → State → State
  | 0, s => s
  | n + 1, s => match s.lpx.held.find? fun e => !s.mainWaits (heldReq e.1) (s.heldChans e.2) with
    | none => s
    | some (k, x) =>
      let s : State := { s with lpx := { s.lpx with held := s.lpx.held.filter fun e => e.1 != k } }
      State.heldGo n ((s.leaveMain (· == heldReq k)).heldDo x)

/-- The accesses that the controllers hold go on after a change (R236). -/
def State.mainGo (s : State) : State := State.heldGo s.lpx.held.length s

/-- Every access that the controllers hold, and every place in their order, is gone. -/
def State.dropHeld (s : State) : State :=
  ({ s with lpx := { s.lpx with held := [] } } : State).leaveMain fun _ => true

/-! ## TRD and TWR (R264) -/

/-- TRD reads bytes of a resident main-home tensor into hub scratch (R264), once no channel that it needs is paused and no access to it
came before (R236), and the main tier's engine grants it (R301). -/
def execTrd (h : HubId) (s : State) : Result :=
  hubCmdExec h 0x26 s fun i n c =>
    let tid := s.tidOf h i.ra
    let off := ((s.hub h).reg i.rb).toNat
    let len := (i.aux + 1) * 32
    match s.tensor c.part tid with
    | none => s.syncEnd h i n (refusedWord 0 false eShape)
    | some t =>
      if t.state = .lost then s.abortCmd n eStateLost 0
      else if !(t.main && t.state.resident && decide (off + len ≤ t.desc.length)) then s.syncEnd h i n (refusedWord 0 false eShape)
      else if s.mainWaits (hubReq h) (s.readChans c.part tid off len) then (s.waitMain (hubReq h) (s.readChans c.part tid off len)).stall h
      else if s.engGrants 0 (s.hubAsk n c) = false then s.stall h
      else
        let bs := s.tbytes c.task c.part tid off len
        let s := ((s.engServe 0 (s.hubAsk n c)).leaveMain (· == hubReq h)).mainRead c.part tid off len
        let x := s.hub h
        let sc := (bs.zipIdx).foldl (fun m e => Memory.write m ((i.imm % 65536 + e.2) % 65536) e.1) x.scratch
        ((s.setHub h { x with scratch := sc }).syncEnd h i n (okWord false)).mainGo

/-- TWR writes scratch bytes into a tensor through shadows (R172, R173, R264). An ABSENT tensor with a backing is first loaded
whole, and the write waits for that load, and for the grant of the main tier's engine (R301). A write whose eighth resend fails aborts the command (R192). -/
def execTwr (h : HubId) (s : State) : Result :=
  hubCmdExec h 0x27 s fun i n c =>
    let p := c.part
    let tid := s.tidOf h i.ra
    let off := ((s.hub h).reg i.rb).toNat
    let len := (i.aux + 1) * 32
    match s.tensor p tid with
    | none => s.syncEnd h i n (refusedWord 0 false eShape)
    | some t =>
      if s.lostNow p t then s.abortCmd n eStateLost 0
      else if !(t.main && t.rw_ && decide (off + len ≤ t.desc.length)) then s.syncEnd h i n (refusedWord 0 false eShape)
      else if t.state = .loading then (s.awaitLoad p tid n).stall h
      else if t.state = .writing then s.stallWaited h
      else if s.mainWaits (hubReq h) (s.readChans p tid off len) then (s.waitMain (hubReq h) (s.readChans p tid off len)).stall h
      else if t.state ≠ .absent ∧ s.engGrants 0 (s.hubAsk n c) = false then s.stall h
      else
        let old := ((s.taskShadow c.task p tid).map (·.pages)).getD []
        let fresh := ([off / 65536, (off + len - 1) / 65536].dedup.filter fun g => !old.contains g).length
        match (if t.state = .absent then s.askLoad (reqOf n 16) p c.acceptedAt fresh t else s.takePages (reqOf n 16) p c.acceptedAt fresh) with
        | (s, .waits) => s.stall h
        | (s, .refused) => s.syncEnd h i n (refusedWord 0 false eNoSpace)
        | (s, .granted) => if t.state = .absent then (s.loadFor p tid n).stall h else
          let s := ((s.engServe 0 (s.hubAsk n c)).leaveMain (· == hubReq h)).modTask c.task fun w => { w with reserved := w.reserved + fresh }
          let bs := (s.hub h).scratchN (i.imm % 65536) len
          ((s.shadowWrite c.task p tid off bs).orParity n fun s => s.syncEnd h i n (okWord false)).mainGo

end Sys2Proof.Machine
end

