-- ==== Sys2Proof/Machine/CogIsa.lean ====
section
/-! DEFINITION. The cog instruction set (R66 to R69): the four formats, their decoding and encoding, the operand fields each
opcode uses, and what a plane must meet to be loaded (R57, R66 to R69, R94, R103, R104). -/

namespace Sys2Proof.Machine

/-- Bits [63:51] of every cog instruction. -/
structure CogHead where
  opc : Nat
  pneg : Bool
  psel : Nat
  deriving DecidableEq, Repr

/-- A cog instruction taken apart by its format: S sequencer control, A address registers and predicates, C compute, U bank
transfer (R66, R67). -/
inductive CogInstr where
  | s (h : CogHead) (ctr : Nat) (csel : Bool) (creg addr rsvd count : Nat)
  | a (h : CogHead) (ad as_ cond pd rsvd imm : Nat)
  | c (h : CogHead) (dst sa sb sc type pop : Nat) (et : Bool) (imm : Nat)
  | u (h : CogHead) (qsr areg sreg creg : Nat) (cs : Bool) (rsvd count : Nat)
  deriving DecidableEq, Repr

/-- The format an opcode selects: 0 S, 1 A, 2 C, 3 U, none beyond them. -/
def fmtOf (opc : Nat) : Option Nat :=
  if opc < 0x08 then some 0 else if opc < 0x10 then some 1 else if opc < 0x50 then some 2 else if opc < 0x58 then some 3 else none

/-- The head of an instruction word. -/
def headOf (w : Nat) : CogHead := ⟨bits w 56 8, bit w 55, bits w 51 4⟩

/-- A cog instruction read from its word. -/
def cogDecode (x : Word64) : Option CogInstr :=
  let w := x.toNat
  match fmtOf (bits w 56 8) with
  | some 0 => some (.s (headOf w) (bits w 49 2) (bit w 48) (bits w 44 4) (bits w 36 8) (bits w 24 12) (bits w 0 24))
  | some 1 => some (.a (headOf w) (bits w 47 4) (bits w 43 4) (bits w 40 3) (bits w 37 3) (bits w 32 5) (bits w 0 32))
  | some 2 => some (.c (headOf w) (bits w 45 6) (bits w 39 6) (bits w 33 6) (bits w 27 6) (bits w 24 3) (bits w 21 3) (bit w 20)
      (bits w 0 20))
  | some _ => some (.u (headOf w) (bits w 45 6) (bits w 41 4) (bits w 37 4) (bits w 33 4) (bit w 32) (bits w 24 8) (bits w 0 24))
  | none => none

/-- The head of an instruction. -/
def CogInstr.head : CogInstr → CogHead
  | .s h _ _ _ _ _ _ => h
  | .a h _ _ _ _ _ _ => h
  | .c h _ _ _ _ _ _ _ _ => h
  | .u h _ _ _ _ _ _ _ => h

/-- Bits [63:51] of a word. -/
def CogHead.word (h : CogHead) : Nat := h.psel * 2 ^ 51 + b2n h.pneg * 2 ^ 55 + h.opc * 2 ^ 56

/-- The word of a cog instruction. -/
def cogEncode (i : CogInstr) : Word64 :=
  BitVec.ofNat 64 (match i with
    | .s h ctr csel creg addr rsvd count =>
      count + rsvd * 2 ^ 24 + addr * 2 ^ 36 + creg * 2 ^ 44 + b2n csel * 2 ^ 48 + ctr * 2 ^ 49 + h.word
    | .a h ad as_ cond pd rsvd imm =>
      imm + rsvd * 2 ^ 32 + pd * 2 ^ 37 + cond * 2 ^ 40 + as_ * 2 ^ 43 + ad * 2 ^ 47 + h.word
    | .c h dst sa sb sc type pop et imm =>
      imm + b2n et * 2 ^ 20 + pop * 2 ^ 21 + type * 2 ^ 24 + sc * 2 ^ 27 + sb * 2 ^ 33 + sa * 2 ^ 39 + dst * 2 ^ 45 + h.word
    | .u h qsr areg sreg creg cs rsvd count =>
      count + rsvd * 2 ^ 24 + b2n cs * 2 ^ 32 + creg * 2 ^ 33 + sreg * 2 ^ 37 + areg * 2 ^ 41 + qsr * 2 ^ 45 + h.word)

/-- Every field of an instruction is in its range and its opcode selects its format. -/
def CogInstr.wf (i : CogInstr) : Bool :=
  decide (i.head.psel < 16) && (match i with
    | .s h ctr _ creg addr rsvd count =>
      fmtOf h.opc == some 0 && decide (ctr < 4 ∧ creg < 16 ∧ addr < 256 ∧ rsvd < 4096 ∧ count < 2 ^ 24)
    | .a h ad as_ cond pd rsvd imm =>
      fmtOf h.opc == some 1 && decide (ad < 16 ∧ as_ < 16 ∧ cond < 8 ∧ pd < 8 ∧ rsvd < 32 ∧ imm < 2 ^ 32)
    | .c h dst sa sb sc type pop _ imm =>
      fmtOf h.opc == some 2 && decide (dst < 64 ∧ sa < 64 ∧ sb < 64 ∧ sc < 64 ∧ type < 8 ∧ pop < 8 ∧ imm < 2 ^ 20)
    | .u h qsr areg sreg creg _ rsvd count =>
      fmtOf h.opc == some 3 && decide (qsr < 64 ∧ areg < 16 ∧ sreg < 16 ∧ creg < 16 ∧ rsvd < 256 ∧ count < 2 ^ 24))

/-- The opcode of an instruction. -/
def CogInstr.opc (i : CogInstr) : Nat := i.head.opc

/-! ## Operands (R66) -/

/-- A source operand: its code, the words it takes, the first word of a register operand, and its pop bit (R33, R66, R68). -/
structure Src where
  code : Nat
  words : Nat
  off : Nat
  pop : Bool
  deriving DecidableEq, Repr

/-- The words of a vector of sixteen elements of a TYPE (R66, R103). -/
def vecWords (type : Nat) : Nat := typeBits type / 2

/-- The MMA operand words for an A type of ATYPE and a B type (R68); none for a pair outside the table. -/
def mmaWords (atype type : Nat) : Option (Nat × Nat) :=
  match atype, type with
  | 0, 1 => some (4, 4)
  | 0, 2 => some (4, 2)
  | 0, 3 => some (4, 2)
  | 0, 4 => some (4, 1)
  | 0, 5 => some (4, 1)
  | 1, 2 => some (4, 4)
  | 1, 3 => some (4, 4)
  | 2, 2 => some (4, 4)
  | 2, 3 => some (4, 4)
  | 1, 4 => some (4, 2)
  | 1, 5 => some (4, 2)
  | 2, 4 => some (4, 2)
  | 2, 5 => some (4, 2)
  | _, _ => none

/-- The opcodes with format C that the cog executes (R67). -/
def vecOps : List Nat := [0x20, 0x21, 0x22, 0x23, 0x24, 0x25, 0x26, 0x27, 0x28, 0x29, 0x2A, 0x2B, 0x2C, 0x2D, 0x2E, 0x2F, 0x30]

/-- The opcodes the cog executes (R67). -/
def cogOpcodes : List Nat :=
  [0x00, 0x01, 0x02, 0x03, 0x04, 0x08, 0x09, 0x0A, 0x0B, 0x0C, 0x0D, 0x10, 0x11, 0x12] ++ vecOps ++ [0x50, 0x51]

/-- How many vector sources an opcode of the vector unit uses (R66). -/
def vecArity (opc : Nat) : Nat :=
  if opc = 0x24 ∨ opc = 0x28 then 3 else if opc = 0x2F then 0
  else if opc = 0x21 ∨ opc = 0x22 ∨ opc = 0x23 ∨ opc = 0x25 ∨ opc = 0x26 ∨ opc = 0x27 then 2 else 1

/-- The source operands of an instruction, in the order SRCA, SRCB, SRCC (R33, R66 to R68, R103). UWRITE needs its first flit
only (R50). -/
def CogInstr.srcs : CogInstr → List Src
  | .c h _ sa sb sc type pop _ imm =>
    let pa := bit pop 2
    let pb := bit pop 1
    let pc := bit pop 0
    if h.opc = 0x10 then
      match mmaWords (bits imm 16 2) type with
      | some (wa, wb) =>
        [⟨sa, wa, bits imm 13 3, pa⟩, ⟨sb, wb, bits imm 10 3, pb⟩] ++ (if 4 ≤ type then [⟨sc, 8, 0, pc⟩] else [])
      | none => []
    else if vecOps.contains h.opc then
      ([⟨sa, vecWords type, 0, pa⟩, ⟨sb, vecWords type, 0, pb⟩, ⟨sc, vecWords type, 0, pc⟩] : List Src).take (vecArity h.opc)
    else []
  | .u h qsr _ _ _ _ _ _ => if h.opc = 0x51 then [⟨qsr, 8, 0, true⟩] else []
  | _ => []

/-- The flits an instruction's result takes as an output operand: two for a vector of FP32, one for BF16 (R66, R103). VCVT's
result has DTYPE. -/
def resultFlits (opc type imm : Nat) : Nat := if (if opc = 0x29 then bits imm 16 3 else type) = 0 then 2 else 1

/-- The output queue that an operand code names, if it names one (R66). -/
def outOf (code : Nat) : Option Side := if 0x28 ≤ code ∧ code ≤ 0x2B then some (Side.ofNum (code - 0x28)) else none

/-- The input queue that an operand code names, if it names one: N 0, E 1, S 2, W 3, U 4 (R66). -/
def inOf (code : Nat) : Option Nat := if 0x20 ≤ code ∧ code ≤ 0x24 then some (code - 0x20) else none

/-- Whether an instruction writes a vector destination in DST. -/
def CogInstr.hasDst : CogInstr → Bool
  | .c h _ _ _ _ _ _ _ _ => h.opc == 0x11 || (vecOps.contains h.opc && h.opc != 0x30)
  | _ => false

/-- The DST operand of an instruction that has one. -/
def CogInstr.dst : CogInstr → Option Nat
  | .c h dst sa sb sc type pop et imm => if (CogInstr.c h dst sa sb sc type pop et imm).hasDst then some dst else none
  | _ => none

/-! ## What a plane must meet (R57, R66 to R69, R94, R103, R104) -/

/-- A source field accepts an operand of some words: a queue, or a register, the even one of a pair for 16 words. -/
def srcOk (code words : Nat) : Bool :=
  (inOf code).isSome || (decide (code < 0x20) && (words != 16 || code % 2 == 0))

/-- A register MMA operand does not run past v31 (R68). -/
def mmaSrcOk (code words off : Nat) : Bool :=
  (inOf code).isSome || (decide (code < 0x20) && (decide (off + words ≤ 8) || decide (code < 0x1F)))

/-- A destination field accepts a result of `n` flits: an output queue, or a register, the even one of a pair. -/
def dstOk (code n : Nat) : Bool := (outOf code).isSome || (decide (code < 0x20) && (n != 2 || code % 2 == 0))

/-- The field checks of one instruction; reserved bits are ignored (R9, R66). -/
def CogInstr.fieldsOk (i : CogInstr) : Bool :=
  cogOpcodes.contains i.opc &&
  (match i with
    | .s _ _ _ _ _ _ _ => true
    | .a h _ _ cond _ _ _ => h.opc != 0x0B || decide (cond ≤ 5)
    | .c h dst sa sb sc type _ _ imm =>
      if h.opc = 0x10 then
        dst == 0x3F && (match mmaWords (bits imm 16 2) type with
          | some (wa, wb) => mmaSrcOk sa wa (bits imm 13 3) && mmaSrcOk sb wb (bits imm 10 3) &&
              (if 4 ≤ type then decide (sc < 0x20) else sc == 0x3F)
          | none => false)
      else if h.opc = 0x11 then
        sa == 0x3F && sb == 0x3F && sc == 0x3F && decide (type ≤ 1) &&
          ((outOf dst).isSome || (decide (dst < 0x20) && dst % (if type = 0 then 8 else 4) == 0))
      else if h.opc = 0x12 then dst == 0x3F && sa == 0x3F && sb == 0x3F && sc == 0x3F
      else
        let n := vecArity h.opc
        let fld (k code : Nat) : Bool := if k < n then srcOk code (vecWords type) else code == 0x3F
        fld 0 sa && fld 1 sb && fld 2 sc &&
        (if h.opc = 0x29 then decide (type ≤ 5 ∧ bits imm 16 3 ≤ 3) else decide (type ≤ 1)) &&
        (if h.opc = 0x30 then dst == 0x3F
          else if h.opc = 0x29 ∧ 2 ≤ bits imm 16 3 then decide (dst < 0x20)
          else dstOk dst (resultFlits h.opc type imm)) &&
        (h.opc != 0x27 || decide (bits imm 16 3 ≤ 6)) && (h.opc != 0x2A || decide (bits imm 16 2 ≤ 2))
    | .u h qsr _ _ _ cs _ count =>
      if h.opc = 0x50 then qsr == 0x3F else (inOf qsr).isSome || (decide (qsr < 0x20) && !cs && count == 1))

/-- Check 11 of R157 for the instruction at address `a` of a plane of `n` instructions. -/
def CogInstr.validAt (i : CogInstr) (a n : Nat) : Bool :=
  i.fieldsOk && (match i with
    | .s h _ _ _ addr _ _ =>
      if h.opc = 0x01 then decide (a < addr ∧ addr < n) else if h.opc = 0x02 then decide (addr < n) else true
    | _ => true)

/-- The instruction at an address of a plane. -/
def Plane.at_ (v : Plane) (a : Nat) : Option CogInstr := cogDecode (Tab.get filler v.instrs a)

/-- The loops of a plane: address, counter and end (R55). -/
def Plane.loopsOf (v : Plane) : List (Nat × Nat × Nat) :=
  (List.range 256).filterMap fun l => match v.at_ l with
    | some (.s h ctr _ _ addr _ _) => if h.opc = 0x01 then some (l, ctr, addr) else none
    | _ => none

/-- The loops whose bodies hold an address. -/
def bodiesAt (ls : List (Nat × Nat × Nat)) (a : Nat) : List (Nat × Nat × Nat) := ls.filter fun l => decide (l.1 < a ∧ a ≤ l.2.2)

/-- Whether the instruction at an address breaks R57: a loop that ends beyond a loop around it, is the fifth one open or reuses
an open loop's counter; a BR that enters or leaves a body; an END or STOP inside a loop. -/
def Plane.loopBad (v : Plane) (ls : List (Nat × Nat × Nat)) (a : Nat) : Bool :=
  let inside := bodiesAt ls a
  match v.at_ a with
  | some (.s h ctr _ _ addr _ _) =>
    if h.opc = 0x01 then
      decide (addr ≤ a) || decide (4 ≤ inside.length) || inside.any fun o => decide (o.2.2 < addr) || o.2.1 == ctr
    else if h.opc = 0x02 then inside != bodiesAt ls addr
    else if h.opc = 0x03 ∨ h.opc = 0x04 then !inside.isEmpty
    else false
  | _ => false

/-- The first address at which a plane breaks R57. -/
def Plane.loopFault (v : Plane) (n : Nat) : Option Nat :=
  let ls := v.loopsOf
  (List.range n).find? (v.loopBad ls)

end Sys2Proof.Machine
end

