-- ==== Sys2Proof/Machine/Flags.lean ====
section
/-! DEFINITION. The conditions a cog computes: predicates and loop predicates (R54, R55), the comparisons of PCMP (R67) and of
VCMP (R98). The cog has no status flags (R86). -/

namespace Sys2Proof.Machine

/-- Counter `k` of a cog. -/
def Cog.c (x : Cog) (k : Nat) : Nat := Tab.get 0 x.ctr k
/-- The initial count of counter `k`. -/
def Cog.init (x : Cog) (k : Nat) : Nat := Tab.get 0 x.ctrInit k
/-- Whether an open loop uses counter `k`. -/
def Cog.active (x : Cog) (k : Nat) : Bool := x.loops.any fun l => l.ctr == k
/-- FIRST(ck): true in the first iteration of the loop using that counter; false where no active loop uses it (R54, R55). -/
def Cog.first (x : Cog) (k : Nat) : Bool := x.active k && x.c k == x.init k
/-- LAST(ck). -/
def Cog.last (x : Cog) (k : Nat) : Bool := x.active k && x.c k == 1
/-- Predicate bit `n`: p0 is always true (R54). -/
def Cog.p (x : Cog) (n : Nat) : Bool := n == 0 || bit x.preds n
/-- A cog with predicate bit `n` written; a write to p0 is ignored (R67). -/
def Cog.setP (x : Cog) (n : Nat) (b : Bool) : Cog := if n = 0 then x else { x with preds := setBits x.preds n 1 (b2n b) }

/-- The predicate that PSEL names (R54). -/
def Cog.psel (x : Cog) (n : Nat) : Bool :=
  if n < 8 then x.p n else if n < 12 then x.first (n - 8) else x.last (n - 12)

/-- Whether an instruction's predicate holds (R54). -/
def Cog.pred (x : Cog) (h : CogHead) : Bool := x.psel h.psel ^^ h.pneg

/-- COND of PCMP: EQ, NE, LTU, GEU, LT signed, GE signed. -/
def pcmpHolds (cond : Nat) (a b : Word32) : Bool :=
  match cond with
  | 0 => a == b
  | 1 => a != b
  | 2 => a.ult b
  | 3 => !a.ult b
  | 4 => a.slt b
  | _ => !a.slt b

/-- COND of VCMP: EQ, NE, LT, LE, GT, GE, UNORD (R98). -/
def vcmpHolds (cond : Nat) (a b : FVal) : Bool :=
  let un := a == .nan || b == .nan
  match cond with
  | 0 => eqF a b
  | 1 => !eqF a b
  | 2 => ltF a b
  | 3 => ltF a b || eqF a b
  | 4 => ltF b a
  | 5 => ltF b a || eqF a b
  | _ => un

/-- The end test of R55 after the instruction at `q`: the next address, the counters and the loop stack. -/
def endTest (ctr : Tab Nat) : List LoopEntry → Nat → Nat × Tab Nat × List LoopEntry
  | [], q => ((q + 1) % 256, ctr, [])
  | l :: ls, q =>
    if l.stop = q then
      if 1 < Tab.get 0 ctr l.ctr then (l.start, Tab.set 0 ctr l.ctr (Tab.get 0 ctr l.ctr - 1), l :: ls)
      else endTest ctr ls q
    else ((q + 1) % 256, ctr, l :: ls)

/-- A cog whose instruction at `q` has retired (R55, R112). -/
def Cog.retireAt (x : Cog) (q : Nat) : Cog :=
  let (pc, ctr, loops) := endTest x.ctr x.loops q
  { x with pc := pc, ctr := ctr, loops := loops }

/-- A cog whose instruction at the program counter has retired. -/
def Cog.retire (x : Cog) : Cog := x.retireAt x.pc

end Sys2Proof.Machine
end

