-- ==== Sys2Proof/Machine/Operands.lean ====
section
/-! DEFINITION. Cog operands: registers, register runs and pairs, queue words (R33, R66, R68), what stands between an
instruction and its firing (R50), and where results go (R52, R53). -/

namespace Sys2Proof.Machine

/-! ## Flits (R31, R38) -/

/-- Whether data word `i` of a flit and its parity bit agree. -/
def Flit.wordOk (f : Flit) (i : Nat) : Bool := parityBit 64 (bits f.data.toNat (64 * i) 64) == bits f.par.toNat i 1

/-- Whether every data word of a flit agrees with its parity. -/
def Flit.parOk (f : Flit) : Bool := (List.range 4).all f.wordOk

/-- A flit with correct parity. -/
def Flit.make (data : Nat) (tag eot : Bool) : Flit :=
  ⟨BitVec.ofNat 256 data, tag, eot,
    BitVec.ofNat 4 (((List.range 4).map fun i => parityBit 64 (bits data (64 * i) 64) * 2 ^ i).foldl (· + ·) 0)⟩

/-! ## Registers and queues of a cog -/

/-- Vector register `n`. -/
def Cog.v (x : Cog) (n : Nat) : Nat := (Tab.get (0 : Word256) x.vregs n).toNat
/-- Address register `n`. -/
def Cog.areg (x : Cog) (n : Nat) : Word32 := Tab.get 0 x.aregs n
/-- A cog with an address register written. -/
def Cog.setA (x : Cog) (n : Nat) (v : Word32) : Cog := { x with aregs := Tab.set 0 x.aregs n v }
/-- A cog with a vector register written. -/
def Cog.setV (x : Cog) (n : Nat) (v : Word256) : Cog := { x with vregs := Tab.set 0 x.vregs n v }
/-- Input queue `q`. -/
def Cog.iq (x : Cog) (q : Nat) : InQ := Tab.get InQ.start x.inq q
/-- A cog with an input queue written. -/
def Cog.setIq (x : Cog) (q : Nat) (v : InQ) : Cog := { x with inq := Tab.set InQ.start x.inq q v }
/-- Output queue of a side. -/
def Cog.oq (x : Cog) (d : Side) : OutQ := Tab.get OutQ.start x.outq d.num
/-- A cog with an output queue written. -/
def Cog.setOq (x : Cog) (d : Side) (v : OutQ) : Cog := { x with outq := Tab.set OutQ.start x.outq d.num v }
/-- The free, unreserved entries of an output queue. -/
def OutQ.free (o : OutQ) : Nat := 8 - o.flits.length - o.reserved
/-- Element `n` of accumulator bank `b` (8 × row + column), an FP32 encoding. -/
def Cog.accAt (x : Cog) (b n : Nat) : Nat := Tab.get 0 x.acc (64 * b + n)

/-- The route entry of queue `q` in a plane (R40, R111). -/
def Plane.route (v : Plane) (q : Nat) : Nat := bits v.routes (5 * q) 5
/-- CORE of a route entry. -/
def core (r : Nat) : Bool := bit r 4
/-- The output queues a route entry names. -/
def fwd (r : Nat) : List Side := sides.filter fun d => bit r d.num

/-- The entry a head flit is routed by: that of the plane its TAG names (R41). -/
def Cog.routeOf (x : Cog) (q : Nat) (f : Flit) : Nat := (x.planeOf f.tag).route q

/-- A queue whose head flit leaves: an entry is freed; outside a spill episode its credit goes back to the sender (R35, R136). -/
def InQ.pop (v : InQ) : InQ :=
  { v with flits := v.flits.drop 1, ptr := v.ptr - 8, copied := false, freed := if v.spill.isSome then v.freed else v.freed + 1 }

/-- Head flits that have had every action their entries ask for leave, in order (R43). The first argument bounds the entries. -/
def Cog.settleQ (x : Cog) (q : Nat) : Nat → InQ → InQ
  | 0, v => v
  | n + 1, v =>
    match v.flits with
    | [] => v
    | f :: _ =>
      let r := x.routeOf q f
      if (core r = false ∨ 8 ≤ v.ptr) ∧ ((fwd r).isEmpty = true ∨ v.copied = true) ∧ (core r = true ∨ (fwd r).isEmpty = false)
      then x.settleQ q n v.pop else v

/-- A cog's queue after something has happened to its head. -/
def Cog.settle (x : Cog) (q : Nat) (v : InQ) : Cog := x.setIq q (x.settleQ q 8 v)

/-- Whether a queue holds `n` words at its head pointer in flits of a plane (R33, R50), all visible to the core (R40). -/
def InQ.has (v : InQ) (n : Nat) (plane : Bool) : Bool :=
  decide (v.ptr < 8 ∧ v.ptr + n ≤ 8 * v.flits.length) && (v.flits.take (ceilDiv (v.ptr + n) 8)).all fun f => f.tag == plane

/-- The words a queue source takes, as one number (R33). -/
def InQ.words (v : InQ) (n : Nat) : Nat :=
  bits (v.flits.foldr (fun f acc => f.data.toNat + acc * 2 ^ 256) 0) (32 * v.ptr) (32 * n)

/-- Whether the data words that a queue source touches pass parity (R38). -/
def InQ.wordsOk (v : InQ) (n : Nat) : Bool :=
  (List.range n).all fun i =>
    let w := v.ptr + i
    match v.flits[w / 8]? with
    | some f => f.wordOk (w % 8 / 2)
    | none => true

/-- The words of a register operand: `n` words from word `off` of register `r`, running on into the next (R66, R68). -/
def Cog.regWords (x : Cog) (r off n : Nat) : Nat := bits (x.v r + x.v (r + 1) * 2 ^ 256) (32 * off) (32 * n)

/-- The source operands of an instruction read in order: their values, the cog after the pops, and whether parity held; none
where a queue source lacks its words (R33, R38, R50). Two operands of one instruction that name the same queue are read in the
order SRCA, SRCB, SRCC, each after the pop of the one before (DESIGN CHOICE, log 75). -/
def Cog.gather (x : Cog) (plane : Bool) : List Src → Option (List Nat × Cog × Bool)
  | [] => some ([], x, true)
  | o :: os =>
    match inOf o.code with
    | none => (x.gather plane os).map fun r => (x.regWords o.code o.off o.words :: r.1, r.2)
    | some q =>
      let v := x.iq q
      if v.has o.words plane && core ((x.planeOf plane).route q) then
        let y := if o.pop then x.settle q { v with ptr := v.ptr + o.words } else x
        (y.gather plane os).map fun r => (v.words o.words :: r.1, r.2.1, v.wordsOk o.words && r.2.2)
      else none

/-- The first queue source that lacks the words it needs, if any (R50, R135, R140). -/
def Cog.lacking (x : Cog) (plane : Bool) : List Src → List Nat
  | [] => []
  | o :: os =>
    match inOf o.code with
    | none => x.lacking plane os
    | some q =>
      let v := x.iq q
      if v.has o.words plane && core ((x.planeOf plane).route q) then
        (if o.pop then x.settle q { v with ptr := v.ptr + o.words } else x).lacking plane os
      else q :: x.lacking plane os

/-! ## Pending writes (R50, R52) -/

/-- Registers and queues as numbers: operand codes, then a0 to a15 from 0x40, p0 to p7 from 0x50, banks from 0x60. -/
def aregRes (n : Nat) : Nat := 0x40 + n
def predRes (n : Nat) : Nat := 0x50 + n
def bankRes (b : Nat) : Nat := 0x60 + b

/-- What a result writes. -/
def Dest.res : Dest → Nat
  | .vreg n _ => n
  | .areg n _ => aregRes n
  | .pred n _ => predRes n
  | .out d _ => 0x28 + d.num
  | .acc b _ => bankRes b
  | .accAdd b _ _ _ _ _ _ => bankRes b

/-- What the drain engine has still to write (R69): the registers of its remaining flits. -/
def Drain.res (d : Drain) : List Nat :=
  if 0x28 ≤ d.dst then [d.dst] else ((List.range (if d.type = 0 then 8 else 4)).drop d.next).map fun k => d.dst + k

/-- Whether a register or queue has a pending write. -/
def Cog.busy (x : Cog) (r : Nat) : Bool :=
  (x.inflight.any fun i => i.dests.any fun d => d.res == r) ||
  (match x.drain with
    | some d => d.res.contains r
    | none => false)

/-- Whether an accumulator bank is draining. -/
def Cog.draining (x : Cog) (b : Nat) : Bool :=
  match x.drain with
  | some d => d.bank == b
  | none => false

/-- The predicate bit an instruction's predicate reads. -/
def CogHead.predRes (h : CogHead) : List Nat := if 0 < h.psel ∧ h.psel < 8 then [Sys2Proof.Machine.predRes h.psel] else []

/-- The registers a source operand reads (R68: an MMA operand reads both registers it runs over). -/
def Src.regs (o : Src) : List Nat := if o.code < 0x20 then (if o.off + o.words ≤ 8 then [o.code] else [o.code, o.code + 1]) else []

/-- The registers and queues a destination of `n` flits writes. -/
def dstRes (code n : Nat) : List Nat := if code < 0x20 then (List.range n).map fun k => code + k else [code]

/-- The registers and queues that an instruction reads or writes (R50), input queues apart: nothing pending writes them. -/
def CogInstr.uses (i : CogInstr) : List Nat :=
  (i.srcs.flatMap Src.regs) ++ (match i with
    | .s h _ csel creg _ _ _ => if h.opc = 0x01 ∧ csel = true then [aregRes creg] else []
    | .a h ad as_ _ pd _ imm =>
      if h.opc = 0x0B then [aregRes as_, predRes pd]
      else if h.opc = 0x0C then [predRes pd]
      else aregRes ad :: (if h.opc = 0x09 then [aregRes as_] else if h.opc = 0x0A then [aregRes as_, aregRes (imm % 16)] else [])
    | .c h dst _ _ _ type _ _ imm =>
      if h.opc = 0x10 then (if bit imm 9 then [aregRes (bits imm 5 4)] else [])
      else if h.opc = 0x11 then bankRes (bits imm 19 1) :: dstRes dst (if type = 0 then 8 else 4)
      else if h.opc = 0x12 then [bankRes (bits imm 19 1)]
      else if h.opc = 0x30 then [predRes (bits imm 0 3)]
      else dstRes dst (resultFlits h.opc type imm)
    | .u _ _ areg sreg creg cs _ _ => [aregRes areg, aregRes sreg] ++ (if cs then [aregRes creg] else []))

/-- The output queue entries an instruction takes when it fires (R50): a vector result's flits. ACCRD's flits are granted to
the drain engine one by one. -/
def CogInstr.outs : CogInstr → Option (Side × Nat)
  | .c h dst _ _ _ type _ _ imm =>
    if vecOps.contains h.opc ∧ h.opc ≠ 0x30 then (outOf dst).map fun d => (d, resultFlits h.opc type imm) else none
  | _ => none

/-- Condition 5 of R50: the unit the instruction needs is free; and accumulators in issue order: ACCZ too waits for the MMAs
into its bank (R52, R93). -/
def Cog.unitFree (x : Cog) : CogInstr → Bool
  | .c h _ _ _ _ _ _ _ imm =>
    if h.opc = 0x10 ∨ h.opc = 0x12 then !x.draining (bits imm 19 1)
    else if h.opc = 0x11 then x.drain.isNone
    else true
  | .u h _ _ _ _ _ _ _ => h.opc != 0x50 || x.uread.isNone
  | _ => true

/-! ## Results (R53, R68) -/

/-- The E4M3 code that MMA expands a 4-bit B element to (R88). -/
def expand4 (type x : Nat) : Nat :=
  if type = 4 then ([0x00, 0x30, 0x38, 0x3C, 0x40, 0x44, 0x48, 0x4C, 0x80, 0xB0, 0xB8, 0xBC, 0xC0, 0xC4, 0xC8, 0xCC] : List Nat).getD x 0
  else ([0x00, 0x38, 0x40, 0x44, 0x48, 0x4A, 0x4C, 0x4E, 0xD0, 0xCE, 0xCC, 0xCA, 0xC8, 0xC4, 0xC0, 0xB8] : List Nat).getD x 0

/-- One MMA product with its block scale (R88 to R90): a scale of 0xFF makes it NaN. -/
def mmaProduct (atype btype scale a b : Nat) : FVal :=
  let va := valueOf (if atype = 0 then 1 else atype + 1) a
  let vb := if 4 ≤ btype then valueOf 2 (expand4 btype b) else valueOf btype b
  if 4 ≤ btype ∧ scale = 0xFF then .nan
  else match mulF va vb with
    | .fin s m e => .fin s m (if 4 ≤ btype then e + scale - 127 else e)
    | v => v

/-- One accumulator element after a firing (R91, R92): the exact sum of the products and, unless ZERO, of the element, rounded
once. -/
def mmaElem (atype btype scale : Nat) (zero : Bool) (old : Nat) (as_ bs : List Nat) : Nat :=
  let ps := (as_.zip bs).map fun e => mmaProduct atype btype scale e.1 e.2
  enc32 (sumF (if zero then ps else fp32 old :: ps))

/-- A result written (R52, R53): a vector, address or predicate register; a flit into an output queue, out of its reserved
entry; an accumulator bank; or an MMA's products added into a bank. -/
def Cog.put (x : Cog) : Dest → Cog
  | .vreg n v => x.setV n v
  | .areg n v => x.setA n v
  | .pred n v => x.setP n v
  | .out d f => let o := x.oq d; x.setOq d { o with flits := o.flits ++ [f], reserved := o.reserved - 1 }
  | .acc b vs => { x with acc := (List.range 64).foldl (fun m n => Tab.set 0 m (64 * b + n) (vs.getD n 0)) x.acc }
  | .accAdd b as_ bs atype btype scale zero =>
    let elem (n : Nat) : Nat :=
      mmaElem atype btype scale zero (x.accAt b n) (as_.map (·.getD (n / 8) 0)) (bs.map (·.getD (n % 8) 0))
    { x with acc := (List.range 64).foldl (fun m n => Tab.set 0 m (64 * b + n) (elem n)) x.acc }

/-- The results of an instruction of latency 1 are written as it issues; others go in flight with their output entries reserved
(R50, R53). -/
def Cog.result (x : Cog) (lat1 : Bool) (plane : Bool) (ds : List Dest) : Cog :=
  let x := ds.foldl (fun x d => match d with
    | .out sd _ => let o := x.oq sd; x.setOq sd { o with reserved := o.reserved + 1 }
    | _ => x) x
  if lat1 then ds.foldl Cog.put x else { x with inflight := x.inflight ++ [⟨ds, plane⟩] }

/-- A vector result of `n` flits in DST: registers or an output queue with TAG of the plane and EOT on the last where ET is set
(R66, R121). -/
def vecDest (dst n value : Nat) (plane et : Bool) : List Dest :=
  (List.range n).map fun k =>
    let w := bits value (256 * k) 256
    match outOf dst with
    | some d => .out d (.make w plane (et && k + 1 == n))
    | none => .vreg (dst + k) (BitVec.ofNat 256 w)

end Sys2Proof.Machine
end

