-- ==== Sys2Proof/Machine/CogSeq.lean ====
section
/-! DEFINITION. The cog sequencer (R49 to R61): fetching, firing, token starts, control flow, address registers, predicates,
results in flight; quiet time and blocked joins of a region (R78, R140, R141). -/

namespace Sys2Proof.Machine

/-! ## Panniers (R134) -/

/-- The bank address of position `k` of queue `q`'s slice. -/
def Plane.sliceAddr (v : Plane) (q k : Nat) : Nat :=
  v.panBase * 4096 + (((List.range q).filter v.spills).length * v.sliceCap + k % max 1 v.sliceCap) * 32

/-- Whether a plane of a block holds a gear (R114). -/
def PState.holds : PState → Bool
  | .loaded => true | .live => true | .draining => true | _ => false

/-- Whether a full queue cannot spill: it is not in PAN_QMASK, or its slice is full (R140). -/
def Cog.cannotSpill (x : Cog) (q : Nat) : Bool :=
  let v := x.iq q
  match v.spill with
  | some pl => decide ((x.planeOf pl).sliceCap ≤ v.side.length)
  | none => match v.flits.getLast? with
    | some f => !(x.planeOf f.tag).spills q
    | none => true

/-! ## The instruction at the program counter -/

/-- The instruction at a cog's program counter. -/
def Cog.instr (x : Cog) : Option CogInstr := (x.planeOf x.plane).at_ x.pc

/-- The count of LOOP and of the U format: an immediate or the low 24 bits of an address register. -/
def Cog.count (x : Cog) (sel : Bool) (creg count : Nat) : Nat := if sel then (x.areg creg).toNat % 2 ^ 24 else count

/-- The sources an instruction needs to fire (R50). A UWRITE whose COUNT is 0 fires without a source flit and transfers nothing
(R63 does not speak of it; DESIGN CHOICE, log 75). -/
def Cog.srcs (x : Cog) (i : CogInstr) : List Src :=
  match i with
  | .u _ _ _ _ creg cs _ count => if x.count cs creg count = 0 then [] else i.srcs
  | _ => i.srcs

/-- Whether a cog's sequencer is at an instruction: it runs, and no UWRITE blocks issue (R63). -/
def Cog.atInstr (x : Cog) : Bool := x.mode == .run && x.uwrite.isNone

/-- Whether a cog's sequencer is at an instruction and may issue: it is not in freewheel (R76). -/
def Cog.issues (x : Cog) : Bool := x.atInstr && !x.freewheel

/-- Until an output queue has turned under a SHIFT, nothing writes a LIVE-tag flit into it (R128). -/
def tagBlocked (r : Option (Nat × Region)) (o : OutQ) (tag : Bool) : Bool :=
  match r with
  | some (_, r) => r.draining && tag == r.live && !o.turned
  | none => false

/-! ## The arbiter of output queue entries (R45) -/

/-- The output entries that the head flit of an input queue waits for (R42, R128, R131). -/
def State.wantsCopy (s : State) (c : Nat) (x : Cog) (q : Nat) : List Side :=
  match (x.iq q).flits with
  | f :: _ =>
    let ds := fwd (x.routeOf q f)
    if (x.iq q).copied || ds.any fun d => tagBlocked (s.regionOf c) (x.oq d) f.tag then [] else ds
  | [] => []

/-- The output entries that the instruction at the program counter waits for, where nothing else keeps it from firing (R50). -/
def State.wantsSeq (s : State) (c : Nat) (x : Cog) : List Side :=
  match x.issues, x.instr with
  | true, some i =>
    match i.outs with
    | some (d, n) =>
      if !(i.head.predRes.any x.busy) && x.pred i.head && !(i.uses.any x.busy) && x.unitFree i &&
          !tagBlocked (s.regionOf c) (x.oq d) x.plane && (x.gather x.plane (x.srcs i)).isSome
      then List.replicate n d else []
    | none => []
  | _, _ => []

/-- The output entry that the drain engine's next flit waits for (R69, R76, R128). -/
def State.wantsDrain (s : State) (c : Nat) (x : Cog) : List Side :=
  match x.drain with
  | some d => match outOf d.dst with
    | some sd => if x.freewheel || tagBlocked (s.regionOf c) (x.oq sd) d.plane then [] else [sd]
    | none => []
  | none => []

/-- The output entries that a requester of R45 waits for: 0 to 4 the input queues, 5 SEQ, 6 DRN. -/
def State.wants (s : State) (c : Nat) (x : Cog) (k : Nat) : List Side :=
  if k < 5 then s.wantsCopy c x k else if k = 5 then s.wantsSeq c x else s.wantsDrain c x

/-- The requesters of a list that the arbiter grants, visited in order: each whose entries are still free after the grants already
made in the cycle (R45). -/
def State.visit (s : State) (c : Nat) (x : Cog) : List Nat → List Side → List Nat
  | [], _ => []
  | k :: ks, taken =>
    let w := s.wants c x k
    if !w.isEmpty && sides.all fun d => decide ((taken ++ w).count d ≤ (x.oq d).free) then k :: s.visit c x ks (taken ++ w)
    else s.visit c x ks taken

/-- The arbiter's pointer: it stands at N_IN in the ACLK cycle in which the cog leaves IDLE and moves on by one each cycle (R45). -/
def State.arbPtr (s : State) (x : Cog) : Nat := (s.cycle - x.arb) % 7

/-- Whether the arbiter grants a requester in this ACLK cycle (R45). -/
def State.arbGrants (s : State) (c : Nat) (x : Cog) (k : Nat) : Bool :=
  (s.visit c x ((List.range 7).map fun i => (s.arbPtr x + i) % 7) []).contains k

/-- Condition 3 of R50: SEQ has been granted an entry for every flit the instruction writes. -/
def State.outsOk (s : State) (c : Nat) (x : Cog) (i : CogInstr) : Bool := i.outs.isNone || s.arbGrants c x 5

/-- Whether an instruction waits on an output grant (R75): its output queue lacks room, or the arbiter of R45 does not grant SEQ the
entries in this ACLK cycle. One that only R128 holds back does not wait (DEDUCED, log 75: no event of R77 would wake it). -/
def State.noGrant (s : State) (c : Nat) (x : Cog) (i : CogInstr) : Bool :=
  match i.outs with
  | none => false
  | some (d, n) => decide ((x.oq d).free < n) || (!tagBlocked (s.regionOf c) (x.oq d) x.plane && !s.arbGrants c x 5)

/-- The queue sources that the instruction at the program counter lacks words of, where its predicate holds (R135, R140); a cog in
freewheel waits as before. -/
def Cog.starved (x : Cog) : List Nat :=
  if x.atInstr then
    match x.instr with
    | some i => if x.pred i.head then x.lacking x.plane (x.srcs i) else []
    | none => []
  else []

/-- Whether a cog holds a blocked join (R140). -/
def Cog.blockedJoin (x : Cog) : Bool :=
  x.starved.any fun q => (List.range 4).any fun k => k != q && (x.iq k).flits.length == 8 && x.cannotSpill k

/-- Whether the sending side of an edge link holds a flit for lack of a credit. -/
def State.pressed (s : State) (e : Nat × Side) : Bool :=
  !(s.edgeIn e.1 e.2).flits.isEmpty && ((s.cog e.1).iq e.2.num).credits == 0

/-- Whether every edge source of a region has finished its stream or holds a flit that it cannot send for lack of a credit
(R141). An east link that has fed the RUN from a remote device, a token or a part of one, and holds nothing waits on its own upstream
(R369); a closed one has finished (log 54). -/
def State.sourcesPressed (s : State) (r : Region) : Bool :=
  ((r.streams.filter (·.desc.dir == 0)).all fun st =>
    let ports := (List.range st.desc.nlink).map fun i => st.edge.port (st.desc.link0 + i)
    (decide (s.streamTotal r st ≤ st.tok) && ports.all fun e => (s.edgeIn e.1 e.2).flits.isEmpty) || ports.any s.pressed) &&
  (List.range 128).all fun l =>
    let x := s.eastIn l
    !inRect r.rect (blockOf (144 * l + 143)) || (s.edgeIn (144 * l + 143) .e).closed || (x.flits.isEmpty && x.tok == 0 && !x.mid) ||
      (!x.flits.isEmpty && ((s.cog (144 * l + 143)).iq 1).credits == 0)

/-- The conditions of R141 but for quiet time. -/
def State.stuck (s : State) (r : Region) : Bool :=
  ((rectCogs r.rect).any fun c => (s.cog c).blockedJoin) && s.sourcesPressed r

/-- The entry queue at which a cog waits: that of the plane it ran last, else the other plane's (R59, R122). -/
def Cog.entryQueue (x : Cog) : Option Nat := (inOf (x.planeOf x.plane).entry).or (inOf (x.planeOf (!x.plane)).entry)

/-- Whether a flit of a tag is one that R129 deals with: it names the DRAINING plane, and the sequencer has run the LIVE plane since the
SHIFT. -/
def Cog.stale (x : Cog) (r : Region) (tag : Bool) : Bool := r.draining && tag != r.live && x.ranLive

/-- Whether the head flit of a cog's queue is one that R129 takes from its core. -/
def State.staleHead (s : State) (c : Nat) (x : Cog) (q : Nat) (f : Flit) : Bool :=
  match s.regionOf c with
  | some (_, r) => x.stale r f.tag && core (x.routeOf q f)
  | none => false

/-- The plane that the flit at the head of the entry queue starts, where it names a plane that holds a gear (R59). A head flit whose
words are all taken and which only waits for its router copy starts no token (DESIGN CHOICE, log 75), and neither does one that R129
takes away (DEDUCED, log 54). -/
def State.tokenStart (s : State) (c : Nat) : Option Bool :=
  let x := s.cog c
  if x.mode == .entry then
    match x.entryQueue with
    | none => none
    | some q =>
      let v := x.iq q
      match v.flits with
      | f :: _ =>
        if v.ptr < 8 ∧ (s.bplane (blockOf c) f.tag).state.holds = true ∧ s.staleHead c x q f = false then some f.tag else none
      | [] => none
  else none

/-- Whether a cog's sequencer waits on a queue source or on an output grant (R75). -/
def State.waits (s : State) (c : Nat) : Bool :=
  let x := s.cog c
  match x.mode with
  | .idle => false
  | .entry => (s.tokenStart c).isNone
  | .run => match x.instr with
    | some i => x.pred i.head && (s.noGrant c x i || !(x.lacking x.plane (x.srcs i)).isEmpty)
    | none => false

/-- Nothing is in flight in a cog, and its drain engine and both U engines are idle. -/
def Cog.quiet (x : Cog) : Bool := x.inflight.isEmpty && x.drain.isNone && x.uread.isNone && x.uwrite.isNone

/-- A cog after an event in it: its present wait began before, or begins in this ACLK cycle, or it does not wait (R75). -/
def State.rewait (s : State) (c : Nat) : State :=
  let x := s.cog c
  s.setCog c { x with waited := if s.waits c && x.quiet then some (x.waited.getD s.cycle) else none }

/-- A region after an event at a cog of it: when R141's conditions began to hold together, they hold since now or since before; a
fired instruction or a flit that entered ends the quiet time before it, which the watchdog does not count (R78, R309). -/
def State.note (s : State) (c : Nat) (active : Bool) : State :=
  let s := s.rewait c
  match s.regionOf c with
  | none => s
  | some (k, r) =>
    let s := if active && r.step.isNone then s.modCmd r.seq fun x => x.exclude r.quietWork s.work else s
    let r := if active then { r with quietSince := s.time, quietWork := s.work + s.workRate, deadSince := none,
                                     uncounted := r.uncounted + (s.work - r.quietWork) } else r
    s.setRegion k { r with deadSince := if s.stuck r then some (r.deadSince.getD s.time) else none }

/-- The command that runs on a cog's region aborts (R37, R38). -/
def State.abortRegion (s : State) (c error : Nat) : State :=
  match s.regionOf c with
  | none => s
  | some (_, r) => s.abortCmd r.seq error 0

/-! ## Issue (R49 to R53) -/

/-- The instruction of a cog's program counter where the cog may issue and its opcode is `opc`. -/
def State.cogFetch (s : State) (c opc : Nat) : Option CogInstr :=
  if s.live && (s.cog c).issues then
    match (s.cog c).instr with
    | some i => if i.opc = opc then some i else none
    | none => none
  else none

/-- A cog after an instruction of it has fired. -/
def State.fired (s : State) (c : Nat) (x : Cog) : State := (s.setCog c { x with waited := none }).note c true

/-- Whether an instruction whose predicate holds finds its registers, queues and unit free and its output entries granted
(conditions 3 to 5 of R50). -/
def State.clear (s : State) (c : Nat) (x : Cog) (i : CogInstr) : Bool :=
  !(i.uses.any x.busy) && x.unitFree i && s.outsOk c x i

/-- One instruction of a cog (R49 to R53): nothing happens where the program counter holds another instruction or this one
cannot fire; with a false predicate it retires and does no more (R51); a parity mismatch aborts the command (R38); else `f`
gives the cog after it. `skip` is the retirement of a false predicate. -/
def State.cogStepWith (s : State) (c opc : Nat) (skip : CogInstr → Cog → Cog) (f : CogInstr → List Nat → Cog → Cog) : State :=
  match s.cogFetch c opc with
  | none => s
  | some i =>
    let x := s.cog c
    if i.head.predRes.any x.busy then s
    else if x.pred i.head = false then (s.setCog c { skip i x with waited := none }).note c false
    else if s.clear c x i = false then s
    else match x.gather x.plane (x.srcs i) with
      | none => s
      | some (_, _, false) => s.abortRegion c eParity
      | some (vs, y, true) => s.fired c (f i vs y)

/-- An instruction that a false predicate only retires. -/
def State.cogStep (s : State) (c opc : Nat) (f : CogInstr → List Nat → Cog → Cog) : State :=
  s.cogStepWith c opc (fun _ x => x.retire) f

/-! ## Sequencer control -/

/-- NOP (R67). -/
def execNop (c : CogId) (s : State) : Result := .next (s.cogStep c 0x00 fun _ _ x => x.retire)

/-- LOOP pushes its loop entry, or skips the body where the predicate is false or the count is zero (R55). -/
def execLoop (c : CogId) (s : State) : Result :=
  let stop (i : CogInstr) : Nat := match i with
    | .s _ _ _ _ addr _ _ => addr
    | _ => 0
  .next (s.cogStepWith c 0x01 (fun i x => x.retireAt (stop i)) fun i _ x => match i with
    | .s _ k csel creg addr _ count =>
      let n := x.count csel creg count
      if n = 0 then x.retireAt addr
      else { x with loops := ⟨k, x.pc + 1, addr⟩ :: x.loops, ctr := Tab.set 0 x.ctr k n, ctrInit := Tab.set 0 x.ctrInit k n,
                    pc := x.pc + 1 }
    | _ => x)

/-- BR: pc := ADDR (R67). -/
def execBr (c : CogId) (s : State) : Result :=
  .next (s.cogStep c 0x02 fun i _ x => match i with
    | .s _ _ _ _ addr _ _ => { x with pc := addr }
    | _ => x)

/-- END ends the token: the sequencer waits at its entry queue (R59). -/
def execCogEnd (c : CogId) (s : State) : Result :=
  .next (s.cogStep c 0x03 fun _ _ x => { x.retire with mode := .entry })

/-- STOP ends the cog's part in the command (R61). -/
def execStop (c : CogId) (s : State) : Result :=
  .next (s.cogStep c 0x04 fun _ _ x => { x.retire with mode := .idle })

/-- SEQ_TOKEN_START (R59, R122): the plane that the head flit of the entry queue names starts at address 0. -/
def execSeqTokenStart (c : CogId) (s : State) : Result :=
  s.ifLive <|
    match if (s.cog c).freewheel then none else s.tokenStart c with
    | some pl =>
      let x := s.cog c
      let live := match s.regionOf c with
        | some (_, r) => pl == r.live
        | none => false
      (s.setCog c { x with mode := .run, plane := pl, pc := 0, waited := none, ranLive := x.ranLive || live }).note c false
    | none => s

/-! ## Address registers and predicates -/

/-- An instruction of format A: it writes its result and retires. -/
def State.cogA (s : State) (c opc : Nat) (f : Nat → Nat → Nat → Nat → Nat → Cog → Cog) : State :=
  s.cogStep c opc fun i _ x => match i with
    | .a _ ad as_ cond pd _ imm => (f ad as_ cond pd imm x).retire
    | _ => x

/-- AIMM: a[AD] := IMM32. -/
def execAimm (c : CogId) (s : State) : Result :=
  .next (s.cogA c 0x08 fun ad _ _ _ imm x => x.setA ad (BitVec.ofNat 32 imm))
/-- AADD: a[AD] := a[AS] + IMM32. -/
def execAadd (c : CogId) (s : State) : Result :=
  .next (s.cogA c 0x09 fun ad as_ _ _ imm x => x.setA ad (x.areg as_ + BitVec.ofNat 32 imm))
/-- AADDR: a[AD] := a[AS] + a[IMM32[3:0]]. -/
def execAaddr (c : CogId) (s : State) : Result :=
  .next (s.cogA c 0x0A fun ad as_ _ _ imm x => x.setA ad (x.areg as_ + x.areg (imm % 16)))
/-- PCMP: p[PD] := a[AS] COND IMM32. -/
def execPcmp (c : CogId) (s : State) : Result :=
  .next (s.cogA c 0x0B fun _ as_ cond pd imm x => x.setP pd (pcmpHolds cond (x.areg as_) (BitVec.ofNat 32 imm)))
/-- PSET: p[PD] := IMM32[0]. -/
def execPset (c : CogId) (s : State) : Result :=
  .next (s.cogA c 0x0C fun _ _ _ pd imm x => x.setP pd (bit imm 0))
/-- ACNT: a[AD] := init[k] − c[k], 0 where ck is not active. -/
def execAcnt (c : CogId) (s : State) : Result :=
  .next (s.cogA c 0x0D fun ad _ _ _ imm x =>
    x.setA ad (if x.active (imm % 4) then BitVec.ofNat 32 (x.init (imm % 4) - x.c (imm % 4)) else 0))

/-! ## Results in flight -/

/-- Whether result `n` of those in flight may be written: no earlier one writes the same register, queue or bank (R52, R93). -/
def Cog.writable (x : Cog) (n : Nat) : Bool :=
  match x.inflight[n]? with
  | none => false
  | some f => (x.inflight.take n).all fun g => g.dests.all fun d => f.dests.all fun e => d.res != e.res

/-- INSTR_RESULT_WRITE (R52, R53): an instruction in flight writes its results. -/
def execInstrResultWrite (c : CogId) (n : Nat) (s : State) : Result :=
  s.ifLive <|
    let x := s.cog c
    match x.inflight[n]? with
    | some f =>
      if x.writable n then
        let y := f.dests.foldl Cog.put { x with inflight := x.inflight.eraseIdx n }
        (s.setCog c { y with waited := none }).note c false
      else s
    | none => s

/-! ## Freewheel and stalls (R75 to R79, R141) -/

/-- FREEWHEEL_ENTER (R75): a cog of a running command that has waited, with nothing at work, for ENTRY × 16 consecutive ACLK cycles,
this one among them, and into which no flit has come in this cycle. A flit that comes in the cycle in which the count is reached, without
ending the wait, only puts the entry off: it does not start the count again (DESIGN CHOICE, log 81: R75 does not say). -/
def execFreewheelEnter (c : CogId) (s : State) : Result :=
  s.ifLive <|
    let x := s.cog c
    match s.regionOf c with
    | some (_, r) =>
      match x.waited with
      | some t =>
        if r.cfg.fwEn && !x.freewheel && decide (t + r.cfg.fwEntry * 16 ≤ s.cycle) && s.waits c && x.flitAt != s.cycle then
          s.setCog c { x with freewheel := true, woken := false }
        else s
      | none => s
    | none => s

/-- FREEWHEEL_EXIT (R77): a flit that entered an input queue, or an output entry that became free, has woken the cog. -/
def execFreewheelExit (c : CogId) (s : State) : Result :=
  s.ifLive <|
    let x := s.cog c
    if x.freewheel && x.woken then (s.setCog c { x with freewheel := false, woken := false, waited := none }).note c false else s

/-- A region aborts with E_DEADLOCK (R141). -/
def State.deadlock (s : State) (r : Region) : State := s.abortCmd r.seq eDeadlock 0

/-- The earlier of the causes E_DEADLOCK and E_STALL that a region has met aborts its task; at the same time the lower code
does (R21). -/
def State.quietAbort (s : State) (r : Region) : State :=
  match s.deadAt r, s.stallAt r with
  | some d, some t => if d ≤ t then s.deadlock r else s.abortCmd r.seq eStall 0
  | some _, none => s.deadlock r
  | none, some _ => s.abortCmd r.seq eStall 0
  | none, none => s

/-- STREAM_STALL_TIMEOUT (R79): a region quiet for STREAM_STALL_LIMIT. -/
def execStreamStallTimeout (r : RunId) (s : State) : Result :=
  s.ifLive <|
    match Tab.find s.arr.regions r with
    | some x => if (s.stallAt x).isSome then s.quietAbort x else s
    | none => s

/-- DEADLOCK_TIMEOUT (R141): a region quiet, with a blocked join and pressed sources, for DEADLOCK_WINDOW. -/
def execDeadlockTimeout (r : RunId) (s : State) : Result :=
  s.ifLive <|
    match Tab.find s.arr.regions r with
    | some x => if (s.deadAt x).isSome then s.quietAbort x else s
    | none => s

end Sys2Proof.Machine
end

