-- ==== Sys2Proof/Machine/CogVec.lean ====
section
/-! DEFINITION. The compute instructions of a cog (R67 to R69, R84 to R105): MMA, the accumulators and their drain, and the
vector unit. -/

namespace Sys2Proof.Machine

/-- The settings of the command a cog works for (R107): those of its region, NZN off and SAT8 off outside one. -/
def State.numCfg (s : State) (c : Nat) : Bool × Bool :=
  match s.regionOf c with
  | some (_, r) => (r.cfg.nzn, r.cfg.sat8)
  | none => (false, false)

/-- Lane `i` of a vector of `w`-bit lanes (R82). -/
def lane (w v i : Nat) : Nat := bits v (w * i) w

/-- Sixteen lanes of `w` bits put together (R82). -/
def packLanes (w : Nat) (ls : List Nat) : Nat := ls.foldr (fun l acc => l % 2 ^ w + acc * 2 ^ w) 0

/-- The sixteen lanes of a value made by a function of the lane's number. -/
def lanes16 (w : Nat) (f : Nat → Nat) : Nat := packLanes w ((List.range 16).map f)

/-- An instruction of the vector unit with a vector result: `lat1` says that it has latency 1, `g` gives the result from the
settings, TYPE, IMM20 and the source values (R53, R67, R95). -/
def State.cogV (s : State) (c opc : Nat) (lat1 : Bool) (g : Bool × Bool → Nat → Nat → List Nat → Nat) : State :=
  s.cogStep c opc fun i vs x => match i with
    | .c h dst _ _ _ type _ et imm =>
      (x.result lat1 x.plane (vecDest dst (resultFlits h.opc type imm) (g (s.numCfg c) type imm vs) x.plane et)).retire
    | _ => x

/-- A lane result rounded to TYPE, with −0 written as +0 under NZN (R95, R105). -/
def laneEnc (cfg : Bool × Bool) (type : Nat) (v : FVal) : Nat := normZero cfg.1 (typeBits type) (encT cfg.2 type v)

/-- A lane-by-lane arithmetic operation of exact values, rounded once (R95). -/
def lanewise (cfg : Bool × Bool) (type : Nat) (vs : List Nat) (f : FVal → FVal → FVal → FVal) : Nat :=
  let w := typeBits type
  let val (k i : Nat) : FVal := valueOf type (lane w (vs.getD k 0) i)
  lanes16 w fun i => laneEnc cfg type (f (val 0 i) (val 1 i) (val 2 i))

/-! ## Moves and tests (R100) -/

/-- VMOV: DST := SRCA. -/
def execVmov (c : CogId) (s : State) : Result := .next (s.cogV c 0x20 true fun _ _ _ vs => vs.getD 0 0)

/-- VSEL: the SRCA lane where any bit of the SRCC lane is set, else the SRCB lane. -/
def execVsel (c : CogId) (s : State) : Result :=
  .next (s.cogV c 0x28 true fun _ type _ vs =>
    let w := typeBits type
    lanes16 w fun i => if lane w (vs.getD 2 0) i != 0 then lane w (vs.getD 0 0) i else lane w (vs.getD 1 0) i)

/-- VBCAST: every lane := lane IMM20[3:0] of SRCA. -/
def execVbcast (c : CogId) (s : State) : Result :=
  .next (s.cogV c 0x2E true fun _ type imm vs =>
    lanes16 (typeBits type) fun _ => lane (typeBits type) (vs.getD 0 0) (bits imm 0 4))

/-- VIMM: every lane := IMM20[15:0] read as BF16, widened exactly for FP32. -/
def execVimm (c : CogId) (s : State) : Result :=
  .next (s.cogV c 0x2F true fun _ type imm _ =>
    lanes16 (typeBits type) fun _ => if type = 0 then bits imm 0 16 * 2 ^ 16 else bits imm 0 16)

/-- VTST: p[IMM20[2:0]] := any bit of lane IMM20[7:4] of SRCA is set. -/
def execVtst (c : CogId) (s : State) : Result :=
  .next (s.cogStep c 0x30 fun i vs x => match i with
    | .c _ _ _ _ _ type _ _ imm =>
      (x.result false x.plane [.pred (bits imm 0 3) (lane (typeBits type) (vs.getD 0 0) (bits imm 4 4) != 0)]).retire
    | _ => x)

/-! ## Arithmetic (R95 to R99) -/

/-- VADD: DST := SRCA + SRCB. -/
def execVadd (c : CogId) (s : State) : Result :=
  .next (s.cogV c 0x21 false fun cfg type _ vs => lanewise cfg type vs fun a b _ => sumF [a, b])
/-- VSUB: DST := SRCA − SRCB. -/
def execVsub (c : CogId) (s : State) : Result :=
  .next (s.cogV c 0x22 false fun cfg type _ vs => lanewise cfg type vs fun a b _ => sumF [a, negF b])
/-- VMUL: DST := SRCA × SRCB. -/
def execVmul (c : CogId) (s : State) : Result :=
  .next (s.cogV c 0x23 false fun cfg type _ vs => lanewise cfg type vs fun a b _ => mulF a b)
/-- VFMA: DST := SRCA × SRCB + SRCC, one rounding. -/
def execVfma (c : CogId) (s : State) : Result :=
  .next (s.cogV c 0x24 false fun cfg type _ vs => lanewise cfg type vs fun a b d => sumF [mulF a b, d])
/-- VMAX (R97). -/
def execVmax (c : CogId) (s : State) : Result :=
  .next (s.cogV c 0x25 false fun cfg type _ vs => lanewise cfg type vs fun a b _ => maxF a b)
/-- VMIN (R97). -/
def execVmin (c : CogId) (s : State) : Result :=
  .next (s.cogV c 0x26 false fun cfg type _ vs => lanewise cfg type vs fun a b _ => minF a b)

/-- VCMP: each lane all ones where SRCA COND SRCB, else zero (R98). -/
def execVcmp (c : CogId) (s : State) : Result :=
  .next (s.cogV c 0x27 false fun _ type imm vs =>
    let w := typeBits type
    let val (k i : Nat) : FVal := valueOf type (lane w (vs.getD k 0) i)
    lanes16 w fun i => if vcmpHolds (bits imm 16 3) (val 0 i) (val 1 i) then 2 ^ w - 1 else 0)

/-- One level of the tree of R99: neighbours combined. -/
def pairUp (f : Nat → Nat → Nat) : List Nat → List Nat
  | a :: b :: ls => f a b :: pairUp f ls
  | ls => ls

/-- The reduction of R99: four levels on FP32 lanes. OP: 0 sum, 1 max, 2 min. -/
def vredLane (op type : Nat) (v : Nat) : FVal :=
  let f (a b : Nat) : Nat := enc32 (match op with
    | 0 => sumF [fp32 a, fp32 b]
    | 1 => maxF (fp32 a) (fp32 b)
    | _ => minF (fp32 a) (fp32 b))
  let ls := (List.range 16).map fun i => enc32 (valueOf type (lane (typeBits type) v i))
  fp32 ((pairUp f (pairUp f (pairUp f (pairUp f ls)))).getD 0 0)

/-- VRED: the sixteen lanes reduced and the result in every lane (R99). -/
def execVred (c : CogId) (s : State) : Result :=
  .next (s.cogV c 0x2A false fun cfg type imm vs =>
    let r := laneEnc cfg type (vredLane (bits imm 16 2) type (vs.getD 0 0))
    lanes16 (typeBits type) fun _ => r)

/-- A function of FP32 encodings applied lane by lane, and its result rounded to TYPE (R96). -/
def lanesFn (cfg : Bool × Bool) (type v : Nat) (f : Nat → Nat) : Nat :=
  lanes16 (typeBits type) fun i => laneEnc cfg type (fp32 (f (enc32 (valueOf type (lane (typeBits type) v i)))))

/-- VEXP2 (R96). -/
def execVexp2 (c : CogId) (s : State) : Result :=
  .next (s.cogV c 0x2B false fun cfg type _ vs => lanesFn cfg type (vs.getD 0 0) exp2F)
/-- VRCP (R96). -/
def execVrcp (c : CogId) (s : State) : Result :=
  .next (s.cogV c 0x2C false fun cfg type _ vs => lanesFn cfg type (vs.getD 0 0) rcpF)
/-- VRSQ (R96). -/
def execVrsq (c : CogId) (s : State) : Result :=
  .next (s.cogV c 0x2D false fun cfg type _ vs => lanesFn cfg type (vs.getD 0 0) rsqF)

/-! ## Conversion (R101 to R103) -/

/-- The sixteen lanes of a VCVT result, packed: a conversion to the same format changes only a NaN (R101). -/
def vcvtLanes (cfg : Bool × Bool) (type dtype v : Nat) : Nat :=
  lanes16 (typeBits dtype) fun i =>
    let x := lane (typeBits type) v i
    if type = dtype ∧ valueOf type x ≠ .nan then normZero cfg.1 (typeBits type) x else laneEnc cfg dtype (valueOf type x)

/-- VCVT: SRCA converted from TYPE to DTYPE. An FP8-class result takes the half of DST that DHALF names and leaves the other
(R101 to R103). -/
def execVcvt (c : CogId) (s : State) : Result :=
  .next (s.cogStep c 0x29 fun i vs x => match i with
    | .c _ dst _ _ _ type _ et imm =>
      let dtype := bits imm 16 3
      let r := vcvtLanes (s.numCfg c) type dtype (vs.getD 0 0)
      let ds := if 2 ≤ dtype then
          [.vreg dst (BitVec.ofNat 256 (setBits (x.v dst) (if bit imm 15 then 128 else 0) 128 r))]
        else vecDest dst (resultFlits 0x29 type imm) r x.plane et
      (x.result false x.plane ds).retire
    | _ => x)

/-! ## MMA and the accumulators (R68, R69, R87 to R93, R104) -/

/-- The vectors of an MMA operand by k: two where both operands are FP8-class or narrower, one otherwise (R68, R82). -/
def mmaVectors (w n v : Nat) : List (List Nat) := (List.range n).map fun k => (List.range 8).map fun i => lane w v (8 * k + i)

/-- The block scale of a firing: byte lane L of SRCC (R89). -/
def mmaScale (x : Cog) (imm sc : Nat) : Nat :=
  let l := if bit imm 9 then ((x.areg (bits imm 5 4)).toNat + bits imm 0 5) % 32 else bits imm 0 5
  bits sc (8 * l) 8

/-- MMA: the outer product of A and B added into a bank, or written over it (R68, R91). -/
def execMma (c : CogId) (s : State) : Result :=
  .next (s.cogStep c 0x10 fun i vs x => match i with
    | .c _ _ _ _ _ type _ _ imm =>
      let at_ := bits imm 16 2
      let n := if at_ = 0 then 1 else 2
      let scale := if 4 ≤ type then mmaScale x imm (vs.getD 2 0) else 127
      let as_ := mmaVectors (if at_ = 0 then 16 else 8) n (vs.getD 0 0)
      let bs := mmaVectors (typeBits type) n (vs.getD 1 0)
      (x.result false x.plane [.accAdd (bits imm 19 1) as_ bs at_ type scale (bit imm 18)]).retire
    | _ => x)

/-- ACCZ: bank IMM20[19] is zero. -/
def execAccz (c : CogId) (s : State) : Result :=
  .next (s.cogStep c 0x12 fun i _ x => match i with
    | .c _ _ _ _ _ _ _ _ imm => (x.put (.acc (bits imm 19 1) [])).retire
    | _ => x)

/-- ACCRD hands bank IMM20[19] to the drain engine (R69). -/
def execAccrd (c : CogId) (s : State) : Result :=
  .next (s.cogStep c 0x11 fun i _ x => match i with
    | .c _ dst _ _ _ type _ et imm => ({ x with drain := some ⟨bits imm 19 1, dst, type, 0, et, x.plane⟩ }).retire
    | _ => x)

/-- The number of flits a drain writes. -/
def Drain.flits (d : Drain) : Nat := if d.type = 0 then 8 else 4

/-- The data of flit `r` of a drain: row r in FP32, rows 2r and 2r + 1 in BF16, with NZN applied (R69, R104, R105). -/
def Cog.drainData (x : Cog) (d : Drain) (nzn : Bool) (r : Nat) : Nat :=
  if d.type = 0 then packLanes 32 ((List.range 8).map fun j => normZero nzn 32 (x.accAt d.bank (8 * r + j)))
  else packLanes 16 ((List.range 16).map fun j => normZero nzn 16 (encT true 1 (fp32 (x.accAt d.bank (16 * r + j)))))

/-- DRAIN_FLIT (R45, R69, R121, R128): the drain engine writes its next flit, once an output entry is granted. -/
def execDrainFlit (c : CogId) (s : State) : Result :=
  s.ifLive <|
    let x := s.cog c
    match x.drain with
    | none => s
    | some d =>
      if x.freewheel then s
      else
        let last := d.next + 1 == d.flits
        let data := x.drainData d (s.numCfg c).1 d.next
        let y := { x with drain := if last then none else some { d with next := d.next + 1 }, waited := none }
        match outOf d.dst with
        | none => (s.setCog c (y.setV (d.dst + d.next) (BitVec.ofNat 256 data))).note c false
        | some sd =>
          let o := x.oq sd
          if s.arbGrants c x 6 then
            (s.setCog c (y.setOq sd { o with flits := o.flits ++ [.make data d.plane (d.et && last)] })).note c false
          else s

end Sys2Proof.Machine
end

