-- ==== Sys2Proof/Machine/Sched.lean ====
section
/-! DEFINITION. Submission, acceptance, readiness, selection and dispatch of commands (R245 to R262, R303 to R307, R310,
R311, R317, R318), and a task whose next command does not come (R258). -/

namespace Sys2Proof.Machine

/-! ## Doorbells and acceptance -/

/-- A doorbell write (R247, R248): a new TAIL is stored, or ignored and counted where it would pass HEAD + SIZE or go back. -/
def State.ring (s : State) (q tail : Nat) : State :=
  let x := s.queue q
  if s.qSize q < posDiff tail x.head ∨ 2 ^ 31 ≤ posDiff tail x.tail then
    ((s.count F.Q_STATE.DB_IGNORED q 1).put F.Q_STATE.DB_ERR q true).raise (88 + qPart q)
  else s.setQueue q { x with tail := tail }

/-- DOORBELL (R223, R247, R248, R287). -/
def execDoorbell (f : FnId) (q : QueueId) (tail : Word32) (s : State) : Result :=
  s.ifHost f.val (RegKind.addr .DOORBELL q) <|
    if s.mainUp = false then s else if ownFn f.val (qPart q) then s.ring q tail.toNat else s.deny f

/-- The next sequence number whose journal slot is free, with the values passed over and whether the counter wrapped (R254).
The first argument bounds the search. -/
def State.freeSeq (s : State) : Nat → Nat → Nat → Nat × Nat × Nat
  | 0, n, k => (n, k, 0)
  | fuel + 1, n, k =>
    let (n, w) := if n ≥ 2 ^ 48 then (1, 1) else (n, 0)
    if (s.jget n).state.open_ then
      let (a, b, c) := s.freeSeq fuel (n + 1) (k + 1)
      (a, b, c + w)
    else (n, k, w)

/-- A sequence number is taken (R254). -/
def State.takeSeq (s : State) : State × Nat :=
  let (n, k, w) := s.freeSeq 65537 s.ctl.nextSeq 0
  let s := { s with ctl := { s.ctl with nextSeq := n + 1 } }
  let s := (s.count F.JNL_COUNT.SKIPS 0 k).wr F.JNL_STATUS.LAST_SEQ 0 n
  (s.wr F.JNL_STATUS.EPOCH 0 (s.rd F.JNL_STATUS.EPOCH 0 + w), n)

/-- The settings a command takes from the partition at its dispatch (R75, R79, R107, R141). -/
def State.runCfg (s : State) (p : Nat) : RunCfg where
  fwEn := s.on F.COG_FW_CTRL.FW_EN 0
  fwEntry := s.rd F.COG_FW_CTRL.ENTRY 0
  stallMs := s.rd F.COG_STALL_CFG.STREAM_STALL_LIMIT p
  dlUs := s.rd F.GEAR_DL_CFG.DEADLOCK_WINDOW p
  nzn := s.on F.COG_NUM_CFG.NZN p
  sat8 := s.on F.COG_NUM_CFG.SAT8 p

/-- Whether a queue's next command can be read: TAIL − ACCEPT ≥ 1 + NSLOT (R249). -/
def State.readable (s : State) (q : Nat) : Bool :=
  let x := s.queue q
  let n := posDiff x.tail x.accept
  decide (1 ≤ n) && decide (1 + (Header.parse (s.ringSlot q x.accept)).nslot ≤ n)

/-- Whether the device accepts from a queue now: the main tier is up (R223), its ring can be read, it is ENABLED in an ENABLED partition,
fewer than 16 of its commands wait, the next command can be read, and a journal slot is free (R249, R250, R254, R285). -/
def State.accepts (s : State) (q : Nat) : Bool :=
  s.mainUp && s.ringOpen q && s.rd F.Q_STATE.STATE q == 1 && s.rd F.SEC_PART_STATE.STATE (qPart q) == 1 && s.readable q &&
  decide (((s.queueCmds q).filter (·.2.undispatched)).length < 16) && decide (s.jlive < 65536)

/-- A command at its acceptance (R251, R255, R15). -/
def Cmd.new (q pos : Nat) (h : Header) (now task : Nat) : Cmd where
  queue := q
  pos := pos
  hdr := h
  acceptedAt := now
  deadline := toAbs now h.deadline
  budget := toAbs now h.budget
  task := task
  stage := .accepted
  hub := 0
  frame := 0
  readyAt := 0
  takenAt := 0
  startedAt := 0
  endedAt := 0
  segAt := 0
  dstep := 0
  maxLen := 0
  cfg := ⟨false, 0, 0, 0, false, false⟩
  spans := []
  runEnd := 0
  zeroExtent := false
  held := false
  decls := []
  handles := []
  issued := []

/-- The header a refused command is recorded with: a vector out of range, and the vector and event of a record whose format is
not accepted, name nothing. -/
def Header.safe (h : Header) (code : Nat) : Header :=
  if code = eVersion then { h with vec := 0xFF, evtDone := 0 }
  else { h with vec := if 63 < h.vec then 0xFF else h.vec }

/-- COMMAND_ACCEPT (R249 to R255, R257): the next command of a queue is accepted, or refused at acceptance, under the next
sequence number. A command of a task that has aborted becomes ABORTED as it is accepted. A refusal inside a task aborts the
task (DEDUCED, log 16). A later command of a task that has aborted whose header fails a check is REFUSED with its own code, not ABORTED
(DESIGN CHOICE, log 87). -/
def execCommandAccept (q : QueueId) (s : State) : Result :=
  s.ifLive <|
    let q := q.val
    if s.accepts q = false then s
    else
      let x := s.queue q
      let b := s.ringSlot q x.accept
      let h := Header.parse b
      let code := headerCheck b x.linkPrev
      let (s, n) := s.takeSeq
      let inTask := x.linkPrev && !x.doomed
      let task := if inTask then x.taskSeq else n
      let s := s.setCmd n (Cmd.new q x.accept (h.safe code) s.time task)
      let e : JEntry := ⟨h.kind % 2, h.link, s.qClass q, 1, if code = 0 then .accepted else .refused, n, x.accept, code,
        if code = 0 then 0 else stRefused, qPart q, q, 0, 0, h.cookie⟩
      let x' := { x with accept := (x.accept + 1 + h.nslot) % 2 ^ 32, linkPrev := h.link }
      if code ≠ 0 then
        let s := s.setQueue q x'
        let s := (s.jput n e).finish n .refused stRefused code 0
        if inTask then s.abortAll x.taskSeq eAborted 0
        else s.setQueue q { s.queue q with doomed := h.link }
      else
        let s := s.jset n e
        if x.doomed && x.linkPrev then
          let s := s.setQueue q { x' with doomed := h.link }
          s.finish n .aborted stAborted eAborted 0
        else
          let s := s.setTask task (match s.task task with
            | some t => if inTask then { t with cmds := t.cmds ++ [n], linkEnd := none } else ⟨q, [n], [], 0, [], [], none⟩
            | none => ⟨q, [n], [], 0, [], [], none⟩)
          (s.setQueue q { x' with taskSeq := task, taskOpen := true, doomed := false }).moveHead q

/-! ## Readiness and selection -/

/-- COMMAND_READY (R259, R303): READY_TIME is recorded once, and the queue enters the deque of its home hub. An entry that left the deque of a
hub taken offline, while no other hub that serves its class was online, may enter that of any hub that serves it (R298). -/
def execCommandReady (q : QueueId) (s : State) : Result :=
  s.ifLive <|
    let q := q.val
    match s.readyCmd q with
    | none => s
    | some (n, _) =>
      let s := s.dropUnserved q
      let x := s.queue q
      if x.inDeque || (List.range 8).any fun h => (s.hub h).cont == some q then s
      else
        let x := if x.readySeq = n then x else { x with readySeq := n, readyTime := s.time, adrift := false }
        let x := { x with home := (s.homeOf q).getD x.home }
        match (s.homeHub q).or (if x.adrift then s.anyHub q else none) with
        | none => s.setQueue q x
        | some h =>
          let cls := s.qClass q
          let y := s.hub h
          (s.setQueue q { x with inDeque := true, adrift := false }).setHub h (y.setDeque cls (y.deque cls ++ [q]))

/-- The frames of a hub that no taken, running or parked command uses (R243, R268). -/
def State.freeFrames (s : State) (h : Nat) : List Nat :=
  (List.range 5).filter fun f => !(s.ctl.cmds.any fun e =>
    e.2.hub == h && e.2.frame == f && (e.2.stage == .taken || e.2.stage == .running || e.2.stage == .parked))

/-- Hub `h` takes the ready command of a queue; which free frame it gets is a free value. -/
def State.takeCmd (s : State) (h q : Nat) : State :=
  match s.readyCmd q with
  | none => s.setQueue q { s.queue q with inDeque := false }
  | some (n, c) =>
    let fs := s.freeFrames h
    let (v, s) := s.draw 8
    let s := s.setCmd n { c with
      stage := .taken, hub := h, frame := fs.getD (v % (max 1 fs.length)) 0, readyAt := (s.queue q).readyTime
      takenAt := s.time, segAt := s.time, dstep := 0 }
    let s := s.setQueue q { s.queue q with inDeque := false, running := true }
    s.setHub h { s.hub h with cur := some n, wait := none, stalled := false, waited := false }

/-- A hub resumes a parked command whose wait has ended (R268, R309): the outcome reaches its register, or the command ends. -/
def State.unpark (s : State) (h n : Nat) : State :=
  let x := s.hub h
  match x.park.find? fun e => e.seq == n, s.cmd n with
  | some e, some c =>
    let s := s.setCmd n (Cmd.exclude { c with stage := .running, segAt := s.time } e.since s.work)
    let s := s.setQueue c.queue { s.queue c.queue with parked := false, running := true }
    let y := { x with park := x.park.filter fun e => e.seq != n, cur := some n, wait := none, stalled := false, waited := false,
                      regs := e.regs, pc := e.pc }
    match e.wait, e.result with
    | some w, some (_, word) =>
      if w.kind = .finish then (s.setHub h y).endCommand h n else s.setHub h (y.setReg w.rd (BitVec.ofNat 64 word))
    | _, _ => s.setHub h y
  | _, _ => s

/-- HUB_SELECT (R268, R304): a hub whose command waits parks it where it may; a free hub takes its next command. -/
def execHubSelect (h : HubId) (s : State) : Result :=
  s.ifLive <|
    let h := h.val
    let s := s.park h
    if (s.hub h).cur.isSome || !(s.hub h).stack.isEmpty then s
    else match s.pickNext h with
      | none => s.dropCont h
      | some (.parked n) => s.unpark h n
      | some (.cont q) => (s.setHub h { s.hub h with cont := none }).takeCmd h q
      | some (.own cls q) =>
        let s := s.dropCont h
        let x := s.hub h
        (s.setHub h (x.setDeque cls ((x.deque cls).drop 1))).takeCmd h q
      | some (.steal g cls q) =>
        let s := s.dropCont h
        let y := s.hub g
        (s.setHub g (y.setDeque cls (y.deque cls).dropLast)).takeCmd h q

/-! ## Dispatch (R260) -/

/-- The lead start statistics of R311, counted as a lead command becomes DISPATCHED, or REFUSED at dispatch. -/
def State.leadStart (s : State) (c : Cmd) : State :=
  if s.qClass c.queue = 0 then
    let t := s.time - c.readyAt
    let s := if 120000 < t then s.count F.HUB_LEAD_STAT.OVER_BOUND c.part 1 else s
    s.wrSat F.HUB_LEAD_STAT.MAX_START c.part (max t (s.rd F.HUB_LEAD_STAT.MAX_START c.part))
  else s

/-- A command is refused at dispatch (R257, R260). -/
def State.refuse (s : State) (n code : Nat) : State :=
  match s.cmd n with
  | some c => (s.leadStart c).abortTask c.task n true code 0
  | none => s

/-- A dispatch waits at a step. -/
def State.waitAt (s : State) (n step : Nat) : State := s.modCmd n fun c => { c with dstep := step }

/-- The RUN blocks of a command (R251, R269). -/
def Header.blocks (h : Header) (data : List Byte) : List RunBlk :=
  (h.runblk.take h.nrun).map fun o => RunBlk.parse (slice data o 192)

/-- The declaration list of a command (R252). -/
def Header.declList (h : Header) (data : List Byte) : List Nat :=
  (List.range h.ndecl).map fun i => fieldAt data (h.declOff + 8 * i) 8

/-- The data area of a command in its hub's frame (R262). -/
def State.frameData (s : State) (h : Nat) (c : Cmd) : List Byte := (s.hub h).scratch.readN (frameBase c.frame) c.hdr.dataLen

/-- How a dispatch step ended. -/
inductive Verdict where
  | ok | waits | refused (code : Nat) | aborted (code : Nat)
  deriving DecidableEq, Repr

/-- Step 3 for one RUN block: checks 1 to 4 of R152 and its A_PAD. A pointer list whose entries are read, and which is not resident, is first
loaded (R152, R169), and the step waits for the load. -/
def State.blockStep (s : State) (n : Nat) (c : Cmd) (r : RunBlk) : State × Verdict :=
  let p := c.part
  if shapeOk r.shape r.plist = false then (s, .refused eShape)
  else
    let done (s : State) : State × Verdict :=
      if s.plistOk c.task p r && r.padOk then (s, .ok) else (s, .refused eShape)
    if (listEntry r.shape).isNone then done s
    else match s.mainTensor p r.plist with
      | none => (s, .refused eShape)
      | some t =>
        let n0 := (shapeAt r.shape 0).runtime
        if n0 = 0 ∨ t.desc.dataLen < 16 * n0 then done s
        else match t.state with
        | .lost => (s, .aborted eStateLost)
        | .loading => (s.awaitLoad p r.plist n, .waits)
        | .absent =>
          match s.askLoad (reqOf n 17) p c.acceptedAt 0 t with
          | (s, .granted) => (s.loadFor p r.plist n, .waits)
          | (s, .waits) => (s, .waits)
          | (s, .refused) => (s, .refused eNoSpace)
        | _ => if s.mainPaused p r.plist 0 (16 * n0) then (s, .waits) else done (s.mainRead p r.plist 0 (16 * n0))

/-- Step 3 of R260 over the RUN blocks in index order. -/
def State.blockSteps (s : State) (n : Nat) (c : Cmd) : List RunBlk → State × Verdict
  | [] => (s, .ok)
  | r :: rs => match s.blockStep n c r with
    | (s, .ok) => s.blockSteps n c rs
    | v => v

/-- A sink of KV pages, which R326 exempts from step 4 of R260: its tensor is a page of a live sequence of the partition, or the template
through which an index names such pages (DEDUCED, log 39). -/
def State.kvExempt (s : State) (p : Nat) (d : StreamDesc) : Bool :=
  d.dir != 0 && s.srv.seqs.any fun e => e.2.part == p &&
    (e.2.desc.kvTemplate == d.tid || (e.2.holdsPage p d.tid && (s.tensor p d.tid).any fun t => t.desc.owner == e.2.req))

/-- Step 4 of R260 for a PROGRAM: every declared TID is defined, no RO tensor is written, fill targets are near-home, and the
tensors of the blocks' streams are declared. A MODE that R252 does not list fails it (DESIGN CHOICE, log 18). A fill target
counts as declared for the source that fills it (DEDUCED, log 19). An NSTREAM outside 1 to 16, and a STREAM_OFF that is no multiple of 64 or
whose descriptor leaves the data area, fail it (DESIGN CHOICE, log 87: no check names them). -/
def State.declOk (s : State) (p : Nat) (decls : List Decl) (blocks : List RunBlk) (data : List Byte) : Bool :=
  (decls.all fun d => match s.tensor p d.tid with
    | none => false
    | some t => d.mode != 0 && (d.mode == 1 || t.rw_ || d.mode == 3) && (d.mode != 3 || t.near)) &&
  (blocks.all fun r => decide (1 ≤ r.nstream ∧ r.nstream ≤ 16) &&
    ((r.offs.take r.nstream).all fun o => o % 64 == 0 && decide (o + 64 ≤ data.length)) &&
    ((r.streams data).all fun d =>
      (s.kvExempt p d || decls.any fun e => e.tid == d.tid && (if d.dir = 0 then e.mode == 1 || e.mode == 3 else e.mode == 2)) &&
      (d.mode == 0 || decls.any fun e => e.tid == d.itid && e.mode == 1)))

/-- The LOST tensors that an index stream gathers: those with no owner, of the template's shape (R181, R195). -/
def State.gathersLost (s : State) (k p : Nat) (d : StreamDesc) : Bool :=
  d.mode == 1 && d.ikind == 1 && (match s.tensor p d.tid, s.tensor p d.itid with
    | some t, some u => (List.range u.desc.elems).any fun i =>
        match s.tensor p (ofBytes (s.tbytes k p d.itid (4 * i) 4)) with
        | some w => w.state == .lost && w.desc.owner == 0 && w.desc.etype == t.desc.etype &&
            w.desc.extents == t.desc.extents.eraseIdx d.idim
        | none => false
    | _, _ => false)

/-- Whether a bulk-backed tensor that a command declares serves only as the backing of its fills: no stream of its RUN blocks names it as
tensor, index or pointer list (R170, R219). -/
def State.onlyBacks (s : State) (c : Cmd) (tid : Nat) : Bool :=
  (c.decls.any fun d => d.mode == 3 && (match s.tensor c.part d.tid with
    | some t => t.desc.back == 1 && t.desc.backAddr == tid
    | none => false)) &&
  (let data := s.frameData c.hub c
   (c.hdr.blocks data).all fun r => !(r.plist == tid && (listEntry r.shape).isSome) &&
     (r.streams data).all fun d => d.tid != tid && !(d.mode == 1 && d.itid == tid))

/-- Step 8 of R260: the holds can be taken, nothing named is LOADING, and no tensor to be written is WRITING or pinned
(R170, R171, R246, R343, R491). -/
def State.holdReady (s : State) (c : Cmd) : Bool :=
  s.canHold c && c.decls.all fun d => match s.tensor c.part d.tid with
    | none => true
    | some t => (t.state != .loading || (d.mode == 1 && s.onlyBacks c d.tid)) &&
        (d.mode == 1 || (t.state != .writing && !s.pinned c.part d.tid))

/-- The holds are taken and every held tensor is touched (R171, R191). -/
def State.takeHolds (s : State) (n : Nat) (c : Cmd) : State :=
  let s := s.setCmd n { c with held := true }
  c.decls.foldl (fun s d => s.modTensor c.part d.tid fun t => { t with touch := s.time }) s

/-- A PROGRAM is DISPATCHED and execution begins at the first word of its body (R260, R262). -/
def State.startProgram (s : State) (h n : Nat) (c : Cmd) : State :=
  let s := (s.takeHolds n c).jset n { s.jget n with state := .dispatched }
  let s := s.leadStart c
  let s := s.modCmd n fun c => { c with
    stage := .running, startedAt := s.work, maxLen := s.rd F.HUB_PART_CFG.CMD_MAXLEN c.part, cfg := s.runCfg c.part, dstep := 0 }
  let regs : Tab Word64 := [(1, n), (2, frameBase c.frame), (3, c.pos), (4, c.queue)].foldl
    (fun m e => Tab.set 0 m e.1 (BitVec.ofNat 64 e.2)) []
  let s := s.setHub h { s.hub h with regs := regs, pc := bodyBase c.frame, wait := none, stalled := false, waited := false }
  s.moveHead c.queue

/-- Steps 8 and on for a PROGRAM. -/
def State.holdStep (s : State) (h n : Nat) : State :=
  match s.cmd n with
  | none => s
  | some c => if s.holdReady c then s.startProgram h n c else s.waitAt n 8

/-- Step 7 of R260: the shadow pages of the command's sink streams are reserved (R173). -/
def State.reserveStep (s : State) (h n : Nat) : State :=
  match s.cmd n with
  | none => s
  | some c =>
    let data := s.frameData h c
    let pages := ((c.hdr.blocks data).map fun r => ((r.streams data).map (s.sinkPages c.task c.part r)).foldl (· + ·) 0).foldl (· + ·) 0
    match s.takePages (reqOf n 17) c.part c.acceptedAt pages with
    | (s, .granted) => (s.modTask c.task fun t => { t with reserved := t.reserved + pages }).holdStep h n
    | (s, .waits) => s.waitAt n 7
    | (s, .refused) => s.refuse n eNoSpace

/-- Steps 3 to 6 of R260 for a PROGRAM. -/
def State.programSteps (s : State) (h n : Nat) (c : Cmd) : State :=
  let data := s.frameData h c
  let blocks := c.hdr.blocks data
  match s.blockSteps n c blocks with
  | (s, .refused code) => s.refuse n code
  | (s, .aborted code) => s.abortCmd n code 0
  | (s, .waits) => s.waitAt n 3
  | (s, .ok) =>
    let decls := (c.hdr.declList data).map fun w => (⟨w % 2 ^ 32, bits w 32 2⟩ : Decl)
    if s.declOk c.part decls blocks data = false then s.refuse n eShape
    else
      let c := { c with decls := decls }
      let s := s.setCmd n c
      if blocks.any fun r => zeroExtent r.shape then
        (s.setCmd n { c with zeroExtent := true, cfg := s.runCfg c.part }).endCommand h n
      else if (decls.any fun d => (s.tensor c.part d.tid).any fun t => t.state == .lost) ||
          blocks.any (fun r => (r.streams data).any (s.gathersLost c.task c.part)) then
        s.abortCmd n eStateLost 0
      else s.reserveStep h n

/-- A REQUEST's sequence joins its batch (R318): the entry becomes DISPATCHED, the command is live, and the hub is free. -/
def State.joinBatch (s : State) (h n : Nat) (c : Cmd) (r : Request) (slot pages : Nat) : State :=
  let s := s.admitSeq c.part n slot pages c.deadline r
  let s := ((s.takeHolds n c).jset n { s.jget n with state := .dispatched }).leadStart c
  let s := (s.addSlice c).leadHold c
  let s := s.modCmd n fun c => { c with stage := .live }
  let s := (s.dropTask c.task).closeTask c.queue c.task
  let s := s.setQueue c.queue { s.queue c.queue with running := false }
  let s := s.setHub h { s.hub h with cur := none, wait := none, stalled := false, waited := false, regs := [], pc := 0 }
  (s.moveHead c.queue).yieldHub h c.queue

/-- The slot is free and the batch takes sequences (check 1 of R318). -/
def State.batchRoom (s : State) (b : Nat) : Option Nat := if s.batchState b = 1 then s.freeSlot b else none

/-- Check 3 of R318: the reservation; the request waits through an eviction's write-back. -/
def State.admitStep (s : State) (h n : Nat) : State :=
  match s.cmd n with
  | none => s
  | some c =>
    let r := Request.parse (s.frameData h c)
    let pages := s.seqPages c.part r
    match s.takePages (reqOf n 17) c.part c.acceptedAt pages with
    | (s, .waits) => s.waitAt n 9
    | (s, .refused) => s.refuse n eAdmitSpace
    | (s, .granted) => match s.batchRoom r.batch with
      | some slot => if s.kvFree c.part r then s.joinBatch h n c r slot pages else s.refuse n eShape
      | none => s.refuse n eAdmitSpace

/-- Steps 8 and 9 of R260 for a REQUEST. Check 6 of R317 is made again after a wait at either (DEDUCED, log 89). -/
def State.requestHold (s : State) (h n : Nat) : State :=
  match s.cmd n with
  | none => s
  | some c =>
    let r := Request.parse (s.frameData h c)
    if s.holdReady c = false then s.waitAt n 8
    else if s.kvFree c.part r = false then s.refuse n eShape
    else if (s.batchRoom r.batch).isNone then s.refuse n eAdmitSpace
    else if s.timeOk r c.deadline c.budget = false then s.refuse n eAdmitTime
    else s.admitStep h n

/-- Steps 4 to 6 of R260 for a REQUEST (R317). -/
def State.requestSteps (s : State) (h n : Nat) (c : Cmd) : State :=
  let r := Request.parse (s.frameData h c)
  if s.requestOk c.part c.hdr.nslot r = false then s.refuse n eShape
  else
    let s := s.setCmd n { c with decls := r.reads }
    if r.reads.any fun d => (s.tensor c.part d.tid).any fun t => t.state == .lost then s.abortCmd n eStateLost 0
    else s.requestHold h n

/-- Step 1 of R260: the body and the data area of a command are read into the hub's body area and frame. -/
def State.readBody (s : State) (h : Nat) (c : Cmd) : State :=
  let raw := s.ringSlots c.queue (c.pos + 1) c.hdr.nslot
  let data := raw.drop (64 * ceilDiv c.hdr.bodyLen 8)
  let x := s.hub h
  let im := (List.range c.hdr.bodyLen).foldl
    (fun m i => Tab.set 0 m (bodyBase c.frame + i) (BitVec.ofNat 64 (fieldAt raw (8 * i) 8))) x.imem
  s.setHub h { x with imem := im, scratch := x.scratch.writeN (frameBase c.frame) data }

/-- The host address of a position of a ring that stands in host memory. -/
def State.ringAddr (s : State) (q pos : Nat) : Nat := s.rd F.Q_BASE.BASE q + pos % s.qSize q * 64

/-- What a dispatch read that has failed beyond repair leaves in the logs: from host memory two failed reads (R192, R396). -/
def State.ringFails (s : State) (c : Cmd) : State :=
  if s.on F.Q_CFG.LOC c.queue then s
  else
    let a := s.ringAddr c.queue (c.pos + 1)
    ((s.pciEvent 8 (c.part + 1) a).fault 0).pciEvent 8 (c.part + 1) a

/-- COMMAND_DISPATCH (R260 to R262, R301, R317, R318): the hub runs the dispatch steps of the command it has taken, or goes on with
one that waited for pages or a load; not while it runs an interrupt handler (R409).
The read of step 1 needs the engine's grant, and of host memory a window (R390, R396). `readFail` says that the ring read failed beyond
repair. -/
def execCommandDispatch (h : HubId) (readFail : Bool) (s : State) : Result :=
  s.ifLive <|
    let h := h.val
    match s.curCmd h with
    | none => s
    | some (n, c) =>
      if c.stage ≠ .taken ∨ (s.hub h).stack.isEmpty = false then s
      else match c.dstep with
        | 0 =>
          if s.ringOpen c.queue = false ∨ s.engGrants (s.ringEngine c.queue) (s.readReq c) = false then s
          else if s.on F.Q_CFG.LOC c.queue = false ∧ s.window (c.part + 1) (s.ringAddr c.queue (c.pos + 1)) 64 false = false then
            (s.pciEvent 9 (c.part + 1) (s.ringAddr c.queue (c.pos + 1))).abortCmd n eParity 0
          else if readFail then (s.ringFails c).abortCmd n eParity 0
          else
            let s := ((s.engServe (s.ringEngine c.queue) (s.readReq c)).readBody h c).hostGoes
            if c.deadline ≠ timeNone ∧ c.deadline ≤ s.time then s.refuse n eAdmitTime
            else if c.hdr.kind = 1 then s.requestSteps h n c else s.programSteps h n c
        | 3 => s.programSteps h n c
        | 7 => s.reserveStep h n
        | 9 => s.admitStep h n
        | _ => s

/-- DISPATCH_HOLD_GRANT (R171): a dispatch that waits at step 8 goes on once its holds can be taken. -/
def execDispatchHoldGrant (h : HubId) (s : State) : Result :=
  s.ifLive <|
    let h := h.val
    match s.curCmd h with
    | none => s
    | some (n, c) =>
      if c.stage = .taken ∧ (s.hub h).stack.isEmpty = true ∧ c.dstep = 8 ∧ s.holdReady c = true then
        if c.hdr.kind = 1 then s.requestHold h n else s.holdStep h n
      else s

/-- TASK_LINK_STALL (R258): a task whose next command has not become readable within the stall limit of its LINK = 1 command
aborts with E_STALL. A queue that is no longer ENABLED accepts nothing, so its open task ends so too (DEDUCED, log 20). -/
def execTaskLinkStall (q : QueueId) (s : State) : Result :=
  s.ifLive <|
    let q := q.val
    let x := s.queue q
    if x.linkPrev && x.taskOpen && !x.doomed && (!s.readable q || s.rd F.Q_STATE.STATE q != 1) then
      match s.task x.taskSeq with
      | none => s
      | some t => match t.linkEnd, t.cmds.getLast? with
        | some e, some n =>
          let ms := match s.cmd n with
            | some c => c.cfg.stallMs
            | none => 0
          let t := timeAdd e (ms * 1000000)
          if (s.cmd n).any (fun c => c.stage == .ended) && s.due e (ms * 1000000) then
            s.abortBy x.taskSeq ((s.firstCause x.taskSeq t eStall).getD ⟨t, eStall, 0, n, []⟩)
          else s
        | _, _ => s
    else s

end Sys2Proof.Machine
end

