-- ==== Sys2Proof/Machine/QueueCtl.lean ====
section
/-! DEFINITION. Queue, hub and partition control: enable, disable, cancel, shutdown and re-enable (R244, R246, R285, R286,
R292 to R298), the slot table (R299, R300), event additions (R275) and pool floors (R187). -/

namespace Sys2Proof.Machine

/-- A wait in µs of a pended enable. -/
def State.waitUs (s : State) (since : Nat) : Nat := (s.time - since) / 1000

/-! ## Queues (R246, R285, R286) -/

/-- The ring of a queue meets R246. -/
def State.ringOk (s : State) (q : Nat) : Bool :=
  let base := s.rd F.Q_BASE.BASE q
  let n := s.qSize q * 64
  if s.on F.Q_CFG.LOC q then
    match s.mainTensor (qPart q) (base % 2 ^ 32) with
    | some t => t.rw_ && t.desc.length == n
    | none => false
  else base % 64 == 0 && s.window (qPart q + 1) base n false

/-- A DISABLED queue becomes ENABLED, or stays DISABLED with CFG_ERR. -/
def State.enableQueue (s : State) (q : Nat) : State :=
  if s.ringOk q then s.wr F.Q_STATE.STATE q 1 else (s.put F.Q_STATE.CFG_ERR q true).raise (88 + qPart q)

/-- ENABLE written to a queue (R285, R286). -/
def State.askEnable (s : State) (q : Nat) : State :=
  match s.rd F.Q_STATE.STATE q with
  | 0 => s.enableQueue q
  | 2 => (s.put F.Q_STATE.ENABLE_PEND q true).setQueue q { s.queue q with pendAt := s.time }
  | _ => s

/-- QUEUE_ENABLE (R246, R285, R286). -/
def execQueueEnable (f : FnId) (q : QueueId) (s : State) : Result :=
  s.ifHost f.val (RegKind.addr .Q_CTRL q) <| if ownFn f.val (qPart q.val) then s.askEnable q.val else s.deny f

/-- DISABLE written to a queue (R285, R286). -/
def State.askDisable (s : State) (q : Nat) : State :=
  match s.rd F.Q_STATE.STATE q with
  | 1 => s.wr F.Q_STATE.STATE q 2
  | 2 => s.put F.Q_STATE.ENABLE_PEND q false
  | _ => s

/-- QUEUE_DISABLE (R285, R286). -/
def execQueueDisable (f : FnId) (q : QueueId) (s : State) : Result :=
  s.ifHost f.val (RegKind.addr .Q_CTRL q) <| if ownFn f.val (qPart q.val) then s.askDisable q.val else s.deny f

/-- Every command of a queue that is not final is aborted with one code and DETAIL (R285): its sequences, also one whose END record waits for
its ring, and then its tasks. -/
def State.abortQueue (s : State) (q error detail : Nat) : State :=
  let s := ((s.queueCmds q).filter fun e => e.2.stage == .live).foldl
    (fun s e => (s.seqAbort e.1 error detail).finish e.1 .aborted stAborted error detail) s
  ((s.ctl.tasks.filter fun e => e.2.queue == q).map (·.1)).foldl (fun s k => s.abortAll k error detail) s

/-- A CANCEL of a queue that is ENABLED or STOPPING (R285). -/
def State.cancelQueue (s : State) (q : Nat) : State :=
  match s.rd F.Q_STATE.STATE q with
  | 0 => s
  | _ => ((s.put F.Q_STATE.ENABLE_PEND q false).wr F.Q_STATE.STATE q 2).abortQueue q eAborted 0xFF

/-- QUEUE_CANCEL (R285, R286). -/
def execQueueCancel (f : FnId) (q : QueueId) (s : State) : Result :=
  s.ifHost f.val (RegKind.addr .Q_CTRL q) <| if ownFn f.val (qPart q.val) then s.cancelQueue q.val else s.deny f

/-- QUEUE_STOP_DONE (R285, R286): a STOPPING queue without a non-final command clears its context, keeping its positions, and
becomes DISABLED; a pended ENABLE then runs. -/
def execQueueStopDone (q : QueueId) (s : State) : Result :=
  s.ifLive <|
    let q := q.val
    if s.rd F.Q_STATE.STATE q = 2 ∧ (s.queueCmds q).isEmpty then
      let x := s.queue q
      let s := (s.setQueue q { Queue.clear with accept := x.accept, head := x.head, tail := x.tail }).undeque q
      let s := s.wr F.Q_STATE.STATE q 0
      if s.on F.Q_STATE.ENABLE_PEND q then
        let s := (s.put F.Q_STATE.ENABLE_PEND q false).enableQueue q
        if s.rd F.Q_STATE.STATE q = 1 then (s.put F.Q_STATE.WAITED q true).wrSat F.Q_STATE.WAIT_US q (s.waitUs x.pendAt) else s
      else s
    else s

/-- HUB_EVENT_ADD (R275). -/
def execHubEventAdd (f : FnId) (p : PartId) (e : EventId) (v : Word32) (s : State) : Result :=
  s.ifHost f.val (RegKind.addr .HUB_EVENT_ADD (RegKind.idx .HUB_EVENT_ADD p e)) <| if ownFn f.val p.val then s.eventAdd p.val e.val v.toNat else s.deny f

/-! ## Hubs (R298) -/

/-- A deque entry of a hub that goes offline moves to the tail of another hub's deque of its class, or waits for one. -/
def State.moveEntry (s : State) (h cls q : Nat) : State :=
  let dst := (s.homeHub q).or ((s.others (qPart q) h).find? fun g => s.serves (qPart q) g cls)
  match dst with
  | some g => s.setHub g ((s.hub g).setDeque cls ((s.hub g).deque cls ++ [q]))
  | none => s.setQueue q { s.queue q with inDeque := false, adrift := true }

/-- Steps 1 and 2 of R298. -/
def State.stopHub (s : State) (h : Nat) : State :=
  let s := (s.wr F.HUB_CTRL.STATE h 2).dropCont h
  let x := s.hub h
  let s := s.setHub h { x with lead := [], pack := [], broom := [] }
  [0, 1, 2].foldl (fun s cls => (x.deque cls).foldl (fun s q => s.moveEntry h cls q) s) s

/-- A hub becomes ONLINE, with the microcode that an activation left for it (R298, R482). -/
def State.startHub (s : State) (h : Nat) : State :=
  (s.wr F.HUB_CTRL.STATE h 1).setHub h { s.hub h with loadOnEnable := false }

/-- A hub is held by an activation of hub microcode: host writes to its HUB_CTRL are ignored (R481). -/
def State.hubHeld (s : State) (h : Nat) : Bool :=
  match s.sec.active with
  | some a => a.comp == 2 && a.hubs.head? == some h
  | none => false

/-- DISABLE written to a hub (R298, R481). -/
def State.askHubOff (s : State) (h : Nat) : State :=
  if s.hubHeld h then s
  else match s.rd F.HUB_CTRL.STATE h with
    | 1 => s.stopHub h
    | 2 => s.put F.HUB_CTRL.ENABLE_PEND h false
    | _ => s

/-- HUB_DISABLE (R298). -/
def execHubDisable (f : FnId) (h : HubId) (s : State) : Result :=
  s.ifHost f.val (RegKind.addr .HUB_CTRL h) <| if isPF f.val then s.askHubOff h else s.deny f

/-- ENABLE written to a hub (R298, R481). -/
def State.askHubOn (s : State) (h : Nat) : State :=
  if s.hubHeld h then s
  else match s.rd F.HUB_CTRL.STATE h with
    | 0 => s.startHub h
    | 2 => (s.put F.HUB_CTRL.ENABLE_PEND h true).setHub h { s.hub h with pendAt := s.time }
    | _ => s

/-- HUB_ENABLE (R298). -/
def execHubEnable (f : FnId) (h : HubId) (s : State) : Result :=
  s.ifHost f.val (RegKind.addr .HUB_CTRL h) <| if isPF f.val then s.askHubOn h else s.deny f

/-- HUB_OFFLINE_DONE (R298): a STOPPING hub with no running or parked command clears itself and becomes OFFLINE; a pended ENABLE
then takes effect. -/
def execHubOfflineDone (h : HubId) (s : State) : Result :=
  s.ifLive <|
    let h := h.val
    let x := s.hub h
    if s.rd F.HUB_CTRL.STATE h = 2 ∧ x.cur.isNone ∧ x.park.isEmpty ∧ x.stack.isEmpty then
      let s := (s.clearHub h).wr F.HUB_CTRL.STATE h 0
      if s.on F.HUB_CTRL.ENABLE_PEND h then
        (((s.put F.HUB_CTRL.ENABLE_PEND h false).startHub h).put F.HUB_CTRL.WAITED h true).wrSat
          F.HUB_CTRL.WAIT_US h (s.waitUs x.pendAt)
      else s
    else s

/-! ## The slot table (R299, R300) -/

/-- COMMIT (R300): the staging table waits for the next slot 0; a COMMIT while one waits changes nothing. -/
def execCommit (f : FnId) (s : State) : Result :=
  s.ifHost f.val (RegKind.addr .HUB_CYCLE_CTRL 0) <| if isPF f.val then s.put F.HUB_CYCLE_CTRL.PENDING 0 true else s.deny f

/-- CYCLE_TABLE_ACTIVATE (R300): at the start of slot 0 the staging table becomes active, all of it at once. -/
def execCycleTableActivate (s : State) : Result :=
  s.ifLive <|
    if s.on F.HUB_CYCLE_CTRL.PENDING 0 && s.time % 1024000 == 0 then
      let t := (List.range 128).foldl (fun m i =>
        Tab.set none m i (if s.on F.HUB_CYCLE.VALID i then some (s.rd F.HUB_CYCLE.PART i) else none)) []
      { (s.put F.HUB_CYCLE_CTRL.PENDING 0 false) with ctl := { s.ctl with table := t } }
    else s

/-- SLOT_BOUNDARY (R299, R301): the slot that holds rank 1 at the shared engines is the one running now. -/
def execSlotBoundary (s : State) : Result :=
  s.ifLive { s with ctl := { s.ctl with slot := slotAt s.time } }

/-! ## Partitions (R292, R294 to R297) -/

/-- The partition that is ENABLED with a block in its rectangle, if any. -/
def State.partOfBlock (s : State) (b : Nat) : Option Nat :=
  (List.range 16).find? fun p => s.rd F.SEC_PART_STATE.STATE p == 1 && inRect (s.rd F.SEC_PART_MAP.RECT p) b

/-- Whether the mesh link of a cog on a side is masked (R289, R292): it joins blocks that are not both of one ENABLED
partition. Edge links are never masked. -/
def State.masked (s : State) (c : Nat) (d : Side) : Bool :=
  match neighbour c d with
  | none => false
  | some e => (s.partOfBlock (blockOf c)).isNone || s.partOfBlock (blockOf c) != s.partOfBlock (blockOf e)

/-- R295 and R453: partition `p` is ENABLED with its rectangle's masks closed, its hubs assigned and cleared, and its queues DISABLED at
position 0. -/
def State.enablePart (s : State) (p rect hubs : Nat) : State :=
  let s := (((s.wr F.SEC_PART_MAP.RECT p rect).wr F.SEC_PART_MAP.HUBS p hubs).wr F.SEC_PART_MAP.ENABLE p 1).wr F.SEC_PART_STATE.STATE p 1
  let s := { s with sec := { s.sec with meas := Tab.erase s.sec.meas (16 + p) } }
  let s := (List.range 8).foldl (fun s h => if bit hubs h then (s.clearHub h).setHub h { (s.clearHub h).hub h with part := some p } else s) s
  (List.range 64).foldl (fun s i => (s.wr F.Q_STATE.STATE (64 * p + i) 0).setQueue (64 * p + i) Queue.clear) s

/-- Step 1 of R296: partition `p` is STOPPING and a CANCEL strikes every queue of it. -/
def State.disablePart (s : State) (p : Nat) : State :=
  let s := (s.wr F.SEC_PART_STATE.STATE p 2).wr F.SEC_PART_MAP.ENABLE p 0
  (List.range 64).foldl (fun s i => s.cancelQueue (64 * p + i)) s

/-- Every tensor of a partition is freed without write-back, and its pages return zeroed to the pool (R296). -/
def State.freeTensors (s : State) (p : Nat) : State :=
  let s := s.leavePool ((s.mem.tensors.filter fun e => e.2.part == p).flatMap (·.2.frames))
  { s with
    rlt := { s.rlt with
      xfers := s.rlt.xfers.filter fun x => x.part != p
      msgs := s.rlt.msgs.map fun m => if m.part = p then { m with begun := false } else m }
    pci := { s.pci with
      dma := s.pci.dma.map fun e => if e.2.part = p then (e.1, { e.2 with dropped := true }) else e
      reads := s.pci.reads.filter fun r => r.part != p }
    mem := { s.mem with
      tensors := s.mem.tensors.filter fun e => e.2.part != p
      admits := s.mem.admits.filter fun e => e.2.1 != p
      kvShadows := s.mem.kvShadows.filter fun e => e.1 / 2 ^ 32 != p }
    ctl := { s.ctl with ops := s.ctl.ops.filter fun e => e.2.part != p } }

/-- Both planes of every cog of a rectangle become EMPTY and every bank of it is written with zeros (R296). -/
def State.scrubRect (s : State) (rect : Nat) : State :=
  let s := (rectBlocks rect).foldl (fun s b => (s.setBplane b false .empty).setBplane b true .empty) s
  (rectCogs rect).foldl (fun s c => s.setCog c { s.cog c with planeA := .empty, planeB := .empty, bank := [] }) s

/-- Steps 3 to 9 of R296. -/
def State.scrubPart (s : State) (p : Nat) : State :=
  let s := (List.range 8).foldl (fun s h =>
    if (s.hub h).part = some p then (s.clearHub h).setHub h { (s.clearHub h).hub h with part := none, lead := [], pack := [], broom := [] } else s) s
  let s := ((s.endGloads (· == p)).scrubRect (s.rd F.SEC_PART_MAP.RECT p)).freeTensors p
  let s := (List.range 256).foldl (fun s e => s.wr F.HUB_EVENT.COUNT (RegKind.idx .HUB_EVENT p e) 0) s
  (List.range 64).foldl (fun s i =>
    let q := 64 * p + i
    (((s.setReg .Q_BASE q (RegKind.resetVal .Q_BASE q)).setReg .Q_CFG q (RegKind.resetVal .Q_CFG q)).wr F.Q_STATE.STATE q 0).setQueue q .clear) s

/-- PARTITION_STOP_DONE (R294, R296, R297): a STOPPING partition whose commands are all final is scrubbed and becomes DISABLED;
a pended enable then runs R295. -/
def execPartitionStopDone (p : PartId) (s : State) : Result :=
  s.ifLive <|
    let p := p.val
    if s.rd F.SEC_PART_STATE.STATE p = 2 ∧ (s.ctl.cmds.all fun e => e.2.part != p) then
      let s := (s.scrubPart p).wr F.SEC_PART_STATE.STATE p 0
      match Tab.find s.ctl.partPend p with
      | some x =>
        let s := { s with ctl := { s.ctl with partPend := Tab.erase s.ctl.partPend p } }
        let s := (s.put F.SEC_PART_STATE.ENABLE_PEND p false).enablePart p x.rect x.hubs
        (s.put F.SEC_PART_STATE.WAITED p true).wrSat F.SEC_PART_STATE.WAIT_US p (s.waitUs x.since)
      | none => s
    else s

/-! ## Pool floors (R187) -/

/-- POOL_FLOOR[p] written (R187, R196): a floor that would make the floors exceed the pool is ignored and sets FLOOR_ERR. -/
def State.writeFloor (s : State) (p v : Nat) : State :=
  let s := if bit v 31 then s.put F.POOL_FLOOR.FLOOR_ERR p false else s
  let n := bits v 0 25
  let others := (((List.range 16).filter (· != p)).map fun q => s.rd F.POOL_FLOOR.FLOOR q).foldl (· + ·) 0
  if s.rd F.POOL_TOTAL.PAGES 0 < others + n then s.put F.POOL_FLOOR.FLOOR_ERR p true else s.wr F.POOL_FLOOR.FLOOR p n

/-- POOL_FLOOR_WRITE (R187, R196). -/
def execPoolFloorWrite (f : FnId) (p : PartId) (v : Word32) (s : State) : Result :=
  s.ifHost f.val (RegKind.addr .POOL_FLOOR p) <| if isPF f.val then s.writeFloor p v.toNat else s.deny f

end Sys2Proof.Machine
end

