-- ==== Sys2Proof/Machine/Mesh.lean ====
section
/-! DEFINITION. Links, the router, spilling and TURN marks (R34 to R47, R124 to R136): what crosses a link, what the router does
with a head flit, spill episodes, and how output queues turn under a SHIFT. -/

namespace Sys2Proof.Machine

/-! ## Links (R34 to R37, R47, R369) -/

/-- The flit that waits to cross into an input queue: the head of the neighbour's output queue; of the edge port; or of what
the fabric core holds for an east link, once a RUN has its cog (R47, R369). -/
def State.crossing (s : State) (c : Nat) (d : Side) : Option Flit :=
  match neighbour c d with
  | some e =>
    let o := (s.cog e).oq d.opp
    if o.mark || s.masked c d then none else o.flits.head?
  | none =>
    let e := s.edgeIn c d
    match e.flits with
    | f :: _ => if e.mark && (match s.regionOf c with
        | some (_, r) => f.tag == r.live
        | none => false) then none else some f
    | [] =>
      if d = .e ∧ e.mark = false then
        match s.regionOf c, (s.eastIn (cogY c)).flits with
        | some (_, r), (w, eot) :: _ =>
          let tag := r.stamp (s.eastIn (cogY c)).tok
          if e.closed || (r.draining && tag == r.live && !e.turned) then none else some (.make w.toNat tag eot)
        | _, _ => none
      else none

/-- Consecutive negative acknowledgements of the flit that waits to cross into an input queue. -/
def State.nacks (s : State) (c : Nat) (d : Side) : Nat :=
  match neighbour c d with
  | some e => ((s.cog e).oq d.opp).nacks
  | none => (s.edgeIn c d).nacks

/-- A negative acknowledgement reaches the sender of a link into the array (R36). -/
def State.setNacks (s : State) (c : Nat) (d : Side) (n : Nat) : State :=
  match neighbour c d with
  | some e => let x := s.cog e; s.setCog e (x.setOq d.opp { x.oq d.opp with nacks := n })
  | none => s.setEdgeIn c d { s.edgeIn c d with nacks := n }

/-- The sender of a link into the array frees its copy of the flit that has crossed or been abandoned (R36, R37): the output
entry is free, which wakes a cog (R77). -/
def State.unsend (s : State) (c : Nat) (d : Side) : State :=
  match neighbour c d with
  | some e =>
    let x := s.cog e
    let o := x.oq d.opp
    (s.setCog e { x.setOq d.opp { o with flits := o.flits.drop 1, nacks := 0 } with woken := true }).rewait e
  | none =>
    let e := s.edgeIn c d
    match e.flits with
    | _ :: fs => s.setEdgeIn c d { e with flits := fs, nacks := 0 }
    | [] =>
      let l := cogY c
      let x := s.eastIn l
      let ended := match x.flits with
        | (_, eot) :: _ => eot
        | [] => false
      let s := s.setEdgeIn c d { e with nacks := 0 }
      { s with arr := { s.arr with east := Tab.set ⟨[], 0, false⟩ s.arr.east l ⟨x.flits.drop 1, if ended then x.tok + 1 else x.tok, !ended⟩ } }

/-- A flit written into an input queue: at the queue's tail, or, while the queue spills, waiting for its write into the slice
(R36, R136). The sender has one credit less. -/
def InQ.take (v : InQ) (f : Flit) : InQ :=
  if v.spill.isSome then { v with arrived := v.arrived ++ [f], credits := v.credits - 1 }
  else { v with flits := v.flits ++ [f], credits := v.credits - 1 }

/-- Flits at an edge port written. -/
def State.setSinkAt (s : State) (c : Nat) (d : Side) (fs : List Flit) : State :=
  { s with arr := { s.arr with sinks := Tab.set [] s.arr.sinks (4 * c + d.num) fs } }

/-- A good flit crosses into an input queue. -/
def State.arrive (s : State) (c : Nat) (d : Side) (f : Flit) : State :=
  let s := s.unsend c d
  let x := s.cog c
  let x := { x.settle d.num ((x.iq d.num).take f) with woken := true, flitAt := s.cycle }
  (s.setCog c x).note c (neighbour c d).isNone

/-- FLIT_ARRIVE into an input queue. -/
def State.flitIn (s : State) (c : Nat) (d : Side) (bad : Bool) : State :=
  match s.crossing c d with
  | none => s
  | some f =>
    if ((s.cog c).iq d.num).credits = 0 ∨ 8 ≤ s.nacks c d then s
    else if bad then ((s.setNacks c d (s.nacks c d + 1)).count F.COG_LINK_ERR.REPLAYS (blockOf c) 1).fault 0
    else s.arrive c d f

/-- FLIT_ARRIVE at an edge port: it always accepts; with no command on the cog's region the flit is discarded and the block's
cog error source is raised (R47, R62). -/
def State.flitOut (s : State) (c : Nat) (d : Side) (bad : Bool) : State :=
  let x := s.cog c
  let o := x.oq d
  match neighbour c d, o.flits with
  | none, f :: fs =>
    if o.mark = true ∨ 8 ≤ o.nacks then s
    else if bad then
      ((s.setCog c (x.setOq d { o with nacks := o.nacks + 1 })).count F.COG_LINK_ERR.REPLAYS (blockOf c) 1).fault 0
    else
      let s := s.setCog c { x.setOq d { o with flits := fs, nacks := 0 } with woken := true }
      let s := if (s.regionOf c).isSome then s.setSinkAt c d (s.sinkAt c d ++ [f]) else s.cogError (blockOf c)
      s.note c false
  | _, _ => s

/-- FLIT_ARRIVE (R34 to R36, R47, R136): a flit crosses a link; the receiver finds its parity good and takes it, or returns a
negative acknowledgement and the flit will cross again. -/
def execFlitArrive (l : LinkEnd) (bad : Bool) (s : State) : Result :=
  s.ifLive <| match l with
    | .into c d => s.flitIn c d bad
    | .out c d => s.flitOut c d bad

/-- FLIT_REPLAY_ABANDON (R37): the eighth negative acknowledgement in a row makes the sender abandon the flit. FAILS counts it in
the receiving block, whose cog error source is raised, and the command aborts with E_PARITY. -/
def execFlitReplayAbandon (l : LinkEnd) (s : State) : Result :=
  s.ifLive <| match l with
    | .into c d =>
      if (s.crossing c d).isSome && s.nacks c d == 8 then
        (((s.unsend c d).count F.COG_LINK_ERR.FAILS (blockOf c) 1).cogError (blockOf c)).abortRegion c eParity
      else s
    | .out c d =>
      let x := s.cog c
      let o := x.oq d
      if (neighbour c d).isNone && !o.flits.isEmpty && o.nacks == 8 then
        let s := s.setCog c (x.setOq d { o with flits := o.flits.drop 1, nacks := 0 })
        ((s.count F.COG_LINK_ERR.FAILS (blockOf c) 1).cogError (blockOf c)).abortRegion c eParity
      else s

/-- CREDIT_RETURN (R35): the credit of a freed entry reaches the sender. -/
def execCreditReturn (c : CogId) (side : Side) (s : State) : Result :=
  s.ifLive <|
    let x := s.cog c
    let v := x.iq side.num
    if v.freed = 0 ∨ v.spill.isSome then s
    else (s.setCog c (x.setIq side.num { v with freed := v.freed - 1, credits := v.credits + 1 })).note c false

/-! ## The router (R40 to R45, R129, R131) -/

/-- ROUTER_COPY (R38, R41 to R43, R45, R46, R131): the head flit of a queue is copied into every output queue its entry names, when
the arbiter grants an entry of each of them; for a LIVE-tag flit under a SHIFT once all of them have turned. -/
def execRouterCopy (c : CogId) (q : InId) (s : State) : Result :=
  s.ifLive <|
    let x := s.cog c
    let v := x.iq q
    match v.flits with
    | [] => s
    | f :: _ =>
      let outs := fwd (x.routeOf q f)
      if s.arbGrants c x q = false then s
      else if f.parOk = false then s.abortRegion c eParity
      else
        let y := outs.foldl (fun y d => let o := y.oq d; y.setOq d { o with flits := o.flits ++ [f] }) x
        (s.setCog c (y.settle q { v with copied := true })).note c false

/-- FLIT_DISCARD_NO_ROUTE (R44): a head flit whose entry is empty is discarded, and the block's cog error source is raised. -/
def execFlitDiscardNoRoute (c : CogId) (q : InId) (s : State) : Result :=
  s.ifLive <|
    let x := s.cog c
    let v := x.iq q
    match v.flits with
    | [] => s
    | f :: _ =>
      if core (x.routeOf q f) = false ∧ (fwd (x.routeOf q f)).isEmpty = true then
        ((s.setCog c (x.settle q v.pop)).cogError (blockOf c)).note c false
      else s

/-- STALE_FLIT_DISCARD (R129): once the sequencer has run the LIVE plane since the SHIFT, a DRAINING-tag head flit that only the core
would take is discarded and the block's cog error source is raised; one that is also forwarded leaves once it has been copied. -/
def execStaleFlitDiscard (c : CogId) (q : InId) (s : State) : Result :=
  s.ifLive <|
    let x := s.cog c
    let v := x.iq q
    match s.regionOf c, v.flits with
    | some (_, r), f :: _ =>
      let e := x.routeOf q f
      if x.stale r f.tag && core e then
        if (fwd e).isEmpty then ((s.setCog c (x.settle q v.pop)).cogError (blockOf c)).note c false
        else if v.copied then (s.setCog c (x.settle q v.pop)).note c false
        else s
      else s
    | _, _ => s

/-! ## TURN marks (R125 to R128, R132) -/

/-- TURN_MARK_ARRIVE (R125, R126): a TURN mark crosses a link in its place among the flits: an output queue sends it once its
last DRAINING-tag flit has crossed, an edge port after the flits it queued before it. -/
def execTurnMarkArrive (l : LinkEnd) (s : State) : Result :=
  s.ifLive <| match l with
    | .into c d =>
      let turn (s : State) : State := let x := s.cog c; (s.setCog c (x.setIq d.num { x.iq d.num with turned := true })).note c false
      match neighbour c d with
      | some e =>
        let o := (s.cog e).oq d.opp
        if o.mark then turn (s.setCog e ((s.cog e).setOq d.opp { o with mark := false })) else s
      | none =>
        let e := s.edgeIn c d
        let behind := match s.regionOf c with
          | some (_, r) => e.flits.all fun f => f.tag == r.live
          | none => true
        if e.mark && behind then turn (s.setEdgeIn c d { e with mark := false }) else s
    | .out c d =>
      let x := s.cog c
      let o := x.oq d
      if (neighbour c d).isNone && o.mark then s.setCog c (x.setOq d { o with mark := false }) else s

/-- Whether an input queue holds a flit of a plane, in its entries, its slice or on the way into it (R128, R132). -/
def InQ.holds (v : InQ) (tag : Bool) : Bool :=
  v.flits.any (fun f => f.tag == tag) || v.side.any (fun e => e.1 == tag) || v.arrived.any (fun f => f.tag == tag)

/-- Whether an input queue counts as turned (R125): it has received its TURN mark or counts as turned without one. U_IN counts
once it holds nothing of the DRAINING plane and no read stream of it runs. -/
def Cog.turned (x : Cog) (q : Nat) (old : Bool) : Bool :=
  if q = 4 then !(x.iq 4).holds old && (match x.uread with
    | some u => u.plane != old
    | none => true)
  else (x.iq q).turned

/-- Whether SEQ, or DRN, feeds an output queue under a plane (R127). -/
def Plane.feeds (v : Plane) (d : Side) (drain : Bool) : Bool :=
  v.instrs.any fun e => match cogDecode e.2 with
    | some i => i.dst == some (0x28 + d.num) && (i.opc == 0x11) == drain
    | none => false

/-- Whether a cog's sequencer can still start a token of the plane `old`: it is not IDLE, and the entry queue at which it waits is not
turned or holds a flit of that plane. R130 makes the entry queue a predecessor of every output that SEQ or DRN feeds, on which R128
then waits; R124 rests on it (DEDUCED, log 54). -/
def Cog.mayStart (x : Cog) (old : Bool) : Bool :=
  x.mode != .idle && (match x.entryQueue with
    | some q => !x.turned q old || (x.iq q).holds old
    | none => false)

/-- Whether a plane holds a UREAD, the source of what U_IN holds (R64). -/
def Plane.ureads (v : Plane) : Bool :=
  v.instrs.any fun e => match cogDecode e.2 with
    | some i => i.opc == 0x50
    | none => false

/-- The conditions of R128 for an output queue, with feeders taken under the DRAINING plane `old`. An ACCRD or a UREAD may follow while
the sequencer runs that plane, so a drain engine or a U_IN that feeds the output waits for the sequencer too (DEDUCED from R124, log
54). -/
def Cog.mayTurn (x : Cog) (d : Side) (old : Bool) : Bool :=
  let v := x.planeOf old
  let ended := !(x.mode == .run && x.plane == old) && !x.mayStart old
  ((List.range 5).all fun q => !(fwd (v.route q)).contains d || (x.turned q old && !(x.iq q).holds old)) &&
  (!((fwd (v.route 4)).contains d && v.ureads) || ended) &&
  (!v.feeds d false || (ended && x.inflight.all fun i => i.plane != old)) &&
  (!v.feeds d true || (ended && (match x.drain with
    | some dr => dr.plane != old
    | none => true))) &&
  (x.oq d).flits.all fun f => f.tag != old

/-- OUTPUT_TURN (R128): an output queue turns and sends its TURN mark, where its link leads to a cog of the region or to an
edge port. -/
def execOutputTurn (c : CogId) (side : Side) (s : State) : Result :=
  s.ifLive <|
    let x := s.cog c
    let o := x.oq side
    match s.regionOf c with
    | some (_, r) =>
      if r.draining && !o.turned && x.mayTurn side (!r.live) then
        let sends := match neighbour c side with
          | some e => inRect r.rect (blockOf e)
          | none => true
        (s.setCog c (x.setOq side { o with turned := true, mark := sends })).note c false
      else s
    | none => s

/-- Whether a cog has nothing left of the DRAINING plane `old` (R132). -/
def Cog.drained (x : Cog) (old : Bool) : Bool :=
  (sides.all fun d => (x.oq d).turned) &&
  ((List.range 5).all fun q => x.turned q old && !(x.iq q).holds old && (x.iq q).spill != some old) &&
  !(x.mode == .run && x.plane == old) && (x.inflight.all fun i => i.plane != old) &&
  (match x.drain with
    | some d => d.plane != old
    | none => true) &&
  (match x.uread with
    | some u => u.plane != old
    | none => true)

/-- A cog whose SHIFT is over: nothing of it is turned any more. -/
def Cog.unturn (x : Cog) : Cog :=
  let x := sides.foldl (fun x d => x.setOq d { x.oq d with turned := false, mark := false }) x
  (List.range 5).foldl (fun x q => x.setIq q { x.iq q with turned := false }) x

/-- The edge links into a rectangle are no longer turned. -/
def State.unturnEdges (s : State) (rect : Nat) : State :=
  let edges := (s.arr.edges.map fun e => if inRect rect (blockOf (e.1 / 4)) then (e.1, { e.2 with turned := false }) else e).filter
    fun e => e.2 != EdgeIn.start
  { s with arr := { s.arr with edges := edges } }

/-- PLANE_DRAIN_DONE (R132): the DRAINING plane of a region becomes LOADED once every cog meets R132. -/
def execPlaneDrainDone (r : RunId) (s : State) : Result :=
  s.ifLive <|
    match Tab.find s.arr.regions r with
    | none => s
    | some x =>
      if x.draining && (rectCogs x.rect).all fun c => (s.cog c).drained (!x.live) then
        let s := (rectCogs x.rect).foldl (fun s c => s.setCog c (s.cog c).unturn) s
        let s := s.unturnEdges x.rect
        let s := (rectBlocks x.rect).foldl (fun s b =>
          let p := s.bplane b (!x.live)
          (s.setBplane b (!x.live) (if p.state = .draining then { p with state := .loaded } else p)).trace 0x05 x.seq b (b2n (!x.live))) s
        s.setRegion r { x with draining := false, shiftK := none }
      else s

/-! ## Spilling (R134 to R136) -/

/-- The command that runs on a cog's region, 0 where none does. -/
def State.regionSeq (s : State) (c : Nat) : Nat := match s.regionOf c with
  | some (_, r) => r.seq
  | none => 0

/-- SPILL_START (R135, R136): a full queue of PAN_QMASK, whose cog's instruction lacks words of another source, starts a spill
episode in its slice of the plane its tail names; the sender is granted credits for the slice. The episode's circular buffer starts at
position 0 of the slice (DESIGN CHOICE, log 77: R134 gives no first position). -/
def execSpillStart (c : CogId) (side : Side) (s : State) : Result :=
  s.ifLive <|
    let x := s.cog c
    let q := side.num
    let v := x.iq q
    match v.flits.getLast? with
    | none => s
    | some f =>
      let pl := x.planeOf f.tag
      if v.spill.isNone && v.flits.length == 8 && pl.spills q && (s.bplane (blockOf c) f.tag).state.holds &&
          x.starved.any (· != q) then
        let v := { v with spill := some f.tag, sliceHead := 0, side := [], arrived := [], freed := 0, credits := max v.credits (min 8 pl.sliceCap) }
        (((s.setCog c (x.setIq q v)).count F.GEAR_PAN_STAT.SPILLS (blockOf c) 1).trace 0x06 (s.regionSeq c) (cogX c + 256 * cogY c)
          (0x20 + q)).note c false
      else s

/-- SPILL_END (R136): the slice is empty and the queue has a free entry for everything the sender may still send; credits
follow the queue's entries again. -/
def execSpillEnd (c : CogId) (side : Side) (s : State) : Result :=
  s.ifLive <|
    let x := s.cog c
    let v := x.iq side.num
    if v.spill.isSome && v.side.isEmpty && decide (v.credits + v.arrived.length ≤ 8 - v.flits.length) then
      let v' := { v with spill := none, sliceHead := 0, flits := v.flits ++ v.arrived, arrived := [], freed := 0,
                         credits := 8 - v.flits.length - v.arrived.length }
      (s.setCog c (x.settle side.num v')).note c false
    else s

end Sys2Proof.Machine
end

