-- ==== Sys2Proof/Machine/Bank.lean ====
section
/-! DEFINITION. The U port of a cog (R39, R63 to R65, R134 to R138): UREAD, UWRITE, and the slots in which the port serves spill
writes, refills, the read stream and UWRITE. -/

namespace Sys2Proof.Machine

/-- The bank address an access covers: modulo 256 KiB, bits [4:0] ignored (R65). -/
def bankAddr (a : Nat) : Nat := a % 262144 / 32 * 32

/-- UREAD starts a read stream of COUNT flits (R64). -/
def execUread (c : CogId) (s : State) : Result :=
  .next (s.cogStep c 0x50 fun i _ x => match i with
    | .u _ _ areg sreg creg cs _ count =>
      let n := x.count cs creg count
      ({ x with uread := if n = 0 then none else some ⟨(x.areg areg).toNat, (x.areg sreg).toNat, n, x.plane⟩ }).retire
    | _ => x)

/-- UWRITE starts its transfer with the first flit of its source in U_OUT, and blocks issue until it is finished (R63). -/
def execUwrite (c : CogId) (s : State) : Result :=
  .next (s.cogStep c 0x51 fun i vs x => match i with
    | .u _ qsr areg sreg creg cs _ count =>
      let n := x.count cs creg count
      let w : WriteXfer := ⟨qsr, (x.areg areg).toNat, (x.areg sreg).toNat, n - 1, [BitVec.ofNat 256 (vs.getD 0 0)], x.plane⟩
      ({ x with uwrite := if n = 0 then none else some w }).retire
    | _ => x)

/-- UWRITE_FLIT_MOVE (R33, R63): the next flit of a running UWRITE's source moves into U_OUT once it is present and U_OUT has
room. -/
def execUwriteFlitMove (c : CogId) (s : State) : Result :=
  s.ifLive <|
    let x := s.cog c
    match x.uwrite with
    | none => s
    | some w =>
      if w.left = 0 ∨ 8 ≤ w.uout.length then s
      else match x.gather w.plane [⟨w.src, 8, 0, true⟩] with
        | none => s
        | some (_, _, false) => s.abortRegion c eParity
        | some (vs, y, true) =>
          let y := { y with waited := none, uwrite := some { w with left := w.left - 1, uout := w.uout ++ [BitVec.ofNat 256 (vs.getD 0 0)] } }
          (s.setCog c y).note c false

/-! ## Slots (R137) -/

/-- The queues of a cog with a flit that waits for its write into their slice. -/
def Cog.spillReady (x : Cog) : List Nat :=
  (List.range 4).filter fun q => match (x.iq q).spill with
    | some pl => !(x.iq q).arrived.isEmpty && decide ((x.iq q).side.length < (x.planeOf pl).sliceCap)
    | none => false

/-- The queues of a cog whose slice can refill them. -/
def Cog.refillReady (x : Cog) : List Nat :=
  (List.range 4).filter fun q => (x.iq q).spill.isSome && !(x.iq q).side.isEmpty && decide ((x.iq q).flits.length < 8)

/-- Whether a requester of the U port has a flit ready: 0 spill writes, 1 refills, 2 the read stream, 3 UWRITE. -/
def Cog.uReady (x : Cog) (k : Nat) : Bool :=
  match k with
  | 0 => !x.spillReady.isEmpty
  | 1 => !x.refillReady.isEmpty
  | 2 => x.uread.isSome && decide ((x.iq 4).flits.length < 8)
  | _ => match x.uwrite with
    | some w => !w.uout.isEmpty
    | none => false

/-- The requester that a slot grants: the first with a flit ready, counting from the pointer (R137). -/
def Cog.uGrant (x : Cog) : Option Nat := ((List.range 4).map fun i => (x.uptr + i) % 4).find? x.uReady

/-- The credits of a spilling queue after a slice position has changed hands: one more where the sender's flits and credits stay
within min(8, F) (R136). -/
def InQ.regrant (v : InQ) (cap : Nat) : InQ :=
  if v.credits + v.arrived.length < min 8 (cap - v.side.length) then { v with credits := v.credits + 1 } else v

/-- A spill write: the oldest waiting flit goes to the tail of the slice (R134, R136); PEAK follows the slice's occupancy. -/
def State.spillWrite (s : State) (c q : Nat) : State :=
  let x := s.cog c
  let v := x.iq q
  match v.spill, v.arrived with
  | some pl, f :: fs =>
    let p := x.planeOf pl
    let x := { x with bank := x.bank.setNum (p.sliceAddr q (v.sliceHead + v.side.length)) 32 f.data.toNat }
    let v := { v with arrived := fs, side := v.side ++ [(f.tag, f.eot)] }
    let s := s.setCog c (x.setIq q (v.regrant p.sliceCap))
    s.wrSat F.GEAR_PAN_STAT.PEAK (blockOf c) (max v.side.length (s.rd F.GEAR_PAN_STAT.PEAK (blockOf c)))
  | _, _ => s

/-- A refill: the head of the slice is read into the tail of its queue (R136); a read that fails twice aborts the command (R138). -/
def State.refill (s : State) (c q : Nat) (read : ReadOutcome) : State :=
  let x := s.cog c
  let v := x.iq q
  match v.spill, v.side with
  | some pl, (tag, eot) :: rest =>
    if read = .failed then s.abortRegion c eParity
    else
      let p := x.planeOf pl
      let f := Flit.make (x.bank.num (p.sliceAddr q v.sliceHead) 32) tag eot
      let v := { v with flits := v.flits ++ [f], side := rest, sliceHead := (v.sliceHead + 1) % max 1 p.sliceCap }
      s.setCog c (x.settle q (v.regrant p.sliceCap))
  | _, _ => s

/-- The near-home tensor that holds a byte of a cog's bank, resident or, where none is, LOST with its words still there (R194), with its
key. -/
def State.nearAt (s : State) (c a : Nat) : Option (Nat × Tensor) :=
  (s.residentNear ++ s.mem.tensors.filter fun e => e.2.near && e.2.state == .lost).find? fun e => inRect e.2.desc.nearRect (blockOf c) &&
    decide (e.2.desc.nearBase ≤ a ∧ a < e.2.desc.nearBase + e.2.desc.nearLen)

/-- A flit of the read stream enters U_IN (R64, R121). -/
def State.ureadFlit (s : State) (c : Nat) (u : ReadStream) (data : Nat) : State :=
  let x := s.cog c
  let v := x.iq 4
  let x := { x with uread := if u.left ≤ 1 then none else some { u with addr := (u.addr + u.stride) % 2 ^ 32, left := u.left - 1 } }
  s.setCog c (x.settle 4 { v with flits := v.flits ++ [.make data u.plane false] })

/-- The read stream's flit has entered U_IN, and the cog is told. -/
def State.ureadGoes (s : State) (c : Nat) (u : ReadStream) (data : Nat) : State :=
  let s := s.ureadFlit c u data
  (s.setCog c { s.cog c with waited := none }).note c false

/-- A bank read that failed twice (R39, R193, R194): of a near-home RO tensor it aborts the command and the tensor is ABSENT; of
an RW tensor with a live owner that request ends alone and the words go on as read, else the task aborts with E_STATE_LOST. A
bank byte of no tensor has no other copy: the command aborts with E_PARITY (DEDUCED, log 23). -/
def State.bankFail (s : State) (c : Nat) (u : ReadStream) : State :=
  match s.nearAt c (bankAddr u.addr) with
  | none => s.abortRegion c eParity
  | some (key, t) =>
    let p := key / 2 ^ 32
    let tid := key % 2 ^ 32
    if t.rw_ then
      let s := if t.state = .lost then s else s.strike p tid
      if t.desc.owner = 0 then s.abortRegion c eStateLost
      else
        let (v, s) := s.draw 256
        s.ureadGoes c u v
    else
      let s := (s.modTensor p tid fun t => { t with state := .absent }).tnsFault p 2 1 0 tid
      s.abortRegion c eParity

/-- A UWRITE flit leaves U_OUT for the bank; one aimed at a pannier area of a plane that holds a gear is suppressed and the block's
cog error source is raised (R63, R65). The transfer ends with its last flit. -/
def State.uwriteFlit (s : State) (c : Nat) : State :=
  let x := s.cog c
  match x.uwrite with
  | none => s
  | some w => match w.uout with
    | [] => s
    | d :: ds =>
      let a := bankAddr w.addr
      let clash := (s.pannierClash c a 32 false).isSome || (s.pannierClash c a 32 true).isSome
      let x := if clash then x else { x with bank := x.bank.setNum a 32 d.toNat }
      let x := { x with
        uwrite := if w.left = 0 ∧ ds.isEmpty = true then none else some { w with addr := (w.addr + w.stride) % 2 ^ 32, uout := ds }
        waited := none }
      let s := s.setCog c x
      if clash then s.cogError (blockOf c) else s

/-- Among several queues of one requester the spec gives no order: a free value picks. -/
def State.pick (s : State) (qs : List Nat) : Nat × State :=
  let (v, s) := s.draw 2
  (qs.getD (v % max 1 qs.length) 0, s)

/-- U_PORT_SLOT (R39, R63 to R65, R134 to R138): one slot of the U port. `read` is how the bank read of the slot came out, where it
makes one. The U port of a fenced cog and of a cog in freewheel does nothing (R72, R76). -/
def execUPortSlot (c : CogId) (read : ReadOutcome) (s : State) : Result :=
  s.ifLive <|
    let x := s.cog c
    if s.fenced c || x.freewheel || (s.regionOf c).isNone then s
    else
      let g := x.uGrant
      let s := if read = .reread ∧ (g = some 1 ∨ g = some 2) then s.fault 0 else s
      let s := s.setCog c { x with uptr := (x.uptr + 1) % 4 }
      match g with
      | none => s
      | some 0 => let (q, s) := s.pick x.spillReady; (s.spillWrite c q).note c false
      | some 1 => let (q, s) := s.pick x.refillReady; (s.refill c q read).note c false
      | some 2 =>
        match x.uread with
        | some u =>
          if read = .failed then s.bankFail c u
          else s.ureadGoes c u (x.bank.num (bankAddr u.addr) 32)
        | none => s
      | some _ => (s.uwriteFlit c).note c false

end Sys2Proof.Machine
end

