-- ==== Sys2Proof/Machine/Crypto.lean ====
section
/-! DEFINITION. The two digests that the manual takes from their standards: SHA-256 (FIPS 180-4) and CRC-32 (IEEE 802.3)
(PRESUMED, log 24: the manual names them and gives no algorithm). -/

namespace Sys2Proof.Machine

/-- The largest number whose `k`-th power is at most `n`, found bit by bit from bit `b - 1` down, starting at `x`. -/
def rootFrom (k n : Nat) : Nat → Nat → Nat
  | 0, x => x
  | b + 1, x => rootFrom k n b (if (x + 2 ^ b) ^ k ≤ n then x + 2 ^ b else x)

/-- The first 32 bits of the fraction of the `k`-th root of `p`. -/
def rootFraction (k p : Nat) : Word32 := BitVec.ofNat 32 (rootFrom k (p * 2 ^ (32 * k)) 36 0)

/-- The first 64 primes, by which the standard defines the constants of SHA-256. -/
def shaPrimes : List Nat := (List.range 312).filter fun n => decide (2 ≤ n) && (List.range n).all fun d => decide (d < 2) || n % d != 0

/-- The initial hash words: the square roots of the first eight primes. -/
def shaInit : List Word32 := (shaPrimes.take 8).map (rootFraction 2)

/-- The round constants: the cube roots of the first 64 primes. -/
def shaK : List Word32 := shaPrimes.map (rootFraction 3)

/-- A message padded to whole blocks: a one bit, zeros, and the bit length in 64 bits, most significant byte first. -/
def shaPad (m : List Byte) : List Byte :=
  let z := (119 - m.length % 64) % 64
  m ++ [0x80] ++ List.replicate z 0 ++ (toBytes 8 (8 * m.length)).reverse

/-- A big-endian word. -/
def beWord : List Byte → Word32
  | [a, b, c, d] => BitVec.ofNat 32 (a.toNat * 2 ^ 24 + b.toNat * 2 ^ 16 + c.toNat * 2 ^ 8 + d.toNat)
  | _ => 0

/-- A list cut into pieces of `n`, at most `k` of them. -/
def chunks {α : Type} (n : Nat) : Nat → List α → List (List α)
  | 0, _ => []
  | k + 1, l => l.take n :: chunks n k (l.drop n)

/-- The message schedule, newest word first: `k` more words. -/
def shaSchedule : Nat → List Word32 → List Word32
  | 0, w => w
  | k + 1, w =>
    let a := w.getD 1 0
    let b := w.getD 14 0
    let s1 := a.rotateRight 17 ^^^ a.rotateRight 19 ^^^ (a >>> 10)
    let s0 := b.rotateRight 7 ^^^ b.rotateRight 18 ^^^ (b >>> 3)
    shaSchedule k ((w.getD 15 0 + s0 + w.getD 6 0 + s1) :: w)

/-- One round of the compression function. -/
def shaRound (h : List Word32) (kw : Word32 × Word32) : List Word32 :=
  match h with
  | [a, b, c, d, e, f, g, i] =>
    let s1 := e.rotateRight 6 ^^^ e.rotateRight 11 ^^^ e.rotateRight 25
    let ch := (e &&& f) ^^^ (~~~e &&& g)
    let t1 := i + s1 + ch + kw.1 + kw.2
    let s0 := a.rotateRight 2 ^^^ a.rotateRight 13 ^^^ a.rotateRight 22
    let mj := (a &&& b) ^^^ (a &&& c) ^^^ (b &&& c)
    [t1 + s0 + mj, a, b, c, d + t1, e, f, g]
  | l => l

/-- The hash words after one block. -/
def shaBlock (h : List Word32) (b : List Byte) : List Word32 :=
  let w := (shaSchedule 48 ((chunks 4 16 b).map beWord).reverse).reverse
  (h.zip ((shaK.zip w).foldl shaRound h)).map fun e => e.1 + e.2

/-- SHA-256, as the bytes of the digest in order. -/
def sha256 (m : List Byte) : List Byte :=
  let p := shaPad m
  ((chunks 64 (p.length / 64) p).foldl shaBlock shaInit).flatMap fun w => (toBytes 4 w.toNat).reverse

/-- One bit of the reflected CRC-32. -/
def crcBit : Nat → Nat → Nat
  | 0, c => c
  | k + 1, c => crcBit k (if c % 2 = 1 then Nat.xor (c / 2) 0xEDB88320 else c / 2)

/-- CRC-32 of bytes. -/
def crc32 (m : List Byte) : Nat := Nat.xor (m.foldl (fun c b => crcBit 8 (Nat.xor c b.toNat)) 0xFFFFFFFF) 0xFFFFFFFF

/-- Bits packed into bytes, least significant bit first. -/
def packBits (l : List Bool) : List Byte :=
  (chunks 8 (ceilDiv l.length 8) l).map fun c => BitVec.ofNat 8 (c.foldr (fun b acc => b2n b + 2 * acc) 0)

end Sys2Proof.Machine
end

