-- ==== Sys2Proof/Machine/Gear.lean ====
section
/-! DEFINITION. Gear loads and shifts (R109 to R118, R123, R127, R130, R146, R147, R157, R158): reading an image, its checks, the
states of planes, GLOAD and SHIFT. -/

namespace Sys2Proof.Machine

/-! ## The image (R109, R111) -/

/-- A cog record of an image. -/
structure GearRec where
  x : Nat
  y : Nat
  entry : Nat
  qmask : Nat
  routes : Nat
  ninstr : Nat
  panBase : Nat
  panSize : Nat
  instrs : List Word64
  deriving DecidableEq, Repr

/-- A gear image: its header and records. -/
structure GearImage where
  magic : Nat
  minFmt : Nat
  rect : Nat
  fenceCrc : Nat
  id : Nat
  wcet : Nat
  cls : Nat
  len : Nat
  digest : Nat
  bytes : List Byte
  recs : List GearRec
  deriving DecidableEq, Repr

/-- Eight-byte words of a run of bytes. -/
def words64 : Nat → List Byte → List Word64
  | 0, _ => []
  | n + 1, b => BitVec.ofNat 64 (fieldAt b 0 8) :: words64 n (b.drop 8)

/-- `n` cog records read one after the other (R111). Format 2 reads PAN_QMASK as 0b1111 where PAN_SIZE is not zero (R110). -/
def gearRecs (fmt : Nat) : Nat → List Byte → List GearRec
  | 0, _ => []
  | n + 1, b =>
    let h := b.take 32
    let k := fieldAt h 8 2
    let size := fieldAt h 0x0B 1
    ⟨fieldAt h 0 1, fieldAt h 1 1, fieldAt h 2 1, if fmt = 2 ∧ size ≠ 0 then 15 else fieldAt h 3 1 % 16, fieldAt h 4 4 % 2 ^ 25, k,
      fieldAt h 0x0A 1, size, words64 (min k 256) ((b.drop 32).take (8 * k))⟩ :: gearRecs fmt n (b.drop (32 + 8 * k))

/-- A gear image read from the bytes of its tensor. -/
def GearImage.parse (b : List Byte) : GearImage :=
  let rect := fieldAt b 8 1 % 16 + fieldAt b 9 1 % 16 * 16 + fieldAt b 0xA 1 % 16 * 256 + fieldAt b 0xB 1 % 16 * 4096
  { magic := fieldAt b 0 4, minFmt := fieldAt b 4 2, rect := rect, fenceCrc := fieldAt b 0xC 4, id := fieldAt b 0x10 4
    wcet := fieldAt b 0x14 4, cls := fieldAt b 0x18 1, len := fieldAt b 0x1C 4, digest := fieldAt b 0x20 32, bytes := b
    recs := gearRecs (fieldAt b 4 2) (256 * rectW rect * rectH rect) (b.drop 128) }

/-- The header's rectangle bytes are in range (R109). -/
def GearImage.rectOk (g : GearImage) : Bool :=
  Sys2Proof.Machine.rectOk g.rect && decide (fieldAt g.bytes 8 1 < 16 ∧ fieldAt g.bytes 9 1 < 16 ∧ fieldAt g.bytes 0xA 1 < 16 ∧ fieldAt g.bytes 0xB 1 < 16)

/-- The digest of the image, computed with the DIGEST field as zero (R109). -/
def GearImage.hash (g : GearImage) : Nat :=
  ofBytes (sha256 (g.bytes.take 0x20 ++ List.replicate 32 0 ++ g.bytes.drop 0x40))

/-- The plane a record loads (R111, R112). -/
def GearRec.plane (r : GearRec) : Plane where
  instrs := (r.instrs.zipIdx).foldl (fun m e => Tab.set filler m e.2 e.1) []
  ninstr := r.ninstr
  routes := r.routes
  entry := r.entry
  panBase := r.panBase
  panSize := r.panSize
  panMask := if r.panSize = 0 then 0 else r.qmask

/-! ## The checks of R157 -/

/-- Why a load ends: the check, the address and cog it names, the code and the owner (R157, R158). -/
structure GearFail where
  check : Nat
  addr : Nat
  cog : Option Nat
  code : Nat
  owner : Nat
  deriving DecidableEq, Repr

/-- The cogs of an image with their records. -/
def GearImage.cogs (g : GearImage) : List (Nat × GearRec) := (rectCogs g.rect).zip g.recs

/-- The first cog that fails a test, which gives the offending address. -/
def firstBad (check code : Nat) (l : List (Nat × GearRec)) (f : Nat → GearRec → Option Nat) : Option GearFail :=
  l.findSome? fun e => (f e.1 e.2).map fun a => ⟨check, a, some e.1, code, 0⟩

/-- Check 9 for one record. -/
def GearRec.shapeOk (r : GearRec) (c : Nat) : Bool :=
  r.x == cogX c && r.y == cogY c && (decide (0x20 ≤ r.entry ∧ r.entry ≤ 0x24) || r.entry == 0x3F) &&
  decide (r.ninstr ≤ 256 ∧ r.panSize ≤ 16 ∧ r.panBase + r.panSize ≤ 64)

/-- The end of a record in the image: 128 bytes and the lengths of the records up to it (R111). -/
def recEnds : Nat → List (Nat × GearRec) → List (Nat × Nat)
  | _, [] => []
  | o, (c, r) :: l => (c, o + 32 + 8 * r.ninstr) :: recEnds (o + 32 + 8 * r.ninstr) l

/-- The second half of check 9: the lengths sum to IMAGE_LEN. The cog named is the first whose record ends beyond the image, else
the last (DESIGN CHOICE, log 25). -/
def GearImage.lengthFault (g : GearImage) : Option GearFail :=
  let es := recEnds 128 g.cogs
  match es.find? fun e => decide (g.len < e.2) with
  | some e => some ⟨9, 0, some e.1, eShape, 0⟩
  | none => match es.getLast? with
    | some e => if e.2 = g.len then none else some ⟨9, 0, some e.1, eShape, 0⟩
    | none => none

/-- Check 10: what a fenced cog may not have (R73). -/
def GearRec.fencedFault (r : GearRec) : Option Nat :=
  match (r.instrs.zipIdx).find? fun e => !(bits e.1.toNat 56 8 == 0 && bits e.1.toNat 51 4 == 0 && bit e.1.toNat 55) with
  | some e => some e.2
  | none => if r.entry != 0x3F || ((List.range 5).any fun q => bit r.routes (5 * q + 4)) || r.panSize != 0 then some 0 else none

/-- Check 11: the first instruction that is not valid. -/
def GearRec.invalidAt (r : GearRec) : Option Nat :=
  ((r.instrs.zipIdx).find? fun e => match cogDecode e.1 with
    | some i => !i.validAt e.2 r.ninstr
    | none => true).map (·.2)

/-- The output queues that a plane's routes or instructions name. -/
def Plane.outSides (v : Plane) : List Side :=
  sides.filter fun d => ((List.range 5).any fun q => (fwd (v.route q)).contains d) || v.feeds d false || v.feeds d true

/-- Check 13: no output queue that is named leads out of the rectangle into the array, or over a masked link (R46, R113). -/
def State.linkFault (s : State) (rect c : Nat) (v : Plane) : Bool :=
  v.outSides.any fun d => match neighbour c d with
    | none => false
    | some e => !inRect rect (blockOf e) || s.masked c d

/-! ## Turn graph and taint (R127, R130, R146, R147) -/

/-- Queues of a gear as numbers: 8 × cog + side for inputs, 8 × cog + 4 + side for outputs. -/
def inNode (c : Nat) (d : Side) : Nat := 8 * c + d.num
def outNode (c : Nat) (d : Side) : Nat := 8 * c + 4 + d.num

/-- The input queue at the far end of an output queue's link, inside the rectangle. -/
def farIn (rect c : Nat) (d : Side) : List Nat :=
  match neighbour c d with
  | some e => if inRect rect (blockOf e) then [inNode e d.opp] else []
  | none => []

/-- The edges of a cog in the turn graph (R130). -/
def turnEdges (rect c : Nat) (v : Plane) : List (Nat × Nat) :=
  (sides.flatMap fun d => (fwd (v.route d.num)).map fun o => (inNode c d, outNode c o)) ++
  (match inOf v.entry with
    | some q => if q < 4 then (sides.filter fun o => v.feeds o false || v.feeds o true).map fun o => (8 * c + q, outNode c o) else []
    | none => []) ++
  sides.flatMap fun o => (farIn rect c o).map fun n => (outNode c o, n)

/-- Edges whose source has a predecessor and whose target has a successor among them: what is left after pruning holds every
cycle. -/
def pruneEdges : Nat → List (Nat × Nat) → List (Nat × Nat)
  | 0, es => es
  | k + 1, es =>
    let es' := es.filter fun e => (es.any fun f => f.2 == e.1) && es.any fun f => f.1 == e.2
    if es'.length = es.length then es else pruneEdges k es'

/-- Check 14: the first cog, in record order, with a queue left in the pruned turn graph. -/
def turnFault (l : List (Nat × Plane)) (rect : Nat) : Option Nat :=
  let es := l.flatMap fun e => turnEdges rect e.1 e.2
  let left := pruneEdges es.length es
  (l.find? fun e => left.any fun f => f.1 / 8 == e.1).map (·.1)

/-- The number of feeders of an output queue under a plane (R127). -/
def Plane.feeders (v : Plane) (d : Side) : Nat :=
  ((List.range 5).filter fun q => (fwd (v.route q)).contains d).length + b2n (v.feeds d false) + b2n (v.feeds d true)

/-- Whether an instruction of a plane names one of some input queues of its cog as a source (R146). -/
def Plane.reads (v : Plane) (qs : List Nat) : Bool :=
  v.instrs.any fun e => match cogDecode e.2 with
    | some i => i.srcs.any fun o => match inOf o.code with
      | some q => qs.contains q
      | none => false
    | none => false

/-- One round of R146: the tainted input queues, with those that tainted queues and cogs reach. -/
def taintRound (l : List (Nat × Plane)) (rect : Nat) (t : List Nat) : List Nat :=
  l.foldl (fun t e =>
    let c := e.1
    let qs := (List.range 4).filter fun q => t.contains (8 * c + q)
    let outs := if e.2.reads qs then sides else sides.filter fun o =>
      decide (2 ≤ e.2.feeders o) || qs.any fun q => (fwd (e.2.route q)).contains o
    (outs.flatMap (farIn rect c)).foldl (fun t n => if t.contains n then t else n :: t) t) t

/-- The tainted input queues of a gear: the rounds repeated until nothing is added. -/
def taint : Nat → List (Nat × Plane) → Nat → List Nat → List Nat
  | 0, _, _, t => t
  | k + 1, l, rect, t =>
    let t' := taintRound l rect t
    if t'.length = t.length then t else taint k l rect t'

/-- The arithmetic of R147. -/
def arithmetic : List Nat := [0x10, 0x21, 0x22, 0x23, 0x24, 0x25, 0x26, 0x27, 0x2A, 0x2B, 0x2C, 0x2D, 0x29]

/-- Check 15: the first tainted cog that holds arithmetic, with the instruction's address. -/
def taintFault (l : List (Nat × Plane)) (rect : Nat) : Option (Nat × Nat) :=
  let t := taint (4 * l.length) l rect []
  l.findSome? fun e =>
    if e.2.reads ((List.range 4).filter fun q => t.contains (8 * e.1 + q)) then
      (e.2.instrs.find? fun i => match cogDecode i.2 with
        | some j => arithmetic.contains j.opc
        | none => false).map fun i => (e.1, i.1)
    else none

/-! ## The checks together -/

/-- The owner of a bank range that a pannier would overlap: the other plane's gear, or a resident near-home tensor (R117); of several,
the other plane's gear first, then the tensor of the lowest key (DESIGN CHOICE, log 77: R117 gives no order). -/
def State.panOwner (s : State) (c : Nat) (v : Plane) (pl : Bool) : Option Nat :=
  let (base, len) := v.pannier
  match s.pannierClash c base len (!pl) with
  | some g => some g
  | none => (s.residentNear.find? fun e => inRect e.2.desc.nearRect (blockOf c) && overlap base len e.2.desc.nearBase e.2.desc.nearLen).map
      fun e => e.1 % 2 ^ 32

/-- Whether a load issued at a work count takes a MIN_FMT (R110, R481): 2 and 3; once gear-format tables have been activated, what they
name, for the loads dispatched since. -/
def State.takesFmt (s : State) (since fmt : Nat) : Bool :=
  match s.sec.tables.find? fun e => decide (e.1 ≤ since) with
  | some e => Config.tableFmt e.2 fmt
  | none => fmt == 2 || fmt == 3

/-- Checks 2 to 16 of R157, in order, for an image of data length `n` that partition `p` loads into a rectangle and plane by a load issued
at the work count `since`. -/
def State.gearFault (s : State) (p since rect : Nat) (pl : Bool) (g : GearImage) (n : Nat) : Option GearFail :=
  let fail (check code : Nat) : Option GearFail := some ⟨check, 0, none, code, 0⟩
  if g.magic ≠ 0x52414547 ∨ g.len < 128 ∨ g.len ≠ n then fail 2 eShape
  else if s.takesFmt since g.minFmt = false then fail 3 eVersion
  else if g.hash ≠ g.digest then fail 4 eShape
  else if g.rectOk = false ∨ g.id = 0 ∨ 2 < g.cls then fail 5 eShape
  else if g.rect ≠ rect ∨ rectInside rect (s.rd F.SEC_PART_MAP.RECT p) = false then fail 6 eShape
  else if crc32 (packBits ((rectCogs rect).map s.fenced)) ≠ g.fenceCrc then fail 7 eShape
  else if g.cls ≠ 0 ∧ s.rd F.HUB_PART_CFG.CMD_MAXLEN p * 1000 < g.wcet then fail 8 eAdmitTime
  else
    let cs := g.cogs
    let ps := cs.map fun e => (e.1, e.2.plane)
    (firstBad 9 eShape cs fun c r => if r.shapeOk c then none else some 0).or <|
    g.lengthFault.or <|
    (firstBad 10 eShape cs fun c r => if s.fenced c then r.fencedFault else none).or <|
    (firstBad 11 eShape cs fun _ r => r.invalidAt).or <|
    (firstBad 12 eShape cs fun _ r => r.plane.loopFault r.ninstr).or <|
    (firstBad 13 eShape cs fun c r => if s.linkFault rect c r.plane then some 0 else none).or <|
    ((turnFault ps rect).map fun c => ⟨14, 0, some c, eShape, 0⟩).or <|
    ((taintFault ps rect).map fun e => ⟨15, e.2, some e.1, eShape, 0⟩).or <|
    ps.findSome? fun e => (s.panOwner e.1 e.2 pl).map fun o => ⟨16, 0, some e.1, eConflict, o⟩

/-! ## GLOAD (R115 to R118, R158) -/

/-- A load ends at a check. -/
def State.gearRefused (s : State) (n hd p : Nat) (f : GearFail) (id : Nat) : State :=
  (s.gearDiag p f.check f.addr f.cog (if f.check ≤ 2 then 0 else id)).opEnd n hd (refusedWord f.owner false f.code)

/-- The gear of an image. -/
def GearImage.gear (g : GearImage) : Gear := ⟨g.id, g.digest, g.rect, g.cls, g.wcet⟩

/-- A block's plane becomes EMPTY, its cogs' program planes too. -/
def State.emptyPlane (s : State) (b : Nat) (pl : Bool) : State :=
  (cogsOf b).foldl (fun s c => s.setCog c ((s.cog c).setPlane pl .empty)) (s.setBplane b pl .empty)

/-- A load begins writing: the gears it displaces leave the plane in every block of theirs outside the new rectangle, the plane is
LOADING, and the records are in the cogs (R114, R116). -/
def State.gearWrite (s : State) (g : GearImage) (pl : Bool) : State :=
  let old := (rectBlocks g.rect).filterMap fun b => (s.bplane b pl).gear
  let gone := (List.range 72).filter fun b => !inRect g.rect b && old.any fun o => inRect o.rect b
  let s := gone.foldl (fun s b => s.emptyPlane b pl) s
  let s := (rectBlocks g.rect).foldl (fun s b => s.setBplane b pl ⟨.loading, some g.gear⟩) s
  g.cogs.foldl (fun s e => s.setCog e.1 ((s.cog e.1).setPlane pl e.2.plane)) s

/-- How the plane's state decides a load (R116). -/
inductive GearJudge where
  | refused (owner : Nat)
  | waits
  | same
  | write
  deriving DecidableEq, Repr

/-- The judgement of R116 over every block of the rectangle. -/
def State.gearJudge (s : State) (g : GearImage) (pl : Bool) : GearJudge :=
  let bs := (rectBlocks g.rect).map fun b => s.bplane b pl
  let other (x : BlockPlane) : Bool := match x.gear with
    | some o => o.digest != g.digest
    | none => false
  match bs.find? fun x => x.state == .loading || (x.state == .live && other x) with
  | some x => .refused ((x.gear.map (·.id)).getD 0)
  | none =>
    if bs.any fun x => x.state == .draining && other x then .waits
    else if bs.all fun x => x.state.holds && x.gear.isSome && !other x then .same
    else .write

/-- The plane state decides a load whose image has passed its checks (check 17 of R157, R116). -/
def State.gearPlace (s : State) (n hd : Nat) (o : AOp) (g : GearImage) (pl : Bool) : State :=
  match s.gearJudge g pl with
  | .refused w => s.gearRefused n hd o.part ⟨17, 0, none, eConflict, w⟩ g.id
  | .waits => (s.setAop n hd { o with passed := true }).opWaits n hd
  | .same => (s.gearDiag o.part 0 0 none g.id).opEnd n hd (okWord false)
  | .write => (s.gearWrite g pl).setAop n hd { o with started := true, passed := true }

/-- The image of a load, as the command's task reads it. -/
def State.gearImage (s : State) (o : AOp) (tid : Nat) : Option (GearImage × Nat) :=
  (s.tensor o.part tid).map fun t => (GearImage.parse (s.tbytes o.task o.part tid 0 t.desc.dataLen), t.desc.dataLen)

/-- A gear load tries to go on: the image is brought into the main tier where it is not there (check 1 of R157), is checked, and
the plane's state decides. -/
def State.tryGload (s : State) (n hd : Nat) (o : AOp) (tid rect plane : Nat) : State :=
  let pl := plane == 1
  let refuse (s : State) (code : Nat) : State := s.gearRefused n hd o.part ⟨1, 0, none, code, 0⟩ 0
  match s.tensor o.part tid with
  | none => refuse s eShape
  | some t =>
    if !(t.main && t.desc.ndim == 1 && t.desc.etype == 8) then refuse s eShape
    else match t.state with
      | .lost => (s.gearDiag o.part 1 0 none 0).opEnd n hd (outcomeWord 0 false false stAborted eStateLost)
      | .loading => s.opWaits n hd
      | .absent =>
        if s.backLost o.part t then (s.gearDiag o.part 1 0 none 0).opEnd n hd (outcomeWord 0 false false stAborted eStateLost)
        else match s.askLoad (reqOf n hd) o.part o.acc 0 t with
        | (s, .granted) => (s.beginLoad o.part tid).opWaits n hd
        | (s, .waits) => s.opWaits n hd
        | (s, .refused) => refuse s eNoSpace
      | _ =>
        match s.gearImage o tid with
        | none => refuse s eShape
        | some (g, len) =>
          match s.gearFault o.part o.since rect pl g len with
          | some f => s.gearRefused n hd o.part f g.id
          | none => s.gearPlace n hd o g pl

/-- GLOAD (R115, R157): image TID ra, rectangle rb[15:0], plane AUX[0]. -/
def execGload (h : HubId) (s : State) : Result :=
  hubCmdExec h 0x30 s fun i n c =>
    let tid := s.tidOf h i.ra
    let rect := bits ((s.hub h).reg i.rb).toNat 0 16
    match s.issue h i n c false (.gload tid rect (i.aux % 2)) with
    | (s, some hd) => match s.aop n hd with
      | some o => s.tryGload n hd o tid rect (i.aux % 2)
      | none => s
    | (s, none) => s

/-- GEAR_LOAD_RESUME (R116): a load that waited for a DRAINING plane judges again from the start. Where its image tensor has been FREEd
meanwhile, the load is refused as one whose image is not there (DESIGN CHOICE, log 82: the manual does not say). -/
def execGearLoadResume (seq : Nat) (hd : HandleId) (s : State) : Result :=
  s.ifLive <|
    match s.aop seq hd with
    | some o => match o.op with
      | .gload tid _ plane =>
        if o.passed && !o.started then
          match s.gearImage o tid with
          | some (g, _) => s.gearPlace seq hd o g (plane == 1)
          | none => s.gearRefused seq hd o.part ⟨1, 0, none, eShape, 0⟩ 0
        else s
      | _ => s
    | none => s

/-- A gear load goes on (R115, R118, R169): the move of its image ends, well or not; it starts again after a wait for pages; or its
writing ends, and the plane is LOADED, or EMPTY where the writing failed. -/
def State.gearGoes (s : State) (n hd : Nat) (o : AOp) (tid rect plane : Nat) (ok : Bool) : State :=
  let pl := plane == 1
  if o.started then
    let id := ((s.bplane (rectKey rect) pl).gear.map (·.id)).getD 0
    if ok then
      let s := (rectBlocks rect).foldl (fun s b => s.setBplane b pl { s.bplane b pl with state := .loaded }) s
      (s.gearDiag o.part 0 0 none id).opEnd n hd (okWord false)
    else
      let s := (rectBlocks rect).foldl (fun s b => s.emptyPlane b pl) s
      (s.gearDiag o.part 0 0 none id).opEnd n hd (outcomeWord 0 false false stAborted eParity)
  else if o.passed then s
  else match s.tensor o.part tid with
    | some t =>
      if t.state = TState.loading then
        if (s.tensorChans t 0 t.desc.length).any s.paused then s
        else if ok && !s.readsBad o.part t then (s.loadEnds o.part tid).tryGload n hd o tid rect plane
        else s.loadFails o.part tid t
      else s.tryGload n hd o tid rect plane
    | none => s.tryGload n hd o tid rect plane

/-! ## SHIFT (R123, R125) -/

/-- An edge source as an owner (R265): kind and index. -/
def edgeOwner (kind index : Nat) : Nat := 0xED000000 + kind * 2 ^ 16 + index

/-- The edge source of a region that has started token K or, as the table of R123 has it, has passed it, the streams first, in index order (check 5 of R123). -/
def State.passedK (s : State) (r : Region) (k : Nat) : Option Nat :=
  match (r.streams.filter (·.desc.dir == 0)).find? fun st =>
      decide (0 < st.tok + st.flit ∧ (k < st.desc.tokenBase + st.tok ∨ (k = st.desc.tokenBase + st.tok ∧ 0 < st.flit))) with
  | some st => some (edgeOwner 1 st.idx)
  | none => ((List.range 128).find? fun l => inRect r.rect (blockOf (144 * l + 143)) &&
      decide (k < (s.eastIn l).tok ∨ (k = (s.eastIn l).tok ∧ (s.eastIn l).mid = true))).map (edgeOwner 4)

/-- Whether an edge source of a region feeds an edge link (R125). -/
def State.fedEdge (s : State) (r : Region) (c : Nat) (d : Side) : Bool :=
  (r.streams.any fun st => st.desc.dir == 0 && (List.range st.desc.nlink).any fun i => st.edge.port (st.desc.link0 + i) == (c, d)) ||
  (d == .e && (let x := s.eastIn (cogY c); !x.flits.isEmpty || x.tok != 0 || x.mid))

/-- The input queues that receive no TURN mark are turned as the SHIFT takes effect (R125). An east link that has been given nothing is
one; where K is above 0 it is closed, for a token below K that came later would bring the DRAINING plane's tag behind the LIVE plane's
(DEDUCED from R124, log 54). -/
def State.turnSources (s : State) (r : Region) : State :=
  (rectCogs r.rect).foldl (fun s c => sides.foldl (fun s d =>
    let fed := match neighbour c d with
      | some e => inRect r.rect (blockOf e)
      | none => s.fedEdge r c d
    if fed then s
    else
      let x := s.cog c
      let s := s.setCog c (x.setIq d.num { x.iq d.num with turned := true })
      if d = .e ∧ neighbour c d = none ∧ 0 < r.shiftK.getD 0 then s.setEdgeIn c d { s.edgeIn c d with closed := true } else s) s) s

/-- What a SHIFT does at this moment (R123). -/
inductive ShiftVerdict where
  | refused (code owner : Nat)
  | waits
  | go
  deriving DecidableEq, Repr

/-- The checks of R123 in order; the gear must fill the region's rectangle (R114; DEDUCED, log 26). -/
def State.shiftCheck (s : State) (r : Region) (gear k : Nat) : ShiftVerdict :=
  let new := !r.live
  let bs := (rectBlocks r.rect).map fun b => s.bplane b new
  let held := bs.all fun x => x.state != .empty && (match x.gear with
    | some g => g.id == gear && g.rect == r.rect
    | none => false)
  if held = false then .refused eShape 0
  else if (rectCogs r.rect).any fun c =>
      let x := s.cog c
      x.planeA.entry != x.planeB.entry && x.planeA.entry != 0x3F && x.planeB.entry != 0x3F then .refused eShape 0
  else if r.draining || bs.any fun x => x.state != .loaded then .waits
  else match s.passedK r k with
    | some o => .refused eConflict o
    | none => .go

/-- A SHIFT takes effect (R123, R125): the named plane is LIVE, the other DRAINING. -/
def State.shiftNow (s : State) (key : Nat) (r : Region) (gear k : Nat) : State :=
  let s := (rectBlocks r.rect).foldl (fun s b =>
    let s := s.setBplane b r.live { s.bplane b r.live with state := .draining }
    s.setBplane b (!r.live) { s.bplane b (!r.live) with state := .live }) s
  let s := (rectCogs r.rect).foldl (fun s c => s.setCog c { s.cog c with ranLive := false }) s
  let r' := { r with live := !r.live, draining := true, shiftK := some k }
  ((s.setRegion key r').turnSources r').trace 0x04 r.seq gear k

/-- SHIFT, first or again after a wait. -/
def State.shift (s : State) (h : Nat) (i : HubInstr) (n : Nat) : State :=
  let hd := ((s.hub h).reg i.ra).toNat
  let gear := bits ((s.hub h).reg i.rb).toNat 0 32
  match s.arr.regions.find? fun e => e.2.seq == n && e.2.handle == hd && e.2.step.isNone with
  | none => s.syncEnd h i n (refusedWord 0 false eShape)
  | some (key, r) =>
    match s.shiftCheck r gear i.imm with
    | .refused code owner => s.syncEnd h i n (refusedWord owner false code)
    | .waits => s.stallWaited h
    | .go => (s.shiftNow key r gear i.imm).syncEnd h i n (okWord false)

/-- SHIFT (R123). -/
def execShift (h : HubId) (s : State) : Result :=
  hubCmdExec h 0x31 s fun i n _ => if (s.hub h).stalled then s else s.shift h i n

/-- SHIFT_RESUME (R123): a SHIFT that waits applies every check again. -/
def execShiftResume (h : HubId) (s : State) : Result :=
  hubCmdExec h 0x31 s fun i n _ => if (s.hub h).stalled then s.shift h i n else s

end Sys2Proof.Machine
end

