-- ==== Sys2Proof/Machine/Run.lean ====
section
/-! DEFINITION. RUN and its streams (R120, R126, R149, R155, R176, R178 to R182, R269 to R271, R291, R517): the checks, the start
of a region, what edge sources send and edge sinks take, and the end of a RUN or of a phase of a serving step. -/

namespace Sys2Proof.Machine

/-! ## The checks of a RUN -/

/-- A refusal of a RUN: its code and the owner it names. -/
abbrev RunFault := Option (Nat × Nat)

/-- The near-home fill targets of a command that meet a rectangle (R176, R252). -/
def State.fillTargets (s : State) (c : Cmd) (rect : Nat) : List Nat :=
  (c.decls.filter fun d => d.mode == 3 && (match s.tensor c.part d.tid with
    | some t => t.near && rectMeets t.desc.nearRect rect
    | none => false)).map (·.tid)

/-- The owner that check 4 of R270 names, if a fill target meets one (R176). -/
def State.fillOwner (s : State) (c : Cmd) (rect : Nat) : Option Nat :=
  (s.fillTargets c rect).findSome? fun tid => match s.tensor c.part tid with
    | some t => s.nearOwner (tkey c.part tid) t.desc
    | none => none

/-- Check 1 of R270: the plane of every block of RECT is LOADED with a gear whose rectangle is RECT, in the partition's own blocks
(R48, R289; DEDUCED, log 27). -/
def State.planeReady (s : State) (p : Nat) (r : RunBlk) : Bool :=
  rectOk r.rect && decide (r.plane ≤ 1) && rectInside r.rect (s.rd F.SEC_PART_MAP.RECT p) &&
  (rectBlocks r.rect).all fun b =>
    let x := s.bplane b (r.plane == 1)
    x.state == .loaded && (match x.gear with
      | some g => g.rect == r.rect
      | none => false)

/-- The gear in a RUN's plane. -/
def State.runGear (s : State) (r : RunBlk) : Option Gear := (s.bplane (rectKey r.rect) (r.plane == 1)).gear

/-- The checks of R270, R517 and R291 on a RUN block of a command, in order; a RUN that reads the bulk tier is E_NOSPACE where that does not
come up (R198). -/
def State.runFault (s : State) (c : Cmd) (r : RunBlk) (ds : List StreamDesc) : RunFault :=
  if s.planeReady c.part r = false then some (eShape, 0)
  else if (match s.runGear r with
    | some g => g.cls == 0 && s.qClass c.queue != 0
    | none => false) then some (eAdmitTime, 0)
  else match s.arr.regions.find? fun e => rectMeets e.2.rect r.rect with
    | some e => some (eConflict, ((s.bplane (rectKey e.2.rect) e.2.live).gear.map (·.id)).getD 0)
    | none => match s.fillOwner c r.rect with
      | some o => some (eConflict, o)
      | none =>
        if s.streamsOk c.part r ds = false ∨ s.streamsInside c.part r.rect ds = false then some (eShape, 0)
        else if s.blkAbsent && ds.any (fun d => s.streamEdge c.part d == some .bulk) then some (eNoSpace, 0) else none

/-! ## The start of a region -/

/-- A cog that leaves IDLE at the start of a command (R58): registers, predicates, accumulators and loop stack clear, queues empty
with eight credits, a0 to a15 as the argument block says. -/
def Cog.start (x : Cog) (plane : Bool) (aregs : List Nat) (now : Nat) : Cog :=
  { x with mode := .entry, freewheel := false, woken := false, waited := some now, ranLive := false, vregs := [], preds := 1, acc := [], ctr := [],
           ctrInit := [], loops := [], pc := 0, plane := plane, inq := [], outq := [], arb := now, uptr := 0, inflight := [],
           drain := none, uread := none, uwrite := none
           aregs := (aregs.zipIdx).foldl (fun m e => Tab.set 0 m e.2 (BitVec.ofNat 32 e.1)) [] }

/-- The streams of a RUN as it starts. -/
def State.openStreams (s : State) (p : Nat) (ds : List StreamDesc) : List Stream :=
  (ds.zipIdx).map fun e => ⟨e.1, e.2, (s.streamEdge p e.1).getD .north, 0, 0, false, []⟩

/-- The fills of a RUN start (R176): what their ranges displace becomes ABSENT, and each target is being loaded. -/
def State.startFills (s : State) (task p : Nat) (fills : List Nat) : State :=
  let s := fills.foldl (fun s tid => match s.tensor p tid with
    | some t => (s.displace (tkey p tid) t.desc).setTensor p tid { t with state := .loading }
    | none => s) s
  s.modTask task fun t => { t with fills := (fills.filter fun x => !t.fills.contains x) ++ t.fills }

/-- The near-home RW tensors that a command declares written and that meet the rectangle begin to be written: they are DIRTY
(R167, R174). -/
def State.startWrites (s : State) (c : Cmd) (rect : Nat) : State :=
  let ws := (c.decls.filter fun d => d.mode == 2 && (match s.tensor c.part d.tid with
    | some t => t.near && t.rw_ && t.state.resident && rectMeets t.desc.nearRect rect
    | none => false)).map (·.tid)
  let s := ws.foldl (fun s tid => s.modTensor c.part tid fun t => { t with state := .dirty }) s
  s.modTask c.task fun t => { t with nearRW := (ws.filter fun x => !t.nearRW.contains x) ++ t.nearRW }

/-- Fabric tokens of the rectangle's east links are counted anew at each RUN (R369). -/
def State.resetEast (s : State) (rect : Nat) : State :=
  let east := s.arr.east.map fun e => if inRect rect (blockOf (144 * e.1 + 143)) then (e.1, { e.2 with tok := 0, mid := false }) else e
  { s with arr := { s.arr with east := east.filter fun e => e.2 != ⟨[], 0, false⟩ } }

/-- A RUN, or a phase of a serving step, whose checks have passed starts (R58, R114, R176, R270): fills, the LIVE plane, the cogs,
the streams. -/
def State.startRegion (s : State) (n hd : Nat) (c : Cmd) (r : RunBlk) (ds : List StreamDesc) (step : Option (Nat × Nat)) : State :=
  let live := r.plane == 1
  let fills := s.fillTargets c r.rect
  let streams := s.openStreams c.part ds
  let id := ((s.runGear r).map (·.id)).getD 0
  let s := ((s.startFills c.task c.part fills).startWrites c r.rect).resetEast r.rect
  let s := (rectBlocks r.rect).foldl (fun s b => s.setBplane b live { s.bplane b live with state := .live }) s
  let s := (s.clearEdges r.rect)
  let s := (rectCogs r.rect).foldl (fun s g =>
    if s.fenced g then s.setCog g (s.cog g).leave else s.setCog g ((s.cog g).start live r.aregs s.cycle)) s
  let g : Region := ⟨r.rect, c.part, n, hd, live, none, false, streams, r.shape, r.plist, c.cfg, s.work, s.time, s.work, 0, none, step, fills⟩
  let s := s.setRegion (rectKey r.rect) g
  if step.isNone then s.trace 0x02 n (r.rect + b2n live * 2 ^ 16) id else s

/-- A RUN of RUN block `k` of a command is checked and starts (R269 to R271). A block that the header does not name fails as a
shape does. -/
def State.tryRun (s : State) (n hd k : Nat) : State :=
  match s.cmd n with
  | none => s
  | some c =>
    if c.hdr.nrun ≤ k then s.opEnd n hd (refusedWord 0 false eShape)
    else
      let data := s.frameData c.hub c
      let r := RunBlk.parse (slice data (c.hdr.runblk.getD k 0) 192)
      if r.nstream = 0 ∨ 16 < r.nstream then s.opEnd n hd (refusedWord 0 false eShape)
      else match s.runFault c r (r.streams data) with
        | some (code, owner) => s.opEnd n hd (refusedWord owner false code)
        | none => (s.opStart n hd).startRegion n hd c r (r.streams data) none

/-- Whether the array is in Idle-serve, where a RUN or a phase must first wake it (R422, R423). -/
def State.asleep (s : State) : Bool := s.on F.PWR_STATUS.IDLE 0

/-- RUN starts RUN block AUX[1:0] (R269 to R271). In Idle-serve it waits for the array to wake, and is checked as it starts
(R423). -/
def execRun (h : HubId) (s : State) : Result :=
  hubCmdExec h 0x38 s fun i n c =>
    match s.issue h i n c true (.run (i.aux % 4)) with
    | (s, none) => s
    | (s, some hd) => if s.asleep then s else s.tryRun n hd (i.aux % 4)

/-! ## Edge sources (R120, R126, R180) -/

/-- The stream of a region with a descriptor index. -/
def Region.stream (r : Region) (i : Nat) : Option Stream := r.streams.find? fun st => st.idx == i

/-- A region with a stream written. -/
def Region.setStream (r : Region) (st : Stream) : Region :=
  { r with streams := r.streams.map fun x => if x.idx = st.idx then st else x }

/-- The index values of R182 that named nothing are reported as INDEX_RANGE. -/
def State.badIndices (s : State) (p tid : Nat) (vs : List Nat) : State :=
  vs.dedup.foldl (fun s v => s.tnsFault p 4 2 (v % 2 ^ 16) tid) s

/-- A source stream's next flit is read and stands at its edge port `c`, `d`. -/
def State.sourceSend (s : State) (r : Nat) (g : Region) (st : Stream) (t : Tensor) (c : Nat) (d : Side) : State :=
  let n := st.desc.tokenFlits (elemBits t.desc.etype)
  let (data, bad) := s.sourceFlit (s.regionTask g) g.part st.desc t g.shape g.plist st.tok st.flit
  let last := n ≤ st.flit + 1
  let e := s.edgeIn c d
  let s := s.captureFlit (s.regionTask g) g.part st.desc t g.shape g.plist st.tok st.flit
  let s := s.setEdgeIn c d { e with flits := e.flits ++ [.make data (g.stamp (st.desc.tokenBase + st.tok)) last] }
  let st := if last then { st with tok := st.tok + 1, flit := 0 } else { st with flit := st.flit + 1 }
  ((s.setRegion r (g.setStream st)).badIndices g.part st.desc.tid bad).note c false

/-- A source stream's next flit comes from its places through the movement engine to its edge port (R192, R228, R229); the engine of host memory
then goes on with loads that stood behind it (R392). -/
def State.sourceMove (s : State) (r : Nat) (g : Region) (st : Stream) (t : Tensor) (srcs : List Source) : State :=
  let bs := s.burstsAt (s.regionTask g) g.part srcs
  ((((s.leaveMain (· == (r, st.idx))).busErrors false bs).orParity g.seq fun s =>
    s.sourceSend r g st t (st.portOf st.tok).1 (st.portOf st.tok).2)).mainGo.hostGoes

/-- EDGE_SOURCE_FLIT (R120, R155, R180 to R182, R301, R305): a source stream's next flit goes to its edge port. What it reads of the main tier
waits for channels that a retrain has paused, in order (R236); at every 4 KiB the engine that reads it must grant it. -/
def execEdgeSourceFlit (r : RunId) (i : StreamId) (s : State) : Result :=
  s.ifLive <|
    match Tab.find s.arr.regions r with
    | none => s
    | some g =>
      match g.stream i with
      | none => s
      | some st =>
        match s.tensor g.part st.desc.tid with
        | none => s
        | some t =>
          if s.sourceGoes g st = false then s
          else
            let srcs := s.nextSources g st t
            match s.readMeets g.part srcs with
            | .waits => s
            | .denied a => ((s.pciEvent 9 (g.part + 1) a).tnsFault g.part 5 4 0 st.desc.tid).abortCmd g.seq eParity 0
            | .insecure a => ((s.pciEvent 10 (g.part + 1) a).tnsFault g.part 5 4 0 st.desc.tid).abortCmd g.seq eParity 0
            | .bad => (s.tnsFault g.part 6 3 0 st.desc.tid).abortCmd g.seq eParity 0
            | .ready =>
              let chs := s.chansAt (s.regionTask g) g.part srcs
              let id : Nat × Nat := (r, i)
              if s.mainWaits id chs then s.waitMain id chs
              else s.atEngine (if st.unitStart t st.tok st.flit then some (engineOf srcs, s.streamReq g) else none) fun s =>
                match if st.unitStart t st.tok st.flit then hostOf srcs else none with
                | some a => s.hostTry (g.part + 1) a (fun s => (s.tnsFault g.part 5 4 0 st.desc.tid).abortCmd g.seq eParity 0) fun s =>
                  s.sourceMove r g st t srcs
                | none => s.sourceMove r g st t srcs

/-- The next token of a source stream that goes on link `l` of its links, or none where no more do (R126). -/
def Stream.nextOn (st : Stream) (total l : Nat) : Option Nat :=
  let n := max 1 st.desc.nlink
  let t := st.tok + (l + n - st.tok % n) % n
  if t < total then some t else none

/-- Whether an edge source may send its TURN mark on a link now (R126). An east link may before token K, and after any token: it then
has sent its last flit, and what still reaches the fabric core below K waits for another RUN (DESIGN CHOICE, log 54). -/
def State.mayTurnEdge (s : State) (r : Region) (c : Nat) (d : Side) : Bool :=
  let k := r.shiftK.getD 0
  match r.streams.find? fun st => st.desc.dir == 0 && (List.range st.desc.nlink).any fun i => st.edge.port (st.desc.link0 + i) == (c, d) with
  | some st =>
    let l := ((List.range st.desc.nlink).find? fun i => st.edge.port (st.desc.link0 + i) == (c, d)).getD 0
    (match st.nextOn (s.streamTotal r st) l with
      | none => true
      | some t => !(t == st.tok && decide (0 < st.flit)) && decide (k ≤ st.desc.tokenBase + t))
  | none =>
    let x := s.eastIn (cogY c)
    d == .e && !x.mid && (x.flits.isEmpty || decide (k ≤ x.tok))

/-- Whether an edge link is an east link that turns below token K, after its last flit (R126). -/
def State.lastEast (s : State) (r : Region) (c : Nat) (d : Side) : Bool :=
  !(r.streams.any fun st => st.desc.dir == 0 && (List.range st.desc.nlink).any fun i => st.edge.port (st.desc.link0 + i) == (c, d)) &&
  decide ((s.eastIn (cogY c)).tok < r.shiftK.getD 0)

/-- EDGE_TURN_SEND (R126): the edge source of a link sends its TURN mark. -/
def execEdgeTurnSend (c : CogId) (side : Side) (s : State) : Result :=
  s.ifLive <|
    match s.regionOf c, neighbour c side with
    | some (_, r), none =>
      let e := s.edgeIn c side
      if r.draining && !e.turned && s.fedEdge r c side && s.mayTurnEdge r c side then
        s.setEdgeIn c side { e with turned := true, mark := true, closed := s.lastEast r c side }
      else s
    | _, _ => s

/-! ## Edge sinks (R47, R149, R155, R172, R180, R326, R327) -/

/-- Whether a tensor is a KV page of a live sequence of a batch (R325). -/
def State.kvPage (s : State) (b : Nat) (t : Tensor) : Bool :=
  t.desc.owner != 0 && s.srv.seqs.any fun e => e.1 / 512 == b && e.2.req == t.desc.owner && e.2.holdsPage t.part t.desc.tid

/-- Bytes written into the KV shadow of a sequence's page; new shadow pages come out of its reservation (R321, R326). -/
def State.kvWrite (s : State) (p tid o : Nat) (bs : List Byte) (t : Tensor) : State :=
  let h := (Tab.find s.mem.kvShadows (tkey p tid)).getD Shadow.empty
  let (h', s) := s.placeShadow h (h.writeN t.data o bs)
  let k := h'.pages.length - h.pages.length
  let s := s.framesWritten (h'.frameList (pagesOf t.desc.length)) o bs.length
  { s with mem := { s.mem with
      kvShadows := Tab.insert s.mem.kvShadows (tkey p tid) h'
      admits := match Tab.find s.mem.admits t.desc.owner with
        | some (q, n) => Tab.insert s.mem.admits t.desc.owner (q, n - k)
        | none => s.mem.admits } }

/-- One element that a sink writes: into the task's shadow, or into a KV shadow for a step's phase (R155, R172, R326). A LOST tensor
takes nothing (R195). -/
def State.sinkElem (s : State) (r : Region) (tid o eb v : Nat) : State :=
  match s.tensor r.part tid with
  | none => s
  | some t =>
    if t.state = .lost then s
    else
      let k := s.regionTask r
      let n := ceilDiv (o % 8 + eb) 8
      let old := ofBytes (s.tbytes k r.part tid (o / 8) n)
      let bs := toBytes n (setBits old (o % 8) eb v)
      match r.step with
      | some (b, _) => if s.kvPage b t then s.kvWrite r.part tid (o / 8) bs t else s.shadowWrite k r.part tid (o / 8) bs
      | none => s.shadowWrite k r.part tid (o / 8) bs

/-- The elements of a sink's flit written one by one: those of its walk that lie inside the runtime extents and the tensor. An index value
that names no valid slice or tensor takes its elements nowhere, and no INDEX_RANGE is recorded (DESIGN CHOICE, log 83: R182 speaks of
streaming alone). -/
def State.sinkFlit (s : State) (r : Region) (st : Stream) (t : Tensor) (tok f : Nat) (data : Word256) : State :=
  let eb := elemBits t.desc.etype
  let k := s.regionTask r
  let len := s.walkLen k r.part st.desc t.desc.extents r.shape r.plist
  (List.range (256 / max 1 eb)).foldl (fun s' i =>
    let j := f * (256 / max 1 eb) + i
    let n := tok * st.desc.tokenElems + j
    if j < st.desc.tokenElems ∧ n < len then
      match s.place k r.part st.desc t r.shape r.plist n with
      | .at_ tid o => s'.sinkElem r tid o eb (bits data.toNat (eb * i) eb)
      | .zero _ => s'
    else s') s

/-- An edge port discards a flit and raises the cog error source (R47). -/
def State.discard (s : State) (c : Nat) (d : Side) (fs : List Flit) : State := (s.setSinkAt c d fs).cogError (blockOf c)

/-- A sink stream takes the flit at its edge port (R47, R149, R155, R172, R180). A write that meets an ABSENT tensor with a backing
first loads it whole and waits for that load; where the load is refused its pages, or the bulk tier does not come up, the manual gives no
end, and the sink waits and asks again (DESIGN CHOICE, log 83). It waits for channels that a retrain has paused (R236), at every 4 KiB for
the grant of the main tier's engine (R301), and a write whose eighth resend fails aborts the command (R192). -/
def State.sinkTake (s : State) (key : Nat) (r : Region) (st : Stream) (l c : Nat) (d : Side) (f : Flit) (fs : List Flit) : State :=
  match s.tensor r.part st.desc.tid with
  | none => s.discard c d fs
  | some t =>
    let (n, k) := Tab.get (0, 0) st.links l
    let tok := l + n * st.desc.nlink
    if s.streamTotal r st ≤ tok then s.discard c d fs
    else
      let st' := { st with links := Tab.set (0, 0) st.links l (if f.eot then (n + 1, 0) else (n, k + 1)) }
      let r' := r.setStream st'
      if st.desc.tokenFlits (elemBits t.desc.etype) ≤ k then (s.discard c d fs).setRegion key r'
      else if s.lostNow r.part t ∧ t.state = TState.absent then s.abortCmd r.seq eStateLost 0
      else if t.state = TState.absent then
        match s.askLoad (reqOf r.seq 18) r.part (match s.cmd r.seq with
          | some x => x.acceptedAt
          | none => 0) 0 t with
        | (s, .granted) => s.loadFor r.part st.desc.tid r.seq
        | (s, _) => s
      else if t.state = TState.loading then s.awaitLoad r.part st.desc.tid r.seq
      else if t.state = TState.writing then s
      else
        let chs := s.chansAt (s.regionTask r) r.part (s.sinkPlaces r st t tok k)
        if s.mainWaits (key, st.idx) chs then s.waitMain (key, st.idx) chs
        else s.atEngine (if st.unitStart t tok k then some (0, s.streamReq r) else none) fun s =>
          ((((s.leaveMain (· == (key, st.idx))).setSinkAt c d fs).sinkFlit r st t tok k f.data).orParity r.seq fun s =>
            s.setRegion key r').mainGo

/-- Whether a region's phase sends logits over the west edge: it is the last phase of its step (R327). -/
def State.logitStep (s : State) (r : Region) : Option (Nat × Step) :=
  match r.step with
  | some (b, ph) => match s.step? b with
    | some x => if x.edge && ph + 1 == x.phases.length then some (b, x) else none
    | none => none
  | none => none

/-- The serving engine's logits sink takes a flit of the west edge (R47, R327). -/
def State.logitTake (s : State) (b : Nat) (x : Step) (c : Nat) (d : Side) (f : Flit) (fs : List Flit) : State :=
  let n := ceilDiv (s.rd F.SRV_BATCH_CFG.VOCAB b * (if x.bf16 then 16 else 32)) 256
  let beyond := decide (n ≤ x.flits.length)
  let flits := if beyond then x.flits else x.flits ++ [f.data]
  let x' := if f.eot then { x with tokens := x.tokens ++ [flits], flits := [] } else { x with flits := flits }
  let s := s.setStep b x'
  if beyond then s.discard c d fs else s.setSinkAt c d fs

/-- EDGE_SINK_FLIT (R47, R121, R155, R180, R327): the engine of an edge port takes its oldest flit: a sink stream writes it, the
serving engine gathers logits, and what no sink waits for is discarded. East links follow R369. -/
def execEdgeSinkFlit (c : CogId) (side : Side) (s : State) : Result :=
  s.ifLive <|
    if side = .e ∨ (neighbour c side).isSome then s
    else match s.sinkAt c side with
      | [] => s
      | f :: fs =>
        match s.regionOf c with
        | none => s.discard c side fs
        | some (key, r) =>
          let s : State := match r.sinkOn c side with
            | some (st, l) => s.sinkTake key r st l c side f fs
            | none => match s.logitStep r with
              | some (b, x) => if side = Side.w ∧ 64 ≤ cogY c then s.logitTake b x c side f fs else s.discard c side fs
              | none => s.discard c side fs
          s.note c false

/-! ## The end (R271) -/

/-- Every source stream of a region has sent its last flit. -/
def State.sourcesDone (s : State) (r : Region) : Bool :=
  (r.streams.filter (·.desc.dir == 0)).all fun st => decide (s.streamTotal r st ≤ st.tok)

/-- Every sink stream has received the tokens of its walk, counted by EOT on each link. -/
def State.sinksDone (s : State) (r : Region) : Bool :=
  (r.streams.filter (·.desc.dir == 1)).all fun st => (List.range st.desc.nlink).all fun l =>
    decide (s.streamTotal r st ≤ l + (Tab.get (0, 0) st.links l).1 * st.desc.nlink)

/-- The queues and slices of a cog are empty. -/
def Cog.empty (x : Cog) : Bool :=
  ((List.range 5).all fun q => let v := x.iq q; v.flits.isEmpty && v.side.isEmpty && v.arrived.isEmpty) &&
  sides.all fun d => (x.oq d).flits.isEmpty && (x.oq d).reserved == 0

/-- A cog that does not hold back completion: IDLE, or waiting at its entry queue with nothing in flight. -/
def Cog.resting (x : Cog) : Bool := x.mode == .idle || (x.mode == .entry && x.quiet)

/-- Nothing of a region is on an edge link. -/
def State.edgesEmpty (s : State) (rect : Nat) : Bool :=
  (s.arr.edges.all fun e => !inRect rect (blockOf (e.1 / 4)) || e.2.flits.isEmpty) &&
  s.arr.sinks.all fun e => !inRect rect (blockOf (e.1 / 4))

/-- The conditions of R271. -/
def State.runDone (s : State) (r : Region) : Bool :=
  s.sourcesDone r && s.sinksDone r && s.edgesEmpty r.rect &&
  (rectCogs r.rect).all fun c => (s.cog c).empty && (s.fenced c || (s.cog c).resting)

/-- The fill targets of a region that has ended are CLEAN (R176). -/
def State.endFills (s : State) (r : Region) : State :=
  r.fills.foldl (fun s tid => s.modTensor r.part tid fun t => if t.state = .loading then { t with state := .clean, touch := s.time } else t) s

/-- A phase of a step is over (R326, R327): a wrong number of logit tokens aborts the task; else the next phase may start. -/
def State.phaseEnd (s : State) (r : Region) (b : Nat) : State :=
  match s.step? b with
  | none => s
  | some x =>
    let want := (x.parts.filter (·.samples)).length
    if x.edge && x.phase + 1 == x.phases.length && (x.tokens.length != want || !x.flits.isEmpty) then s.abortCmd r.seq eAborted 0
    else s.setStep b { x with running := false, phase := x.phase + 1, readyAt := s.work }

/-- RUN_COMPLETE (R114, R271, R326): a RUN completes with OK: its cogs are IDLE, its planes LOADED, its fills CLEAN. -/
def execRunComplete (r : RunId) (s : State) : Result :=
  s.ifLive <|
    match Tab.find s.arr.regions r with
    | none => s
    | some g =>
      if s.runDone g then
        let counted := match s.cmd g.seq with
          | some c => s.countedTime g.seq c
          | none => 0
        let s := (s.endFills g).closeRegion r
        match g.step with
        | some (b, _) => s.phaseEnd g b
        | none =>
          let s := s.modCmd g.seq fun c => c.exclude g.quietWork s.work
          (s.trace 0x03 g.seq (okWord false) counted).opEnd g.seq g.handle (okWord false)
      else s

end Sys2Proof.Machine
end

