-- ==== Sys2Proof/Machine/Fatal.lean ====
section
/-! DEFINITION. The ends that reach beyond one task: work ended by a reset, a halt or a device-fatal cause (R284, R442, R477),
the device-fatal latch (R476 to R479), and a hub whose memory fails (R475). -/

namespace Sys2Proof.Machine

/-- A REQUEST ends ABORTED without a record, and its sequence is cleared (R284, R442, R477). -/
def State.endSeq (s : State) (n detail : Nat) : State :=
  let s := match s.findSeq n with
    | some (k, _) => s.clearSeq k
    | none => s
  s.finish n .aborted stAborted eAborted detail

/-- Every command of the queues that `sel` chooses ends ABORTED with E_ABORTED and DETAIL: sequences end without records, before the tasks
abort as R174 and R257 say, so that no tensor a task strikes ends one otherwise; records that wait for a ring of theirs are dropped
(R284, R442, R477). -/
def State.endWork (s : State) (sel : Nat → Bool) (detail : Nat) : State :=
  let s := { s with srv := { s.srv with groups := s.srv.groups.filter fun g => !sel (64 * s.rd F.SRV_BATCH_CFG.PART g.batch) } }
  let s := ((s.ctl.cmds.filter fun e => sel e.2.queue && e.2.stage == .live).map (·.1)).foldl (fun s n => s.endSeq n detail) s
  let s := ((s.srv.seqs.filter fun e => sel (64 * e.2.part)).map (·.1)).foldl State.clearSeq s
  ((s.ctl.tasks.filter fun e => sel e.2.queue).map (·.1)).foldl (fun s k => s.abortAll k eAborted detail) s

/-- Every tensor operation, gear load and host read stops (R477). -/
def State.stopMoves (s : State) : State :=
  let s := (s.endGloads fun _ => true).dropHeld
  { s with
    ctl := { s.ctl with ops := [] }
    mem := { s.mem with evicts := [] }
    pci := { s.pci with dma := [], reads := [] }
    rlt := { s.rlt with xfers := [], msgs := [] } }

/-- The lanes of every Ralet port are off; the frames they held are gone (R477). -/
def State.laneOff (s : State) : State :=
  let s := (List.range 16).foldl (fun s p =>
    let x := s.port p
    s.setPort p { Port.clear with since := x.since, faults := x.faults, corr := x.corr }) s
  { s with rlt := { s.rlt with entries := [] } }

/-- The channels of one half of the main tier are all ONLINE or RETIRED (R478). -/
def State.halfOk (s : State) (upper : Bool) : Bool :=
  (List.range 32).all fun i => let st := s.rd F.LPX_CH_STATE.STATE (i + if upper then 32 else 0); st == 1 || st == 5

/-- PLDM event codes of the model's own record (log 2): a device-fatal cause. -/
def pldmFatal : Nat := 1

/-- A journal entry as the device can still read it: from copy A, or from copy B where copy A fails parity after one reread; none where both
fail. A copy fails where the channels of its half do not all work, and the entry that cause 2 names fails in both (R476, R478, R479). -/
def State.jnlEntry (s : State) (slot : Nat) : Option JEntry :=
  let dead := s.fatal && s.rd F.OBS_FATAL.CAUSE 0 == 2 && s.rd F.OBS_FATAL.DETAIL 0 == slot
  let bad (k : Nat) : Bool := dead || !s.halfOk (k == 1) || Config.jnlBad k slot s.time
  if !bad 0 then some (Tab.get JEntry.zero s.ctl.jnlA slot)
  else if !bad 1 then some (Tab.get JEntry.zero s.ctl.jnlB slot)
  else none

/-- Steps 1 to 3 of R477, and the ends of step 5, in the cycle of the latch; ACLK stops by `State.aclkRate`. Of the journal only the copies
whose channels all work are written (R478). STOPPED and JOURNAL_FINAL follow after free times, within 1 ms and 50 ms (log 99). -/
def State.fatalStop (s : State) : State :=
  let a := s.halfOk false
  let b := s.halfOk true
  let ja := s.ctl.jnlA
  let jb := s.ctl.jnlB
  let s := ((s.endWork (fun _ => true) 0xF5).stopMoves).laneOff
  let s := { s with ctl := { s.ctl with jnlA := if a then s.ctl.jnlA else ja, jnlB := if b then s.ctl.jnlB else jb } }
  let (v, s) := s.draw 64
  let d := v % 2 ^ 32 % 1000000
  { s with obs := { s.obs with stops := some (timeAdd s.time d, timeAdd s.time (d + v / 2 ^ 32 % (50000000 - d))) } }

/-- Step 4 of R477: the device is STOPPED, VEC is sent, and FATAL is raised to firmware, which sends a PLDM event. -/
def State.fatalStopped (s : State) : State :=
  let s := (s.put F.OBS_FATAL.STOPPED 0 true).wr F.OBS_FATAL.STOP_US 0 ((s.time - s.rd F.OBS_FATAL_TIME.TIME 0) / 1000)
  ((s.raise 163).send (.pldm pldmFatal)).requestVec 0 (s.rd F.OBS_FATAL_CFG.VEC 0)

/-- The end of step 5 of R477: the journal is final and VEC is sent again; JNL_LOST where both copies of an entry are unreadable (R479). -/
def State.fatalFinal (s : State) : State :=
  let lost := (!s.halfOk false && !s.halfOk true) || s.rd F.OBS_FATAL.CAUSE 0 == 2 || s.ctl.jnlA.any fun e => (s.jnlEntry e.1).isNone
  let s := (s.put F.OBS_FATAL.JOURNAL_FINAL 0 true).put F.OBS_FATAL.JNL_LOST 0 lost
  let s := s.wr F.OBS_FATAL.FINAL_MS 0 (ceilDiv (s.time - s.rd F.OBS_FATAL_TIME.TIME 0) 1000000)
  ({ s with obs := { s.obs with stops := none } } : State).requestVec 0 (s.rd F.OBS_FATAL_CFG.VEC 0)

/-- What the fatal state still does in time (R477): at a tick, the steps whose time has come. -/
def State.fatalTick (s : State) : State :=
  match s.obs.stops with
  | none => s
  | some (a, b) =>
    let t := if a ≤ s.time ∧ s.on F.OBS_FATAL.STOPPED 0 = false then s.fatalStopped else s
    if b ≤ s.time then t.fatalFinal else t

/-- A device-fatal cause is latched, the first one only (R476), DEV_FAULT_N falls (R508), an activation stops with each
component as it is (R482), and the device
stops (R477). -/
def State.latchFatal (s : State) (cause detail : Nat) : State :=
  if s.fatal then s
  else
    let s := (((s.put F.OBS_FATAL.FATAL 0 true).wr F.OBS_FATAL.CAUSE 0 cause).wr F.OBS_FATAL.DETAIL 0 detail).wr F.OBS_FATAL_TIME.TIME 0 s.time
    let s := { s with pins := { s.pins with devFault := true }, sec := { s.sec with active := none } }
    let s := if s.rd F.OBS_UPD_STATUS.STATE 0 = 2 then
        ((s.wr F.OBS_UPD_STATUS.STATE 0 0).wr F.OBS_UPD_STATUS.COMP 0 0).wr F.OBS_UPD_STATUS.HUBS_LEFT 0 0 else s
    (s.trace 0x0C 0 (s.reg .OBS_FATAL 0) (s.reg .OBS_FATAL_TIME 0)).fatalStop

/-- FATAL_LATCH (R476, R477): the device detects one of the causes of R476. -/
def execFatalLatch (cause detail : Nat) (s : State) : Result :=
  s.ifLive <| if 1 ≤ cause ∧ cause ≤ 6 then s.latchFatal cause detail else s

/-- The journal as one copy holds it, or the other where the first copy's half of the main tier does not work (R478). -/
def State.journalCopy (s : State) : SavedJournal :=
  ⟨if s.halfOk false || !s.halfOk true then s.ctl.jnlA else s.ctl.jnlB, s.reg .JNL_STATUS 0⟩

/-- FATAL_JOURNAL_SAVE (step 6 of R477): where the bulk tier is ready and the cause is not MGMT, the journal replaces the saved
one. -/
def execFatalJournalSave (s : State) : Result :=
  s.ifClocked <|
    if s.on F.OBS_FATAL.JOURNAL_FINAL 0 && s.on F.BLK_STATUS.READY 0 && s.rd F.OBS_FATAL.CAUSE 0 != 5 then
      { (s.put F.OBS_FATAL.SAVED 0 true) with saved := some s.journalCopy }
    else s

/-- MGMT_WATCHDOG_EXPIRE (cause 5 of R476). -/
def execMgmtWatchdogExpire (s : State) : Result := s.ifLive (s.latchFatal 5 0)

/-- RAIL_OUT_OF_RANGE (cause 6 of R476): DETAIL 1 for VDD_CORE, 2 for VDD_SRAM. -/
def execRailOutOfRange (sram : Bool) (s : State) : Result := s.ifLive (s.latchFatal 6 (if sram then 2 else 1))

/-- HUB_PARITY_FAIL (R474, R475): the tasks of the hub's running and parked commands abort with E_PARITY, the hub clears itself and
goes on; the third failure within one hour takes it offline as R298 says. -/
def execHubParityFail (h : HubId) (s : State) : Result :=
  s.ifLive <|
    let h := h.val
    let x := s.hub h
    let fails := s.time :: x.fails.filter fun t => decide (s.time - t ≤ 3600000000000)
    let s := (x.cur.toList ++ x.park.map (·.seq)).foldl (fun s n => s.abortCmd n eParity 0) s
    let s := (s.clearHub h).fault 3
    let s := s.setHub h { s.hub h with fails := fails }
    if 3 ≤ fails.length ∧ s.rd F.HUB_CTRL.STATE h = 1 then s.stopHub h else s

end Sys2Proof.Machine
end

