-- ==== Sys2Proof/Machine/Power.lean ====
section
/-! DEFINITION. Clocks, the power governor and the thermal response (chapter 15), with the loss of REFCLK (R508). -/

namespace Sys2Proof.Machine

/-- The next state `t` where the clocks run and the device is not halted: what the governor and the pins still do in the fatal
state (R445, R479). -/
def State.ifGoverned (s : State) (t : State) : Result := .next (if s.clocks && !s.pins.porLow && !s.halted then t else s)

/-! ## Caps (R421, R425 to R429) -/

/-- The power limit of a mode (R421). -/
def modeLimit (m : Nat) : Nat := [1200, 900, 650].getD m 650

/-- The ceiling in force, coded as MODE: the mode applied, at least Balanced while many channels are hot (R441), and Efficient
while the coolant ceiling holds (R437). -/
def State.ceiling (s : State) : Nat :=
  max s.pwr.mode (max (if s.pwr.hotHold then 1 else 0) (if s.on F.PWR_STATUS.COOLANT 0 then 2 else 0))

/-- The thermal input: the limit that R440 moves; held at 650 W while more than eight sensors are excluded (R485). -/
def State.thermalInput (s : State) : Option Nat := if 8 < s.pwr.excluded.length then some 650 else s.pwr.thermal

/-- The limits of R425 with their LIMITER codes, lowest code first. -/
def State.limits (s : State) : List (Nat × Nat) :=
  [(0, modeLimit s.ceiling), (1, s.rd F.PWR_STATUS.CAP_RM 0)] ++ (s.pwr.kick.toList.map fun k => (2, k.1)) ++
  [(3, s.rd F.PWR_STEP_CAP.CAP (s.rd F.PWR_STATUS.PIN_CODE 0)), (4, s.rd F.PWR_HOST_CAP.CAP 0)] ++
  (s.thermalInput.toList.map fun w => (5, w))

/-- The lowest of a list of limits, the earliest on a tie. -/
def lowest (l : List (Nat × Nat)) : Nat × Nat := l.foldl (fun b e => if e.2 < b.2 then e else b) (0, 65535)

/-- The governor's target at a device time (R428, R429), in W. -/
def Ramp.level (r : Ramp) (t : Nat) : Nat :=
  if r.t1 ≤ t ∨ r.t1 ≤ r.t0 then r.w1
  else if t ≤ r.t0 then r.w0
  else if r.w1 ≤ r.w0 then r.w0 - (r.w0 - r.w1) * (t - r.t0) / (r.t1 - r.t0)
  else r.w0 + (r.w1 - r.w0) * (t - r.t0) / (r.t1 - r.t0)

/-- The sum of the samples kept. -/
def Pwr.sum (x : Pwr) : Nat := x.samples.foldl (· + ·) 0

/-- Whether the 1 ms average lies above `w` W: the mean itself, not the whole watts that PWR_MEAS shows (R424, R428, R431, R437). -/
def State.above (s : State) (w : Nat) : Bool := decide (w * s.pwr.samples.length < s.pwr.sum)

/-- The µs in which 200 W per ms takes the 1 ms average down to `c` (R428). -/
def State.dropUs (s : State) (c : Nat) : Nat := (s.pwr.sum - c * s.pwr.samples.length) * 5 / s.pwr.samples.length

/-- The brake is applied, if it is not yet (R430, R431, R404). -/
def State.brakeOn (s : State) : State :=
  if s.on F.PWR_STATUS.BRAKE 0 then s else (s.put F.PWR_STATUS.BRAKE 0 true).powerEvent

/-- The target falls in a line from `p` to `c`, in `ms` thousandths of a ms (R428). -/
def State.fallTo (s : State) (p c us : Nat) : State := { s with pwr := { s.pwr with ramp := ⟨s.time, p, timeAdd s.time (us * 1000), c⟩ } }

/-- The target rises at UP_SLEW from `p` to `c` (R429). -/
def State.riseTo (s : State) (p c : Nat) : State :=
  { s with pwr := { s.pwr with ramp := ⟨s.time, min p c, timeAdd s.time ((c - p) * 1000000 / max 1 (s.rd F.PWR_CFG.UP_SLEW 0)), c⟩ } }

/-- The brake for a cap (R428, R431): the target is `c` at once, and an overshoot window starts, or goes on against the lowest cap. -/
def State.brakeFor (s : State) (c : Nat) : State :=
  let s := (s.fallTo c c 0).brakeOn
  { s with pwr := { s.pwr with
      brakeCap := some (s.pwr.brakeCap.getD s.time)
      window := some (s.pwr.window.getD (s.time, s.rd F.PWR_MEAS.AVG_W 0, c)) } }

/-- CAP_EFF and LIMITER as the inputs stand now (R425, R426). -/
def State.capRegs (s : State) : State :=
  let (code, w) := lowest (s.limits.map fun e => (e.1, max 350 e.2))
  let s := if s.limits.any fun e => decide (e.2 < 350) then s.put F.PWR_STATUS.MIN_CLAMP 0 true else s
  ((s.wr F.PWR_STATUS.CAP_EFF 0 w).wr F.PWR_STATUS.LIMITER 0 code).wr F.PWR_STATUS.MODE_EFF 0 s.ceiling

/-- What the governor did for the caps since CAP_EFF was `j.cap` is as it was then (R445): its target, the cap brake and the window. -/
def State.unjudge (s : State) (j : Judged) : State :=
  { (s.put F.PWR_STATUS.BRAKE 0 (j.brake || s.pwr.brakeThr || s.pwr.brakeCool.isSome)) with pwr := { s.pwr with
      ramp := j.target, brakeCap := j.brakeCap, window := j.window } }

/-- CAP_EFF has gone from `old` to what it is: R428 and R429 judge it, with the ramp time of a cap that arrived from outside, in ms, or
none where the device itself moved a limit. -/
def State.judgeCaps (s : State) (old : Nat) (ramp : Option Nat) : State :=
  let c := s.rd F.PWR_STATUS.CAP_EFF 0
  let p := s.rd F.PWR_MEAS.AVG_W 0
  if c < old then
    let s := match s.pwr.window with
      | some (t, e, w) => { s with pwr := { s.pwr with window := some (t, e, min w c) } }
      | none => s
    if !s.above c then
      let now := s.pwr.ramp.level s.time
      if now ≤ c then s.riseTo now c else s.fallTo c c 0
    else match ramp with
      | none => s.fallTo p c (s.dropUs c)
      | some r =>
        if !s.above (c + 200 * r + s.rd F.PWR_CFG.BRAKE_TOL 0) then s.fallTo p c (max (r * 1000) (s.dropUs c)) else s.brakeFor c
  else if old < c then s.riseTo p c
  else s

/-- A limit input has changed: one evaluation of R425, judged by R428 and R429. Where several change in one TCLK cycle they are judged
together, on the CAP_EFF that results and with the ramp time of the one that sets it (R445; log 30). -/
def State.evalCaps (s : State) (ramp : Option Nat) : State :=
  let was := s.rd F.PWR_STATUS.CAP_EFF 0
  match s.pwr.judged.filter fun j => j.at_ == s.time with
  | some j =>
    let s := s.capRegs
    let ms := if s.rd F.PWR_STATUS.CAP_EFF 0 = was then j.ms else ramp
    (({ s with pwr := { s.pwr with judged := some { j with ms := ms } } } : State).unjudge j).judgeCaps j.cap ms
  | none =>
    let j : Judged := ⟨s.time, was, s.pwr.ramp, s.pwr.brakeCap, s.pwr.window, s.on F.PWR_STATUS.BRAKE 0, ramp⟩
    (({ s with pwr := { s.pwr with judged := some j } } : State).capRegs).judgeCaps was ramp

/-- A cap that goes from `old` to `c` W arrives from outside with a ramp of `ramp` ms (R428, R429). Where it is lowered and CAP_EFF does not
fall by it, as another limit is lower still, D is judged on the cap that arrived; of several inputs that change in one TCLK cycle only the
CAP_EFF that results is judged (R445; DEDUCED, log 30). -/
def State.capArrives (s : State) (old c ramp : Nat) : State :=
  let t := s.evalCaps (some ramp)
  if (s.pwr.judged.all fun j => j.at_ != s.time) && decide (c < old) &&
      decide (s.rd F.PWR_STATUS.CAP_EFF 0 ≤ t.rd F.PWR_STATUS.CAP_EFF 0) && t.above (c + 200 * ramp + t.rd F.PWR_CFG.BRAKE_TOL 0)
  then t.brakeFor (t.rd F.PWR_STATUS.CAP_EFF 0) else t

/-- The mode that PWR_CFG holds is applied to the ceiling, unless the brake holds it back (R445); a change of mode is a power
event (R404). -/
def State.applyMode (s : State) : State :=
  if s.on F.PWR_STATUS.BRAKE 0 then s
  else
    let m := s.rd F.PWR_CFG.MODE 0
    if s.pwr.mode = m then s
    else (({ s with pwr := { s.pwr with mode := m } } : State).evalCaps none).powerEvent

/-- PWR_CFG written, each field held in its range (R446); MODE takes effect as R421 says. -/
def State.writePwrCfg (s : State) (v : Nat) : State :=
  let s := s.wr F.PWR_CFG.MODE 0 (min 2 (bits v 30 2))
  let s := (s.wr F.PWR_CFG.IDLE_EN 0 (bits v 29 1)).wr F.PWR_CFG.IDLE_US 0 (max 50 (bits v 16 12))
  ((s.wr F.PWR_CFG.UP_SLEW 0 (clampTo 10 200 (bits v 8 8))).wr F.PWR_CFG.BRAKE_TOL 0 (clampTo 10 200 (bits v 0 8))).applyMode

/-- MODE_WRITE (R421): a write of PWR_CFG through the physical function. -/
def execModeWrite (f : FnId) (v : Word32) (s : State) : Result :=
  s.ifHost f.val (RegKind.addr .PWR_CFG 0) <| if isPF f.val then s.writePwrCfg v.toNat else s.deny f

/-- A cap below 350 W is applied as 350 W and sets MIN_CLAMP (R426). -/
def State.clampCap (s : State) (w : Nat) : State := if w < 350 then s.put F.PWR_STATUS.MIN_CLAMP 0 true else s

/-- HOST_CAP_WRITE (R426, R428, R446): a write of PWR_HOST_CAP, followed with a ramp of zero. -/
def State.writeHostCap (s : State) (v : Nat) : State :=
  let w := clampTo 350 1200 (bits v 0 16)
  ((s.clampCap (bits v 0 16)).wr F.PWR_HOST_CAP.CAP 0 w).capArrives (s.rd F.PWR_HOST_CAP.CAP 0) w 0

/-- A write of PWR_STEP_CAP of a code (R426, R435): where that code is in effect it is a cap that arrives. -/
def State.writeStepCap (s : State) (i w : Nat) : State :=
  let t := s.wr F.PWR_STEP_CAP.CAP i w
  if i = s.rd F.PWR_STATUS.PIN_CODE 0 then t.capArrives (max 350 (s.rd F.PWR_STEP_CAP.CAP i)) (max 350 w) 0 else t

/-- A write of PWR_RM_CFG (R426, R438, R446). Monitoring starts afresh, with the next valid message, once HB_EN has been 0 or RM_EID names
another endpoint (DEDUCED, log 30). -/
def State.writeRmCfg (s : State) (v : Nat) : State :=
  let eid := bits v 16 8
  let t := ((s.wr F.PWR_RM_CFG.HB_EN 0 (bits v 31 1)).wr F.PWR_RM_CFG.RM_EID 0 eid).wr F.PWR_RM_CFG.SAFE_CAP 0 (clampTo 350 1200 (bits v 0 16))
  let t := t.clampCap (bits v 0 16)
  if bit v 31 && eid == s.rd F.PWR_RM_CFG.RM_EID 0 then t else { t with pwr := { t.pwr with lastMsg := none } }

/-- HOST_CAP_WRITE (R428). -/
def execHostCapWrite (f : FnId) (v : Word32) (s : State) : Result :=
  s.ifHost f.val (RegKind.addr .PWR_HOST_CAP 0) <| if isPF f.val then s.writeHostCap v.toNat else s.deny f

/-! ## The clock (R419, R420) -/

/-- CAPTURE (R420): device time is latched. -/
def State.captureTime (s : State) : State := (s.wr F.CLK_TIME_CAP.TIME 0 s.time).count F.CLK_CAP_CTRL.CAPTURES 0 1

/-- CAPTURE (R420, R446). -/
def execCapture (f : FnId) (s : State) : Result := s.ifHost f.val (RegKind.addr .CLK_CAP_CTRL 0) <| if isPF f.val then s.captureTime else s.deny f

/-! ## VDD_CORE (R418, R422, R484) -/

/-- The divisors that the governor uses no faster than: the mode's, and the device's after R484. -/
def State.fastest (s : State) : Nat := max s.ceiling (s.rd F.OBS_CAL_STATUS.DIV_STEPS 0)

/-- The divisor to apply: the one chosen, no faster than is allowed now (R421). -/
def State.nextDiv (s : State) : Nat := max s.pwr.wantDiv s.fastest

/-- The voltage of a divisor in mV: the fused table's with the trim, within 0.60 to 0.75 V (R418, R484). -/
def State.volt (s : State) (d : Nat) : Nat := clampTo 600 750 (Config.fusedMv d + s.rd F.OBS_CAL_STATUS.TRIM_MV 0)

/-- VDD_CORE now, in mV (R418). Before the device first sets it after a cold reset, the regulator holds 0.70 V (R504). -/
def State.vdd (s : State) : Nat := match s.pwr.vdd with
  | some r => r.level s.time
  | none => 700

/-- Where VDD_CORE goes: high enough for the divisor in use and for the one to come; the ÷8 voltage in Idle-serve until the array wakes
(R418, R422, R423). -/
def State.vddGoal (s : State) : Nat :=
  if s.on F.PWR_STATUS.IDLE 0 && s.pwr.wake.isNone then s.volt 3 else max (s.volt (s.rd F.PWR_STATUS.ACLK_DIV 0)) (s.volt s.nextDiv)

/-- VDD_CORE slews towards its goal at 10 mV per µs (R418). -/
def State.slewCore (s : State) : State :=
  let now := s.vdd
  let goal := s.vddGoal
  { s with pwr := { s.pwr with vdd := some ⟨s.time, now, timeAdd s.time (((now - goal) + (goal - now)) * 100), goal⟩ } }

/-! ## Idle-serve (R422, R423) -/

/-- Whether a RUN, or a phase of a step, runs or is ready to start (R422). -/
def State.arrayBusy (s : State) : Bool :=
  !s.arr.regions.isEmpty || (s.ctl.ops.any fun e => e.2.sleeps) ||
    s.srv.steps.any fun e => e.2.waits

/-- IDLE_SERVE_ENTER (R422). -/
def execIdleServeEnter (s : State) : Result :=
  s.ifLive <|
    if s.on F.PWR_CFG.IDLE_EN 0 && !s.asleep && !s.arrayBusy && s.due s.pwr.idleFrom (s.rd F.PWR_CFG.IDLE_US 0 * 1000) then
      ({ (s.put F.PWR_STATUS.IDLE 0 true) with pwr := { s.pwr with wake := none } } : State).slewCore
    else s

/-- A RUN that waited for the array starts; the wait is no counted time (R423). -/
def State.wakeRun (s : State) (n hd : Nat) (o : AOp) : State :=
  match o.op with
  | .run k => (s.modCmd n fun c => c.exclude o.since s.work).tryRun n hd k
  | _ => s

/-- The wait of a phase of a step for the array to wake is no counted time of its command (R423). -/
def State.wakePhases (s : State) : State :=
  (s.srv.steps.filter fun e => e.2.waits).foldl (fun s e => s.modCmd e.2.seq fun c => c.exclude e.2.readyAt s.work) s

/-- IDLE_SERVE_WAKE (R423): a RUN or phase that is ready to start wakes the array. While VDD_CORE stands below the voltage of the divisor in
use it is made to rise, and that is all; once it has risen ACLK restarts, and the RUNs that waited start (DESIGN CHOICE, log 94: the
command is carried out again then). A waiting phase starts by STEP_PHASE_START. -/
def execIdleServeWake (s : State) : Result :=
  s.ifLive <|
    if s.asleep && s.arrayBusy then
      if s.vdd < s.volt (s.rd F.PWR_STATUS.ACLK_DIV 0) then
        if s.pwr.wake.isSome then s else ({ s with pwr := { s.pwr with wake := some s.time } } : State).slewCore
      else
      let s : State := { (s.put F.PWR_STATUS.IDLE 0 false).wakePhases with pwr := { s.pwr with wake := none } }
      (s.ctl.ops.filter fun e => e.2.sleeps).foldl (fun s e => s.wakeRun (e.1 / 16) (e.1 % 16) e.2) s
    else s

/-! ## Sampling and choosing a setting (R418, R424, R427, R431) -/

/-- The overshoot window goes on, or ends at the first sample whose average is at or below the cap (R431). -/
def State.windowStep (s : State) : State :=
  match s.pwr.window with
  | none => s
  | some (t0, peak, cap) =>
    if !s.above cap then
      let s := { s with pwr := { s.pwr with window := none, judged := none } }
      let s := (s.count F.PWR_OVERSHOOT.COUNT 0 1).wrSat F.PWR_OVERSHOOT.PEAK_W 0 (peak - cap)
      ((s.wrSat F.PWR_OVERSHOOT.DURATION_US 0 ((s.time - t0) / 1000)).wr F.PWR_OVERSHOOT_TIME.T0 0 t0).powerEvent
    else { s with pwr := { s.pwr with window := some (t0, max peak (s.rd F.PWR_MEAS.AVG_W 0), cap) } }

/-- GOVERNOR_SAMPLE (R424): the sum of the rails in W, VDD_CORE in mV and its current in A, as the sensors read them. The average
is of the last 1,000 samples, or of all of them while there are fewer (DESIGN CHOICE, log 30). It happens once per µs. -/
def execGovernorSample (watts mv amps : Nat) (s : State) : Result :=
  s.ifGoverned <| if s.beatDue beatSample 1000 = false then s else
    let s := s.beat beatSample
    let s := { s with pwr := { s.pwr with samples := (watts :: s.pwr.samples).take 1000 } }
    let s := (s.wrSat F.PWR_MEAS.INST_W 0 watts).wrSat F.PWR_MEAS.AVG_W 0 (s.pwr.sum / s.pwr.samples.length)
    ((s.wrSat F.PWR_MEAS.CORE_MV 0 mv).wrSat F.PWR_MEAS.CORE_A 0 amps).windowStep

/-- The settings of R427 as divisor code and duty, fastest first. -/
def settings : List (Nat × Nat) := [(0, 64), (1, 64), (2, 64)] ++ (List.range 49).map fun i => (3, 64 - i)

/-- GOVERNOR_EVAL (R425, R427): every 10 µs CAP_EFF is computed again; of the settings from the fastest allowed on, whose fused power
estimates are given in order, the first at or below CAP_EFF and the governor's target is chosen, the last one if none is. The duty applies
at once; a new divisor is applied by DIVISOR_CHANGE. -/
def execGovernorEval (est : List Nat) (s : State) : Result :=
  s.ifGoverned <| if s.beatDue beatEval 10000 = false then s else
    let s := (s.beat beatEval).capRegs
    let goal := min (s.rd F.PWR_STATUS.CAP_EFF 0) (s.pwr.ramp.level s.time)
    let choices := (settings.filter fun e => decide (s.fastest ≤ e.1)).zip est
    match (choices.find? fun e => decide (e.2 ≤ goal)).or choices.getLast? with
    | none => s
    | some ((d, duty), w) => ({ (s.wr F.PWR_STATUS.DUTY 0 duty) with pwr := { s.pwr with wantDiv := d, est := some w } } : State).slewCore

/-- DIVISOR_CHANGE (R418, R421): the divisor chosen, no faster than is allowed now, is applied, with VDD_CORE read by the sensors as `mv` mV.
A faster one is applied only once VDD_CORE has risen to its voltage, and until then VDD_CORE rises; after a slower one it falls. -/
def execDivisorChange (mv : Nat) (s : State) : Result :=
  s.ifGoverned <|
    if s.rd F.PWR_STATUS.ACLK_DIV 0 = s.nextDiv then s
    else if s.nextDiv < s.rd F.PWR_STATUS.ACLK_DIV 0 ∧ s.vdd < s.volt s.nextDiv then s.slewCore
    else (((s.wr F.PWR_STATUS.ACLK_DIV 0 s.nextDiv).count F.CLK_STATUS.DIV_CHANGES 0 1).wrSat F.PWR_MEAS.CORE_MV 0 mv).slewCore

/-! ## The brake (R430, R431, R436, R437) -/

/-- With no cause left, the brake is released and a stored MODE reaches the ceiling (R445). -/
def State.brakeOff (s : State) : State :=
  if s.pwr.brakeCap.isSome || s.pwr.brakeThr || s.pwr.brakeCool.isSome || !s.on F.PWR_STATUS.BRAKE 0 then s
  else ({ s with pwr := { s.pwr with judged := none } }.put F.PWR_STATUS.BRAKE 0 false).applyMode

/-- A brake applied for a cap may be released (R431). -/
def State.capReleased (s : State) : Bool :=
  match s.pwr.brakeCap with
  | some t => s.due t 100000 && s.rd F.PWR_STATUS.ACLK_DIV 0 == s.pwr.wantDiv &&
      s.pwr.est.any fun w => decide (w ≤ s.rd F.PWR_STATUS.CAP_EFF 0)
  | none => false

/-- A brake applied for COOLANT_ALERT_N may be released (R437). -/
def State.coolReleased (s : State) : Bool :=
  match s.pwr.brakeCool with
  | some t => s.due t 100000 && !s.above 650
  | none => false

/-- BRAKE_RELEASE (R431, R437, R445): a cause whose condition holds is over; with the last one the brake is released. -/
def execBrakeRelease (s : State) : Result :=
  s.ifGoverned <|
    let a := s.capReleased
    let b := s.coolReleased
    ({ s with pwr := { s.pwr with
        brakeCap := if a then none else s.pwr.brakeCap
        brakeCool := if b then none else s.pwr.brakeCool } } : State).brakeOff

/-- The board drives a power pin anew, and the device acts on what it samples. While POR_N is low it samples nothing (R516). -/
def State.drives (s : State) (g : Pins → Pins) (f : State → State) : Result :=
  let s : State := { s with pins := g s.pins }
  s.ifGoverned (f s)

/-- THROTTLE_N is sampled low or high (R436, R437, R404). -/
def State.throttleSeen (s : State) (low : Bool) : State :=
  if s.on F.PWR_STATUS.THROTTLE 0 = low then s
  else
    let s := (s.put F.PWR_STATUS.THROTTLE 0 low).raise 160
    if low then ({ s with pwr := { s.pwr with brakeThr := true, throttleUp := none } } : State).brakeOn
    else { s with pwr := { s.pwr with throttleUp := some s.time } }

/-- THROTTLE_N (R436, R516): a new level of the pin, low for 200 ns or high again. -/
def execThrottleN (low : Bool) (s : State) : Result :=
  s.drives (fun x => { x with throttle := low }) (·.throttleSeen low)

/-- THROTTLE_RELEASE (R436): 100 µs after the pin has returned high this cause ends, and power rises at UP_SLEW from the 1 ms average
to CAP_EFF as the release leaves it (R445). -/
def execThrottleRelease (s : State) : Result :=
  s.ifGoverned <|
    match s.pwr.throttleUp with
    | some t =>
      if s.pwr.brakeThr ∧ s.due t 100000 = true then
        let s := ({ s with pwr := { s.pwr with brakeThr := false, throttleUp := none } } : State).brakeOff
        if s.rd F.PWR_MEAS.AVG_W 0 < s.rd F.PWR_STATUS.CAP_EFF 0 then
          s.riseTo (s.rd F.PWR_MEAS.AVG_W 0) (s.rd F.PWR_STATUS.CAP_EFF 0)
        else s
      else s
    | none => s

/-- COOLANT_ALERT_N is sampled low or high (R437, R404). -/
def State.coolantSeen (s : State) (low : Bool) : State :=
  if s.pwr.coolLow = low then s
  else
    let s : State := { s with pwr := { s.pwr with coolLow := low } }
    let s := s.raise 160
    if low then
      let s : State := { s with pwr := { s.pwr with brakeCool := some s.time, coolUp := none } }
      ((s.put F.PWR_STATUS.COOLANT 0 true).brakeOn).evalCaps none
    else { s with pwr := { s.pwr with coolUp := some s.time } }

/-- COOLANT_ALERT_N (R437, R516): a new level of the pin, low for 1 µs or high again. -/
def execCoolantAlertN (low : Bool) (s : State) : Result :=
  s.drives (fun x => { x with coolant := low }) (·.coolantSeen low)

/-- COOLANT_CEILING_LIFT (R437): 10 s after the pin has returned high, once TJ is below T_WARN. -/
def execCoolantCeilingLift (s : State) : Result :=
  s.ifGoverned <|
    match s.pwr.coolUp with
    | some t =>
      if !s.pwr.coolLow && s.due t 10000000000 && decide (s.rd F.PWR_TEMP.TJ 0 < 8 * s.rd F.PWR_THERM_CFG.T_WARN 0) then
        let s : State := { s with pwr := { s.pwr with coolUp := none } }
        (s.put F.PWR_STATUS.COOLANT 0 false).evalCaps none
      else s
    | none => s

/-! ## The rack manager (R433 to R435, R438, R439) -/

/-- A valid message comes from the endpoint that RM_EID names (R434). -/
def State.validEid (s : State) (eid : Nat) : Bool := s.rd F.PWR_RM_CFG.RM_EID 0 != 0 && s.rd F.PWR_RM_CFG.RM_EID 0 == eid

/-- A valid message counts as a heartbeat and ends kickstand (R434, R438, R439); the caller judges the caps. -/
def State.heard (s : State) : State :=
  let s : State := if s.on F.PWR_RM_CFG.HB_EN 0 then { s with pwr := { s.pwr with lastMsg := some s.time } } else s
  if s.on F.PWR_STATUS.KICKSTAND 0 then
    let s : State := { s with pwr := { s.pwr with kick := none } }
    ((s.put F.PWR_STATUS.KICKSTAND 0 false).put F.PWR_STATUS.KICK_SAFE 0 false).raise 158
  else s

/-- A packet on the management SMBus raises MCTP_RX (R404); a valid message does what `t` says of the state after it (R434). -/
def State.packet (s : State) (eid : Nat) (t : State → State) : Result :=
  s.ifGoverned <| let s := s.raise 162; if s.validEid eid then t s.heard else s

/-- CAP (R426, R433, R434): a new rack-manager cap, with the RAMP held. A value above 1,200 W is held at it (DESIGN CHOICE, log 30). -/
def execCap (eid v : Nat) (s : State) : Result :=
  s.packet eid fun s =>
    let w := clampTo 350 1200 v
    ((s.clampCap v).wr F.PWR_STATUS.CAP_RM 0 w).capArrives (s.rd F.PWR_STATUS.CAP_RM 0) w s.pwr.rampMs

/-- RAMP (R433, R434): the ramp time of later caps, held at 10,000 ms at most (DESIGN CHOICE, log 30). -/
def execRamp (eid v : Nat) (s : State) : Result :=
  s.packet eid fun s =>
    let s := s.evalCaps none
    { s with pwr := { s.pwr with rampMs := min v 10000 } }

/-- PLDM_MODE (R421, R433, R434): as a write of PWR_CFG.MODE. -/
def execPldmMode (eid v : Nat) (s : State) : Result :=
  s.packet eid fun s => ((s.evalCaps none).wr F.PWR_CFG.MODE 0 (min 2 v)).applyMode

/-- HEARTBEAT (R434, R438, R439). -/
def execHeartbeat (eid : Nat) (s : State) : Result :=
  s.packet eid (·.evalCaps none)

/-- A stable code of PWR_STEP takes effect, with a ramp of zero (R435). -/
def State.stepSeen (s : State) (code : Nat) : State :=
  let now := s.rd F.PWR_STATUS.PIN_CODE 0
  if now = code then s
  else (s.wr F.PWR_STATUS.PIN_CODE 0 code).capArrives (max 350 (s.rd F.PWR_STEP_CAP.CAP now)) (max 350 (s.rd F.PWR_STEP_CAP.CAP code)) 0

/-- PWR_STEP_CHANGE (R435, R516): the three pins have a new stable code. -/
def execPwrStepChange (code : Nat) (s : State) : Result :=
  s.drives (fun x => { x with step := code % 8 }) (·.stepSeen (code % 8))

/-- Firmware samples PWR_STEP, THROTTLE_N and COOLANT_ALERT_N as it starts to run, which may have changed while POR_N was low (R516). -/
def State.samplePins (s : State) : State := ((s.stepSeen s.pins.step).throttleSeen s.pins.throttle).coolantSeen s.pins.coolant

/-- KICKSTAND_ENTER (R438, R445): no valid message for 500 ms; one in the cycle in which they are reached still counts. -/
def execKickstandEnter (s : State) : Result :=
  s.ifGoverned <|
    match s.pwr.lastMsg with
    | some t =>
      if s.on F.PWR_RM_CFG.HB_EN 0 && s.rd F.PWR_RM_CFG.RM_EID 0 != 0 && !s.on F.PWR_STATUS.KICKSTAND 0 &&
          s.due t 500000001 then
        let s : State := { s with pwr := { s.pwr with kick := some (s.rd F.PWR_STATUS.CAP_RM 0, s.time) } }
        ((s.put F.PWR_STATUS.KICKSTAND 0 true).raise 158).evalCaps none
      else s
    | none => s

/-- KICKSTAND_SAFE (R438): after 5 s the input falls to the safe cap. -/
def execKickstandSafe (s : State) : Result :=
  s.ifGoverned <|
    match s.pwr.kick with
    | some (w, t) =>
      if !s.on F.PWR_STATUS.KICK_SAFE 0 && s.due t 5000000000 then
        let s : State := { s with pwr := { s.pwr with kick := some (min w (s.rd F.PWR_RM_CFG.SAFE_CAP 0), t) } }
        (s.put F.PWR_STATUS.KICK_SAFE 0 true).evalCaps none
      else s
    | none => s

/-! ## Temperature (R440, R442, R443, R508) -/

/-- The orderly halt of R442: work ends with DETAIL 0xFA, the journal is saved where the bulk tier is ready, ACLK stops (`State.aclkRate`), the array
and the near tier lose power and with it what they hold, and HALTED is set. -/
def State.halt (s : State) : State :=
  let s := s.endWork (fun _ => true) 0xFA
  let s := if s.on F.BLK_STATUS.READY 0 then { s with saved := some s.journalCopy } else s
  { (s.put F.PWR_STATUS.HALTED 0 true) with arr := ⟨[], [], [], [], [], []⟩ }

/-- The highest reading among the sensors that are not excluded, with the first sensor that gives it. -/
def hottest (readings : List Nat) (excluded : List Nat) : Option (Nat × Nat) :=
  (readings.zipIdx).foldl (fun b e => if excluded.contains e.2 then b else match b with
    | none => some (e.1, e.2)
    | some (t, _) => if t < e.1 then some (e.1, e.2) else b) none

/-- The thermal input follows TJ (R440), one step each 100 µs. -/
def State.thermalStep (s : State) (tj : Nat) : State :=
  let ctrl := s.rd F.PWR_THERM_CFG.T_CTRL 0
  let due := s.due s.pwr.thermalAt 100000
  if ctrl * 8 < tj then
    match s.pwr.thermal with
    | none => ({ s with pwr := { s.pwr with thermal := some (s.rd F.PWR_MEAS.AVG_W 0), thermalAt := s.time } } : State).evalCaps none
    | some w => if due then ({ s with pwr := { s.pwr with thermal := some (w - 25), thermalAt := s.time } } : State).evalCaps none else s
  else if tj < (ctrl - 3) * 8 then
    match s.pwr.thermal with
    | none => s
    | some w =>
      if due then
        let rest := (lowest ((s.limits.filter fun e => e.1 != 5))).2
        let w' := if rest ≤ w + 25 then none else some (w + 25)
        ({ s with pwr := { s.pwr with thermal := w', thermalAt := s.time } } : State).evalCaps none
      else s
  else s

/-- TEMP_SAMPLE (R440, R442): every 10 µs, the readings of the sensors by number, in units of 0.125 °C. -/
def execTempSample (readings : List Nat) (s : State) : Result :=
  s.ifGoverned <| if s.beatDue beatTemp 10000 = false then s else
    let s := s.beat beatTemp
    match hottest (readings.take 80) s.pwr.excluded with
    | none => s
    | some (tj, k) =>
      let old := s.rd F.PWR_TEMP.TJ 0
      let warn := 8 * s.rd F.PWR_THERM_CFG.T_WARN 0
      let s := (s.wrSat F.PWR_TEMP.TJ 0 tj).wr F.PWR_TEMP.SENSOR 0 k
      let s := s.wrSat F.PWR_TEMP.TJ_PEAK 0 (max tj (s.rd F.PWR_TEMP.TJ_PEAK 0))
      let s := if decide (warn ≤ old) != decide (warn ≤ tj) then s.raise 159 else s
      let s := s.thermalStep tj
      if 840 ≤ tj then s.halt else s

/-- HARDWARE_TRIP (R443, R419): at 115 °C the root PLL stops and the trip output is asserted; nothing is saved. -/
def execHardwareTrip (tj : Nat) (s : State) : Result :=
  s.ifClocked <|
    if 920 ≤ tj then { (s.put F.CLK_STATUS.ROOT_LOCK 0 false) with clocks := false, pins := { s.pins with thermTrip := true } } else s

/-- REFCLK_LOSS (R508, R419): every clock and output stops, ROOT_LOCK clears and DEV_FAULT_N falls. -/
def execRefclkLoss (s : State) : Result :=
  s.ifClocked { (s.put F.CLK_STATUS.ROOT_LOCK 0 false) with clocks := false, pins := { s.pins with devFault := true } }

end Sys2Proof.Machine
end

