-- ==== Sys2Proof/Machine/Lpx.lean ====
section
/-! DEFINITION. The main tier (chapter 08): tracking and retraining of channels, retirement of channels and pages, temperature and
refresh; and the stored-data failures of R193 and R194 with the refetch that repairs them. -/

namespace Sys2Proof.Machine

/-! ## Retirement of a channel (R238) -/

/-- The request number under which channel `c` asks for pages. -/
def lpxReq (c : Nat) : Nat := 2 ^ 60 + c

/-- The number of pages below which the pool lies once its `m` highest pages have left it; pages on the retired list are in it no more. -/
def State.topWithout (s : State) (m : Nat) : Nat :=
  (List.range (s.lpx.retired.length + 1)).foldl
    (fun t _ => s.lpx.top - m - (s.lpx.retired.filter fun n => decide (t ≤ n ∧ n < s.lpx.top)).length) (s.lpx.top - m)

/-- Pages at or above the end of the pool are replaced by free pages in it; retired ones among them leave the pool as they are given up
(R230). -/
def State.moveFrames (s : State) (fs : List Nat) : List Nat × State :=
  let old := fs.filter fun f => decide (s.lpx.top ≤ f)
  let (new, s) := s.drawFrames old.length []
  let s := s.leavePool old
  ((fs.foldl (fun (a : List Nat × List Nat) f =>
    if s.lpx.top ≤ f then (a.1 ++ [a.2.headD f], a.2.tail) else (a.1 ++ [f], a.2)) ([], new)).1, s)

/-- A shadow's pages at or above the end of the pool are replaced. -/
def State.moveShadow (s : State) (h : Shadow) : Shadow × State :=
  let (fs, s) := s.moveFrames (h.frames.map (·.2))
  ({ h with frames := (h.frames.zip fs).map fun e => (e.1.1, e.2) }, s)

/-- Every page that a tensor or a shadow holds at or above the end of the pool is copied into a free page (step 1 of R238). -/
def State.moveTop (s : State) : State :=
  let s := s.mem.tensors.foldl (fun s e =>
    let (fs, s) := s.moveFrames e.2.frames
    s.modTensor e.2.part (e.1 % 2 ^ 32) fun t => { t with frames := fs }) s
  let s := s.mem.kvShadows.foldl (fun s e =>
    let (h, s) := s.moveShadow e.2
    { s with mem := { s.mem with kvShadows := Tab.insert s.mem.kvShadows e.1 h } }) s
  s.ctl.tasks.foldl (fun s e => e.2.shadows.foldl (fun s x =>
    let (h, s) := s.moveShadow x.2
    s.modTask e.1 fun t => { t with shadows := Tab.insert t.shadows x.1 h }) s) s

/-- Step 1 of R238 on a channel that is ONLINE and to be retired, or that waits for pages: the remap pages leave the pool, vacated by
copying or by eviction with no age limit, and the copy begins; where they cannot be had MIGR_WAIT is set and the step is tried again. -/
def State.retireStep (s : State) (c : Nat) : State :=
  let x := s.chan c
  if (s.chanState c = cOnline ∧ x.retire = true) ∨ (s.chanState c = cMigrating ∧ x.copying = false) then
    let s := if s.chanState c = cOnline then
        (((s.setChan c { x with retire := false }).moveChan c cMigrating).fault 3).raise 136
      else s
    let m := s.remapPages
    match s.takePages (lpxReq c) 16 timeMax m with
    | (s, .granted) =>
      let top := s.topWithout m
      let holes := s.lpx.retired.filter fun n => decide (top ≤ n ∧ n < s.lpx.top)
      let s : State := { s with lpx := { s.lpx with top := top, remaps := s.lpx.remaps ++ [(c, top, holes)] } }
      let s := s.moveTop
      let s := s.wr F.POOL_TOTAL.PAGES 0 (s.rd F.POOL_TOTAL.PAGES 0 - m)
      (s.setChan c { s.chan c with copying := true, moved := [] }).put F.LPX_CH_STATE.MIGR_WAIT c false
    | (s, _) => s.put F.LPX_CH_STATE.MIGR_WAIT c true
  else s

/-- CHANNEL_RETIRE (step 1 of R238). -/
def execChannelRetire (ch : LpxCh) (s : State) : Result := s.ifLive (s.retireStep ch)

/-- CHANNEL_RETIRE_SWITCH (step 3 of R238): every granule is copied and the channel is RETIRED. -/
def execChannelRetireSwitch (ch : LpxCh) (s : State) : Result :=
  s.ifLive <|
    let c := ch.val
    if s.chanState c = cMigrating ∧ (s.chan c).copying = true then
      ((s.setChan c { s.chan c with copying := false, moved := [] }).moveChan c cRetired).wr F.LPX_STATUS.RETIRED 0 (s.rd F.LPX_STATUS.RETIRED 0 + 1)
    else s

/-! ## Tracking and retraining (R232 to R236) -/

/-- The ranks of every channel. -/
def State.lpxRanks (s : State) : Nat := s.rd F.LPX_GEOMETRY.RANKS 0

/-- A channel that is neither in training nor retired. -/
def State.chanRuns (s : State) (c : Nat) : Bool := s.chanState c != cTraining && s.chanState c != cRetired

/-- WCK2DQ_TRACK (R232): every TRACK_MS the oscillator of each rank is read, and the delays of the PHY follow the counts. -/
def execWck2dqTrack (ch : LpxCh) (counts : List Nat) (s : State) : Result :=
  s.ifLive <|
    let x := s.chan ch
    if s.chanRuns ch && counts.length == s.lpxRanks && s.due x.trackAt (s.rd F.LPX_CFG.TRACK_MS 0 * 1000000) then
      s.setChan ch { x with osc := counts, trackAt := s.time }
    else s

/-- The oscillator of a rank has drifted by more than 1/16 of a unit interval since the last training (R233). -/
def LpxChan.drifted (x : LpxChan) : Bool := (x.base.zip x.osc).any fun e => Config.driftOver e.1 e.2

/-- Resends and rereads reach REPLAY_TRIG (R233). What lies before the last retrain does not count (DEDUCED, log 31: R234 has them reach it
AGAIN). -/
def State.replayTrig (s : State) (c : Nat) : Bool := decide (s.rd F.LPX_CFG.REPLAY_TRIG 0 ≤ s.replaySum c)

/-- The last short retrain ended no more than 1 s ago (R234). -/
def State.shortLately (s : State) (c : Nat) : Bool := (s.chan c).shortAt.any fun t => decide (s.time ≤ timeAdd t 1000000000)

/-- A short retrain starts where fewer than four run (R233). -/
def State.startShort (s : State) (c : Nat) : State :=
  if s.chanState c = cOnline ∧ s.chansIn cShort < 4 then (s.setChan c { s.chan c with shortPend := false }).moveChan c cShort else s

/-- A lead-class command is dispatched (R234). -/
def State.leadDispatched (s : State) : Bool :=
  s.ctl.cmds.any fun e => s.qClass e.2.queue == 0 && (s.jget e.1).state == .dispatched

/-- A full retrain starts where none runs (R234). -/
def State.startFull (s : State) (c : Nat) : State :=
  if s.chanState c = cOnline ∧ s.chansIn cFull = 0 then
    (s.setChan c { s.chan c with fullPend := false, leadWait := none }).moveChan c cFull
  else s

/-- A request that R235 ignores. -/
def State.lpxIgnored (s : State) (c : Nat) : State := s.put F.LPX_CH_CTRL.IGNORED c true

/-- A short retrain is due or asked for (R235). -/
def State.shortReq (s : State) (c : Nat) : State :=
  if s.chanState c = cMigrating ∨ s.chanState c = cRetired then s.lpxIgnored c
  else if s.chanState c = cOnline then (s.setChan c { s.chan c with shortPend := true }).startShort c
  else s

/-- A full retrain is due or asked for (R235). -/
def State.fullReq (s : State) (c : Nat) : State :=
  if s.chanState c = cMigrating ∨ s.chanState c = cRetired then s.lpxIgnored c
  else if s.chanState c = cOnline then (s.setChan c { s.chan c with fullPend := true }).startFull c
  else if s.chanState c = cShort then s.setChan c { s.chan c with fullPend := true }
  else s

/-- SHORT_RETRAIN (R233): drift, REPLAY_TRIG, or a request that waited. REPLAY_TRIG within 1 s of a short retrain calls for a full one
instead (R234). -/
def execShortRetrain (ch : LpxCh) (s : State) : Result :=
  s.ifLive <|
    let x := s.chan ch
    if x.shortPend then s.startShort ch
    else if x.drifted || (s.replayTrig ch && !s.shortLately ch) then s.shortReq ch
    else s

/-- Whether a full retrain that the device initiated has still to wait for lead-class commands, for at most 1 s (R234). -/
def State.leadHolds (s : State) (since : Nat) : Bool := s.leadDispatched && !s.due since 1000000000

/-- FULL_RETRAIN (R234): REPLAY_TRIG reached again within 1 s of a short retrain, or a request that waited. One that the device
initiates waits, for at most 1 s, while a lead-class command is dispatched, one that falls into a short retrain too. -/
def execFullRetrain (ch : LpxCh) (s : State) : Result :=
  s.ifLive <|
    let x := s.chan ch
    if x.fullPend then s.startFull ch
    else if x.leadWait.isSome || (s.replayTrig ch && s.shortLately ch) then
      if s.chanState ch = cOnline then
        let since := x.leadWait.getD s.time
        let s := s.setChan ch { x with leadWait := some since }
        if s.leadHolds since then s else s.startFull ch
      else if s.chanState ch = cShort then s.setChan ch { x with leadWait := some (x.leadWait.getD s.time) }
      else (s.setChan ch { x with leadWait := none }).fullReq ch
    else s

/-- The oscillator baselines of a training (step 7 of R231), by rank: free values. -/
def State.oscBases (s : State) (c : Nat) : List Nat × State :=
  ((List.range s.lpxRanks).map (Config.oscBase s.fresh c), { s with fresh := s.fresh + 1 })

/-- A retrain of a channel ends (R234 to R237, R242): the channel is ONLINE; a failed full retrain is device-fatal, and the channel stays
as it is, in FULL_RETRAIN, which R478 counts as not working (DEDUCED, log 85), unless a retirement waited; the third full retrain within
one hour retires the channel; what waited runs next, a retirement whatever the outcome. A full retrain records the baselines anew and
applies DBI_WR and DBI_RD. A short one does not repeat step 7 of R231: drift is reckoned from the counts last read (DESIGN CHOICE, log
85). FULL_RETRAINS counts the full retrains that pass (DESIGN CHOICE, log 85: R242 does not say whether one that fails counts). -/
def State.retrainEnds (s : State) (c : Nat) (ok : Bool) : State :=
  let x := s.chan c
  if s.chanState c = cShort then
    let s := (s.setChan c { x with base := x.osc, shortAt := some s.time, events := [] }).moveChan c cOnline
    if x.fullPend || x.leadWait.any (fun t => !s.leadHolds t) then s.startFull c else s.retireStep c
  else if s.chanState c = cFull then
    if ok then
      let fulls := s.time :: x.fulls.filter fun t => decide (s.time ≤ timeAdd t 3600000000000)
      let (base, s) := s.oscBases c
      let s := ((s.setChan c { x with
        base := base, osc := base, events := [], fulls := fulls, shortPend := false, fullPend := false
        dbiWr := s.on F.LPX_CFG.DBI_WR 0, dbiRd := s.on F.LPX_CFG.DBI_RD 0 }).count F.LPX_CH_STATE.FULL_RETRAINS c 1).moveChan c cOnline
      (if 3 ≤ fulls.length then s.retireTrigger c else s).retireStep c
    else (if x.retire then (s.moveChan c cOnline).retireStep c else s).latchFatal 1 c
  else s

/-- RETRAIN_DONE (R234 to R237, R242): a retrain ends, and what the controller held goes on in its order (R236). -/
def execRetrainDone (ch : LpxCh) (ok : Bool) (s : State) : Result := s.ifLive (s.retrainEnds ch ok).mainGo

/-- A request for retirement (R235, R237): ignored where the channel is retired, or where four already are. -/
def State.retireReq (s : State) (c : Nat) : State :=
  if s.chanState c = cMigrating ∨ (s.chan c).retire = true then s
  else if s.chanState c = cRetired then s.lpxIgnored c
  else if 4 ≤ s.retiring then (s.retireTrigger c).lpxIgnored c
  else s.retireTrigger c

/-- LPX_SHORT_REQ (R235, R242). -/
def execLpxShortReq (f : FnId) (ch : LpxCh) (s : State) : Result := s.ifHost f.val (RegKind.addr .LPX_CH_CTRL ch) <| if isPF f.val then s.shortReq ch else s.deny f
/-- LPX_FULL_REQ (R235, R242). -/
def execLpxFullReq (f : FnId) (ch : LpxCh) (s : State) : Result := s.ifHost f.val (RegKind.addr .LPX_CH_CTRL ch) <| if isPF f.val then s.fullReq ch else s.deny f
/-- LPX_RETIRE_REQ (R237, R242). -/
def execLpxRetireReq (f : FnId) (ch : LpxCh) (s : State) : Result := s.ifHost f.val (RegKind.addr .LPX_CH_CTRL ch) <| if isPF f.val then s.retireReq ch else s.deny f

/-! ## Temperature and refresh (R240, R241, R441) -/

/-- The MR4 code of a rank: its low five bits. -/
def mr4Code (v : Nat) : Nat := v % 32

/-- The number of HOT channels reaches PWR_STATUS.HOT_CH, and the hold of R441 is set or removed. -/
def State.hotCount (s : State) : State :=
  let n := ((List.range 64).filter fun c => s.on F.LPX_CH_STATE.HOT c).length
  let s := s.wr F.PWR_STATUS.HOT_CH 0 n
  let hold := if 16 ≤ n then true else if n < 8 then false else s.pwr.hotHold
  if hold = s.pwr.hotHold then s else ({ s with pwr := { s.pwr with hotHold := hold } } : State).evalCaps none

/-- MR4_POLL (R240, R241): every 4 ms MR4 of every rank is read. The code 31 says that the high limit is exceeded (PRESUMED, log 32). HOT is
set at once and clears after three consecutive readings in range. -/
def execMr4Poll (ch : LpxCh) (codes : List Nat) (s : State) : Result :=
  s.ifLive <|
    let c := ch.val
    match codes with
    | [] => s
    | v0 :: vs =>
      if s.chanRuns c && codes.length == s.lpxRanks && s.due (s.chan c).pollAt 4000000 then
        let v := vs.foldl (fun b x => if mr4Code b < mr4Code x then x else b) v0
        let s := (s.setChan c { s.chan c with pollAt := s.time }).wr F.LPX_CH_STATE.MR4 c v
        if mr4Code v = 31 then
          let s := s.setChan c { s.chan c with cool := 0 }
          if s.on F.LPX_CH_STATE.HOT c then s else ((s.put F.LPX_CH_STATE.HOT c true).raise 136).hotCount
        else if s.on F.LPX_CH_STATE.HOT c then
          let n := (s.chan c).cool + 1
          if 3 ≤ n then ((s.setChan c { s.chan c with cool := 0 }).put F.LPX_CH_STATE.HOT c false).hotCount
          else s.setChan c { s.chan c with cool := n }
        else s
      else s

/-- The rank of a channel whose last refresh lies furthest back, the lowest on a tie. -/
def State.staleRank (s : State) (x : LpxChan) : Nat :=
  (List.range s.lpxRanks).foldl (fun b k => if x.refreshAt.getD k 0 < x.refreshAt.getD b 0 then k else b) 0

/-- REFRESH (R240): a rank of a channel in service is sent a per-bank refresh; contents stay as they are. The ranks take turns (DESIGN
CHOICE, log 32). -/
def execRefresh (ch : LpxCh) (s : State) : Result :=
  s.ifLive <|
    let x := s.chan ch
    if s.chanRuns ch then
      let rank := s.staleRank x
      s.setChan ch { x with refreshAt := (List.range s.lpxRanks).map fun k => if k = rank then s.time else x.refreshAt.getD k 0 }
    else s

/-! ## Stored-data failures (R193, R194, R229, R230) -/

/-- STORED_DATA_FAILURE (R193, R194, R229, R230): a word of page `page` of a tensor fails as command `seq` reads it. -/
def execStoredDataFailure (p : PartId) (tid : Word32) (page : Nat) (seq : Nat) (s : State) : Result :=
  s.ifLive (s.storedFailure p.val tid.toNat page seq)

/-- A tensor has been refetched whole from its backing into its own pages, and its streams go on (R193, R196). -/
def State.refetched (s : State) (p tid : Nat) (t : Tensor) : State :=
  let s := (s.setTensor p tid { t with data := s.backingData p t, repairing := false, struck := [] }).mainWritten t 0 t.desc.length
  (((s.count F.TNS_REPAIR_CNT.REFETCH p 1).fault 0).tnsFault p 1 2 0 tid).holdStreams p tid (fun _ => true) false

/-- TENSOR_REFETCH_DONE (R193, R196): the tensor is whole again and its streams go on, or the backing cannot be read. -/
def execTensorRefetchDone (p : PartId) (tid : Word32) (ok : Bool) (s : State) : Result :=
  s.ifLive <|
    let p := p.val
    let tid := tid.toNat
    match s.tensor p tid with
    | none => s
    | some t =>
      let tier := s.backingTier p t
      let fails (s : State) : State := s.repairFails p tid (tierCause tier) tier
      if t.repairing = false then s
      else if ok && !s.readsBad p t then
        s.readPlaces p tid ((List.range t.desc.dataLen).filterMap (s.backSource p t)) fails fun s => s.refetched p tid t
      else fails s

/-- A host read for a tensor is outstanding, or has yet to be sent. -/
def State.awaitsHost (s : State) (p : Nat) (o : AOp) : Bool :=
  (s.pci.dma.any fun e => !e.2.dropped && e.2.part == p && o.op.loadTid == some e.2.tid) ||
    s.pci.reads.any fun r => r.denied.isNone && r.part == p && o.op.loadTid == some r.tid

/-- The tensor that an operation loads at this moment from host memory that no window lets the device read, with the address (R390). -/
def State.hostDenied (s : State) (p : Nat) (o : AOp) : Option (Nat × Nat) :=
  s.pci.reads.findSome? fun r => if r.part = p ∧ o.op.loadTid = some r.tid then r.denied.map fun a => (r.tid, a) else none

/-- The read is not sent, and the load fails (R396). -/
def State.loadDenied (s : State) (p tid a : Nat) : State :=
  match s.tensor p tid with
  | none => s
  | some t => (s.pciEvent 9 (p + 1) a).loadFails p tid t

end Sys2Proof.Machine
end

