-- ==== Sys2Proof/Machine/Mailbox.lean ====
section
/-! DEFINITION. The management mailbox (R393): how a request is taken, answered or held, and the two operations that belong to no other
chapter's file: HALT_JOURNAL_READ (R444) and an unknown OP. -/

namespace Sys2Proof.Machine

/-- The answer to a mailbox request: payload, status word, error code and the owner that an E_CONFLICT names. -/
structure Answer where
  payload : List Byte
  status : Nat
  error : Nat
  owner : Nat
  deriving DecidableEq, Repr

/-- The operation succeeded. -/
def Answer.ok (payload : List Byte) : Answer := ⟨payload, stOK, 0, 0⟩
/-- The operation is refused. -/
def Answer.refused (error owner : Nat) : Answer := ⟨[], stRefused, error, owner⟩

/-- What a mailbox operation does to the state, and its answer, or none where it waits. -/
abbrev Done := State × Option Answer

/-- An operation refused with nothing changed. -/
def State.no (s : State) (error owner : Nat) : Done := (s, some (Answer.refused error owner))

/-- A refusal by E_CONFLICT whose owner the manual does not name: a free value (log 40). -/
def State.conflict (s : State) : Done :=
  let (v, s) := s.draw 32
  s.no eConflict v

/-- The operation's effect is `s`, with an answer's payload. -/
def State.yes (s : State) (payload : List Byte) : Done := (s, some (Answer.ok payload))

/-- Firmware writes the response, clears BUSY, sets DONE and sends VEC (R393). -/
def State.reply (s : State) (op tag : Nat) (a : Answer) : State :=
  let bs := toBytes 2 op ++ toBytes 2 a.payload.length ++ toBytes 4 tag ++ [BitVec.ofNat 8 a.status, BitVec.ofNat 8 a.error] ++
    toBytes 2 0 ++ toBytes 4 a.owner ++ a.payload
  let s : State := { s with pci := { s.pci with rsp := s.pci.rsp.writeN 0 bs, held := none } }
  ((((s.put F.PCI_MBX_STATUS.BUSY 0 false).put F.PCI_MBX_STATUS.DONE 0 true).requestVec 0 (s.rd F.PCI_MBX_CTRL.VEC 0))).send
    (.mailbox bs)

/-- A request is held until what it waits for has come; BUSY stays set (R216, R393, R481). -/
def State.holdMbox (s : State) (op tag : Nat) (payload : List Byte) : State :=
  let since := (s.pci.held.map fun h => h.2.2.2).getD s.time
  { (s.put F.PCI_MBX_STATUS.BUSY 0 true) with pci := { s.pci with held := some (op, tag, payload, since) } }

/-- An operation has been carried out: it is answered, or it waits. -/
def State.settle (r : Done) (op tag : Nat) (payload : List Byte) : State :=
  match r with
  | (s, some a) => s.reply op tag a
  | (s, none) => s.holdMbox op tag payload

/-- The management firmware is being replaced, and mailbox requests wait (R481). -/
def State.firmwareBusy (s : State) : Bool :=
  match s.sec.active with
  | some a => a.comp == 1
  | none => false

/-- A request comes to the mailbox: GO raises MBX_REQ (R404); one that comes while another is held sets OVERRUN; the payload is at most 4,080
bytes (R393). The PF turns it away as any memory request (R396, R402). -/
def State.mboxRow (s : State) (f : State → List Byte → Done) (op : Nat) (tag : Word32) (payload : List Byte) : Result :=
  if 4080 < payload.length then .fault .illFormed
  else s.ifHost 0 (RegKind.addr .PCI_MBX_CTRL 0) <|
    let s := s.raise 161
    if s.on F.PCI_MBX_STATUS.BUSY 0 then s.put F.PCI_MBX_STATUS.OVERRUN 0 true
    else if s.firmwareBusy then s.holdMbox op tag.toNat payload
    else State.settle (f s payload) op tag.toNat payload

/-! ## HALT_JOURNAL_READ (R444) and an unknown OP (R393) -/

/-- The bytes of saved entries from an index on. -/
def SavedJournal.bytes (j : SavedJournal) (i n : Nat) : List Byte :=
  ((List.range n).flatMap fun k => (Tab.get JEntry.zero j.entries (i + k)).bytes) ++ toBytes 8 j.status

/-- HALT_JOURNAL_READ (R444). A count above 127 or an index outside the journal is E_SHAPE (DESIGN CHOICE, log 40). -/
def State.haltJournalRead (s : State) (payload : List Byte) : Done :=
  let i := fieldAt payload 0 4
  let n := fieldAt payload 4 4
  match s.saved with
  | none => s.no eNoSpace 0
  | some j => if 127 < n ∨ 65536 < i + n then s.no eShape 0 else s.yes (j.bytes i n)

/-- HALT_JOURNAL_READ (R444). -/
def execHaltJournalRead (tag : Word32) (payload : List Byte) (s : State) : Result :=
  s.mboxRow State.haltJournalRead 0x0301 tag payload

/-- The numbers by which `Config.mboxOp` knows the operations without a stated code. -/
def mboxFree : List Nat := [0, 1, 2, 3, 4, 5]

/-- Whether firmware knows an OP: the codes that the manual gives and those of the catalogue operations. -/
def opKnown (op : Nat) : Bool :=
  [0x0210, 0x0211, 0x0220, 0x0301, 0x0401, 0x0402, 0x0403].contains op || mboxFree.any fun k => Config.mboxOp k % 65536 == op

/-- MBX_UNKNOWN_OP (R393): an OP that firmware does not know is refused with E_SHAPE. -/
def execMbxUnknownOp (op : Nat) (tag : Word32) (s : State) : Result :=
  if opKnown (op % 65536) then .next s else s.mboxRow (fun s _ => s.no eShape 0) (op % 65536) tag []

end Sys2Proof.Machine
end

