-- ==== Sys2Proof/Machine/Bulk.lean ====
section
/-! DEFINITION. The bulk tier (chapter 07): sectors and the read ladder, read disturb, relocation, retirement, write-backs, and the
catalogue's mailbox operations but CAT_GRANT, which takes a token. -/

namespace Sys2Proof.Machine

/-! ## Capacity and blocks (R204, R210, R211) -/

/-- Good blocks of a channel: those on the board less those that the factory marked (R204, R211). -/
def State.goodBlocks (s : State) (c : Nat) : Nat := s.board.blocksPerCh - (Tab.get [] s.board.factoryBad c).length

/-- The share of the raw capacity that is usable, as a numerator over 16 (R204). -/
def usableShare : Nat → Nat
  | 0 => 15 | 2 => 12 | _ => 14

/-- The usable capacity in units (R204). -/
def State.usableUnits (s : State) : Nat :=
  ((List.range 32).map s.goodBlocks).foldl (· + ·) 0 * usableShare s.blk.op / 16 / 32

/-- A block of a channel can be written: it holds nothing, is not retired and bears no factory mark (R210, R211). -/
def State.blockFree (s : State) (c b : Nat) : Bool :=
  decide (b < s.board.blocksPerCh) && !(Tab.get [] s.board.factoryBad c).contains b &&
    !(s.block c b).retired && (s.block c b).unit.isNone && (s.block c b).sets == 0

/-- The spare blocks of a channel: good and not retired, less one for each usable unit and the parity's 1/32 of the raw blocks
(DESIGN CHOICE, log 44: the blocks of the map copies and the catalogue are not counted off). -/
def State.spares (s : State) (c : Nat) : Nat :=
  s.goodBlocks c - (s.blk.blocks.filter fun e => e.1 / 2 ^ 32 == c && e.2.retired).length - s.rd F.BLK_CAP.USABLE_UNITS 0 -
    ceilDiv s.board.blocksPerCh 32

/-- SPARE, DEGRADED and WRITE_STOP of a channel as its spare blocks stand (R211, R221). -/
def State.spareRegs (s : State) (c : Nat) : State :=
  let n := s.spares c
  let low := decide (n * 200 < s.board.blocksPerCh)
  let s' := ((s.wrSat F.BLK_CH_STATE.SPARE c n).put F.BLK_CH_STATE.WRITE_STOP c (n == 0)).put F.BLK_CH_STATE.DEGRADED c low
  if (low && !s.on F.BLK_CH_STATE.DEGRADED c) || (n == 0 && !s.on F.BLK_CH_STATE.WRITE_STOP c) then s'.raise 137 else s'

/-- A channel has WRITE_STOP (R211). -/
def State.writeStop (s : State) : Bool := (List.range 32).any fun c => s.on F.BLK_CH_STATE.WRITE_STOP c

/-! ## The catalogue in the state (R215) -/

/-- The number of a state of a catalogue entry (R215). -/
def CatState.num : CatState → Nat
  | .free => 0 | .installing => 1 | .ready => 2 | .damaged => 3 | .deleting => 4

/-- The 128 bytes of catalogue entry `slot` as BLK_CAT_ENTRY shows them (R215). -/
def CatEntry.image (x : CatEntry) (slot : Nat) : List Byte :=
  toBytes 4 x.modelId ++ toBytes 2 slot ++ toBytes 1 x.state.num ++ toBytes 1 x.kind ++ toBytes 2 x.grant ++ toBytes 2 1 ++ toBytes 4 x.nunits ++
  toBytes 8 x.base ++ toBytes 8 x.length ++ toBytes 32 x.digest ++ toBytes 8 x.sealTime ++ toBytes 4 x.damaged ++ toBytes 4 0 ++
  toBytes 8 x.written ++ toBytes 40 0

/-- A catalogue entry. -/
def State.entry (s : State) (slot : Nat) : CatEntry := Tab.get CatEntry.free s.blk.cat slot

/-- ENTRIES and FREE_UNITS as the catalogue stands. -/
def State.catCounts (s : State) : State :=
  let held := (s.blk.cat.map fun e => e.2.nunits).foldl (· + ·) 0
  (s.wr F.BLK_STATUS.ENTRIES 0 (s.blk.cat.filter fun e => e.2.state != .free).length).wr F.BLK_CAP.FREE_UNITS 0 (s.rd F.BLK_CAP.USABLE_UNITS 0 - held)

/-- A catalogue entry written. -/
def State.setEntry (s : State) (slot : Nat) (x : CatEntry) : State :=
  ({ s with blk := { s.blk with cat := Tab.set CatEntry.free s.blk.cat slot x } } : State).catCounts

/-- The units of an entry. -/
def State.entryUnits (s : State) (x : CatEntry) : List Nat := (List.range x.nunits).map (x.base / max 1 s.unitBytes + ·)

/-! ## Blocks taken, erased and retired (R203, R210 to R212) -/

/-- The erases of a block since it was made: those of every format, which erases the whole tier, and its own (R204, R210). -/
def State.eraseCount (s : State) (c b : Nat) : Nat := s.blk.formats + (s.block c b).erases

/-- A block leaves service (R211, R474). What it holds stays readable until it has moved. -/
def State.retireBlock (s : State) (c b : Nat) : State :=
  if (s.block c b).retired then s
  else
    let s := s.setBlock c b { s.block c b with retired := true }
    let s : State := { s with blk := { s.blk with retired := s.blk.retired + 1 } }
    ((s.wrSat F.BLK_STAT2.RETIRED 0 s.blk.retired).fault 3).spareRegs c

/-- A block of a channel is erased: one erase more, no page reads, nothing in it (R208, R210); one that reaches the rated endurance of the
parameter page is retired (R210, R211). -/
def State.eraseBlock (s : State) (c b : Nat) : State :=
  let x := s.block c b
  let s := s.setBlock c b { x with unit := none, parity := [], sets := 0, reads := 0, erases := x.erases + 1, sched := 0 }
  if s.board.endurance ≤ s.eraseCount c b then s.retireBlock c b else s

/-- The block that a write takes among some free ones of a channel: of the lowest erase count (R210); which one of several is a free value. -/
def State.pickAmong (s : State) (c : Nat) (frees : List Nat) : Option Nat × State :=
  let least := (frees.map fun b => (s.block c b).erases).foldl min (frees.head?.elim 0 fun b => (s.block c b).erases)
  let best := frees.filter fun b => (s.block c b).erases == least
  let (v, s) := s.draw 32
  (best[v % best.length]?, s)

/-- The free blocks of a channel. -/
def State.freeBlocks (s : State) (c : Nat) : List Nat := (List.range s.board.blocksPerCh).filter (s.blockFree c)

/-- The block that a write takes on a channel (R210). -/
def State.pickBlock (s : State) (c : Nat) : Option Nat × State := s.pickAmong c (s.freeBlocks c)

/-- The target that a block of a channel lies on: blocks are numbered target by target (DESIGN CHOICE, log 44). -/
def State.targetOf (s : State) (b : Nat) : Nat := b / max 1 (s.board.blocksPerCh / max 1 s.board.targets)

/-- Block `k` may keep the parity pages of a unit whose data pages on the channel lie in block `b`: another block, and on another target where
the channel has more than one (R203). -/
def State.parityFits (s : State) (b k : Nat) : Bool := k != b && (decide (s.board.targets ≤ 1) || s.targetOf k != s.targetOf b)

/-- A block of parity pages of a channel that has room: each holds the parity pages that 32 units have on the channel (R203). -/
def State.parityRoom (s : State) (c k : Nat) : Bool :=
  let x := s.block c k
  x.unit.isNone && decide (0 < x.sets ∧ x.sets < 32) && !x.retired

/-- The blocks of parity pages of a channel that have room. -/
def State.parityOpen (s : State) (c : Nat) : List Nat :=
  (s.blk.blocks.filterMap fun e => if e.1 / 2 ^ 32 = c then some (e.1 % 2 ^ 32) else none).filter (s.parityRoom c)

/-- The block that keeps the parity pages of a unit on a channel. -/
def State.parityOf (s : State) (u c : Nat) : Option Nat :=
  (s.blk.blocks.find? fun e => e.1 / 2 ^ 32 == c && e.2.parity.contains u).map fun e => e.1 % 2 ^ 32

/-- The parity pages of a unit on a channel are wanted no more; a full block that keeps none is erased. -/
def State.dropParity (s : State) (u c : Nat) : State :=
  match s.parityOf u c with
  | none => s
  | some k =>
    let x := s.block c k
    let ps := x.parity.filter (· != u)
    if ps.isEmpty && decide (32 ≤ x.sets) then s.eraseBlock c k else s.setBlock c k { x with parity := ps }

/-- The parity pages of a unit on a channel are written: into a block of parity pages with room, or into a free block (R203, R210). -/
def State.putParity (s : State) (u c : Nat) : State :=
  match s.mapped_ u c with
  | none => s
  | some b =>
    let (k, s) := match (s.parityOpen c).find? (s.parityFits b) with
      | some k => (some k, s)
      | none => s.pickAmong c ((s.freeBlocks c).filter (s.parityFits b))
    match k with
    | none => s
    | some k =>
      let s := s.dropParity u c
      let x := s.block c k
      s.setBlock c k { x with parity := u :: x.parity, sets := x.sets + 1, gen := x.gen + 1, readAt := if x.sets = 0 then s.time else x.readAt }

/-- The map changes: its three copies in flash, on channels 0 to 2, are written before the change takes effect (R202; DESIGN CHOICE, log
44, for the channels). -/
def State.setMap (s : State) (m : Tab Nat) : State :=
  { s with blk := { s.blk with copies := [(0, m), (1, m), (2, m)], map := m } }

/-- (unit, channel) is written to a new block, and the map switches to it; the old block still holds what it held (R202, R210). None without a
free block. -/
def State.takeBlock (s : State) (u c : Nat) : Option State :=
  match s.pickBlock c with
  | (none, _) => none
  | (some b, s) =>
    let x := s.block c b
    let s := s.setBlock c b { x with unit := some u, gen := x.gen + 1, readAt := s.time }
    some (s.setMap (Tab.insert s.blk.map (32 * u + c) b))

/-- The old block of a (unit, channel), as the map of an earlier state names it, is erased (R212). -/
def State.eraseOld (s t : State) (u c : Nat) : State :=
  match s.mapped_ u c with
  | some o => t.eraseBlock c o
  | none => t

/-- (unit, channel) moves to a new block, and the old one is erased (R202, R210, R212). Without a free block nothing happens. -/
def State.swapBlock (s : State) (u c : Nat) : State :=
  match s.takeBlock u c with
  | none => s
  | some t => s.eraseOld t u c

/-- (unit, channel) moves to a new block; its parity pages on the channel follow where they would now lie on the target of the data (R203,
R212). -/
def State.moveUnit (s : State) (u c : Nat) : State :=
  let s := s.swapBlock u c
  match s.mapped_ u c, s.parityOf u c with
  | some b, some k => if s.parityFits b k then s else s.putParity u c
  | _, _ => s.putParity u c

/-- Whether the parity pages of a unit find a block of a channel beside its data there (R203). -/
def State.parityHome (s : State) (u c : Nat) : Bool :=
  match s.mapped_ u c with
  | some b => (s.parityOpen c ++ s.freeBlocks c).any (s.parityFits b)
  | none => false

/-- A unit's pages on a channel, stripe parity with them, are written to new blocks, the old ones kept; none where a block is wanting. -/
def State.writeOn (s : State) (u c : Nat) : Option State :=
  (s.takeBlock u c).bind fun t => if t.parityHome u c then some (t.putParity u c) else none

/-- The units and channels of some units. -/
def unitChans (us : List Nat) : List (Nat × Nat) := us.flatMap fun u => (List.range 32).map fun c => (u, c)

/-- The units of a write-back are written to new blocks on every channel, stripe parity with them, and then their old blocks are erased; none
where a channel has not the free blocks for all of them (R203, R218). -/
def State.writeUnits (s : State) (us : List Nat) : Option State :=
  ((unitChans us).foldl (fun o e => o.bind fun t => t.writeOn e.1 e.2) (some s)).map fun t =>
    (unitChans us).foldl (fun t e => s.eraseOld t e.1 e.2) t

/-- A unit is written to new blocks on every channel, stripe parity with it (R203, R218). -/
def State.rewriteUnit (s : State) (u : Nat) : State := (List.range 32).foldl (fun s c => (s.swapBlock u c).putParity u c) s

/-- A unit is freed: its blocks are erased and the map forgets it. -/
def State.freeUnit (s : State) (u : Nat) : State :=
  (List.range 32).foldl (fun s c => match s.mapped_ u c with
    | some b => ((s.eraseBlock c b).setMap (Tab.erase s.blk.map (32 * u + c))).dropParity u c
    | none => s) s

/-- Page reads of a block are counted (R208). -/
def State.countRead (s : State) (c b n : Nat) : State := s.setBlock c b { s.block c b with reads := (s.block c b).reads + n }

/-- The parity pages of a unit move from block `k` to another block of the channel: each is read there, and read back (R208, R212). -/
def State.moveRow (s : State) (c k u : Nat) : State :=
  let n := s.rd F.BLK_GEOMETRY.PPB 0 / 32
  let s := (s.countRead c k n).putParity u c
  match s.parityOf u c with
  | some b => if b = k then s else s.countRead c b n
  | none => s

/-- The parity pages that a block keeps are written elsewhere, and it is erased. -/
def State.moveParity (s : State) (c k : Nat) : State :=
  let x := s.block c k
  let s := s.setBlock c k { x with sets := 32 }
  let s := x.parity.foldl (fun s u => s.moveRow c k u) s
  if (s.block c k).parity.isEmpty && decide (0 < (s.block c k).sets) then s.eraseBlock c k else s

/-! ## The read ladder (R200, R206, R207) -/

/-- A block is scheduled for relocation, at the higher of two priorities (R207 to R209). -/
def State.schedule (s : State) (c b k : Nat) : State := s.setBlock c b { s.block c b with sched := max k (s.block c b).sched }

/-- Whether a tensor's own bytes in the bulk tier, at home or in its backing, meet the sector of a bulk address (R165). -/
def Tensor.inSector (t : Tensor) (a : Nat) : Bool :=
  let at_ := a / 4096 * 4096
  if t.bulk then overlap t.desc.homeAddr t.desc.length at_ 4096
  else t.desc.back == 2 && t.desc.backRuns.any fun r => overlap (t.desc.backAddr + r.1) r.2 at_ 4096

/-- A sector has failed rung 4 (R206, R207, R193): its entry is DAMAGED, and each tensor that the sector belongs to reports it. -/
def State.sectorLost (s : State) (a : Nat) : State :=
  let page := a / 16384
  let first := !s.blk.bad.contains page
  let s := s.count F.BLK_STAT2.UNCORRECTABLE 0 1
  let s : State := { s with blk := { s.blk with bad := if first then page :: s.blk.bad else s.blk.bad } }
  let s : State := match s.blk.cat.find? fun e => decide (e.2.base ≤ a ∧ a < e.2.base + e.2.length) with
    | some (slot, x) =>
      if x.state = CatState.free ∨ x.state = CatState.deleting then s
      else s.setEntry slot { x with state := .damaged, damaged := if first then x.damaged + 1 else x.damaged }
    | none => s
  (s.mem.tensors.filter fun e => e.2.inSector a).foldl (fun s e => s.tnsFault e.2.part 6 3 0 (e.1 % 2 ^ 32)) s

/-- The rung that passes a sector, from what its reads show (R200, R206, R207): a page that has failed rung 4 fails again; the retry rung
needs retry levels in the parameter page; a sector whose header names another place is uncorrectable by rereading; a rebuild needs the
other 31 pages of the row and its parity page. -/
def State.passes (s : State) (a rung : Nat) : Nat :=
  let u := s.unitOf a
  let c := s.chanOf a
  let others := (List.range 32).filter (· != c)
  if s.pageBad a then 5
  else
    let rung := if rung = 2 ∧ s.board.retries = 0 then 3 else if s.headerOk u c then min rung 5 else max 4 (min rung 5)
    if rung = 4 ∧ ((others.any fun d => s.pageBad (a / 524288 * 524288 + d * 16384)) ∨
      (s.parityOf u ((u + s.pageIdx a) % 32)).isNone) then 5 else rung

/-- The page reads of the failing block that a rung took (R206, R208): one for the first read; at rung 2 some of the retry levels, how
many is a free value; beyond it all of them and three soft reads. -/
def State.rungReads (s : State) (rung : Nat) : Nat × State :=
  if rung ≤ 1 then (1, s)
  else if rung = 2 then
    let (v, s) := s.draw 8
    (2 + v % max 1 s.board.retries, s)
  else (4 + s.board.retries, s)

/-- A rebuild reads the other 31 data pages of the row and its parity page (R206, R208). -/
def State.rebuildReads (s : State) (a : Nat) : State :=
  let u := s.unitOf a
  let c := s.chanOf a
  let s := ((List.range 32).filter (· != c)).foldl (fun s d => match s.mapped_ u d with
    | some e => s.countRead d e 1
    | none => s) s
  let d := (u + s.pageIdx a) % 32
  match s.parityOf u d with
  | some k => s.countRead d k 1
  | none => s

/-- BULK_SECTOR_READ (R200, R206 to R208): a sector is read; `rung` says which rung passed it (0 the first read's checks, 1 to 4 the
ladder, 5 none), as far as `passes` lets it. A rebuilt sector's contents are those that the parity page and the other pages give. -/
def execBulkSectorRead (addr : Nat) (rung : Nat) (s : State) : Result :=
  s.ifLive <|
    let u := s.unitOf addr
    let c := s.chanOf addr
    if s.blkReady = false then s
    else match s.mapped_ u c with
      | none => s
      | some b =>
        let rung := s.passes addr rung
        let (n, s) := s.rungReads rung
        let s := s.countRead c b n
        let s := if 4 ≤ rung then s.rebuildReads addr else s
        let s := if 3 ≤ rung then s.schedule c b 2 else s
        let s := if 1 ≤ rung ∧ rung ≤ 4 then s.fault 0 else s
        if rung = 4 then
          let at_ := addr / 4096 * 4096
          let s : State := { s with blk := { s.blk with data := s.blk.data.writeN at_ ((List.range 4096).map fun i => s.blk.rebuilt (at_ + i)) } }
          s.count F.BLK_STAT.REBUILDS 0 1
        else if rung = 5 then s.sectorLost addr else s

/-- READ_DISTURB_THRESHOLD (R208): a block whose count has reached RD_KREADS × 1,000 is scheduled; at twice that, urgently. -/
def execReadDisturbThreshold (ch : FlashCh) (blk : Nat) (s : State) : Result :=
  s.ifLive <|
    let n := s.rd F.BLK_RD_CFG.RD_KREADS 0 * 1000
    let r := (s.block ch blk).reads
    if 2 * n ≤ r then s.schedule ch blk 2 else if n ≤ r then s.schedule ch blk 1 else s

/-! ## Relocation, scrub and retirement (R209 to R213) -/

/-- A block holds data or parity pages. -/
def FlashBlock.written (x : FlashBlock) : Bool := x.unit.isSome || !x.parity.isEmpty

/-- The erase counts of a channel's written blocks differ by more than 256, and block `b` has the lowest (R210). -/
def State.wearDue (s : State) (c b : Nat) : Bool :=
  let es := (s.blk.blocks.filter fun e => e.1 / 2 ^ 32 == c && e.2.written).map fun e => e.2.erases
  let lo := (s.block c b).erases
  (s.block c b).written && es.all (fun n => decide (lo ≤ n)) && es.any fun n => decide (lo + 256 < n)

/-- The control plane of the translation layer is being replaced (R481): relocations, CAT_WRITE and write-backs wait. -/
def State.blkHeld (s : State) : Bool :=
  match s.sec.active with
  | some a => a.comp == 3
  | none => false

/-- The copy of a relocation reads every page of the old block through the ladder, and the read-back every page of the new one (R208,
R212); pages that have failed rung 4 fail again (R207, R213). -/
def State.copyReads (s : State) (u c b : Nat) : State :=
  let n := s.rd F.BLK_GEOMETRY.PPB 0
  let s := s.countRead c b n
  (s.blk.bad.filter fun g => s.unitOf (g * 16384) == u && s.chanOf (g * 16384) == c).foldl (fun s g => s.sectorLost (g * 16384)) s

/-- (unit, channel) moves from a block to a new one, read there and read back (R208, R212); none where the channel has no free block. -/
def State.relocUnit (s : State) (u c b : Nat) : Option State :=
  let t := (s.copyReads u c b).moveUnit u c
  match t.mapped_ u c with
  | some k => if k = b then none else some (t.countRead c k (s.rd F.BLK_GEOMETRY.PPB 0))
  | none => none

/-- BULK_RELOCATE (R210 to R213): a scheduled block, or one that wear levelling chooses, moves to a new block of its channel, and the
old one is erased. Where the copy does not verify (`ok` false) the new block is retired and the relocation stays due. -/
def execBulkRelocate (ch : FlashCh) (blk : Nat) (ok : Bool) (s : State) : Result :=
  s.ifLive <|
    let c := ch.val
    let x := s.block c blk
    if s.blkHeld || !s.blkReady || !x.written || (x.sched == 0 && !s.wearDue c blk) then s
    else if ok then
      match x.unit with
      | none =>
        let t := s.moveParity c blk
        if (t.block c blk).written then t else t.count F.BLK_STAT.RELOCATIONS 0 1
      | some u => match s.relocUnit u c blk with
        | some t => t.count F.BLK_STAT.RELOCATIONS 0 1
        | none => s
    else match s.pickBlock c with
      | (some b, s) => s.retireBlock c b
      | (none, s) => s

/-- SCRUB_PATROL (R208, R209): the patrol has read a written block that was last written or read SCRUB_DAYS ago (DESIGN CHOICE, log 44:
R209 says at least once in that time); `marginal` says that more than 1 % of the sampled sectors needed rung 2 or beyond. -/
def execScrubPatrol (ch : FlashCh) (blk : Nat) (marginal : Bool) (s : State) : Result :=
  s.ifLive <|
    let x := s.block ch blk
    if s.blkHeld || !s.blkReady || !x.written || !s.due x.readAt (s.rd F.BLK_RD_CFG.SCRUB_DAYS 0 * 86400000000000) then s
    else
      let s := s.countRead ch blk (s.rd F.BLK_GEOMETRY.PPB 0)
      let s := s.setBlock ch blk { s.block ch blk with readAt := s.time }
      if marginal then s.schedule ch blk 1 else s

/-- BLOCK_RETIRE (R211): a program or an erase of a block has failed, and it is retired at once. What it held moves to another block;
where the channel has none free, it stays readable there and is to move urgently. -/
def execBlockRetire (ch : FlashCh) (blk : Nat) (s : State) : Result :=
  s.ifLive <|
    let c := ch.val
    if (s.block c blk).retired || decide (s.board.blocksPerCh ≤ blk) || (Tab.get [] s.board.factoryBad c).contains blk then s
    else
      let s := s.retireBlock c blk
      match (s.block c blk).unit with
      | some u => if s.blkHeld then s.schedule c blk 2 else (s.relocUnit u c blk).getD (s.schedule c blk 2)
      | none => if s.blkHeld then s.schedule c blk 2 else s.moveParity c blk

/-! ## Write-backs (R218) -/

/-- The bulk addresses that the bytes of a write-back go to, through backings that are ABSENT (R165, R175, R218). -/
def State.bulkAddrs (s : State) (p : Nat) (t : Tensor) : List Nat :=
  (s.backPairs p t).filterMap fun e => match e.1 with
    | .bulk a => some a
    | _ => none

/-- The units that a write-back of a tensor touches. -/
def State.bulkUnits (s : State) (p : Nat) (t : Tensor) : List Nat := ((s.bulkAddrs p t).map s.unitOf).dedup

/-- Whether a bulk address lies in a SPILL entry granted to a partition. -/
def State.spill (s : State) (p a : Nat) : Bool :=
  s.blk.cat.any fun e => (e.2.state == .ready || e.2.state == .damaged) && e.2.kind == 1 && bit e.2.grant p &&
    decide (e.2.base ≤ a ∧ a < e.2.base + e.2.length)

/-- A write-back that was requested before touches a unit of this one and has not landed yet (R218). -/
def State.bulkTurn (s : State) (t : Tensor) (us : List Nat) : Bool :=
  s.mem.tensors.any fun e => e.2.state == .writing && !e.2.landed && decide (e.2.wbNo < t.wbNo) && (s.bulkUnits e.2.part e.2).any us.contains

/-- BULK_WRITE_BACK (R175, R217, R218): every unit that a WRITING tensor's bytes touch is written to new blocks, stripe parity with them,
and the map switches: the bytes stand in the bulk tier from then on. WRITE_BACK_DONE fails where they could not land. -/
def execBulkWriteBack (p : PartId) (tid : Word32) (ok : Bool) (s : State) : Result :=
  s.ifLive <|
    let p := p.val
    let tid := tid.toNat
    match s.tensor p tid with
    | none => s
    | some t =>
      let as := s.bulkAddrs p t
      let us := s.bulkUnits p t
      if t.state ≠ .writing ∨ t.landed = true ∨ s.blkHeld = true ∨ s.blkReady = false ∨ as = [] ∨ s.bulkTurn t us = true then s
      else if ok && s.takesBack p s.chain t.desc && as.all (s.spill p) && !s.writeStop then
        s.atEngine (s.backReq p t) fun s => match s.writeUnits us with
        | some u => ((s.backPairs p t).foldl (fun s e => s.putBack p e) u).modTensor p tid fun t => { t with landed := true }
        | none => s
      else s

/-! ## The catalogue (R204, R216): payload layouts are the model's own (DESIGN CHOICE, log 40) -/

/-- The good blocks, by channel and number, whose erases have reached the rated endurance (R210, R211): where formats alone have brought them
there, every one, also one that was never written. -/
def State.wornOut (s : State) : List (Nat × Nat) :=
  if s.board.endurance ≤ s.blk.formats then
    (List.range 32).flatMap fun c =>
      ((List.range s.board.blocksPerCh).filter fun b => !(Tab.get [] s.board.factoryBad c).contains b).map fun b => (c, b)
  else (s.blk.blocks.map fun e => (e.1 / 2 ^ 32, e.1 % 2 ^ 32)).filter fun e => decide (s.board.endurance ≤ s.eraseCount e.1 e.2)

/-- BLK_FORMAT (R204): the payload is OP in 4 bytes. Its erases wait while an activation holds new ones (R481). -/
def State.blkFormat (s : State) (payload : List Byte) : Done :=
  let op := fieldAt payload 0 4
  if s.blkReady = false then s.no eNoSpace 0
  else if 2 < op then s.no eShape 0
  else match s.blk.cat.find? fun e => e.2.state != .free with
    | some (slot, _) => s.no eConflict slot
    | none =>
      if s.blkHeld then (s, none) else
      let blocks := s.blk.blocks.filterMap fun e =>
        let x : FlashBlock := { FlashBlock.fresh with erases := e.2.erases, retired := e.2.retired, gen := e.2.gen }
        if x = FlashBlock.fresh then none else some (e.1, x)
      let s : State := { s with blk := {
        data := [], cat := [], map := [], copies := [], parity := [], blocks := blocks, bad := []
        formats := s.blk.formats + 1, op := op, retired := 0 } }
      let s := (((s.wr F.BLK_STATUS.OP 0 op).wr F.BLK_STAT2.RETIRED 0 0).wr F.BLK_CAP.USABLE_UNITS 0 s.usableUnits).catCounts
      let s := (List.range 32).foldl State.spareRegs s
      (s.wornOut.foldl (fun (s : State) e => s.retireBlock e.1 e.2) s).yes []

/-- The lowest logical range of `n` units that fits between the entries: 0 and each entry's end are the candidates (R216). -/
def State.lowestFit (s : State) (n : Nat) : Option Nat :=
  let u := max 1 s.unitBytes
  let clear (b : Nat) : Bool := decide ((b + n) * u ≤ 2 ^ 46) && s.blk.cat.all fun e =>
    !decide (e.2.base / u < b + n ∧ b < e.2.base / u + e.2.nunits)
  let cands := (0 :: s.blk.cat.map fun e => e.2.base / u + e.2.nunits).filter clear
  cands.foldl (fun m b => some (match m with
    | some x => min x b
    | none => b)) none

/-- CAT_CREATE (R216): slot, MODEL_ID, KIND in 4 bytes each, LENGTH in 8 at 0x10, DIGEST in 32 at 0x18. A create that waited reports
the wait in µs. A slot above 1,023 or a KIND above 1 is E_SHAPE. -/
def State.catCreate (s : State) (payload : List Byte) : Done :=
  let slot := fieldAt payload 0 4
  let id := fieldAt payload 4 4
  let kind := fieldAt payload 8 4
  let len := fieldAt payload 0x10 8
  let u := max 1 s.unitBytes
  let n := ceilDiv len u
  let x := s.entry slot
  if s.blkReady = false then s.no eNoSpace 0
  else if 1023 < slot ∨ 1 < kind then s.no eShape 0
  else if x.state = .deleting || s.blkHeld then (s, none)
  else if x.state ≠ .free then s.no eConflict x.modelId
  else if id = 0 ∨ s.blk.cat.any (fun e => e.2.modelId == id) = true then s.conflict
  else if len = 0 then s.no eShape 0
  else if s.rd F.BLK_CAP.FREE_UNITS 0 < n then s.no eNoSpace 0
  else match s.lowestFit n with
    | none => (s.put F.BLK_STATUS.FRAG 0 true).no eNoSpace 0
    | some b =>
      let spill := kind == 1
      let x : CatEntry := {
        modelId := id
        state := if spill then .ready else .installing
        kind := kind
        grant := 0
        nunits := n
        base := b * u
        length := len
        digest := if spill then 0 else fieldAt payload 0x18 32
        sealTime := if spill then s.time else 0
        damaged := 0
        written := 0 }
      let s := (List.range n).foldl (fun s i => s.rewriteUnit (b + i)) s
      let s : State := { s with blk := s.blk.wipe (b * u) (n * u) }
      let waited := match s.pci.held with
        | some h => toBytes 4 ((s.time - h.2.2.2) / 1000)
        | none => []
      (s.setEntry slot x).yes waited

/-- A read of host memory by firmware through the PF (R381): outside the PF's windows, over a stream that has failed, or failing at its re-request,
it ends the operation ABORTED with E_PARITY (R192, R395, R396; DESIGN CHOICE, log 40). -/
def State.firmwareRead (s : State) (a n : Nat) (go : State → Done) : Done :=
  let failed (s : State) : Done := (s, some ⟨[], stAborted, eParity, 0⟩)
  if s.window 0 a n false = false then failed (s.pciEvent 9 0 a)
  else if Tab.get false s.pci.ideDown 0 then failed (s.pciEvent 10 0 a)
  else s.hostTry 0 a failed go

/-- CAT_WRITE (R216): slot and bytes in 4 bytes each, the host address in 8. It waits while the PF may not master the bus or the
translation layer is replaced; a host read outside the PF's windows fails and the operation ends ABORTED with E_PARITY (R192,
R396; DESIGN CHOICE, log 40). -/
def State.catWrite (s : State) (payload : List Byte) : Done :=
  let slot := fieldAt payload 0 4
  let n := fieldAt payload 4 4
  let a := fieldAt payload 8 8
  let x := s.entry slot
  if s.blkReady = false then s.no eNoSpace 0
  else if x.state ≠ .installing then s.conflict
  else if x.length < x.written + n then s.no eShape 0
  else if s.writeStop then s.no eNoSpace 0
  else if s.blkHeld || !s.busOk 0 then (s, none)
  else s.firmwareRead a n fun s =>
    let s : State := { s with blk := s.blk.writeN (x.base + x.written) (s.hostRead a n) }
    (s.setEntry slot { x with written := x.written + n }).yes []

/-- CAT_SEAL (R216): slot in 4 bytes. -/
def State.catSeal (s : State) (payload : List Byte) : Done :=
  let slot := fieldAt payload 0 4
  let x := s.entry slot
  if s.blkReady = false then s.no eNoSpace 0
  else if x.state ≠ .installing then s.conflict
  else if x.written ≠ x.length then s.no eShape 0
  else if ofBytes (sha256 (s.blk.data.readN x.base x.length)) ≠ x.digest then s.no eShape 0
  else (s.setEntry slot { x with state := .ready, sealTime := s.time }).yes []

/-- A tensor lies inside a catalogue entry (R216). -/
def Tensor.inside (t : Tensor) (x : CatEntry) : Bool :=
  if t.bulk then decide (x.base ≤ t.desc.homeAddr ∧ t.desc.homeAddr < x.base + x.length)
  else t.desc.back == 2 && decide (x.base ≤ t.desc.backAddr ∧ t.desc.backAddr < x.base + x.length)

/-- The lowest TID that a partition chosen by `sel` defines inside an entry. -/
def State.tidInside (s : State) (x : CatEntry) (sel : Nat → Bool) : Option Nat :=
  (s.mem.tensors.filter fun e => sel e.2.part && e.2.inside x).foldl (fun m e => some (match m with
    | some k => min k (e.1 % 2 ^ 32)
    | none => e.1 % 2 ^ 32)) none

/-- CAT_DELETE (R216): slot in 4 bytes. -/
def State.catDelete (s : State) (payload : List Byte) : Done :=
  let slot := fieldAt payload 0 4
  let x := s.entry slot
  if s.blkReady = false then s.no eNoSpace 0
  else if 1023 < slot then s.no eShape 0
  else match s.tidInside x (fun _ => true) with
    | some k => s.no eConflict k
    | none => (s.setEntry slot { x with state := .deleting }).yes []

/-- BLK_FORMAT (R204). -/
def execBlkFormat (tag : Word32) (payload : List Byte) (s : State) : Result :=
  s.mboxRow State.blkFormat (Config.mboxOp 0 % 65536) tag payload
/-- CAT_CREATE (R216). -/
def execCatCreate (tag : Word32) (payload : List Byte) (s : State) : Result :=
  s.mboxRow State.catCreate (Config.mboxOp 1 % 65536) tag payload
/-- CAT_WRITE (R216). -/
def execCatWrite (tag : Word32) (payload : List Byte) (s : State) : Result :=
  s.mboxRow State.catWrite (Config.mboxOp 2 % 65536) tag payload
/-- CAT_SEAL (R216). -/
def execCatSeal (tag : Word32) (payload : List Byte) (s : State) : Result :=
  s.mboxRow State.catSeal (Config.mboxOp 3 % 65536) tag payload
/-- CAT_DELETE (R216). -/
def execCatDelete (tag : Word32) (payload : List Byte) (s : State) : Result :=
  s.mboxRow State.catDelete (Config.mboxOp 4 % 65536) tag payload

end Sys2Proof.Machine
end

