-- ==== Sys2Proof/Machine/Ralet.lean ====
section
/-! DEFINITION. Ralet ports (R347 to R367, R375, R376): frames on the line, replay, credits, negotiation, shutdown and test, and
multicast. -/

namespace Sys2Proof.Machine

/-! ## Frames on the line (R350) -/

/-- The header word of a frame. -/
def Frame.header (f : Frame) : Nat :=
  b2n f.poison + b2n f.last * 2 + b2n f.first * 4 + f.vc % 4 * 2 ^ 3 + f.src % 2 ^ 20 * 2 ^ 5 + f.dst % 2 ^ 20 * 2 ^ 25 +
    f.slice % 2 ^ 12 * 2 ^ 45 + f.hops % 16 * 2 ^ 57 + f.type % 8 * 2 ^ 61

/-- The frame that a header and the payload words give. -/
def Frame.parse (h : Nat) (ws : List Word64) : Frame where
  type := bits h 61 3
  hops := bits h 57 4
  slice := bits h 45 12
  dst := bits h 25 20
  src := bits h 5 20
  vc := bits h 3 2
  first := bit h 2
  last := bit h 1
  poison := bit h 0
  words := ws

/-- A trailer (R350). -/
structure Trailer where
  nak : Bool
  crvc : Nat
  crcnt : Nat
  ack : Nat
  lseq : Nat
  par : Nat
  deriving DecidableEq, Repr

/-- The trailer of a word. -/
def Trailer.parse (w : Nat) : Trailer where
  nak := bit w 62
  crvc := bits w 60 2
  crcnt := bits w 55 5
  ack := bits w 43 12
  lseq := bits w 31 12
  par := bits w 0 31

/-- The word of a trailer, even in parity through TPAR. -/
def Trailer.word (t : Trailer) : Nat :=
  let w := t.par % 2 ^ 31 + t.lseq % 2 ^ 12 * 2 ^ 31 + t.ack % 2 ^ 12 * 2 ^ 43 + t.crcnt % 32 * 2 ^ 55 + t.crvc % 4 * 2 ^ 60 + b2n t.nak * 2 ^ 62
  w + parityBit 63 w * 2 ^ 63

/-- PAR over words 0 to 30. -/
def parOf (ws : List Nat) : Nat := (ws.zipIdx).foldl (fun a e => a + parityBit 64 e.1 * 2 ^ e.2) 0

/-- The 256 bytes of a frame. -/
def frameBytes (h : Nat) (ws : List Word64) (t : Trailer) : List Byte :=
  let body := h :: ((padFrame ws).take 30).map (·.toNat)
  body.flatMap (toBytes 8) ++ toBytes 8 { t with par := parOf body }.word

/-! ## LINK frames (R355, R359): the layout of HELLO is the model's own (DESIGN CHOICE, log 50) -/

/-- A LINK frame's words: its subtype, then its content. -/
def linkWords (sub : Nat) (content : List Nat) : List Word64 := BitVec.ofNat 64 (sub * 2 ^ 56) :: content.map (BitVec.ofNat 64)

/-- The HELLO of a port: versions 2 to VER_MAX, this device's ID, kind Hilek, 256 credits on each VC. -/
def State.helloWords (s : State) (p : Nat) : List Word64 :=
  linkWords 1 [2 + s.rd F.RLT_PORT_CFG.VER_MAX p * 2 ^ 4 + s.devId * 2 ^ 12, 256 + 256 * 2 ^ 16 + 256 * 2 ^ 32 + 256 * 2 ^ 48]

/-- The CREDIT frame of a port. -/
def Port.creditWords (x : Port) : List Word64 := linkWords 3 ((List.range 4).map fun v => Tab.get 0 x.given v % 2 ^ 32)

/-- A LINK frame waits to be sent. -/
def State.sendLink (s : State) (p : Nat) (ws : List Word64) : State := s.setPort p { s.port p with links := (s.port p).links ++ [ws] }

/-! ## States of a port (R353, R365, R375) -/

/-- TRAINING begins with lanes untrained and no LINK frame waiting; ROLE applies from here on (R378). -/
def State.startTraining (s : State) (p : Nat) : State :=
  (s.setPort p { s.port p with
    trained := false, ver := 0, heard := none, links := [], role := s.on F.RLT_PORT_CFG.ROLE p }).movePort p pTraining

/-- A port fails: what it held is lost, and the unit leaves service (R353, R360, R365, R474). -/
def State.failPort (s : State) (p st cause : Nat) : State :=
  (((s.movePort p st).losePort p).wr F.RLT_PORT_STATE.CAUSE p cause).fault 3

/-- A peer fault (R365): more than PEER_ERR_MAX of them in one second quarantine the port. -/
def State.peerFault (s : State) (p : Nat) : State :=
  let s := s.count F.RLT_PORT_ERR.PEER_FAULTS p 1
  let x := s.port p
  let fs := s.time :: x.faults.filter fun t => decide (s.time ≤ timeAdd t 1000000000)
  let s := s.setPort p { x with faults := fs }
  if s.rd F.RLT_PORT_CFG.PEER_ERR_MAX p < fs.length ∧ s.portState p ≠ pQuarantined then s.failPort p pQuarantined 0 else s

/-- A pended ENABLE has been carried out (R375). -/
def State.portWaited (s : State) (p : Nat) : State :=
  if s.on F.RLT_PORT_CTRL.ENABLE_PEND p then
    ((s.put F.RLT_PORT_CTRL.ENABLE_PEND p false).put F.RLT_PORT_CTRL.WAITED p true).wrSat F.RLT_PORT_CTRL.WAIT_US p ((s.time - (s.port p).pendAt) / 1000)
  else s

/-- A test ends and the port trains again; an ENABLE that waited for it has had its wait (R375, R376). -/
def State.endTest (s : State) (p : Nat) : State :=
  ((s.setPort p { s.port p with test := 0, toTest := false, links := [] }).startTraining p).portWaited p

/-- A port carries frames of its link: UP, or draining. -/
def State.carrying (s : State) (p : Nat) : Bool := s.portState p == pUp || s.portState p == pStopping

/-! ## What a trailer brings (R352, R354) -/

/-- Every unacknowledged frame is to be sent again (R352). -/
def State.replay (s : State) (p : Nat) : State :=
  let x := s.port p
  if x.sent.isEmpty then s
  else
    let s := s.setPort p { x with resend := x.sent.length, replays := x.replays + 1, ackAt := s.time }
    (s.count F.RLT_PORT_ERR.REPLAYS p 1).fault 0

/-- ACK_SEQ covers frames of the replay buffer (R352). -/
def Port.acked (x : Port) (a now : Nat) : Port :=
  match x.sent.findIdx? fun e => e.1 == a with
  | some i =>
    let sent := x.sent.drop (i + 1)
    { x with sent := sent, resend := min x.resend sent.length, replays := 0, ackAt := now }
  | none => x

/-- A credit report is added to the count of freed entries (R354). -/
def Port.reported (x : Port) (vc n now : Nat) : Port :=
  let d := (n + 32 - Tab.get 0 x.report vc % 32) % 32
  { x with
    freed := Tab.set 0 x.freed vc (Tab.get 0 x.freed vc + d)
    report := Tab.set 0 x.report vc n
    heardAt := Tab.set 0 x.heardAt vc now }

/-- A NAK that names LSEQ `n` names one that was never sent (R365): none that is unacknowledged, and at or beyond the next to be sent; once the
numbers have gone round, less than half of them ahead of it (DEDUCED, log 90). -/
def Port.neverSent (x : Port) (n : Nat) : Bool :=
  !(x.sent.any fun e => e.1 == n) && (if x.wrapped then decide ((n + 4096 - x.lseq % 4096) % 4096 < 2048) else decide (x.lseq ≤ n))

/-- An accepted trailer is used: ACK_SEQ, credits, and NAK where the link runs version 3 (R352, R354, R358, R365). -/
def State.useTrailer (s : State) (p : Nat) (t : Trailer) : State :=
  let s := s.setPort p (((s.port p).acked t.ack s.time).reported t.crvc t.crcnt s.time)
  if t.nak && (s.port p).ver == 3 then
    if (s.port p).neverSent ((t.ack + 1) % 4096) then s.peerFault p else s.replay p
  else s

/-! ## Negotiation, credits and tests (R355, R359, R376) -/

/-- The 240 payload bytes of the peer's HELLO settle version and role (R359). -/
def State.settleHello (s : State) (p : Nat) (bs : List Byte) : State :=
  let x := s.port p
  let w := fieldAt bs 8 8
  let low := max 2 (bits w 0 4)
  let high := min (s.rd F.RLT_PORT_CFG.VER_MAX p) (bits w 4 4)
  let s := (s.wr F.RLT_PORT_STATE.PEER_ID p (bits w 12 20)).wr F.RLT_PORT_STATE.PEER_KIND p (bits w 8 1)
  if high < low then s.failPort p pDown eVersion
  else if x.role ≠ bit w 8 then s.failPort p pDown eConflict
  else
    let granted := (List.range 4).foldl (fun m v => Tab.set 0 m v (fieldAt bs (16 + 2 * v) 2)) []
    let reports := (List.range 4).foldl (fun m v => Tab.set 0 m v s.time) []
    let s := s.setPort p { x with
      granted := granted, heardAt := reports, ackAt := s.time, resend := x.sent.length, replays := 0, retrain := false,
      ver := high, creditAt := s.time, heard := none }
    (s.movePort p pUp).wr F.RLT_PORT_STATE.VER p high

/-- HELLO (R359) settles a port, or waits there until this device's ID is VALID. One that comes when the port is not TRAINING on trained lanes
changes nothing. -/
def State.hello (s : State) (p : Nat) (bs : List Byte) : State :=
  let x := s.port p
  if s.portState p ≠ pTraining ∨ x.trained = false then s
  else if s.on F.RLT_DEV_ID.VALID 0 then s.settleHello p bs
  else s.setPort p { x with heard := some bs }

/-- This device's ID has been written: once it is VALID, the ports whose peers' HELLO has come settle (R359). -/
def State.idWritten (s : State) : State :=
  if s.on F.RLT_DEV_ID.VALID 0 then
    (List.range 16).foldl (fun s p => match (s.port p).heard with
      | some bs => s.hello p bs
      | none => s) s
  else s

/-- CREDIT_REQ is answered with CREDIT (R355). -/
def State.creditReq (s : State) (p : Nat) : State :=
  if s.carrying p then s.sendLink p (s.port p).creditWords else s

/-- CREDIT sets every VC's count of freed entries and its last report (R355). -/
def State.credit (s : State) (p : Nat) (bs : List Byte) : State :=
  if s.carrying p then
    s.setPort p ((List.range 4).foldl (fun x v =>
      let n := fieldAt bs (8 + 8 * v) 4
      { x with
        freed := Tab.set 0 x.freed v n
        report := Tab.set 0 x.report v (n % 32)
        heardAt := Tab.set 0 x.heardAt v s.time }) (s.port p))
  else s

/-- TEST_REQ (R376): agreed to by every port whose lanes are on, unless it has asked for a test of its own and this device's ID is the lower. -/
def State.testReq (s : State) (p : Nat) : State :=
  let st := s.portState p
  if st ≠ pDisabled ∧ st ≠ pDown ∧ st ≠ pQuarantined then
    if s.portState p = pTest ∧ s.devId < s.rd F.RLT_PORT_STATE.PEER_ID p then s.sendLink p (linkWords 6 [])
    else s.sendLink p (linkWords 5 [])
  else s

/-- A port that has asked for a test and not been answered. -/
def State.asking (s : State) (p : Nat) : Bool := s.portState p == pTest && (s.port p).test == 1

/-- TEST_AGREE (R376): the lanes carry the pattern from now on. -/
def State.testAgree (s : State) (p : Nat) : State :=
  if s.asking p then s.setPort p { s.port p with test := 2, since := s.time } else s

/-- The peer refuses the test or does not answer (R376). -/
def State.testFail (s : State) (p : Nat) : State := if s.asking p then (s.put F.RLT_PORT_STATE.FAIL p true).endTest p else s

/-- A LINK frame by its subtype (R355, R365). -/
def State.linkFrame (s : State) (p : Nat) (ws : List Word64) : State :=
  let bs := ws.flatMap fun w => toBytes 8 w.toNat
  match bits (ws.getD 0 0).toNat 56 8 with
  | 1 => s.hello p bs
  | 2 => s.creditReq p
  | 3 => s.credit p bs
  | 4 => s.testReq p
  | 5 => s.testAgree p
  | 6 => s.testFail p
  | _ => s.peerFault p

/-! ## Multicast (R366, R367) -/

/-- The devices that tree `t`'s expansion run names on port `o`, in entry order. -/
def State.expansion (s : State) (t o : Nat) : List Nat :=
  let first := s.rd F.RLT_MCAST_X.FIRST t
  ((List.range (s.rd F.RLT_MCAST_X.COUNT t)).map (first + ·)).filterMap fun e =>
    if e < 4096 ∧ s.on F.RLT_MCAST_EXP.VALID e = true ∧ s.rd F.RLT_MCAST_EXP.PORT e = o then some (s.rd F.RLT_MCAST_EXP.DST e) else none

/-- Whether a MULTICAST frame from input `i` goes out by port `o` expanded (R358, R361, R367): the link runs version 2, or the frame is this
device's own, of a partition whose SLICE_VER is 2. -/
def State.expands (s : State) (i : Nat) (f : Frame) (o : Nat) : Bool :=
  (s.port o).ver == 2 || (i == 16 && (s.slicePart f.slice).any fun p => s.rd F.RLT_PART_SLICE.SLICE_VER p == 2)

/-- The copies of a MULTICAST frame from input `i` due on port `o`: the frame itself, or UNICAST copies. -/
def State.copiesOn (s : State) (i : Nat) (f : Frame) (o : Nat) : List Frame :=
  let g := { f with hops := f.hops - 1 }
  if s.expands i f o then (s.expansion (f.dst % 1024) o).map fun d => { g with type := 1, dst := d } else [g]

/-- The copies for one port of the tree wait there; a port that is not UP loses its branch, and a copy without an expansion is
dropped as NO_ROUTE. -/
def State.branch (s : State) (i : Nat) (q : Queued) (o : Nat) : State :=
  if s.portState o ≠ pUp then s.cutFlow q.frame o
  else
    let cs := s.copiesOn i q.frame o
    if cs.isEmpty then s.countDrop i .noRoute
    else if s.expands i q.frame o then
      let (bad, s) := s.poisoned q.frame o
      cs.foldl (fun s f =>
        if bad && (s.port o).ver == 2 then s.freeCopy q.entry else s.enqueue o { q with frame := { f with poison := bad } }) s
    else cs.foldl (fun s f => s.enqueue o { q with frame := f }) s

/-- A MULTICAST frame from input `i` (R366): its entry is held until every copy has left. A frame without hops left is only delivered
here (R363). -/
def State.multicast (s : State) (i : Nat) (q : Queued) : State :=
  let f := q.frame
  let t := f.dst % 1024
  if s.on F.RLT_MCAST.VALID t = false ∨ s.rd F.RLT_MCAST.SLICE t ≠ f.slice then s.dropFrame i .noRoute q
  else
    let ports := if f.hops = 0 then [] else (List.range 16).filter fun o => o != i && bit (s.rd F.RLT_MCAST.PORTS t) o
    let n := (ports.map fun o => if s.portState o = pUp then (s.copiesOn i f o).length else 0).foldl (· + ·) 0 + s.rd F.RLT_MCAST.LOCAL t
    let s := match Tab.find s.rlt.entries q.entry with
      | some (p, vc, _) => { s with rlt := { s.rlt with entries := Tab.insert s.rlt.entries q.entry (p, vc, max 1 n) } }
      | none => s
    let s := if n = 0 then s.freeCopy q.entry else s
    let s := ports.foldl (fun s o => s.branch i q o) s
    if s.on F.RLT_MCAST.LOCAL t then s.deliver i q else s

/-! ## Receiving (R349, R351, R354, R356, R365) -/

/-- The input buffer entries of a VC in use at a port. -/
def State.occupied (s : State) (p vc : Nat) : Nat := (s.rlt.entries.filter fun e => e.2.1 == p && e.2.2.1 == vc).length

/-- An intact sequenced frame in order takes an entry and enters the fabric core; without a free entry it is dropped (R356). -/
def State.accept (s : State) (p lseq : Nat) (f : Frame) : State :=
  let s := s.setPort p { s.port p with ack := lseq, waiting := false, nak := false }
  if 256 ≤ s.occupied p f.vc then (s.count F.RLT_PORT_DROP.CREDIT_OVER p 1).peerFault p
  else
    let n := s.rlt.nextEntry
    let s : State := { s with rlt := { s.rlt with entries := Tab.insert s.rlt.entries n (p, f.vc, 1), nextEntry := n + 1 } }
    let f := if (s.port p).ver = 2 then { f with poison := false } else f
    if f.type = 2 then s.multicast p ⟨f, n, none⟩ else s.routeFrame p ⟨f, n, none⟩

/-- Corrected symbols are counted in units of 1,024 (R349). -/
def State.corrected (s : State) (p n : Nat) : State :=
  let c := (s.port p).corr + n
  (s.setPort p { s.port p with corr := c % 1024 }).count F.RLT_PORT_ERR.FEC_CORR p (c / 1024)

/-- FRAME_RECEIVE (R349, R351): the 256 bytes of a frame; of `fec`, bit 0 says that it overlaps an uncorrectable codeword, bit 1 that it
is out of alignment, and bit 2 that an uncorrectable codeword ends in it, where the codeword is counted once; the rest counts the symbols
corrected. Of a sound trailer ACK_SEQ, NAK and the credit report are used whatever state the port is in (R354). -/
def State.receiveFrame (s : State) (p : Nat) (bs : List Byte) (fec : Nat) : State :=
  let st := s.portState p
  if st = pDisabled ∨ st = pDown ∨ st = pQuarantined then s
  else
    let words := wordsOf bs
    let t := Trailer.parse (words.getD 31 0).toNat
    let f := Frame.parse (words.getD 0 0).toNat ((words.drop 1).take 30)
    let sound := !oddParity 64 (words.getD 31 0).toNat && fec % 8 == 0
    let good := sound && parOf ((words.take 31).map (·.toNat)) == t.par
    let s := s.corrected p (fec / 8)
    let s := if bit fec 2 then s.count F.RLT_PORT_ERR.FEC_UNCORR p 1 else s
    let s := if sound then s.useTrailer p t else s
    if good = false then
      if 1 ≤ f.type ∧ f.type ≤ 3 ∧ s.carrying p = true then
        s.setPort p { s.port p with waiting := true, nak := true }
      else s
    else if f.type = 0 then s
    else if f.type = 4 then s.linkFrame p f.words
    else if 5 ≤ f.type then s.peerFault p
    else if s.carrying p = false ∨ t.lseq ≠ ((s.port p).ack + 1) % 4096 then s
    else s.accept p t.lseq f

/-- FRAME_RECEIVE (R351). -/
def execFrameReceive (port : PortId) (bytes : List Byte) (fec : Nat) (s : State) : Result :=
  if bytes.length = 256 then s.ifLive (s.receiveFrame port bytes fec) else .fault .illFormed

/-! ## Sending (R350, R352, R357) -/

/-- Credits of a VC that the sender may still use (R354). -/
def Port.credits (x : Port) (vc : Nat) : Nat :=
  Tab.get 0 x.granted vc - (Tab.get 0 x.used vc % 2 ^ 32 + 2 ^ 32 - Tab.get 0 x.freed vc % 2 ^ 32) % 2 ^ 32

/-- The VC that output arbitration serves (R357). -/
def Port.nextVc (x : Port) : Option Nat :=
  let ready (v : Nat) : Bool := !(Tab.get [] x.out v).isEmpty && decide (0 < x.credits v)
  let pair := if x.wrr < 3 then [1, 2] else [2, 1]
  ([3, 0] ++ pair).find? ready

/-- The round robin after a frame of a VC. -/
def Port.turn (x : Port) (vc : Nat) : Nat :=
  if vc = 1 ∧ x.wrr < 3 then x.wrr + 1 else if vc = 2 ∧ 3 ≤ x.wrr then 0 else x.wrr

/-- A frame goes out: its trailer carries ACK_SEQ, a NAK that is due on a version 3 link, and one VC's credits (R350, R354, R358). -/
def State.putFrame (s : State) (p h lseq : Nat) (ws : List Word64) : State :=
  let x := s.port p
  let nak := x.nak && x.ver == 3
  let t : Trailer := ⟨nak, x.crvc, Tab.get 0 x.given x.crvc % 32, x.ack, lseq, 0⟩
  (s.setPort p { x with crvc := (x.crvc + 1) % 4, nak := if nak then false else x.nak }).send (.frame p (frameBytes h ws t))

/-- An IDLE or LINK frame goes out. What its header holds beside TYPE, and LSEQ, are free values. -/
def State.putPlain (s : State) (p type : Nat) (ws : List Word64) : State :=
  let (h, s) := s.draw 61
  let (l, s) := s.draw 12
  s.putFrame p (h + type * 2 ^ 61) l ws

/-- A sequenced frame goes out for the first time (R352, R354). -/
def State.putNew (s : State) (p vc : Nat) : State :=
  let x := s.port p
  match Tab.get [] x.out vc with
  | [] => s
  | q :: qs =>
    let s := s.setPort p { x with
      out := Tab.set [] x.out vc qs
      wrr := x.turn vc
      used := Tab.set 0 x.used vc (Tab.get 0 x.used vc + 1)
      sent := x.sent ++ [(x.lseq, q)]
      lseq := (x.lseq + 1) % 4096
      wrapped := x.wrapped || x.lseq == 4095
      ackAt := if x.sent.isEmpty then s.time else x.ackAt }
    ((s.freeCopy q.entry).xferSent q.xfer p).putFrame p q.frame.header x.lseq q.frame.words

/-- FRAME_TRANSMIT (R350, R352, R357, R359): LINK frames go first, then what is to be replayed, then a new frame, else IDLE. In TRAINING a
port sends LINK frames that wait, and HELLO every 1 µs; in TEST it sends LINK frames until the pattern runs. -/
def execFrameTransmit (port : PortId) (s : State) : Result :=
  s.ifLive <|
    let p := port.val
    let x := s.port p
    let st := s.portState p
    if s.carrying p || (st == pTest && x.test == 1) then
      match x.links with
      | ws :: rest => (s.setPort p { x with links := rest }).putPlain p 4 ws
      | [] =>
        if 0 < x.resend then
          match x.sent[x.sent.length - x.resend]? with
          | some (l, q) => (s.setPort p { x with resend := x.resend - 1 }).putFrame p q.frame.header l q.frame.words
          | none => s.putPlain p 0 []
        else if 512 ≤ x.sent.length then s.putPlain p 0 []
        else match x.nextVc with
          | some vc => s.putNew p vc
          | none => s.putPlain p 0 []
    else if st = pTraining ∧ x.trained = true then
      match x.links with
      | ws :: rest => (s.setPort p { x with links := rest }).putPlain p 4 ws
      | [] => if s.due x.ackAt 1000 = true ∨ x.ackAt < x.since then
        (s.setPort p { x with ackAt := s.time }).putPlain p 4 (s.helloWords p)
      else s.putPlain p 0 []
    else s

/-- REPLAY_TIMEOUT (R352): ACK_SEQ has not advanced for REPLAY_NS while frames are unacknowledged. -/
def execReplayTimeout (port : PortId) (s : State) : Result :=
  s.ifLive <|
    let p := port.val
    if s.carrying p && s.due (s.port p).ackAt (s.rd F.RLT_PORT_CFG.REPLAY_NS p) then s.replay p else s

/-! ## Retraining and failure (R353, R375) -/

/-- PORT_RETRAIN (R353): the oldest frame has been replayed 8 times; replay buffer and sequence numbers are kept. -/
def execPortRetrain (port : PortId) (s : State) : Result :=
  s.ifLive <|
    let p := port.val
    if s.portState p = pUp ∧ 8 ≤ (s.port p).replays then
      let s := s.setPort p { s.port p with retrain := true, replays := 0 }
      (s.count F.RLT_PORT_STATE.RETRAINS p 1).startTraining p
    else s

/-- PORT_DOWN_TIMEOUT (R353): a retraining port that is not UP again within 100 ms goes DOWN. -/
def execPortDownTimeout (port : PortId) (s : State) : Result :=
  s.ifLive <|
    let p := port.val
    if s.portState p = pTraining ∧ (s.port p).retrain = true ∧ s.due (s.port p).since 100000000 = true then s.failPort p pDown 0 else s

/-- PORT_DOWN_RETRY (R375): a DOWN port retrains every 1 s. -/
def execPortDownRetry (port : PortId) (s : State) : Result :=
  s.ifLive <|
    let p := port.val
    if s.portState p = pDown ∧ s.due (s.port p).since 1000000000 = true then s.startTraining p else s

/-- PMD_TRAINING_DONE (R347, R359): lanes are trained and frames aligned, at half rate where `half`. -/
def execPmdTrainingDone (port : PortId) (half : Bool) (s : State) : Result :=
  s.ifLive <|
    let p := port.val
    if s.portState p = pTraining then (s.setPort p { s.port p with trained := true }).put F.RLT_PORT_STATE.HALF_RATE p half else s

/-! ## LINK frames as commands (R355, R359, R376) -/

/-- HELLO (R359): the 240 payload bytes of the frame. -/
def execHello (port : PortId) (bytes : List Byte) (s : State) : Result := s.ifLive (s.hello port bytes)
/-- CREDIT_REQ (R355). -/
def execCreditReq (port : PortId) (s : State) : Result := s.ifLive (s.creditReq port)
/-- CREDIT (R355): the 240 payload bytes of the frame. -/
def execCredit (port : PortId) (bytes : List Byte) (s : State) : Result := s.ifLive (s.credit port bytes)
/-- TEST_REQ (R376). -/
def execTestReq (port : PortId) (_bytes : List Byte) (s : State) : Result := s.ifLive (s.testReq port)
/-- TEST_AGREE (R376). -/
def execTestAgree (port : PortId) (s : State) : Result := s.ifLive (s.testAgree port)
/-- TEST_REFUSE (R376). -/
def execTestRefuse (port : PortId) (s : State) : Result := s.ifLive (s.testFail port)

/-- TEST_AGREE_TIMEOUT (R376): the peer has not agreed within 10 ms. -/
def execTestAgreeTimeout (port : PortId) (s : State) : Result :=
  s.ifLive <| if s.due (s.port port).since 10000000 then s.testFail port else s

/-- A frame period in ns, rounded up: 2.56 ns, twice that at half rate (R348). Twelve of them. -/
def State.twelvePeriods (s : State) (p : Nat) : Nat := if s.on F.RLT_PORT_STATE.HALF_RATE p then 62 else 31

/-- CREDIT_REPORT_STALE (R355): no credit report of a VC for 12 frame periods. -/
def execCreditReportStale (port : PortId) (vc : Nat) (s : State) : Result :=
  s.ifLive <|
    let p := port.val
    let x := s.port p
    if s.portState p = pUp ∧ vc < 4 ∧ s.due (Tab.get 0 x.heardAt vc) (s.twelvePeriods p) = true then
      (s.setPort p { x with heardAt := Tab.set 0 x.heardAt vc s.time }).sendLink p (linkWords 2 [])
    else s

/-- CREDIT_PERIODIC (R355): once every 100 µs an UP port sends CREDIT. -/
def execCreditPeriodic (port : PortId) (s : State) : Result :=
  s.ifLive <|
    let x := s.port port
    if s.portState port = pUp ∧ s.due x.creditAt 100000 = true then
      (s.setPort port { x with creditAt := s.time }).sendLink port x.creditWords
    else s

/-! ## Shutdown, re-enable and testing (R375, R376) -/

/-- ENABLE of a port (R375). -/
def State.enablePort (s : State) (p : Nat) : State :=
  let st := s.portState p
  if st = pDisabled ∨ st = pDown ∨ st = pQuarantined then s.startTraining p
  else if st = pStopping ∨ st = pTest then
    (s.put F.RLT_PORT_CTRL.ENABLE_PEND p true).setPort p { s.port p with pendAt := s.time }
  else s

/-- DISABLE of a port (R375). -/
def State.disablePort (s : State) (p : Nat) : State :=
  let st := s.portState p
  if s.on F.RLT_PORT_CTRL.ENABLE_PEND p then s.put F.RLT_PORT_CTRL.ENABLE_PEND p false
  else if st = pTraining ∨ st = pUp ∨ st = pDown then (s.setPort p { s.port p with toTest := false }).movePort p pStopping
  else s

/-- TEST of a port (R375). -/
def State.testPort (s : State) (p : Nat) : State :=
  let st := s.portState p
  if st = pUp ∨ st = pDown ∨ st = pDisabled then (s.setPort p { s.port p with toTest := true }).movePort p pStopping else s

/-- PORT_ENABLE (R375, R378). -/
def execPortEnable (f : FnId) (port : PortId) (s : State) : Result := s.ifHost f.val (RegKind.addr .RLT_PORT_CTRL port) <| if isPF f.val then s.enablePort port else s.deny f
/-- PORT_DISABLE (R375, R378). -/
def execPortDisable (f : FnId) (port : PortId) (s : State) : Result := s.ifHost f.val (RegKind.addr .RLT_PORT_CTRL port) <| if isPF f.val then s.disablePort port else s.deny f
/-- PORT_TEST (R375, R378). -/
def execPortTest (f : FnId) (port : PortId) (s : State) : Result := s.ifHost f.val (RegKind.addr .RLT_PORT_CTRL port) <| if isPF f.val then s.testPort port else s.deny f

/-- Nothing is left to send or to be acknowledged. -/
def Port.drained (x : Port) : Bool := x.sent.isEmpty && (List.range 4).all fun v => (Tab.get [] x.out v).isEmpty

/-- PORT_STOP_DONE (R375, R376): the drain is over, or 100 µs have passed and what is left is discarded; then TEST asks the peer, or the
port is DISABLED and a pended ENABLE runs. -/
def execPortStopDone (port : PortId) (s : State) : Result :=
  s.ifLive <|
    let p := port.val
    let x := s.port p
    if s.portState p = pStopping ∧ (x.drained = true ∨ s.due x.since 100000 = true) then
      let s := s.losePort p
      if x.toTest then
        ((s.setPort p { s.port p with test := 1 }).movePort p pTest).sendLink p (linkWords 4 [])
      else
        let s := s.movePort p pDisabled
        if s.on F.RLT_PORT_CTRL.ENABLE_PEND p then (s.portWaited p).startTraining p else s
    else s

/-- The counts of one lane are stored (R376). -/
def State.storeLane (s : State) (p n errors checked : Nat) : State :=
  let i := RegKind.idx .RLT_PORT_BER p n
  let ok := decide (errors * 10 ^ s.rd F.RLT_PORT_CFG.BER_EXP p ≤ checked)
  let s := ((s.wrSat F.RLT_PORT_BER.ERRORS i errors).wrSat F.RLT_PORT_BER.BITS_G i (checked / 1000000000)).put F.RLT_PORT_BER.PASS i ok
  if ok then s else s.put F.RLT_PORT_STATE.FAIL p true

/-- PORT_TEST_DONE (R376): after TEST_S seconds each lane's bit errors and bits checked are stored, and the port trains. -/
def execPortTestDone (port : PortId) (errors : List Nat) (checked : List Nat) (s : State) : Result :=
  s.ifLive <|
    let p := port.val
    let x := s.port p
    if s.portState p = pTest ∧ x.test = 2 ∧ s.due x.since (s.rd F.RLT_PORT_CFG.TEST_S p * 1000000000) = true then
      let s := (List.range 4).foldl (fun s n => s.storeLane p n (errors.getD n 0) (checked.getD n 0)) s
      s.endTest p
    else s

end Sys2Proof.Machine
end

