-- ==== Sys2Proof/Machine/Xfer.lean ====
section
/-! DEFINITION. Messages that the fabric core has received (R360, R368, R369, R372, R373), tokens of the east edge, and the transfer
rings (R371, R378). -/

namespace Sys2Proof.Machine

/-! ## Messages by their place in the list of messages being received -/

/-- Message `n` ends, and the input buffer entries that its frames still keep are free. -/
def State.dropMsg (s : State) (n : Nat) : State :=
  (((s.rlt.msgs[n]?).map (·.held)).getD []).foldl State.freeCopy { s with rlt := { s.rlt with msgs := s.rlt.msgs.eraseIdx n } }

/-- Message `n` changed. -/
def State.setMsg (s : State) (n : Nat) (m : Msg) : State := { s with rlt := { s.rlt with msgs := s.rlt.msgs.set n m } }

/-- Message `n` of an OP that is whole or lost. -/
def State.msg (s : State) (n op : Nat) : Option Msg := (s.rlt.msgs[n]?).filter fun m => m.op == op && !m.isOpen

/-- A COMPLETION goes back to the sender (R368, R372). -/
def State.sendCompletion (s : State) (m : Msg) (status error pos : Nat) : State :=
  s.originate (s.msgFrames m.part 3 3 m.flow.src (msgHead 3 status 0 false 0 pos) error []) none

/-- The COMPLETION of a PUT. The PUT does not carry the sender's position, which the COMPLETION's TID is to name: a free value (log 51). -/
def State.answerPut (s : State) (m : Msg) (status error : Nat) : State :=
  let (v, s) := s.draw 32
  s.sendCompletion m status error v

/-- The request number under which a PUT into a tensor asks for shadow pages. -/
def putReq (p tid : Nat) : Nat := 2 ^ 61 + tkey p tid

/-- A PUT with its bytes is committed (step 5 of R372). What REMOTE_EVT is raised by is VALUE of the descriptor, which no field of the
message carries: a free value (log 51). -/
def State.commitPut (s : State) (m : Msg) : State :=
  let old := ((s.tensor m.part m.tid).map (·.frames)).getD []
  let s := ((s.modTensor m.part m.tid fun t => { t with state := .dirty, data := Memory.writeN [] 0 m.data }).placePages m.part m.tid).leavePool old
  let s := match s.tensor m.part m.tid with
    | some t => s.mainWritten t 0 t.desc.length
    | none => s
  let s := if bit m.head 39 then
      let (v, s) := s.draw 32
      s.eventAdd m.part m.evt v
    else s
  s.answerPut m xOK 0

/-- What a PUT that holds its tensor comes to (steps 4 and 5 of R372): while its message is open its data goes into the shadows; a lost one
is discarded, and a whole one committed. -/
def State.putGoes (s : State) (n : Nat) (m : Msg) : State :=
  if m.isOpen then s.setMsg n { m with begun := true }
  else if m.bad then (s.dropMsg n).answerPut m xRefused eParity
  else (s.dropMsg n).commitPut m

/-- PUT (R372): the destination's steps 1 to 3 as the message begins, and 4 and 5 once it is whole or lost. It waits while its tensor is being
loaded or written back, or while pages are being freed for it. The pages are asked for as of the first frame's arrival (R189). -/
def execPut (n : Nat) (s : State) : Result :=
  s.ifLive <|
    match (s.rlt.msgs[n]?).filter (fun m => m.op == 1) with
    | none => s
    | some m =>
      let refuse (e : Nat) : State := (s.dropMsg n).answerPut m xRefused e
      if m.begun then s.putGoes n m
      else match s.tensor m.part m.tid with
      | none => refuse eShape
      | some t =>
        if t.state = .lost then refuse eStateLost
        else if !t.main || !t.rw_ || t.desc.length != m.arg then refuse eShape
        else if s.putWrites m.part m.tid || s.ctl.cmds.any fun e => e.2.holds m.part m.tid false then refuse eConflict
        else if t.state = .loading ∨ t.state = .writing then s
        else match s.takePages (putReq m.part m.tid) m.part m.came (pagesOf t.desc.length) with
          | (s, .waits) => s
          | (s, .refused) => (s.dropMsg n).answerPut m xRefused eNoSpace
          | (s, .granted) => s.putGoes n m

/-- EVENT (R372): VALUE is added on delivery, and the COMPLETION is sent; a lost message is discarded. -/
def execEvent (n : Nat) (s : State) : Result :=
  s.ifLive <|
    match s.msg n 2 with
    | none => s
    | some m =>
      let s := s.dropMsg n
      if m.bad then s else (s.eventAdd m.part m.evt (m.arg % 2 ^ 32)).sendCompletion m xOK 0 m.tid

/-- COMPLETION (R373): the transfer it names takes its outcome, or LATE_DONE counts it. -/
def execCompletion (n : Nat) (s : State) : Result :=
  s.ifLive <|
    match s.msg n 3 with
    | none => s
    | some m =>
      let s := s.dropMsg n
      if m.bad then s
      else match s.xfer m.part m.tid with
        | some x => if x.dst = m.flow.src then s.finishXfer x (bits m.head 48 8) (m.arg % 256) else s.count F.RLT_XFER_CFG.LATE_DONE m.part 1
        | none => s.count F.RLT_XFER_CFG.LATE_DONE m.part 1

/-! ## Tokens through the east edge (R369) -/

/-- The cog of an east link (R47). -/
def eastCog (l : Nat) : Nat := 144 * l + 143

/-- The east link of the fabric core, written. -/
def State.setEast (s : State) (l : Nat) (x : EastIn) : State :=
  { s with arr := { s.arr with east := Tab.set ⟨[], 0, false⟩ s.arr.east l x } }

/-- The flits of the token that a link last received and that has no end yet. -/
def openFlits (fs : List (Word256 × Bool)) : Nat := (fs.reverse.takeWhile fun e => !e.2).length

/-- The flits of bytes, EOT on the last of the message. -/
def flitsOf (bs : List Byte) (last : Bool) : List (Word256 × Bool) :=
  let k := ceilDiv bs.length 32
  (List.range k).map fun i => (BitVec.ofNat 256 (fieldAt bs (32 * i) 32), last && i + 1 == k)

/-- A poisoned or incomplete TOKEN (R369): flits that have not entered a RUN are dropped; where some have, the task of the RUN on the
link aborts with E_PARITY. -/
def State.badToken (s : State) (l : Nat) (m : Msg) : State :=
  let x := s.eastIn l
  let k := min (openFlits x.flits) (m.given / 32)
  let s := s.setEast l { x with flits := x.flits.take (x.flits.length - k) }
  if k * 32 < m.given then
    match s.regionOf (eastCog l) with
    | some r => s.abortCmd r.2.seq eParity 0
    | none => s
  else s

/-- The cog of an east link lies in the rectangle of a partition. -/
def State.eastOf (s : State) (p l : Nat) : Bool := inRect (s.rd F.SEC_PART_MAP.RECT p) (blockOf (eastCog l))

/-- TOKEN (R369): a message's flits reach its east link as they come, up to 64 KiB held for the link; it is dropped as NO_PART where the
link's cog is not the partition's. -/
def execToken (n : Nat) (s : State) : Result :=
  s.ifLive <|
    match (s.rlt.msgs[n]?).filter (fun m => m.op == 0x10) with
    | none => s
    | some m =>
      let l := m.link
      if s.eastOf m.part l = false then (s.dropMsg n).countDrop m.port .noPart
      else if m.bad then (s.dropMsg n).badToken l m
      else
        let x := s.eastIn l
        let room := 2048 - x.flits.length
        let have_ := m.data.length - m.given
        let whole := m.done && decide (ceilDiv have_ 32 ≤ room)
        let take := if whole then have_ else min (have_ / 32) room * 32
        let s := (s.setEast l { x with flits := x.flits ++ flitsOf ((m.data.drop m.given).take take) whole }).note (eastCog l) false
        (if whole then s.dropMsg n else s.setMsg n { m with given := m.given + take }).eastFrees l

/-- EAST_TOKEN_OUT (R369): a token that has left the array on east link `l` becomes a TOKEN message; on an unbound link every flit that has left
is discarded, each counted as UNBOUND, whether or not its token is whole. -/
def execEastTokenOut (l : Nat) (s : State) : Result :=
  s.ifLive <|
    let fs := s.sinkAt (eastCog l) .e
    let tok := fs.takeWhile fun f => !f.eot
    if 128 ≤ l ∨ fs.isEmpty = true then s
    else if s.on F.RLT_EDGE_BIND.VALID l = false then
      ((s.setSinkAt (eastCog l) .e []).count F.RLT_PORT_DROP.UNBOUND (l / 8) fs.length).raise 138
    else if tok.length = fs.length then s
    else
      let tok := fs.take (tok.length + 1)
      let s := s.setSinkAt (eastCog l) .e (fs.drop tok.length)
      match s.partOfBlock (blockOf (eastCog l)) with
      | none => s
      | some p =>
        let bs := tok.flatMap fun f => toBytes 32 f.data.toNat
        let head := msgHead 0x10 0 0 false (s.rd F.RLT_EDGE_BIND.REMOTE_LINK l) 0
        let frames := s.msgFrames p 1 (s.rd F.RLT_EDGE_BIND.VC l) (s.rd F.RLT_EDGE_BIND.DST l) head bs.length bs
        let o := l / 8
        if s.portState o = pUp then
          frames.foldl (fun s f => if s.allowed o f.slice then s.enqueue o ⟨f, 0, none⟩ else s.dropFrame 16 .sliceDeny ⟨f, 0, none⟩) s
        else s.originate frames none

/-! ## Time limits (R360, R372) -/

/-- RLT_MSG_TIMEOUT of a port in ns (R378). -/
def State.msgTimeout (s : State) (port : Nat) : Nat := s.rd F.RLT_PORT_CFG.MSG_TIMEOUT port * 10000

/-- MESSAGE_TIMEOUT (R360): an open message without its next frame is discarded, and what waits for it sees it lost. -/
def execMessageTimeout (n : Nat) (s : State) : Result :=
  s.ifLive <|
    match s.rlt.msgs[n]? with
    | none => s
    | some m => if m.isOpen && s.due m.at_ (s.msgTimeout m.port) then s.setMsg n { m with bad := true } else s

/-- PUT_TIMEOUT (R372): no COMPLETION within RLT_MSG_TIMEOUT of the last frame of a transfer. -/
def execPutTimeout (p : PartId) (pos : Nat) (s : State) : Result :=
  s.ifLive <|
    match s.xfer p pos with
    | none => s
    | some x =>
      if x.started && x.left == 0 && s.due x.sentAt (s.msgTimeout x.port) then s.finishXfer x xTimeout 0 else s

/-! ## Transfer rings (R371, R378) -/

/-- A write of RLT_XFER_CFG[p] (R378): while ENABLE is set only ENABLE is taken; ENABLE needs a main-home RW tensor of the ring's size,
and the engine's position restarts at 0. -/
def State.writeXferCfg (s : State) (p v : Nat) : State :=
  if s.on F.RLT_XFER_CFG.ENABLE p then s.put F.RLT_XFER_CFG.ENABLE p (bit v 63)
  else
    let s := ((s.wr F.RLT_XFER_CFG.SIZE_LOG2 p (clampTo 4 12 (bits v 56 4))).wr F.RLT_XFER_CFG.EVT p (bits v 48 8)).wr
      F.RLT_XFER_CFG.TID p (bits v 0 32)
    let ring := match s.mainTensor p (bits v 0 32) with
      | some t => t.rw_ && t.desc.length == 2 ^ s.rd F.RLT_XFER_CFG.SIZE_LOG2 p * 64
      | none => false
    if bit v 63 && ring then
      ({ s with rlt := { s.rlt with xpos := Tab.set 0 s.rlt.xpos p 0 } } : State).put F.RLT_XFER_CFG.ENABLE p true
    else s

/-- XFER_CFG_ENABLE (R378). -/
def execXferCfgEnable (f : FnId) (p : PartId) (v : Word64) (s : State) : Result :=
  s.ifHost f.val (RegKind.addr .RLT_XFER_CFG p) <| if ownFn f.val p.val then s.writeXferCfg p v.toNat else s.deny f

end Sys2Proof.Machine
end

