-- ==== Sys2Proof/Machine/IntcOps.lean ====
section
/-! DEFINITION. The interrupt controller (chapter 14): selection, landing and withdrawal of deliveries, completions, masks and software
sources. -/

namespace Sys2Proof.Machine

/-- RUN_LEVEL of a target (R407): the highest priority among the sources active on it. -/
def State.runLevel (s : State) (t : Nat) : Nat := ((s.intc.active.filter fun a => a.1 == t).map fun a => a.2.2).foldl max 0

/-- A source of a partition goes to a hub only while the hub is the partition's and ONLINE (R406). -/
def State.routable (s : State) (n t : Nat) : Bool :=
  decide (8 ≤ t) || (match s.srcPart n with
    | some p => (s.hub t).part == some p && s.hubOnline t
    | none => true)

/-- A pending source is eligible for a target (R407), once it is not ACTIVE (R405, R410). -/
def State.eligible (s : State) (t n : Nat) : Bool :=
  let prio := s.rd F.INTC_SRC_CFG.PRIO n
  s.bitAt F.INTC_PEND.BITS n && s.rd F.INTC_SRC_CFG.TARGET n == t && !s.bitAt F.INTC_MASK.MASK n && !s.bitAt F.INTC_ACTIVE.BITS n &&
    decide (1 ≤ prio ∧ s.rd F.INTC_TGT_CFG.THRESHOLD t < prio ∧ s.runLevel t < prio) && s.routable n t

/-- The eligible source of highest priority, the lowest number on a tie (R407). -/
def State.selected (s : State) (t : Nat) : Option Nat :=
  ((List.range 512).filter (s.eligible t)).foldl (fun m n => match m with
    | none => some n
    | some k => if s.rd F.INTC_SRC_CFG.PRIO k < s.rd F.INTC_SRC_CFG.PRIO n then some n else m) none

/-- The limit of a delivery in ns: 12 HCLK cycles at 1.5 GHz (R16, R408). -/
def deliveryNs : Nat := 8

/-- INTC_SELECT (R407, R408): a target without a delivery in flight is given one. -/
def execIntcSelect (t : TgtId) (s : State) : Result :=
  s.ifLive <|
    let t := t.val
    if (Tab.find s.intc.flight t).isSome then s
    else match s.selected t with
      | some n => { s with intc := { s.intc with flight := Tab.insert s.intc.flight t (n, s.rd F.INTC_SRC_CFG.PRIO n, s.time) } }
      | none => s

/-- A delivery in flight is withdrawn: the source stays PENDING (R408). -/
def State.withdraw (s : State) (t : Nat) : State := { s with intc := { s.intc with flight := Tab.erase s.intc.flight t } }

/-- A hub jumps to the vector of a source (R277, R408, R409): the program counter and a wait are saved, and the interrupt bank is
switched in at the first level. -/
def State.jumpVector (s : State) (h n : Nat) : State :=
  let x := s.hub h
  let pc := (s.rd F.HUB_CFG.VBASE h + 32 * n) / 8
  let y := if x.stack.isEmpty then { x.swapBank with irqSince := s.work } else x
  s.setHub h { y with stack := (n, x.pc, x.wait) :: x.stack, pc := pc, wait := none }

/-- A delivery lands (R408): PENDING clears and ACTIVE sets; a hub, or a management core, jumps to its vector address. -/
def State.land (s : State) (t n prio : Nat) : State :=
  let s := (s.putBit F.INTC_PEND.BITS n false).putBit F.INTC_ACTIVE.BITS n true
  let s : State := { s with intc := { s.intc with
    flight := Tab.erase s.intc.flight t
    active := (t, n, prio) :: s.intc.active
    vec := if t < 8 then s.intc.vec else Tab.insert s.intc.vec t (32 * s.rd F.INTC_TGT_CFG.VBASE t + 32 * n) } }
  (if t < 8 then s.jumpVector t n else s).trace 0x0A 0 t n

/-- A target can take a delivery: a hub that is ONLINE and has no instruction in progress (R409), or a core. -/
def State.canLand (s : State) (t : Nat) : Bool := decide (8 ≤ t) || (s.hubOnline t && !(s.hub t).stalled)

/-- INTC_LAND (R408, R409): within 12 HCLK cycles of its selection. -/
def execIntcLand (t : TgtId) (s : State) : Result :=
  s.ifLive <|
    let t := t.val
    match Tab.find s.intc.flight t with
    | some (n, prio, sel) => if s.canLand t && s.routable n t && decide (s.time ≤ timeAdd sel deliveryNs) then s.land t n prio else s
    | none => s

/-- INTC_WITHDRAW (R408): the delivery has not landed within 12 HCLK cycles. -/
def execIntcWithdraw (t : TgtId) (s : State) : Result :=
  s.ifLive <|
    match Tab.find s.intc.flight t.val with
    | some (_, _, sel) => if s.due sel deliveryNs then s.withdraw t else s
    | none => s

/-- INTC_CPL (R410, R416): the physical function writes it for hubs; for the management cores it is firmware's write (log 52). -/
def execIntcCpl (f : FnId) (t : TgtId) (src : Nat) (s : State) : Result :=
  if 8 ≤ t.val then s.ifLive (s.writeCpl t (src % 512))
  else s.ifHost f.val (RegKind.addr .INTC_CPL t) <| if isPF f.val then s.writeCpl t (src % 512) else s.deny f

/-- A mask write's effect on one delivery in flight of a source being masked (R412, R413): on a strict target it lands or is withdrawn
before the write completes; on a relaxed one it stays in flight. -/
def State.maskFlight (s : State) (w v : Nat) (lands : Bool) (t : Nat) : State :=
  match Tab.find s.intc.flight t with
  | some (n, prio, _) =>
    if n / 32 = w ∧ bit v (n % 32) = true ∧ s.bitAt F.INTC_MASK.MASK n = false ∧ s.on F.INTC_TGT_CFG.MODE t = false then
      if lands && s.canLand t then s.land t n prio else s.withdraw t
    else s
  | none => s

/-- The host-routed sources of a mask word that are pending and deliverable are handed to the MSI-X sender. -/
def State.handWord (s : State) (w : Nat) : State := (List.range 32).foldl (fun s k => s.handOver (32 * w + k)) s

/-- A mask word takes a value (R412, R413). -/
def State.putMask (s : State) (w v : Nat) (lands : Bool) : State :=
  (((List.range 10).foldl (fun s t => s.maskFlight w v lands t) s).wr F.INTC_MASK.MASK w v).handWord w

/-- A mask write by the host (R404): the bits of firmware-owned sources stay. -/
def State.writeMask (s : State) (w v : Nat) (lands : Bool) : State :=
  s.putMask w (if w = 5 then setBits v 0 4 (bits (s.rd F.INTC_MASK.MASK w) 0 4) else v) lands

/-- INTC_MASK (R412, R413, R416): `lands` says which of the two certain outcomes a strict target's delivery has. -/
def execIntcMask (f : FnId) (w : MaskId) (v : Word32) (lands : Bool) (s : State) : Result :=
  s.ifHost f.val (RegKind.addr .INTC_MASK w) <| if isPF f.val then s.writeMask w v.toNat lands else s.deny f

/-- A write of INTC_SWSET[p] (R404). -/
def State.writeSwset (s : State) (p v : Nat) : State :=
  (List.range 16).foldl (fun s i => if bit v i then s.raise (256 + 16 * p + i) else s) s

/-- INTC_SWSET (R404, R416). -/
def execIntcSwset (f : FnId) (p : PartId) (v : Word32) (s : State) : Result :=
  s.ifHost f.val (RegKind.addr .INTC_SWSET p) <| if ownFn f.val p.val then s.writeSwset p v.toNat else s.deny f

/-- The fields of INTC_SRC_CFG[n] take their values (R411): a pending source is selected under the new ones, so a delivery of it that is
in flight under the old ones is withdrawn (DEDUCED, log 93). -/
def State.putSrcCfg (s : State) (n v : Nat) : State :=
  let s : State := { s with intc := { s.intc with flight := s.intc.flight.filter fun e => e.2.1 != n } }
  ((((s.wr F.INTC_SRC_CFG.PRIO n (bits v 0 4)).wr F.INTC_SRC_CFG.TARGET n (bits v 4 4)).wr F.INTC_SRC_CFG.FUNC n (bits v 8 5)).wr
    F.INTC_SRC_CFG.VEC n (bits v 16 6)).handOver n

/-- A write of INTC_SRC_CFG[n] by the host (R406, R416): ignored as a whole where R406 says so. -/
def State.writeSrcCfg (s : State) (n v : Nat) : State :=
  let target := bits v 4 4
  let func := bits v 8 5
  let bad := decide (160 ≤ n ∧ n ≤ 163) || target == 8 || target == 9 || decide (10 < target) ||
    (match s.srcPart n with
      | some p => func != 0 && func != p + 1
      | none => false)
  if bad then s.deny 0 else s.putSrcCfg n v

/-- A write by a management core, at an offset of BAR0, of what only firmware writes (R404, R408, R416): the configuration of a
firmware-owned source, which goes to a management core or nowhere, the mask bits of those sources, and INTC_TGT_CFG and INTC_CPL of the
management cores. Any other register it leaves (DESIGN CHOICE, log 93). -/
def State.coreWrite (s : State) (off v : Nat) : State :=
  match regAt 0 off with
  | some (.INTC_SRC_CFG, n, _) =>
    if 160 ≤ n ∧ n ≤ 163 ∧ (bits v 4 4 = 8 ∨ bits v 4 4 = 9 ∨ bits v 0 4 = 0) then s.putSrcCfg n v else s
  | some (.INTC_MASK, w, _) =>
    let (b, s) := s.draw 1
    if w = 5 then s.putMask 5 (setBits (s.rd F.INTC_MASK.MASK 5) 0 4 (bits v 0 4)) (b == 1) else s
  | some (.INTC_TGT_CFG, t, _) =>
    if 8 ≤ t then
      ((s.wr F.INTC_TGT_CFG.MODE t (bits v 31 1)).wr F.INTC_TGT_CFG.VBASE t (bits v 5 15)).wr F.INTC_TGT_CFG.THRESHOLD t (bits v 0 4)
    else s
  | some (.INTC_CPL, t, _) => if 8 ≤ t then s.writeCpl t (bits v 0 9) else s
  | _ => s

end Sys2Proof.Machine
end

