-- ==== Sys2Proof/Machine/Security.lean ====
section
/-! DEFINITION. Measurement, identity, approval tokens and fuses (R452 to R473), with the mailbox operations that belong to them and the
protection set-up that a token changes (R289, R293, R294, R389). -/

namespace Sys2Proof.Machine

/-- The bytes of a word of characters. -/
def ascii (s : String) : List Byte := s.toList.map fun c => BitVec.ofNat 8 c.toNat

/-! ## Measurement registers (R452, R453) -/

/-- The SHA-256 of bytes as a register value: byte 0 of the digest in bits [7:0]. -/
def shaWord (bs : List Byte) : Nat := ofBytes (sha256 bs)

/-- A measurement register. -/
def State.meas (s : State) (r : Nat) : Nat := (Tab.get 0 s.sec.meas r).toNat

/-- A measurement register extended by data (R452). -/
def State.extend (s : State) (r : Nat) (d : List Byte) : State :=
  let m := shaWord (toBytes 32 (s.meas r) ++ d)
  { s with sec := { s.sec with meas := Tab.set 0 s.sec.meas r (BitVec.ofNat 256 m) } }

/-- SEC_MEAS_EXT_CTRL[p].GO (R453). -/
def State.measGo (s : State) (p : Nat) : State := s.extend (16 + p) (toBytes 32 (Tab.get 0 s.sec.ext p).toNat)

/-- MEAS_EXTEND (R453, R473). -/
def execMeasExtend (f : FnId) (p : PartId) (s : State) : Result :=
  s.ifHost f.val (RegKind.addr .SEC_MEAS_EXT_CTRL p) <| if ownFn f.val p.val then s.measGo p.val else s.deny f

/-! ## Fuses (R457, R468, R469) -/

/-- The states of an authority slot (R457). -/
def State.slot (s : State) (i : Nat) : Nat := s.rd F.SEC_AUTH_STATE.STATE i
/-- The hash of a slot as bytes. -/
def State.slotHash (s : State) (i : Nat) : List Byte := toBytes 32 (Tab.get 0 s.sec.authHash i).toNat
/-- The slots that are REGISTERED. -/
def State.registered (s : State) : List Nat := (List.range 8).filter fun i => s.slot i == 2

/-- SVN_FLOOR of a COMP (R468). -/
def State.floor_ (s : State) (comp : Nat) : Nat := bits (s.reg .SEC_FUSE_STATE 0) (2 + 6 * comp) 6

/-- The bits of a number, least significant first. -/
def bitList (n x : Nat) : List Bool := (List.range n).map (bit x)

/-- The CRC bits of an authority slot: the CRC-32 of its hash; those of a SPOILED slot are whatever the burn left, a free value (R457,
R470). -/
def State.slotCrc (s : State) (i : Nat) : Nat :=
  if s.slot i = 1 then Config.freeValue (Tab.get 0 s.sec.authHash i).toNat % 2 ^ 32 else crc32 (s.slotHash i)

/-- The 290 bits of an authority slot: hash, CRC-32, VALID, REVOKED (R457). -/
def State.slotBits (s : State) (i : Nat) : List Bool :=
  let st := s.slot i
  if st = 0 then List.replicate 290 false
  else bitList 256 (Tab.get 0 s.sec.authHash i).toNat ++ bitList 32 (s.slotCrc i) ++ [decide (2 ≤ st), st == 3]

/-- The fuse summary of R452: the field groups in order, packed, hashed. -/
def State.fuseSummary (s : State) : List Byte :=
  let thermo (n : Nat) : List Bool := (List.range 63).map fun i => decide (i < n)
  sha256 (packBits [s.on F.SEC_FUSE_STATE.DEBUG_CLOSED 0] ++ packBits (bitList 2 (s.rd F.SEC_FUSE_STATE.VKEY_REVOKE 0)) ++
    packBits ([1, 2, 3, 4].flatMap fun c => thermo (s.floor_ c)) ++ packBits ((List.range 8).flatMap s.slotBits))

/-- The fuses as a burn finds them (R470). -/
def State.beginBurn (s : State) : State :=
  { s with sec := { s.sec with burn := some ⟨s.time, s.reg .SEC_FUSE_STATE 0, (List.range 8).map s.slot⟩ } }

/-- What a burn of field fuses from `b` to the fuses of `s` that is not whole leaves in `t` (R469, R470): slots are burnt in rising order,
and of the first that is not whole, bits may be programmed, which leaves it SPOILED; a slot being revoked is REGISTERED or REVOKED; a
floor is any that its thermometer passes; a single bit is programmed or not. How far the burn came is a free value. -/
def State.cutBurn (s : State) (b : Burn) (t : State) : State :=
  let (v, t) := t.draw 64
  let (h, t) := t.draw 256
  let slots := (List.range 8).filter fun i => s.slot i != b.slots.getD i 0
  let cut := v % 16 % (slots.length + 1)
  let t := (slots.zipIdx).foldl (fun t e =>
    if e.2 < cut then t
    else if b.slots.getD e.1 0 ≠ 0 then t.wr F.SEC_AUTH_STATE.STATE e.1 (b.slots.getD e.1 0)
    else
      let spoiled := e.2 = cut ∧ bit v 4 = true
      let hash := if spoiled then (Tab.get 0 s.sec.authHash e.1) &&& BitVec.ofNat 256 h else 0
      ({ t with sec := { t.sec with authHash := Tab.set 0 t.sec.authHash e.1 hash } } : State).wr F.SEC_AUTH_STATE.STATE e.1
        (if spoiled then 1 else 0)) t
  let new := s.reg .SEC_FUSE_STATE 0
  let floors := [1, 2, 3, 4].foldl (fun x c =>
    let lo := bits b.fuse (2 + 6 * c) 6
    setBits x (2 + 6 * c) 6 (lo + v / 32 % 64 % (bits new (2 + 6 * c) 6 - lo + 1))) new
  t.setReg .SEC_FUSE_STATE 0 (if bit v 11 then floors else setBits floors 0 8 b.fuse)

/-- SEC_MEAS[5] takes the fuse summary (R452). -/
def State.measFuses (s : State) : State := s.extend 5 s.fuseSummary

/-- A slot becomes REGISTERED with a hash. -/
def State.register (s : State) (i : Nat) (hash : List Byte) : State :=
  ({ s with sec := { s.sec with authHash := Tab.set 0 s.sec.authHash i (BitVec.ofNat 256 (ofBytes hash)) } } : State).wr
    F.SEC_AUTH_STATE.STATE i 2

/-! ## Protection set-up under a token (R293, R294, R389, R460, R465) -/

/-- An action of a token (R460). -/
structure TokAct where
  kind : Nat
  arg : Nat
  value : Nat
  mask : Nat
  data : List Byte
  deriving DecidableEq, Repr

/-- The action of 64 bytes. -/
def TokAct.parse (b : List Byte) : TokAct := ⟨fieldAt b 0 1, fieldAt b 4 4, fieldAt b 8 8, fieldAt b 0x10 8, slice b 0x18 32⟩

/-- The bits of a register that are RWA. -/
def rwaMask (k : RegKind) : Nat :=
  (k.info.flds.filter fun f => f.access == .rwa).foldl (fun m f => setBits m f.lo f.w (2 ^ f.w - 1)) 0

/-- The register that a REG_WRITE names: it has RWA fields, and the offset is its first byte (R465). -/
def rwaAt (off : Nat) : Option (RegKind × Nat) :=
  match regAt 0 off with
  | some (k, i, 0) => if rwaMask k = 0 then none else some (k, i)
  | _ => none

/-- Check 6 of R461: an action is well formed under R460; a token that holds a fuse action holds no other. -/
def TokAct.formed (a : TokAct) (nact : Nat) (b : List Byte) : Bool :=
  let zeroData := a.data.all (· == 0)
  let spare := fieldAt b 1 3 == 0 && fieldAt b 0x38 8 == 0
  spare && match a.kind with
  | 1 => zeroData && (match rwaAt a.arg with
    | some (k, _) => (Nat.land a.mask (rwaMask k)) == a.mask && decide (a.mask < 2 ^ k.info.width ∧ a.value < 2 ^ k.info.width)
    | none => false)
  | 2 => zeroData && a.mask == 0 && decide (a.arg < 1024 ∧ a.value < 65536)
  | 3 => nact == 1 && a.value == 0 && a.mask == 0 && decide (a.arg < 8)
  | 4 => nact == 1 && zeroData && a.value == 0 && a.mask == 0 && decide (a.arg < 8)
  | 5 => nact == 1 && zeroData && a.value == 0 && a.mask == 0 && a.arg == 0
  | 6 => nact == 1 && zeroData && a.mask == 0 && decide (1 ≤ a.arg ∧ a.arg ≤ 4)
  | 7 => nact == 1 && zeroData && a.value == 0 && a.mask == 0 && decide (a.arg ≤ 1)
  | _ => false

/-- A register's value with the bits under a mask replaced. -/
def masked_ (old mask value w : Nat) : Nat := Nat.lor (Nat.land old (2 ^ w - 1 - mask)) (Nat.land value mask)

/-- A partition counts as holding its rectangle and hubs: ENABLED, STOPPING or enable-pending (R293). -/
def State.holdsMap (s : State) (p : Nat) : Bool := s.rd F.SEC_PART_STATE.STATE p != 0

/-- Checks 2 to 5 of R293 on a new value of SEC_PART_MAP[p]: the error and the owner, or none. -/
def State.mapError (s : State) (p v : Nat) : Option (Nat × Nat) :=
  let rect := bits v 0 16
  let hubs := bits v 24 8
  let on := bit v 32
  let others := (List.range 16).filter fun q => q != p && s.holdsMap q
  if (rect ≠ s.rd F.SEC_PART_MAP.RECT p ∨ hubs ≠ s.rd F.SEC_PART_MAP.HUBS p) ∧ s.rd F.SEC_PART_STATE.STATE p ≠ 0 then some (eConflict, p)
  else if on = false then none
  else if rectOk rect = false ∨ hubs = 0 then some (eShape, 0)
  else match others.find? fun q => rectMeets rect (s.rd F.SEC_PART_MAP.RECT q) with
    | some q => some (eConflict, q)
    | none => (others.find? fun q => Nat.land hubs (s.rd F.SEC_PART_MAP.HUBS q) != 0).map fun q => (eConflict, q)

/-- An accepted write of SEC_PART_MAP[p] moves the partition as R294 says. -/
def State.writeMap (s : State) (p v : Nat) : State :=
  let rect := bits v 0 16
  let hubs := bits v 24 8
  let on := bit v 32
  let s := (s.wr F.SEC_PART_STATE.LAST_ERR p 0)
  match s.rd F.SEC_PART_STATE.STATE p with
  | 0 =>
    if on then s.enablePart p rect hubs
    else ((s.wr F.SEC_PART_MAP.RECT p rect).wr F.SEC_PART_MAP.HUBS p hubs).put F.SEC_PART_MAP.ENABLE p false
  | 1 => if on then s else s.disablePart p
  | _ =>
    let pend := s.ctl.partPend
    let s := (s.put F.SEC_PART_MAP.ENABLE p on).put F.SEC_PART_STATE.ENABLE_PEND p on
    { s with ctl := { s.ctl with partPend := if on then Tab.insert pend p ⟨rect, hubs, s.time⟩ else Tab.erase pend p } }

/-- The rings in host memory of a partition that are not wholly inside its windows (R389): the lowest queue, or a batch. -/
def State.strandedRing (s : State) (p : Nat) : Option Nat :=
  match (List.range 64).find? fun i => let q := 64 * p + i
      s.rd F.Q_STATE.STATE q != 0 && !s.on F.Q_CFG.LOC q && !s.window (p + 1) (s.rd F.Q_BASE.BASE q) (s.qSize q * 64) false with
  | some i => some (64 * p + i)
  | none => ((List.range 32).find? fun b =>
      s.rd F.SRV_BATCH_CTRL.STATE b != 0 && s.rd F.SRV_BATCH_CFG.PART b == p && !s.on F.SRV_RING_CFG.LOC b &&
        !s.window (p + 1) (s.rd F.SRV_RING_BASE.BASE b) (2 ^ s.rd F.SRV_RING_CFG.SIZE_LOG2 b * 32) true).map batchOwner

/-- The checks of R389 on a window of function `i / 8` as the action leaves it. -/
def State.windowError (s : State) (i : Nat) : Option (Nat × Nat) :=
  let f := i / 8
  if s.rd F.PCI_MWIN_LIMIT.LIMIT i < s.rd F.PCI_MWIN_BASE.BASE i ∧ (s.on F.PCI_MWIN_LIMIT.R i = true ∨ s.on F.PCI_MWIN_LIMIT.W i = true) then
    some (eShape, 0)
  else if f = 0 then none
  else (s.strandedRing (f - 1)).map fun q => (eConflict, q)

/-- An action's outcome: what it leaves, done or ended ABORTED by a readback mismatch (R469), or its error code and owner. -/
inductive ActOut where
  | done (s : State)
  | aborted (s : State)
  | fail (error owner : Nat)

/-- A conflict whose owner the manual does not name: a free value. -/
def State.actConflict (s : State) : ActOut := .fail eConflict (Config.freeValue s.fresh % 2 ^ 32)

/-- A REG_WRITE (R293, R389, R460, R463). -/
def State.regWrite (s : State) (a : TokAct) : ActOut :=
  match rwaAt a.arg with
  | none => .fail eShape 0
  | some (k, i) =>
    let v := masked_ (s.reg k i) a.mask a.value k.info.width
    match k with
    | .SEC_PART_MAP =>
      match s.mapError i v with
      | some (e, o) => .fail e o
      | none => .done (s.writeMap i v)
    | .PCI_MWIN_BASE => let t := s.setReg k i v; match t.windowError i with
      | some (e, o) => .fail e o
      | none => .done t
    | .PCI_MWIN_LIMIT => let t := s.setReg k i v; match t.windowError i with
      | some (e, o) => .fail e o
      | none => .done t
    | .RLT_DEV_ID => .done (s.setReg k i v).idWritten
    | _ => .done (s.setReg k i v)

/-- An action of CAT_GRANT (R216): no partition that loses the grant defines a tensor inside the entry. -/
def State.grantAct (s : State) (slot mask : Nat) : ActOut :=
  let x := s.entry slot
  match s.tidInside x fun p => bit x.grant p && !bit mask p with
  | some t => .fail eConflict t
  | none => .done (s.setEntry slot { x with grant := mask })

/-- The field fuses are the same in two states. -/
def State.fusesEq (s t : State) : Bool :=
  s.reg .SEC_FUSE_STATE 0 == t.reg .SEC_FUSE_STATE 0 && (List.range 8).all fun i => s.slot i == t.slot i && s.slotHash i == t.slotHash i

/-- A burn is read back (R469): where the part's field fuses do not take all of what is burnt, the action ends ABORTED with what the burn
left. An action that burns nothing meets no mismatch. SEC_MEAS[5] is extended with the fuses as they then are (R452). -/
def State.readBack (s : State) : ActOut :=
  match s.sec.burn with
  | some b =>
    if s.sec.fuseFails then
      let t := s.cutBurn b s
      if t.fusesEq s then .done t.measFuses else .aborted t.measFuses
    else .done s.measFuses
  | none => .done s.measFuses

/-- A fuse action (R469). -/
def State.fuseAct (s : State) (a : TokAct) : ActOut :=
  let s := s.beginBurn
  match a.kind with
  | 3 =>
    if s.slot a.arg ≠ 0 then .fail eConflict a.arg
    else if 4 ≤ s.registered.length then .fail eNoSpace 0
    else if (List.range 8).any fun i => s.slot i != 0 && s.slotHash i == a.data then s.actConflict
    else (s.register a.arg a.data).readBack
  | 4 =>
    if s.slot a.arg ≠ 2 then .fail eShape 0
    else if s.registered.length < 3 then s.actConflict
    else (s.wr F.SEC_AUTH_STATE.STATE a.arg 3).readBack
  | 5 => (s.put F.SEC_FUSE_STATE.DEBUG_CLOSED 0 true).readBack
  | 6 =>
    if 63 < a.value then .fail eShape 0
    else if (Tab.get ⟨0, 0, 0, 0⟩ s.sec.running a.arg).svn < a.value then s.actConflict
    else
      let v := s.reg .SEC_FUSE_STATE 0
      (s.setReg .SEC_FUSE_STATE 0 (setBits v (2 + 6 * a.arg) 6 (max (s.floor_ a.arg) a.value))).readBack
  | _ =>
    if bit (s.rd F.SEC_FUSE_STATE.VKEY_REVOKE 0) (1 - a.arg) || s.sec.running.any fun e => e.2.vkey == a.arg then s.actConflict
    else (s.wr F.SEC_FUSE_STATE.VKEY_REVOKE 0 (setBits (s.rd F.SEC_FUSE_STATE.VKEY_REVOKE 0) a.arg 1 1)).readBack

/-- An action with its own checks (check 7 of R461). -/
def State.act (s : State) (a : TokAct) : ActOut :=
  match a.kind with
  | 1 => s.regWrite a
  | 2 => s.grantAct a.arg a.value
  | _ => s.fuseAct a

/-- What a token's actions leave, each judged against the state that the earlier ones leave, and whether the fuse action that is its only
one ended ABORTED; or the index, error and owner of the first that fails (R461, R463). -/
def State.acts (s : State) : Nat → List TokAct → Except (Nat × Nat × Nat) (State × Bool)
  | _, [] => .ok (s, false)
  | k, a :: as =>
    match s.act a with
    | .done s => s.acts (k + 1) as
    | .aborted s => .ok (s, true)
    | .fail e o => .error (k, e, o)

/-! ## Approval tokens (R459 to R463) -/

/-- The token in SEC_TOKEN_BUF: its body, as far as NACT says, and its two signatures. -/
def State.tokBody (s : State) : List Byte :=
  let nact := ofBytes (s.sec.token.readN 6 2)
  s.sec.token.readN 0 (0xC0 + 64 * nact)

/-- The actions of a body. -/
def tokActs (body : List Byte) : List (List Byte) :=
  (List.range (fieldAt body 6 2)).map fun i => slice body (0xC0 + 64 * i) 64

/-- The check of R461, 1 to 5, that a token fails first, or 0. -/
def State.tokenCheck (s : State) : Nat :=
  let b := s.tokBody
  let nact := fieldAt b 6 2
  let n := 0xC0 + 64 * nact
  let sa := fieldAt b 0x20 1
  let sb := fieldAt b 0x21 1
  let pka := slice b 0x40 48
  let pkb := slice b 0x70 48
  let ctx := ascii "NMH-APPROVAL"
  if s.registered.length < 2 then 1
  else if ¬(fieldAt b 0 4 = 0x56525041 ∧ fieldAt b 4 2 = 1 ∧ (slice b 0x22 30).all (· == 0) ∧ (slice b 0xA0 32).all (· == 0) ∧
      1 ≤ nact ∧ nact ≤ 64 ∧ s.rd F.SEC_TOKEN_CTRL.LEN 0 = n + 32448) then 2
  else if ¬(fieldAt b 8 16 = s.sec.uid ∧ fieldAt b 0x18 8 = s.reg .SEC_NONCE 0 ∧
      s.time ≤ timeAdd s.sec.nonceAt (s.rd F.SEC_TOKEN_CTRL.NONCE_TTL 0 * 3600000000000)) then 3
  else if ¬(sa ≠ sb ∧ s.registered.contains sa = true ∧ s.registered.contains sb = true ∧ sha256 pka = s.slotHash sa ∧
      sha256 pkb = s.slotHash sb) then 4
  else if ¬(Config.slhVerify pka ctx b (s.sec.token.readN n 16224) = true ∧
      Config.slhVerify pkb ctx b (s.sec.token.readN (n + 16224) 16224) = true) then 5
  else 0

/-- A new random nonce is issued (R462). -/
def State.newNonce (s : State) : State :=
  let (v, s) := s.draw 64
  { (s.setReg .SEC_NONCE 0 v) with sec := { s.sec with nonceAt := s.time } }

/-- The end of a token (R461, R463): BUSY clears, DONE sets, SEC_TOKEN_STATUS records the outcome, and VEC is sent. -/
def State.tokenEnds (s : State) (e : TokenEnd) : State :=
  let s : State := { s with sec := { s.sec with apply := none } }
  let s := (((s.wr F.SEC_TOKEN_STATUS.CHECK 0 e.check).wr F.SEC_TOKEN_STATUS.ACTION 0 e.action).wr F.SEC_TOKEN_STATUS.ERROR 0 e.error).wr
    F.SEC_TOKEN_STATUS.OWNER 0 e.owner
  ((s.put F.SEC_TOKEN_STATUS.BUSY 0 false).put F.SEC_TOKEN_STATUS.DONE 0 true).request 0 (s.rd F.SEC_TOKEN_CTRL.VEC 0)

/-- What ends a token, once its time has come. -/
def State.tokenDue (s : State) : State :=
  match s.sec.apply with
  | some e => if e.until_ ≤ s.time then s.tokenEnds e else s
  | none => s

/-- The token under way ends at once, with a warm device reset (R467; log 46). -/
def State.tokenCut (s : State) : State :=
  match s.sec.apply with
  | some e => s.tokenEnds e
  | none => s

/-- The partition whose map a refused action names takes the error; OWNER names the partition of an E_CONFLICT and stays otherwise
(R293, R312, R463). -/
def State.mapFails (s : State) (a : TokAct) (error owner : Nat) : State :=
  if a.kind = 1 then
    match rwaAt a.arg with
    | some (.SEC_PART_MAP, p) =>
      let s := s.wr F.SEC_PART_STATE.LAST_ERR p error
      if error = eConflict then s.wr F.SEC_PART_STATE.OWNER p owner else s
    | _ => s
  else s

/-- The map writes of a token that fails before its actions are judged are refused with it: with E_APPROVAL at checks 1 and 3 to 5, which is
check 1 of R293. At check 2 the token is none, and names no register. -/
def State.mapsFail (s : State) (c error : Nat) (acts : List TokAct) : State :=
  if c = 2 then s else acts.foldl (fun s a => s.mapFails a error 0) s

/-- The refused action of a token that fails at check 7. -/
def State.actFails (s : State) (a : Option TokAct) (error owner : Nat) : State :=
  match a with
  | some a => s.mapFails a error owner
  | none => s

/-- APPLY (R461 to R463): all checks in order, then all actions or none, with how the token ends and by when. `fits` says what else its
actions must be: for the mailbox operation CAT_GRANT, its one action (R466). -/
def State.applyToken (s : State) (fits : List TokAct → Bool) : State × TokenEnd :=
  let c := s.tokenCheck
  let soon := timeAdd s.time 20000000
  if c ≠ 0 then (s.mapsFail c eApproval ((tokActs s.tokBody).map TokAct.parse), ⟨soon, c, 0, eApproval, 0⟩)
  else
    let b := s.tokBody
    let raw := tokActs b
    let acts := raw.map TokAct.parse
    let s := (s.extend 6 (sha256 b)).newNonce
    match (raw.zipIdx).find? fun e => !(TokAct.parse e.1).formed raw.length e.1 with
    | some (e, k) => (s.mapFails (TokAct.parse e) eShape 0, ⟨soon, 6, k, eShape, 0⟩)
    | none =>
      if !fits acts then (s, ⟨soon, 7, 0, eApproval, 0⟩)
      else
        let by_ := if acts.any fun a => decide (3 ≤ a.kind) then timeAdd s.time 200000000 else soon
        match s.acts 0 acts with
        | .ok (t, false) => (t, ⟨by_, 0, 0, 0, 0⟩)
        | .ok (t, true) => (t, ⟨by_, 0, 0, eAborted, 0⟩)
        | .error (k, e, o) => (({ s with fresh := s.fresh + 1 } : State).actFails acts[k]? e o, ⟨by_, 7, k, e, o⟩)

/-- What is asked of the token engine while BUSY is lost (R467). -/
def State.tokenBusy (s : State) (t : State) : State :=
  if s.sec.apply.isSome then s.put F.SEC_TOKEN_STATUS.OVERRUN 0 true else t

/-- APPLY (R461, R463, R467): the actions take effect at once, and the token ends after a free time, within 20 ms, or 200 ms for a fuse
action; BUSY shows until then (log 46). -/
def State.goApply (s : State) : State :=
  s.tokenBusy <|
    let (t, e) := s.applyToken fun _ => true
    let (v, t) := t.draw 28
    let t : State := { t with sec := { t.sec with apply := some { e with until_ := timeAdd s.time (v % (e.until_ - s.time + 1)) } } }
    (t.put F.SEC_TOKEN_STATUS.BUSY 0 true).tokenDue

/-- NEW_NONCE (R462, R467). -/
def State.askNonce (s : State) : State := s.tokenBusy s.newNonce

/-- A write of SEC_TOKEN_CTRL (R461, R467, R473): LEN stays while BUSY. -/
def State.writeTokenCtrl (s : State) (v : Nat) : State :=
  let s := (s.wr F.SEC_TOKEN_CTRL.VEC 0 (bits v 24 6)).wr F.SEC_TOKEN_CTRL.NONCE_TTL 0 (clampTo 1 168 (bits v 16 8))
  let s := if s.sec.apply.isSome then s else s.wr F.SEC_TOKEN_CTRL.LEN 0 (bits v 0 16)
  let s := if bit v 31 then s.goApply else s
  if bit v 30 then s.askNonce else s

/-- APPLY (R461, R473). -/
def execApply (f : FnId) (s : State) : Result := s.ifHost f.val (RegKind.addr .SEC_TOKEN_CTRL 0) <| if isPF f.val then s.goApply else s.deny f

/-- NEW_NONCE (R462, R473). -/
def execNewNonce (f : FnId) (s : State) : Result := s.ifHost f.val (RegKind.addr .SEC_TOKEN_CTRL 0) <| if isPF f.val then s.askNonce else s.deny f

/-- The actions of a token are the one grant that CAT_GRANT asks for (R216). -/
def onlyGrant (slot mask : Nat) : List TokAct → Bool
  | [a] => a.kind == 2 && a.arg == slot && a.value == mask
  | _ => false

/-- CAT_GRANT (R216, R466, R467): slot and mask in 4 bytes each. The token runs as APPLY would and must hold exactly that one action, which is
judged after check 6, as check 7 with E_APPROVAL (DEDUCED, log 46); it ends with the response. -/
def State.catGrant (s : State) (payload : List Byte) : Done :=
  let slot := fieldAt payload 0 4
  let mask := fieldAt payload 4 4
  if s.sec.apply.isSome then (s.put F.SEC_TOKEN_STATUS.OVERRUN 0 true).conflict
  else if s.blkReady = false then s.no eNoSpace 0
  else
    let (t, e) := s.applyToken (onlyGrant slot mask)
    if e.error = 0 then (t.tokenEnds e).yes [] else (t.tokenEnds e).no e.error e.owner

/-- CAT_GRANT (R216, R466). -/
def execCatGrant (tag : Word32) (payload : List Byte) (s : State) : Result :=
  s.mboxRow State.catGrant (Config.mboxOp 5 % 65536) tag payload

/-- AUTH_PROVISION (R458, R467): a count in 4 bytes, then the hashes. -/
def State.authProvision (s : State) (payload : List Byte) : Done :=
  let n := fieldAt payload 0 4
  let hs := (List.range n).map fun i => slice payload (4 + 32 * i) 32
  if s.sec.apply.isSome then (s.put F.SEC_TOKEN_STATUS.OVERRUN 0 true).conflict
  else if (List.range 8).any fun i => s.slot i != 0 then s.conflict
  else if n < 2 ∨ 4 < n then s.no eShape 0
  else if hs.dedup.length ≠ n then s.no eShape 0
  else ((hs.zipIdx).foldl (fun s e => s.register e.2 e.1) s.beginBurn).yes []

/-- AUTH_PROVISION (R458). -/
def execAuthProvision (tag : Word32) (payload : List Byte) (s : State) : Result :=
  s.mboxRow State.authProvision 0x0220 tag payload

/-! ## Identity and attestation (R454 to R456) -/

/-- A key seed: the first 16 bytes of a hash of a label and the identity seed (R454). -/
def State.keySeed (s : State) (label : String) : List Byte := (sha256 (ascii label ++ toBytes 32 s.sec.seed)).take 16

/-- The identity public key (R454). -/
def State.identity (s : State) : List Byte :=
  slice (Config.slhKey (s.keySeed "nmh-id-sk") (s.keySeed "nmh-id-prf") (s.keySeed "nmh-id-pk")) 0 32

/-- A report without its signature (R456). -/
def State.reportBody (s : State) (nonce : List Byte) (mask : Nat) : List Byte :=
  let regs := (List.range 32).filter (bit mask)
  let auth := s.registered.foldl (fun m i => m + 2 ^ i) 0
  toBytes 4 0x50525441 ++ toBytes 2 1 ++ toBytes 2 regs.length ++ toBytes 16 s.sec.uid ++ nonce ++ toBytes 8 s.time ++ toBytes 4 mask ++
    toBytes 4 (s.reg .SEC_FUSE_STATE 0) ++ ([1, 2, 3, 4].flatMap fun c => toBytes 1 (Tab.get ⟨0, 0, 0, 0⟩ s.sec.running c).svn) ++
    toBytes 2 auth ++ List.replicate 18 0 ++ s.identity ++ regs.flatMap fun r => toBytes 32 (s.meas r)

/-- ATTEST (R456): a nonce of 32 bytes and a mask of 4; the answer is the report's length in 4 bytes. The same report over MCTP is left out
(log 96). -/
def State.attest (s : State) (payload : List Byte) : Done :=
  if s.on F.SEC_FUSE_STATE.DEBUG_SEEN 0 then s.conflict
  else
    let body := s.reportBody (slice payload 0 32) (fieldAt payload 32 4)
    let sig := slice (Config.slhSign (s.keySeed "nmh-id-sk") (s.keySeed "nmh-id-prf") (s.keySeed "nmh-id-pk") (ascii "NMH-ATTEST") body) 0 17088
    let r := body ++ sig
    ({ s with sec := { s.sec with report := s.sec.report.writeN 0 r } } : State).yes (toBytes 4 r.length)

/-- ATTEST (R456). -/
def execAttest (tag : Word32) (payload : List Byte) (s : State) : Result := s.mboxRow State.attest 0x0210 tag payload

/-- CERT_READ (R455): the answer is the chain's length in 4 bytes and the bytes asked for. -/
def State.certRead (s : State) (payload : List Byte) : Done :=
  let o := fieldAt payload 0 4
  let n := fieldAt payload 4 4
  if 4064 < n then s.no eShape 0 else s.yes (toBytes 4 s.sec.cert.length ++ (s.sec.cert.drop o).take n)

/-- CERT_READ (R455). -/
def execCertRead (tag : Word32) (payload : List Byte) (s : State) : Result := s.mboxRow State.certRead 0x0211 tag payload

/-! ## Direct writes and debug (R464, R471, R472) -/

/-- A direct write of a register with RWA fields is refused for those fields (R10, R464). -/
def State.refuseRwa (s : State) (k : RegKind) (i off : Nat) : State :=
  let s := (s.count F.SEC_DIRECT_LOG.COUNT 0 1).wr F.SEC_DIRECT_LOG.OFFSET 0 off
  if k = .SEC_PART_MAP then s.wr F.SEC_PART_STATE.LAST_ERR i eApproval else s

/-- RWA_WRITE_REFUSED (R464, R378): the RW field that shares RLT_PART_SLICE is stored, 2 or 3. -/
def State.writeRwa (s : State) (k : RegKind) (i off v : Nat) : State :=
  let s := s.refuseRwa k i off
  if k = .RLT_PART_SLICE then s.wr F.RLT_PART_SLICE.SLICE_VER i (if bits v 28 4 = 2 then 2 else 3) else s

/-- RWA_WRITE_REFUSED (R464). -/
def execRwaWriteRefused (f : FnId) (off : Nat) (v : Word64) (s : State) : Result :=
  s.ifHost f.val off <|
    match regAt 0 off with
    | some (k, i, _) => if rwaMask k = 0 then s else if isPF f.val then s.writeRwa k i off v.toNat else s.deny f
    | none => s

/-- DEBUG_INSTRUCTION (R471, R472): with DEBUG_CLOSE it acts as BYPASS; the first use sets DEBUG_SEEN and is measured. The instruction's
code of 8 bits (R512) is a free value; the record is padded with zeros to 32 bytes. -/
def execDebugInstruction (s : State) : Result :=
  s.ifClocked <|
    if s.on F.SEC_FUSE_STATE.DEBUG_CLOSED 0 || s.on F.SEC_FUSE_STATE.DEBUG_SEEN 0 then s
    else
      let (code, s) := s.draw 8
      (s.put F.SEC_FUSE_STATE.DEBUG_SEEN 0 true).extend 7 (slice (toBytes 16 s.sec.uid ++ toBytes 8 s.time ++ toBytes 1 code) 0 32)

end Sys2Proof.Machine
end

