-- ==== Sys2Proof/Machine/Update.lean ====
section
/-! DEFINITION. Images (R447 to R449), live update (R480 to R482), and the mailbox requests that firmware has held (R216, R393, R481). -/

namespace Sys2Proof.Machine

/-! ## Images (R447 to R449) -/

/-- Where a bundle begins in the boot flash (R447). -/
def bundleBase (b : Nat) : Nat := b * 0x02000000

/-- The size limit of a component's image (R448). -/
def imageLimit : Nat → Nat
  | 1 => 16 * 1048576 | 2 => 2 * 1048576 | 3 => 8 * 1048576 | _ => 4 * 1048576

/-- LENGTH of the image at a bundle offset. -/
def State.imageLen (s : State) (b o : Nat) : Nat := s.sec.flash.num (bundleBase b + o + 0x10) 4

/-- The bundle offset of a component's image: each begins at the first 64 KiB boundary after the end of the one before (R447). -/
def State.imageAt (s : State) (b : Nat) : Nat → Nat
  | 0 => 0
  | 1 => 0
  | c + 1 => roundUp (s.imageAt b c + 0x4000 + s.imageLen b (s.imageAt b c)) 65536

/-- The header bytes that are hashed and signed: 0x000 to 0x07F. -/
def State.imageHead (s : State) (b c : Nat) : List Byte := s.sec.flash.readN (bundleBase b + s.imageAt b c) 128

/-- The header hash (R449). -/
def State.headHash (s : State) (b c : Nat) : List Byte := sha256 (s.imageHead b c)

/-- What the header of an image says will run. -/
def State.imageOf (s : State) (b c : Nat) : Running :=
  let h := s.imageHead b c
  ⟨b, fieldAt h 8 4, fieldAt h 0xC 2, fieldAt h 7 1⟩

/-- The check of R449 that the image of component `c` in bundle `b` fails first, or 0. -/
def State.imageCheck (s : State) (b c : Nat) : Nat :=
  let o := s.imageAt b c
  let base := bundleBase b + o
  let h := s.imageHead b c
  let len := s.imageLen b o
  let vkey := fieldAt h 7 1
  let pk := slice h 0x40 48
  let body := s.sec.flash.readN (base + 0x4000) len
  if ¬(fieldAt h 0 4 = 0x4D494C54 ∧ fieldAt h 4 2 = 1 ∧ fieldAt h 0xE 2 = 0 ∧ fieldAt h 0x14 12 = 0 ∧ fieldAt h 0x70 16 = 0 ∧
      s.sec.flash.num (base + 0x3FE0) 32 = 0 ∧ fieldAt h 6 1 = c ∧ 1 ≤ len ∧ len ≤ imageLimit c - 0x4000 ∧
      o + 0x4000 + len ≤ 0x02000000) then 1
  else if ¬(vkey ≤ 1 ∧ bit (s.rd F.SEC_FUSE_STATE.VKEY_REVOKE 0) vkey = false ∧ shaWord pk = Config.romKeyHash vkey % 2 ^ 256) then 2
  else if fieldAt h 0xC 2 < s.floor_ c then 3
  else if Config.slhVerify pk (ascii "NMH-IMAGE") h (s.sec.flash.readN (base + 0x80) 16224) = false then 4
  else if sha256 body ≠ slice h 0x20 32 then 5
  else 0

/-- A component runs an image, and OBS_UPD_STATUS.BUNDLE names its bundle. -/
def State.setRunning (s : State) (c : Nat) (x : Running) : State :=
  let s : State := { s with sec := { s.sec with running := Tab.insert s.sec.running c x } }
  s.wr F.OBS_UPD_STATUS.BUNDLE 0 (setBits (s.rd F.OBS_UPD_STATUS.BUNDLE 0) (c - 1) 1 x.bundle)

/-- An image goes into service: SEC_MEAS[COMP] takes its header hash (R452). -/
def State.runImage (s : State) (c : Nat) (x : Running) (hash : List Byte) : State := (s.extend c hash).setRunning c x

/-! ## Live update (R480, R481) -/

/-- The bundle that no running component came from, if there is one (R480). -/
def State.staging (s : State) : Option Nat :=
  if s.sec.running.all fun e => e.2.bundle == 0 then some 1
  else if s.sec.running.all fun e => e.2.bundle == 1 then some 0
  else none

/-- The lowest component that runs from bundle B. -/
def State.fromB (s : State) : Nat := ((s.sec.running.find? fun e => e.2.bundle == 1).map (·.1)).getD 0

/-- An update operation is refused, and OBS_UPD_STATUS.LAST_ERR takes the code. -/
def State.updNo (s : State) (error owner : Nat) : Done := (s.wr F.OBS_UPD_STATUS.LAST_ERR 0 error).no error owner

/-- The component whose activation is in progress. -/
def State.activeComp (s : State) : Option Nat := s.sec.active.map (·.comp)

/-- UPD_WRITE (R480): it waits while the PF may not master the bus; a read outside the PF's windows ends it ABORTED with E_PARITY
(DESIGN CHOICE, log 40). -/
def State.updWrite (s : State) (payload : List Byte) : Done :=
  let o := fieldAt payload 0 4
  let n := fieldAt payload 4 4
  let a := fieldAt payload 8 8
  match s.staging with
  | none => s.updNo eConflict s.fromB
  | some b =>
    if 0x02000000 < o + n then s.updNo eShape 0
    else match s.activeComp with
      | some c => s.updNo eConflict c
      | none =>
        if s.busOk 0 = false then (s, none)
        else s.firmwareRead a n fun s =>
          ({ s with sec := { s.sec with flash := s.sec.flash.writeN (bundleBase b + o) (s.hostRead a n) } } : State).yes []

/-- UPD_WRITE (R480). -/
def execUpdWrite (tag : Word32) (payload : List Byte) (s : State) : Result := s.mboxRow State.updWrite 0x0401 tag payload

/-- UPD_VERIFY (R480): the answer gives the failing check and VERSION of each component, 4 bytes each. -/
def State.updVerify (s : State) : Done :=
  match s.staging with
  | none => s.updNo eConflict s.fromB
  | some b => s.yes ([1, 2, 3, 4].flatMap fun c => toBytes 4 (s.imageCheck b c) ++ toBytes 4 (s.imageOf b c).version)

/-- UPD_VERIFY (R480). -/
def execUpdVerify (tag : Word32) (s : State) : Result := s.mboxRow (fun s _ => s.updVerify) 0x0402 tag []

/-- The first hub of an activation goes offline, if it is ONLINE (R298, R481). -/
def State.nextHub (s : State) (hubs : List Nat) : State :=
  match hubs with
  | h :: _ => if s.rd F.HUB_CTRL.STATE h = 1 then s.stopHub h else s
  | [] => s

/-- UPD_ACTIVATE (R480 to R482): the image of COMP in the bundle that COMP does not run from (log 43). An OFFLINE hub of the mask loads the
new microcode when it next becomes ONLINE. -/
def State.updActivate (s : State) (payload : List Byte) : Done :=
  let c := fieldAt payload 0 1
  let mask := fieldAt payload 1 1
  match s.activeComp with
  | some k => s.updNo eConflict k
  | none =>
    if c = 0 ∨ 4 < c then s.updNo eShape 0
    else
      let b := 1 - (Tab.get ⟨0, 0, 0, 0⟩ s.sec.running c).bundle
      let check := s.imageCheck b c
      let x := s.imageOf b c
      if check = 3 then s.updNo eVersion 0
      else if check ≠ 0 then s.updNo eShape 0
      else if Config.handOff c x.version = false then s.updNo eVersion 0
      else
        let all := if c = 2 then (List.range 8).filter (bit mask) else []
        let hubs := all.filter fun h => s.rd F.HUB_CTRL.STATE h != 0
        let s := (all.filter fun h => s.rd F.HUB_CTRL.STATE h == 0).foldl (fun s h => s.setHub h { s.hub h with loadOnEnable := true }) s
        let hash : Word256 := BitVec.ofNat 256 (ofBytes (s.headHash b c))
        let s : State := { s with sec := { s.sec with active := some ⟨c, hubs, hash, x⟩ } }
        let left := hubs.foldl (fun m h => m + 2 ^ h) 0
        let s := ((s.wr F.OBS_UPD_STATUS.STATE 0 2).wr F.OBS_UPD_STATUS.COMP 0 c).wr F.OBS_UPD_STATUS.HUBS_LEFT 0 left
        (s.nextHub hubs).yes []

/-- UPD_ACTIVATE (R480, R481). -/
def execUpdActivate (tag : Word32) (payload : List Byte) (s : State) : Result := s.mboxRow State.updActivate 0x0403 tag payload

/-! ## Held mailbox requests -/

/-- The mailbox operation of a code (R393): the codes the manual gives, then those it does not. -/
def State.mailboxOp (s : State) (op : Nat) (payload : List Byte) : Done :=
  if op = 0x0210 then s.attest payload
  else if op = 0x0211 then s.certRead payload
  else if op = 0x0220 then s.authProvision payload
  else if op = 0x0301 then s.haltJournalRead payload
  else if op = 0x0401 then s.updWrite payload
  else if op = 0x0402 then s.updVerify
  else if op = 0x0403 then s.updActivate payload
  else if op = Config.mboxOp 0 % 65536 then s.blkFormat payload
  else if op = Config.mboxOp 1 % 65536 then s.catCreate payload
  else if op = Config.mboxOp 2 % 65536 then s.catWrite payload
  else if op = Config.mboxOp 3 % 65536 then s.catSeal payload
  else if op = Config.mboxOp 4 % 65536 then s.catDelete payload
  else if op = Config.mboxOp 5 % 65536 then s.catGrant payload
  else s.no eShape 0

/-- What firmware holds is tried again. -/
def State.retryMbox (s : State) : State :=
  match s.pci.held with
  | some (op, tag, payload, _) => if s.firmwareBusy then s else State.settle (s.mailboxOp op payload) op tag payload
  | none => s

/-- GO is written to the mailbox (R393, R404): MBX_REQ is raised and firmware takes the request, or OVERRUN is set. A LEN above 4,080 is
outside the format, and is refused with E_SHAPE. -/
def State.mailboxGo (s : State) : State :=
  let s := s.raise 161
  let op := s.pci.req.num 0 2
  let len := s.pci.req.num 2 2
  let tag := s.pci.req.num 4 4
  let payload := s.pci.req.readN 16 len
  if s.on F.PCI_MBX_STATUS.BUSY 0 then s.put F.PCI_MBX_STATUS.OVERRUN 0 true
  else if 4080 < len then s.reply op tag (.refused eShape 0)
  else if s.firmwareBusy then s.holdMbox op tag payload
  else State.settle (s.mailboxOp op payload) op tag payload

/-- CAT_DELETE_DONE (R213, R216): the erases of a DELETING entry are done and it is FREE; a create that waited goes on. While
an activation of the translation layer holds new erases they are not done (R481). -/
def execCatDeleteDone (slot : Nat) (s : State) : Result :=
  s.ifLive <|
    let x := s.entry slot
    if x.state = .deleting ∧ s.blkHeld = false then
      let s := (s.entryUnits x).foldl State.freeUnit s
      let s : State := { s with blk := s.blk.wipe x.base (x.nunits * s.unitBytes) }
      (s.setEntry slot CatEntry.free).retryMbox
    else s

/-- An activation is complete (R452, R481). -/
def State.activated (s : State) (a : Activation) : State :=
  let s := s.runImage a.comp a.image (toBytes 32 a.hash.toNat)
  let s : State := { s with sec := { s.sec with active := none } }
  let s := ((s.wr F.OBS_UPD_STATUS.STATE 0 0).wr F.OBS_UPD_STATUS.HUBS_LEFT 0 0).wr F.OBS_UPD_STATUS.LAST_VERSION 0 a.image.version
  let s := if a.comp = 1 then
      (s.wr F.SEC_BOOT_STATUS.BUNDLE 0 a.image.bundle).wr F.SEC_BOOT_STATUS.VERSION 0 a.image.version
    else s
  let s : State := if a.comp = 4 then { s with sec := { s.sec with tables := (s.work, a.image.version) :: s.sec.tables } } else s
  s.retryMbox

/-- ACTIVATION_DONE (R481, R482): for hub microcode the hub that is offline loads it and is ONLINE, and the next hub of the mask follows; the
last one, or any other component's hand-over, completes the activation. -/
def execActivationDone (s : State) : Result :=
  s.ifLive <|
    match s.sec.active with
    | none => s
    | some a =>
      match a.hubs with
      | [] => s.activated a
      | h :: rest =>
        if s.rd F.HUB_CTRL.STATE h ≠ 0 then s
        else
          let s := s.startHub h
          let s : State := { s with sec := { s.sec with active := some { a with hubs := rest } } }
          let s := s.wr F.OBS_UPD_STATUS.HUBS_LEFT 0 (rest.foldl (fun m g => m + 2 ^ g) 0)
          if rest.isEmpty then s.activated a else s.nextHub rest

end Sys2Proof.Machine
end

