-- ==== Sys2Proof/Machine/Obs.lean ====
section
/-! DEFINITION. Recalibration, shared resources and observation (R484 to R494), GPIO (R501, R502) and boundary scan (R512). -/

namespace Sys2Proof.Machine

/-! ## Recalibration in service -/

/-- MARGIN_TRIM (R484): once per second; `short` says that some block reports a margin below its fused limit. -/
def execMarginTrim (short : Bool) (s : State) : Result :=
  s.ifGoverned <| if s.beatDue beatMargin 1000000000 = false then s else
    let s := s.beat beatMargin
    if !short then s
    else if s.rd F.OBS_CAL_STATUS.TRIM_MV 0 < 30 then (s.count F.OBS_CAL_STATUS.TRIM_MV 0 5).slewCore
    else if s.rd F.OBS_CAL_STATUS.DIV_STEPS 0 < 3 then
      ((s.wr F.OBS_CAL_STATUS.DIV_STEPS 0 (s.rd F.OBS_CAL_STATUS.DIV_STEPS 0 + 1)).evalCaps none).powerEvent
    else s

/-- A list in rising order. -/
def insertNat (n : Nat) : List Nat → List Nat
  | [] => [n]
  | m :: l => if n ≤ m then n :: m :: l else m :: insertNat n l

/-- Twice the median of a list: the sum of its two middle values, or twice the one. -/
def median2 (l : List Nat) : Nat :=
  let r := l.foldr insertNat []
  r.getD ((r.length - 1) / 2) 0 + r.getD (r.length / 2) 0

/-- The die of a temperature sensor, as its first sensor and their number: 72 on the logic die, one to a block, and four on each
SRAM die (R440). -/
def sensorDie (k : Nat) : Nat × Nat := if k < 72 then (0, 72) else if k < 76 then (72, 4) else (76, 4)

/-- Whether sensor `k` differs from the median of its die by more than 15 °C, in units of 0.125 °C (R485). -/
def outlying (readings : List Nat) (k : Nat) : Bool :=
  let d := sensorDie k
  let m := median2 ((readings.drop d.1).take d.2)
  let r := 2 * readings.getD k 0
  decide (240 < r - m) || decide (240 < m - r)

/-- One check of sensor `k` (R485): the tenth outlying check in a row excludes it. -/
def State.checkSensor (s : State) (readings : List Nat) (k : Nat) : State :=
  if s.pwr.excluded.contains k then s
  else if outlying readings k then
    let n := Tab.get 0 s.pwr.outlier k + 1
    if n < 10 then { s with pwr := { s.pwr with outlier := Tab.set 0 s.pwr.outlier k n } }
    else
      let s : State := { s with pwr := { s.pwr with outlier := Tab.erase s.pwr.outlier k, excluded := s.pwr.excluded ++ [k] } }
      ((s.count F.OBS_CAL_STATUS.EXCLUDED 0 1).raise 159).evalCaps none
  else { s with pwr := { s.pwr with outlier := Tab.erase s.pwr.outlier k } }

/-- SENSOR_CHECK (R485): every 10 s; the readings of the 80 sensors in units of 0.125 °C. -/
def execSensorCheck (readings : List Nat) (s : State) : Result :=
  if readings.length ≠ 80 then .fault .illFormed
  else s.ifGoverned <|
    if s.beatDue beatSensors 10000000000 then (List.range 80).foldl (fun s k => s.checkSensor readings k) (s.beat beatSensors) else s

/-! ## Observation streams (R486, R488 to R492) -/

/-- A refused claim of a register is recorded (R486). -/
def State.claimRefused (s : State) (error resource index owner : Nat) : State :=
  (((s.wr F.OBS_CONFLICT.ERROR 0 error).wr F.OBS_CONFLICT.RESOURCE 0 resource).wr F.OBS_CONFLICT.INDEX 0 index).wr
    F.OBS_CONFLICT.OWNER 0 owner

/-- The number of a stream: 0 sampling, 1 trace (R491). -/
def streamNo (trace : Bool) : Nat := if trace then 1 else 0
/-- STATE of a stream. -/
def fState (trace : Bool) : Fld := if trace then F.OBS_TRACE_CTRL.STATE else F.OBS_SAMPLE_CTRL.STATE
/-- EN of a stream. -/
def fEn (trace : Bool) : Fld := if trace then F.OBS_TRACE_CTRL.EN else F.OBS_SAMPLE_CTRL.EN
/-- ENABLE_PEND of a stream. -/
def fPend (trace : Bool) : Fld := if trace then F.OBS_TRACE_CTRL.ENABLE_PEND else F.OBS_SAMPLE_CTRL.ENABLE_PEND
/-- WAITED of a stream. -/
def fWaited (trace : Bool) : Fld := if trace then F.OBS_TRACE_CTRL.WAITED else F.OBS_SAMPLE_CTRL.WAITED

/-- The buffer tensor of a stream: a main-home RW tensor of PART whose length is a multiple of 32 bytes (R491). -/
def State.obsBuf (s : State) (i : Nat) : Option Tensor :=
  (s.tensor (s.rd F.OBS_BUF_CFG.PART i) (s.rd F.OBS_BUF_CFG.TID i)).filter fun t =>
    t.main && t.rw_ && t.desc.dataLen % 32 == 0

/-- The buffer of stream `i` is asked into the main tier where it is ABSENT, as any write to it asks (R172, R491). -/
def State.obsFetch (s : State) (i : Nat) : State :=
  let p := s.rd F.OBS_BUF_CFG.PART i
  match s.obsBuf i with
  | some t =>
    if t.state = .absent then match s.askLoad (reqOf 0 (20 + i)) p s.time 0 t with
      | (s, .granted) => s.loadFor p (s.rd F.OBS_BUF_CFG.TID i) 0
      | (s, _) => s
    else s
  | none => s

/-- Records of stream `i` need not wait for their buffer: it is in the main tier, or there is none. -/
def State.obsReady (s : State) (i : Nat) : Bool := (s.obsBuf i).all fun t => t.state != .absent && t.state != .loading

/-- One record goes to the buffer of stream `i` (R491): over the oldest with WRAP = 1; with WRAP = 0 the record that fills the buffer
sets FULL and later ones are dropped and counted, as are those of a LOST buffer. -/
def State.obsWrite (s : State) (i : Nat) (rec : List Byte) : State :=
  match s.obsBuf i with
  | none => s.count F.OBS_BUF_POS.DROPPED i 1
  | some t =>
    let len := t.desc.dataLen
    let n := s.rd F.OBS_BUF_POS.WRITE i
    if t.state = .lost ∨ (!s.on F.OBS_BUF_CFG.WRAP i && decide (len ≤ 32 * n)) = true then s.count F.OBS_BUF_POS.DROPPED i 1
    else
      let s := s.mainPut (s.rd F.OBS_BUF_CFG.PART i) (s.rd F.OBS_BUF_CFG.TID i) (32 * n % len) rec false
      let s := s.wr F.OBS_BUF_POS.WRITE i (n + 1)
      if !s.on F.OBS_BUF_CFG.WRAP i && decide (len ≤ 32 * (n + 1)) then s.put F.OBS_BUF_POS.FULL i true else s

/-- The capture FIFO is written out to the buffers of the streams (R491, R492); records whose buffer is still to come into the main tier
wait in it. -/
def State.drainFifo (s : State) : State :=
  let recs := s.obs.fifo
  let s := recs.foldl (fun (s : State) r =>
    if s.obsReady r.1 then s.obsWrite r.1 r.2 else { s with obs := { s.obs with fifo := s.obs.fifo ++ [r] } })
    { s with obs := { s.obs with fifo := [] } }
  if s.obs.fifo.isEmpty then s else (s.obsFetch 0).obsFetch 1

/-- A record of sampling goes to the capture FIFO of 64 records (R491). Where it is full, a free value says whether it has been written out
meanwhile; else the record is dropped and counted (DESIGN CHOICE, log 60). -/
def State.captureRec (s : State) (r : List Byte) : State :=
  let push (s : State) : State := { s with obs := { s.obs with fifo := s.obs.fifo ++ [(0, r)] } }
  if s.obs.fifo.length < 64 then push s
  else
    let (b, s) := s.draw 1
    let t := if b = 1 then s.drainFifo else s
    if t.obs.fifo.length < 64 then push t else t.count F.OBS_BUF_POS.DROPPED 0 1

/-- The stream is ON, at the start of its buffer (R491). The first queue-depth sample comes a period later. -/
def State.streamOn (s : State) (trace : Bool) : State :=
  let s := ((s.wr (fState trace) 0 1).put (fEn trace) 0 true).wr F.OBS_BUF_POS.WRITE (streamNo trace) 0
  let s : State := { s with obs := { s.obs with fifo := s.obs.fifo.filter fun r => r.1 != streamNo trace } }
  if trace then { s with obs := { s.obs with runNo := 0 } } else s.beat beatDepth

/-- A stream that is OFF is enabled (R486, R488, R491): refused without a buffer, or where another holds the sampling timer that
it claims; else it is ON and writes from the start of its buffer. -/
def State.streamStart (s : State) (trace : Bool) : State :=
  let i := streamNo trace
  let claims := !trace || s.on F.OBS_TRACE_CTRL.TS 0
  if (s.obsBuf i).isNone then s.put (fEn trace) 0 false
  else match s.obs.timer with
    | some o => if claims then (s.put (fEn trace) 0 false).claimRefused eConflict 1 0 o else s.streamOn trace
    | none => if claims then ({ s with obs := { s.obs with timer := some (0x101 + i) } } : State).streamOn trace else s.streamOn trace
/-- EN written to a stream, judged by its state (R492). -/
def State.streamEn (s : State) (trace en : Bool) : State :=
  let st := s.rd (fState trace) 0
  if st = 0 then if en then s.streamStart trace else s.put (fEn trace) 0 false
  else if st = 1 then if en then s else (s.put (fEn trace) 0 false).wr (fState trace) 0 2
  else (s.put (fEn trace) 0 en).put (fPend trace) 0 en

/-- OBS_SAMPLE_CTRL or OBS_TRACE_CTRL written (R494). -/
def State.writeStream (s : State) (trace : Bool) (v : Nat) : State :=
  let s := if bit v 6 then s.put (fWaited trace) 0 false else s
  let s :=
    if trace then s.wr F.OBS_TRACE_CTRL.TS 0 (bits v 11 1)
    else ((s.wr F.OBS_SAMPLE_CTRL.PERIOD_US 0 (max 1 (bits v 16 16))).wr F.OBS_SAMPLE_CTRL.PART 0 (bits v 12 4)).wr
      F.OBS_SAMPLE_CTRL.SCOPE 0 (bits v 11 1)
  s.streamEn trace (bit v 0)

/-- OBS_STREAM_ENABLE (R492, R494): a write of a stream's control register through the physical function. -/
def execObsStreamEnable (f : FnId) (trace : Bool) (v : Word32) (s : State) : Result :=
  s.ifHost f.val (RegKind.addr (if trace then .OBS_TRACE_CTRL else .OBS_SAMPLE_CTRL) 0) <| if isPF f.val then s.writeStream trace v.toNat else s.deny f

/-- A stopping stream becomes OFF and releases its claim (R492). -/
def State.streamOff (s : State) (trace : Bool) : State :=
  let s := (s.wr (fState trace) 0 0).put (fPend trace) 0 false
  { s with obs := { s.obs with timer := if s.obs.timer = some (0x101 + streamNo trace) then none else s.obs.timer } }

/-- OBS_STREAM_STOP_DONE (R492): the FIFO is written out and the stream is OFF; a pended enable then starts it. -/
def execObsStreamStopDone (trace : Bool) (s : State) : Result :=
  s.ifLive <|
    if s.rd (fState trace) 0 = 2 then
      let pend := s.on (fPend trace) 0
      let s := s.drainFifo
      if s.obs.fifo.any fun r => r.1 == streamNo trace then s else
      let s := s.streamOff trace
      if pend then
        let s := s.streamStart trace
        if s.rd (fState trace) 0 = 1 then s.put (fWaited trace) 0 true else s
      else s
    else s

/-! ## Queue-depth sampling (R489) -/

/-- A sum over the cogs of a block. -/
def State.overBlock (s : State) (b : Nat) (f : Cog → Nat) : Nat := (cogsOf b).foldl (fun n c => n + f (s.cog c)) 0

/-- The ready commands of a class in a partition (R303). -/
def State.readyCount (s : State) (p cls : Nat) : Nat :=
  ((List.range 64).filter fun i => s.qClass (64 * p + i) == cls && (s.readyCmd (64 * p + i)).isSome).length

/-- Cogs of a block running and not in freewheel (R80). -/
def State.running (s : State) (b : Nat) : Nat := s.overBlock b fun x => b2n (x.mode != .idle && !x.freewheel)

/-- Cogs of a block in freewheel (R80). -/
def State.freewheeling (s : State) (b : Nat) : Nat := s.overBlock b fun x => b2n x.freewheel

/-- The queue-depth record of block `b` (R489). -/
def State.depthRecord (s : State) (b : Nat) : List Byte :=
  let ins := s.overBlock b fun x => (sides.map fun d => (x.iq d.num).flits.length).sum
  let outs := s.overBlock b fun x => (sides.map fun d => (x.oq d).flits.length).sum
  let pan := s.overBlock b fun x => (sides.map fun d => (x.iq d.num).side.length).sum
  let spilling := s.overBlock b fun x => (sides.filter fun d => (x.iq d.num).spill.isSome).length
  let part := s.partOfBlock b
  let p := part.getD 0
  let ready (cls : Nat) : Nat := if part.isSome then s.readyCount p cls else 0
  toBytes 8 s.time ++
  toBytes 8 (b % 2 ^ 7 + s.freewheeling b % 2 ^ 9 * 2 ^ 14 + s.running b % 2 ^ 9 * 2 ^ 23 + outs % 2 ^ 16 * 2 ^ 32 + ins % 2 ^ 16 * 2 ^ 48) ++
  toBytes 8 (spilling % 2 ^ 16 * 2 ^ 16 + pan % 2 ^ 32 * 2 ^ 32) ++
  toBytes 8 (ready 2 % 2 ^ 16 + ready 1 % 2 ^ 16 * 2 ^ 16 + ready 0 % 2 ^ 16 * 2 ^ 32 + b2n part.isNone * 2 ^ 51 + p % 16 * 2 ^ 52 +
    1 * 2 ^ 56 + 1 * 2 ^ 60)

/-- The blocks that sampling observes: all, or those of PART (R489). -/
def State.sampleScope (s : State) : List Nat :=
  if s.on F.OBS_SAMPLE_CTRL.SCOPE 0 then
    (List.range 72).filter fun b => s.partOfBlock b == some (s.rd F.OBS_SAMPLE_CTRL.PART 0)
  else List.range 72

/-- QUEUE_DEPTH_SAMPLE (R489): a period has passed while sampling is ON. -/
def execQueueDepthSample (s : State) : Result :=
  s.ifLive <|
    if s.rd F.OBS_SAMPLE_CTRL.STATE 0 = 1 ∧ s.beatDue beatDepth (s.rd F.OBS_SAMPLE_CTRL.PERIOD_US 0 * 1000) = true then
      (s.sampleScope.map s.depthRecord).foldl (fun s r => s.captureRec r) (s.beat beatDepth)
    else s

/-! ## GPIO (R486, R487, R501, R502) -/

/-- Whether a pin offers a function (R501). -/
def gpioOffers (n func : Nat) : Bool :=
  func == 2 || func == 4 || (func == 1 && decide (n < 8)) || (func == 3 && n == 14)

/-- FUNC of a pin written, with what follows for TACH and LED (R502): a tachometer's windows begin with the claim. -/
def State.setFunc (s : State) (n func : Nat) : State :=
  let s := s.wr F.OBS_GPIO_CLAIM.FUNC n func
  let s := if func = 1 then s.beat (beatTach n) else s.wr F.OBS_GPIO_CFG.TACH n 0
  if func = 2 then s else s.wr F.OBS_GPIO_CFG.LED n 0

/-- The pins that a function takes on a pin: the second SMBus takes two (R487). -/
def gpioPins (n func : Nat) : List Nat := if func = 3 then [n / 2 * 2, n / 2 * 2 + 1] else [n]

/-- OBS_GPIO_CLAIM[n] written (R486, R487): a firmware-claimed pin refuses every write (DEDUCED, log 61, before the function is
judged); a function not offered is E_SHAPE; a pin held for another function is E_CONFLICT; FUNC 0 releases, both pins of the second SMBus
together. -/
def State.claimPin (s : State) (n func : Nat) : State :=
  let held := s.rd F.OBS_GPIO_CLAIM.FUNC n
  if s.on F.OBS_GPIO_CLAIM.FWO n then s.claimRefused eConflict 2 n (0x200 + held)
  else if func = 0 then (gpioPins n held).foldl (fun s k => s.setFunc k 0) s
  else if !gpioOffers n func then s.claimRefused eShape 2 n 0
  else if held = func then s
  else match (gpioPins n func).find? fun k => s.rd F.OBS_GPIO_CLAIM.FUNC k != 0 with
    | some k => s.claimRefused eConflict 2 k (0x200 + s.rd F.OBS_GPIO_CLAIM.FUNC k)
    | none => (gpioPins n func).foldl (fun s k => s.setFunc k func) s

/-- GPIO_CLAIM (R487, R494). -/
def execGpioClaim (f : FnId) (n : GpioId) (v : Word32) (s : State) : Result :=
  s.ifHost f.val (RegKind.addr .OBS_GPIO_CLAIM n) <| if isPF f.val then s.claimPin n.val (bits v.toNat 0 4) else s.deny f

/-- GPIO_EDGE (R502, R404): a pin has held a new level for 100 ns. -/
def execGpioEdge (n : GpioId) (level : Bool) (s : State) : Result :=
  let n := n.val
  if Tab.get false s.pins.gpio n = level then .next s
  else
    let s : State := { s with pins := { s.pins with gpio := Tab.set false s.pins.gpio n level } }
    let s := s.put F.OBS_GPIO_CFG.LEVEL n level
    let e := s.rd F.OBS_GPIO_CFG.EDGE n
    s.ifLive (if (if level then bit e 0 else bit e 1) then s.raise (164 + n) else s)

/-- TACH_WINDOW (R502): a 1 s window of a tachometer pin ends with `pulses` counted. -/
def execTachWindow (n : GpioId) (pulses : Nat) (s : State) : Result :=
  s.ifLive <|
    if s.rd F.OBS_GPIO_CLAIM.FUNC n.val = 1 ∧ s.beatDue (beatTach n) 1000000000 = true then
      (s.beat (beatTach n)).wrSat F.OBS_GPIO_CFG.TACH n.val pulses
    else s

/-- OBS_GPIO_CFG[n] written (R502). -/
def State.writeGpioCfg (s : State) (n v : Nat) : State :=
  let s := s.wr F.OBS_GPIO_CFG.EDGE n (bits v 0 2)
  if s.rd F.OBS_GPIO_CLAIM.FUNC n = 2 ∧ s.on F.OBS_GPIO_CLAIM.FWO n = false then s.wr F.OBS_GPIO_CFG.LED n (bits v 4 2) else s

/-! ## Boundary scan (R512) -/

/-- IDCODE of the part (R512). -/
def idcode : Nat := 0x14816B47

/-- What an instruction of the TAP acts as (R512): EXTEST only while POR_N is low; anything else unknown is BYPASS. -/
def State.tapActs (s : State) (code : Nat) : Nat :=
  if code = 0 ∧ s.pins.porLow then 0 else if code = 1 then 1 else if code = 2 then 2 else 0xFF

/-- BOUNDARY_SCAN (R512, R513): an instruction is loaded into the TAP. IDCODE returns the code; SAMPLE/PRELOAD returns the balls in
the cell order of the part's BSDL file, which the manual does not give: a free value (log 62). -/
def execBoundaryScan (code : Nat) (s : State) : Result :=
  let code := code % 256
  let s : State := { s with pins := { s.pins with jtag := code } }
  let a := s.tapActs code
  if a = 2 then .next (({ s with fresh := s.fresh + 1 } : State).send (.boundary a (Config.freeValue s.fresh)))
  else .next (s.send (.boundary a (if a = 1 then idcode else 0)))

end Sys2Proof.Machine
end

