-- ==== Sys2Proof/Machine/HostIf.lean ====
section
/-! DEFINITION. The host interface over PCI Express (chapter 13): the windows of BAR2, faulty traffic, DMA reads, the state of
the functions and the link, IDE, and the MSI-X sender (R414). -/

namespace Sys2Proof.Machine

/-! ## BAR2 (R385 to R388) -/

/-- The partition whose tensor slot `j` of function `f` maps (R386). -/
def State.slotPart (s : State) (f j : Nat) : Nat := if f = 0 then s.rd F.PCI_WIN_MAP.PART j else f - 1

/-- Where an access of `len` bytes at BAR2 offset `off` of function `f` falls: partition, tensor and tensor byte, or none where R385
calls it WIN_UNMAPPED. -/
def State.windowAt (s : State) (f off len : Nat) (write : Bool) : Option (Nat × Nat × Nat) :=
  let j := RegKind.idx .PCI_WIN_MAP f (off / 0x04000000)
  let p := s.slotPart f j
  let tid := s.rd F.PCI_WIN_MAP.TID j
  let o := s.rd F.PCI_WIN_MAP.PAGE j * 65536 + off % 0x04000000
  match s.tensor p tid with
  | none => none
  | some t =>
    if s.on F.PCI_WIN_MAP.VALID j && t.state.resident && decide (o + len ≤ t.desc.length) && (!write || s.on F.PCI_WIN_MAP.WR j)
    then some (p, tid, o) else none

/-- An access that one request of PCI Express can make: inside the BAR and inside one 4 KiB page. -/
def bar2Form (off len : Nat) : Bool := decide (off % 4096 + len ≤ 4096 ∧ off + len ≤ 0x40000000)

/-- What BAR2 reads need: the device works, or is in the fatal state, which serves them too (R479). -/
def State.servesReads (s : State) : Bool := s.clocks && !s.pins.porLow && !s.halted && !s.unbooted

/-- BAR2_READ (R223, R385, R387, R396, R479): the committed bytes of the tensor. Without a main tier BAR2 does not respond, in the fatal state a
read that no slot serves is ignored, and one that the IDE stream refuses is discarded. -/
def execBar2Read (f : FnId) (off : Nat) (len : Nat) (s : State) : Result :=
  if bar2Form off len = false then .fault .illFormed
  else if s.servesReads = false ∨ s.mainUp = false then .next s
  else .next <| match s.turnedAway f.val with
    | some k =>
      if s.fatal then s
      else if k = 10 then s.pciEvent k f.val off
      else (s.pciEvent k f.val off).sendTlp f.val 2 (.unsupported f.val)
    | none => match s.windowAt f.val off len false with
      | some (p, tid, o) => s.readAsk f.val off p tid o len
      | none => if s.fatal then s else (s.pciEvent 4 f.val off).sendTlp f.val 2 (.unsupported f.val)

/-- BAR2_WRITE (R385 to R387, R396): the bytes land in the committed pages, and the tensor is DIRTY. -/
def execBar2Write (f : FnId) (off : Nat) (bytes : List Byte) (s : State) : Result :=
  if bar2Form off bytes.length = false then .fault .illFormed
  else s.ifHost f.val off <| if s.mainUp = false then s else
    match s.windowAt f.val off bytes.length true with
    | some (p, tid, o) => s.mainPut p tid o bytes false
    | none => s.pciEvent 4 f.val off

/-- A mapping that R386 allows: a main-home tensor of the slot's partition that is resident, a page inside it, and writes only into an RW
tensor that is not WRITING. -/
def State.mapOk (s : State) (f v : Nat) : Bool :=
  match s.tensor (if f = 0 then bits v 52 4 else f - 1) (bits v 0 32) with
  | some t => t.main && t.state.resident && decide (bits v 32 20 < pagesOf t.desc.length) &&
      (!bit v 62 || (t.rw_ && t.state != .writing))
  | none => false

/-- PCI_WIN_MAP[g, slot] written (R386): MAP_ERR stays until it is written with 1. -/
def State.writeWinMap (s : State) (g slot v : Nat) : State :=
  let j := RegKind.idx .PCI_WIN_MAP g slot
  let s := if bit v 61 then s.put F.PCI_WIN_MAP.MAP_ERR j false else s
  if bit v 63 && !s.mapOk g v then s.put F.PCI_WIN_MAP.MAP_ERR j true
  else
    let s := ((s.put F.PCI_WIN_MAP.VALID j (bit v 63)).put F.PCI_WIN_MAP.WR j (bit v 62)).wr F.PCI_WIN_MAP.PART j (bits v 52 4)
    (s.wr F.PCI_WIN_MAP.PAGE j (bits v 32 20)).wr F.PCI_WIN_MAP.TID j (bits v 0 32)

/-- WIN_MAP_WRITE (R386, R403): function `f` writes PCI_WIN_MAP[g, slot]. -/
def execWinMapWrite (f : FnId) (g : FnId) (slot : Nat) (v : Word64) (s : State) : Result :=
  if 16 ≤ slot then .fault .illFormed
  else s.ifHost f.val (RegKind.addr .PCI_WIN_MAP (RegKind.idx .PCI_WIN_MAP g slot)) <|
    if isPF f.val || f == g then s.writeWinMap g slot v.toNat else s.deny f

/-! ## Faulty traffic and DMA reads (R396, R397) -/

/-- FAULTY_TLP (R396): a received request of one of the kinds of R397 is answered Unsupported Request where it is a read that R396
answers, else discarded, and logged. An ECRC mismatch is nothing while checking is off (R379). -/
def execFaultyTlp (f : FnId) (kind : Nat) (addr : Nat) (read : Bool) (s : State) : Result :=
  if !([1, 2, 3, 4, 5, 6, 10].contains kind) then .fault .illFormed
  else s.ifLive <|
    if kind = 2 ∧ bit (Tab.get Aer.start s.pci.aer f.val).cap 8 = false then s
    else
      let s := s.pciEvent kind f.val addr
      if read && [3, 4, 6].contains kind then s.sendTlp f.val 2 (.unsupported f.val) else s

/-- An outstanding read is rid of its tag, and the engine goes on (R390). -/
def State.dropDma (s : State) (tag : Nat) : State :=
  ({ s with pci := { s.pci with dma := Tab.erase s.pci.dma tag } } : State).hostGoes

/-- The read of a tag has failed as a host read (R192, R396): so does the load that it is for. -/
def State.readFails (s : State) (tag : Nat) (e : Dma) : State :=
  let s : State := { s with pci := { s.pci with dma := Tab.erase s.pci.dma tag } }
  let s := match s.tensor e.part e.tid with
    | some t => if t.state = TState.loading then s.loadFails e.part e.tid t else s
    | none => s
  s.hostGoes

/-- A read that is held for its function is sent, or where no window lets it be sent any more fails (R390, R391, R396). -/
def State.sendHeld (s : State) (tag : Nat) (e : Dma) : State :=
  if s.window e.f e.addr e.len false then
    { s with pci := { s.pci with dma := Tab.insert s.pci.dma tag { e with sent := true } } }
  else (s.pciEvent 9 e.f e.addr).readFails tag e

/-- A DMA read fails: it is requested again once; then the host read has failed (R192, R396). The second request too is checked against the
windows (R390), and waits while the function may not master the bus (R391). -/
def State.dmaFails (s : State) (tag : Nat) (e : Dma) : State :=
  let s := s.pciEvent 8 e.f e.addr
  if !e.again then
    let e := { e with again := true, sent := false }
    let s := ({ s with pci := { s.pci with dma := Tab.insert s.pci.dma tag e } } : State).fault 0
    if s.busOk e.f then s.sendHeld tag e else s
  else s.readFails tag e

/-- The outstanding read of a tag, once it has been sent. -/
def State.dmaOf (s : State) (tag : Nat) : Option Dma := (Tab.find s.pci.dma tag).filter (·.sent)

/-- DMA_COMPLETION (R396, R397): a completion with the Requester ID of function `f`; `ok` is false for UR, CA or poisoned data. One that no
read of that function awaits is UNEXP_CPL; one that the function's IDE stream refuses is discarded (R394, R395); one that a reset made stale
is discarded (R399). -/
def execDmaCompletion (f : FnId) (tag : Nat) (ok : Bool) (s : State) : Result :=
  s.ifLive <|
    if s.ideRefuses f.val then s.pciEvent 10 f.val (((s.dmaOf tag).map (·.addr)).getD 0)
    else match (s.dmaOf tag).filter fun e => e.f == f.val with
    | none => s.pciEvent 7 f.val 0
    | some e =>
      if e.dropped then s.dropDma tag
      else if ok then s.dropDma tag
      else s.dmaFails tag e

/-- COMPLETION_TIMEOUT (R396): no completion within the Completion Timeout Value. -/
def execCompletionTimeout (tag : Nat) (s : State) : Result :=
  s.ifLive <|
    match s.dmaOf tag with
    | none => s
    | some e => if e.dropped then s.dropDma tag else s.dmaFails tag e

/-! ## Functions, the link and IDE -/

/-- A function may master the bus again, or for the first time: reads held for it are sent, and for the PF what firmware holds is tried
again (R391). -/
def State.release (s : State) (f : Nat) : State :=
  if s.busOk f then
    let s := (s.pci.dma.filter fun e => e.2.f == f && !e.2.sent && !e.2.dropped).foldl (fun s e => s.sendHeld e.1 e.2) s
    if f = 0 then s.retryMbox else s.hostGoes
  else s

/-- A configuration request to function `f`, which every state but one without clocks serves (R442, R450, R479): it completes with Request Retry
Status until the device is ready (R451), and, logged as UNSUPPORTED, while the function is in reset (R401). -/
def State.ifConfig (s : State) (f : Nat) (t : State) : Result :=
  s.ifClocked <|
    if s.inReset f then (s.pciEvent 6 f 0).sendTlp f 2 (.retryStatus f)
    else if s.pci.ready || s.unbooted then t
    else s.sendTlp f 2 (.retryStatus f)

/-- BUS_MASTER_CHANGE (R391): a configuration write. -/
def execBusMasterChange (f : FnId) (on : Bool) (s : State) : Result :=
  s.ifConfig f <|
    let s : State := { s with pci := { s.pci with bme := Tab.set false s.pci.bme f on } }
    if s.live then s.release f else s

/-- D_STATE_CHANGE (R402): a configuration write: D3hot, or back to D0 with nothing reset. -/
def execDStateChange (f : FnId) (hot : Bool) (s : State) : Result :=
  s.ifConfig f <|
    let s : State := { s with pci := { s.pci with d3 := Tab.set false s.pci.d3 f hot } }
    if s.live then s.release f else s

/-- PCIE_LINK_TRAIN (R379, R380, R506): the link settles at a speed code and a width, 20 ms after POR_N has risen at the earliest. No link settles
at 64 GT/s but in FLIT mode (R379). -/
def execPcieLinkTrain (speed : Nat) (width : Nat) (flit : Bool) (retrain : Bool) (s : State) : Result :=
  if !(decide (1 ≤ speed ∧ speed ≤ 6) && [1, 2, 4, 8, 16].contains width && (speed != 6 || flit)) then .fault .illFormed
  else s.ifClocked <| if s.due 0 20000000 = false then s else
    let degraded := decide (speed < 4 ∨ width < 8)
    let old := s.on F.PCI_LINK_STATUS.DEGRADED 0
    let s := ((s.wr F.PCI_LINK_STATUS.SPEED 0 speed).wr F.PCI_LINK_STATUS.WIDTH 0 width).put F.PCI_LINK_STATUS.FLIT 0 flit
    let s := (if retrain then s.count F.PCI_LINK_STATUS.RETRAINS 0 1 else s).put F.PCI_LINK_STATUS.DEGRADED 0 degraded
    if old = degraded then s else s.raise 155

/-- IDE_INTEGRITY_FAIL (R395, R474): the stream is Insecure, its TLPs are discarded until new keys come, and the reads outstanding for
its function fail as host reads. The address of the failing TLP is a free value. -/
def execIdeIntegrityFail (stream : FnId) (s : State) : Result :=
  s.ifLive <|
    let f := stream.val
    if s.on F.PCI_IDE_STATE.SECURE f then
      let s := ((s.put F.PCI_IDE_STATE.SECURE f false).count F.PCI_IDE_STATE.FAILS f 1).fault 3
      let s : State := { s with pci := { s.pci with
          ideKeys := Tab.erase s.pci.ideKeys f
          ideDown := Tab.set false s.pci.ideDown f true } }
      let (a, s) := s.draw 48
      let s := s.pciEvent 10 f a
      (s.pci.dma.filter fun e => e.2.f == f && !e.2.dropped).foldl (fun s e =>
        match s.tensor e.2.part e.2.tid with
        | some t => if t.state = .loading then s.loadFails e.2.part e.2.tid t else s
        | none => s) s
    else s

/-- IDE_KM (R394): firmware installs the keys of a stream's three sub-streams and it is Secure, or refreshes them in a Secure stream, which the K
bit tells the other end, so that no TLP is lost. -/
def execIdeKm (stream : FnId) (key : Word256) (s : State) : Result :=
  s.ifClocked <|
    let k := s.on F.PCI_IDE_STATE.SECURE stream && !Tab.get false s.pci.ideK stream
    let s := s.put F.PCI_IDE_STATE.SECURE stream true
    { s with pci := { s.pci with
        ideKeys := Tab.set 0 s.pci.ideKeys stream key
        ideK := Tab.set false s.pci.ideK stream k
        ideDown := Tab.erase s.pci.ideDown stream } }

/-- MSIX_SEND (R391, R414): a pending message is sent where the function may master the bus, MSI-X is enabled and neither the vector nor the
function is masked. The fatal state sends messages too (R477). -/
def execMsixSend (f : FnId) (vec : Nat) (s : State) : Result :=
  let k := f.val * 64 + vec
  if 64 ≤ vec then .fault .illFormed
  else s.ifClocked <|
    if s.msix.contains k && s.busOk f && Tab.get false s.pci.msixEn f && !Tab.get false s.pci.fnMask f && (Tab.get (0, 0, false) s.pci.msixTab k).2.2 then
      ({ s with msix := s.msix.filter (· != k) } : State).sendTlp f 0 (.msix f vec)
    else s

end Sys2Proof.Machine
end

