-- ==== Sys2Proof/Machine/Boot.lean ====
section
/-! DEFINITION. Boot and the resets: the boot ROM and firmware boot (R450, R451), main-tier training (R231), function-level reset
(R399), warm device reset (R400) and cold reset (R398). -/

namespace Sys2Proof.Machine

/-! ## The boot ROM (R450, R452) -/

/-- Reset is released: POR_N is high, an EXTEST that was loaded acts as BYPASS (R516), and the root PLL locks. -/
def State.release_ (s : State) : State :=
  let s : State := { s with clocks := true, pins := { s.pins with porLow := false, jtag := if s.pins.jtag = 0 then 0xFF else s.pins.jtag } }
  s.put F.CLK_STATUS.ROOT_LOCK 0 true

/-- The management firmware that the ROM starts: the bundle of the higher VERSION, A on a tie, of the images that passed R449. -/
def State.romPick (s : State) (a b : Nat) : Option Nat :=
  if a = 0 ∧ b = 0 then some (if (s.imageOf 0 1).version < (s.imageOf 1 1).version then 1 else 0)
  else if a = 0 then some 0
  else if b = 0 then some 1
  else none

/-- Step 5 of R450: SEC_MEAS[0] takes the ROM's constant, SEC_MEAS[1] the header hash of every image accepted, in the order in which
they were read (DEDUCED, log 45), SEC_MEAS[5] the fuse summary. -/
def State.romMeasure (s : State) (a b : Nat) : State :=
  let s := s.extend 0 (toBytes 32 Config.romConstant)
  let s := if a = 0 then s.extend 1 (s.headHash 0 1) else s
  let s := if b = 0 then s.extend 1 (s.headHash 1 1) else s
  s.measFuses

/-- The ROM has not run since cold reset. -/
def State.unstarted (s : State) : Bool := s.rd F.SEC_BOOT_STATUS.STATE 0 == 0 && !s.pci.ready && (Tab.find s.sec.running 1).isNone

/-- BOOT_ROM (R450): RECOVERY where a manufacture fuse group fails its CRC or neither image is accepted, else the firmware runs. -/
def execBootRom (s : State) : Result :=
  .next <|
    if s.pins.porLow || (s.clocks && s.unstarted) then
      let s := s.release_
      if s.sec.fuseCrc = false then s.wr F.SEC_BOOT_STATUS.STATE 0 3
      else
        let a := s.imageCheck 0 1
        let b := s.imageCheck 1 1
        let s := (s.wr F.SEC_BOOT_STATUS.FAIL_A 0 a).wr F.SEC_BOOT_STATUS.FAIL_B 0 b
        match s.romPick a b with
        | none => s.wr F.SEC_BOOT_STATUS.STATE 0 3
        | some k =>
          let x := s.imageOf k 1
          let s := (s.romMeasure a b).setRunning 1 x
          (s.wr F.SEC_BOOT_STATUS.BUNDLE 0 k).wr F.SEC_BOOT_STATUS.VERSION 0 x.version
    else s

/-! ## Firmware boot (R451) -/

/-- A check of R449 in bundle `b` reaches FAIL_A or FAIL_B. -/
def State.bootCheck (s : State) (b c : Nat) : Nat × State :=
  let k := s.imageCheck b c
  (k, s.wr (if b = 0 then F.SEC_BOOT_STATUS.FAIL_A else F.SEC_BOOT_STATUS.FAIL_B) 0 k)

/-- Component `c` is taken from the firmware's bundle `b`, or from the other where that copy fails; with neither accepted the device is
in BOOT_FAIL. -/
def State.bootComp (s : State) (b c : Nat) : State :=
  if s.unbooted then s
  else
    let (k, s) := s.bootCheck b c
    if k = 0 then s.runImage c (s.imageOf b c) (s.headHash b c)
    else
      let (k, s) := s.bootCheck (1 - b) c
      if k = 0 then s.runImage c (s.imageOf (1 - b) c) (s.headHash (1 - b) c)
      else (s.wr F.SEC_BOOT_STATUS.STATE 0 2).wr F.SEC_BOOT_STATUS.FAIL_COMP 0 c

/-- The channels that fail training at a rate code, as the board has it. -/
def State.lpxFail (s : State) (rate : Nat) : List Nat := (Tab.get [] s.board.lpxFails rate).filter (· < 64)

/-- The installed main tier in MiB: 63/64 of the raw capacity of sixteen packages (R225). -/
def State.dataMib (s : State) : Nat := s.board.pkgGib * 16 * 1024 * 63 / 64

/-- The population of the main tier is one that R222 and R223 allow. -/
def Board.lpxValid (b : Board) : Bool :=
  b.lpxOk && b.lpxOdd.isEmpty && b.rankOdd.isEmpty && decide (1 ≤ b.pkgGib ∧ b.pkgGib ≤ 64) && (b.ranks == 1 || b.ranks == 2)

/-- Steps 7 and 8 of R231 on a channel: oscillator baselines by rank, the DBI of LPX_CFG, refresh started. -/
def State.trainChan (s : State) (c : Nat) : State :=
  let (base, s) := s.oscBases c
  let now := List.replicate s.lpxRanks s.time
  s.setChan c { LpxChan.clear with
    base := base, osc := base, refreshAt := now, trackAt := s.time, pollAt := s.time
    dbiWr := s.on F.LPX_CFG.DBI_WR 0, dbiRd := s.on F.LPX_CFG.DBI_RD 0 }

/-- Main-tier training (R223, R231): the highest rate at which at least 60 channels complete every step; the channels that fail at it are
RETIRED, and the pool is what R186 and R225 say, net of remap pages of retired channels and of retired pages. A population that R223
does not allow, or no such rate, leaves READY at 0. -/
def State.trainMain (s : State) : State :=
  match [1, 2, 3, 4, 5].find? fun r => decide ((s.lpxFail r).dedup.length ≤ 4) with
  | none => s
  | some rate =>
    if s.board.lpxValid = false then s
    else
      let bad := (s.lpxFail rate).dedup
      let s := ((s.put F.LPX_STATUS.READY 0 true).wr F.LPX_STATUS.RATE 0 rate).wr F.LPX_STATUS.RETIRED 0 bad.length
      let s := ((s.wr F.LPX_GEOMETRY.PKG_GIB 0 s.board.pkgGib).wr F.LPX_GEOMETRY.RANKS 0 s.board.ranks).wr F.LPX_GEOMETRY.DATA_MIB 0 s.dataMib
      let s := (List.range 64).foldl (fun s c =>
        if bad.contains c then s.moveChan c cRetired else (s.trainChan c).moveChan c cOnline) s
      let s : State := { s with lpx := { s.lpx with top := s.dataMib * 16 - 16384, remaps := [] } }
      let s := bad.foldl (fun s c =>
        let top := s.topWithout s.remapPages
        let holes := s.lpx.retired.filter fun n => decide (top ≤ n ∧ n < s.lpx.top)
        { s with lpx := { s.lpx with top := top, remaps := s.lpx.remaps ++ [(c, top, holes)] } }) s
      (s.wr F.LPX_PG_CNT.RETIRED 0 s.lpx.retired.length).wr F.POOL_TOTAL.PAGES 0
        (s.lpx.top - (s.lpx.retired.filter fun n => decide (n < s.lpx.top)).length)

/-- The bulk tier comes up (R198, R199, R202): geometry, trained channels, and the map, catalogue and retirements as flash holds them;
READY needs a valid population, every channel trained, and a main tier to hold the map. -/
def State.trainBulk (s : State) : State :=
  let s := (List.range 32).foldl (fun s c =>
    (s.wr F.BLK_CH_STATE.MODE c (s.flashTrain c).1).wr F.BLK_CH_STATE.RATE c (s.flashTrain c).2) s
  if s.flashValid && s.mainUp then
    let s := (s.wr F.BLK_GEOMETRY.CELL 0 s.board.cell).wr F.BLK_GEOMETRY.TARGETS 0 s.board.targets
    let s := ((s.wr F.BLK_GEOMETRY.PLANES 0 s.board.planes).wr F.BLK_GEOMETRY.PPB 0 s.board.ppb).wr F.BLK_GEOMETRY.UNIT_KIB 0 (s.board.ppb * 512)
    let s := (s.wr F.BLK_STATUS.OP 0 s.blk.op).wr F.BLK_STAT2.RETIRED 0 s.blk.retired
    let s := (s.wr F.BLK_CAP.USABLE_UNITS 0 s.usableUnits).wr F.BLK_RD_CFG.RD_KREADS 0 (if s.board.cell = 2 then 1000 else 4000)
    let s := (List.range 32).foldl (fun s c => s.spareRegs c) s.catCounts
    s.put F.BLK_STATUS.READY 0 true
  else s

/-- The board configuration record of the EEPROM, if it is present and passes MAGIC, FMT and CRC (R500). -/
def State.boardRecord (s : State) : Option (List Byte) :=
  let r := s.board.eeprom
  if r.length = 44 ∧ fieldAt r 0 4 = 0x47464342 ∧ fieldAt r 4 2 = 1 ∧ fieldAt r 0x28 4 = crc32 (r.take 0x28) then some r else none

/-- Firmware claims pin `n` for the function that the record names, where the pin offers it and is not yet taken; the second SMBus takes
two pins (R486, R487, R500). -/
def State.bootPin (s : State) (r : List Byte) (n : Nat) : State :=
  let func := fieldAt r (8 + n) 1
  let pins := gpioPins n func
  if func = 0 ∨ 4 < func ∨ gpioOffers n func = false ∨ (pins.any fun k => s.on F.OBS_GPIO_CLAIM.FWO k) = true then s
  else
    let s := pins.foldl (fun s k => (s.setFunc k func).put F.OBS_GPIO_CLAIM.FWO k true) s
    if func = 1 then { s with pins := { s.pins with pulses := Tab.set 0 s.pins.pulses n (fieldAt r (0x18 + n) 1) } } else s

/-- FIRMWARE_BOOT (R451, R516): the other components, main-tier training, the map, the board's claims; then the PF is ready, and the power pins
are sampled. -/
def execFirmwareBoot (s : State) : Result :=
  s.ifLive <|
    match Tab.find s.sec.running 1 with
    | none => s
    | some x =>
      if s.rd F.SEC_BOOT_STATUS.STATE 0 ≠ 0 ∨ s.pci.ready = true then s
      else
        let s := [2, 3, 4].foldl (fun s c => s.bootComp x.bundle c) s
        if s.unbooted then s
        else
          let s := s.trainMain.trainBulk
          let s := match s.boardRecord with
            | some r => (List.range 16).foldl (fun (s : State) n => s.bootPin r n) s
            | none => s
          let s : State := { s with pci := { s.pci with ready := true } }
          (s.wr F.SEC_BOOT_STATUS.STATE 0 1).samplePins

/-! ## What the resets share -/

/-- The transfers that `sel` chooses end LOST (R373, R399), with an error code that the manual does not give (log 51). -/
def State.loseXfers (s : State) (sel : Nat → Bool) : State :=
  (s.rlt.xfers.filter fun x => sel x.part).foldl (fun s x => let (e, s) := s.draw 8; s.endXfer x xLost e) s

/-- A queue becomes DISABLED as its shutdown completes, keeping its positions (R285, R399). -/
def State.resetQueue (s : State) (q : Nat) : State :=
  let x := s.queue q
  let s := (s.setQueue q { Queue.clear with accept := x.accept, head := x.head, tail := x.tail }).undeque q
  (s.put F.Q_STATE.ENABLE_PEND q false).wr F.Q_STATE.STATE q 0

/-- The host interface of the functions that `sel` chooses stops and forgets: completions of outstanding reads are discarded as they
arrive, BAR2 slots, MSI-X tables and pending bits and the configuration registers are cleared (R399, R414). -/
def State.resetFns (s : State) (sel : Nat → Bool) : State :=
  let fs := (List.range 17).filter sel
  let s := fs.foldl (fun s f => (List.range 16).foldl (fun s k => s.put F.PCI_WIN_MAP.VALID (RegKind.idx .PCI_WIN_MAP f k) false) s) s
  { s with
    msix := s.msix.filter fun k => !sel (k / 64)
    pci := { s.pci with
      dma := s.pci.dma.map fun e => if sel e.2.f then (e.1, { e.2 with dropped := true }) else e
      reads := s.pci.reads.filter fun r => !sel (r.part + 1)
      mse := s.pci.mse.filter fun e => !sel e.1
      bme := s.pci.bme.filter fun e => !sel e.1
      msixEn := s.pci.msixEn.filter fun e => !sel e.1
      fnMask := s.pci.fnMask.filter fun e => !sel e.1
      d3 := s.pci.d3.filter fun e => !sel e.1
      msixTab := s.pci.msixTab.filter fun e => !sel (e.1 / 64) } }

/-- PENDING clears on every source that `sel` chooses (R415). -/
def State.clearPending (s : State) (sel : Nat → Bool) : State :=
  ((List.range 512).filter fun n => s.bitAt F.INTC_PEND.BITS n && sel n).foldl (fun s n => s.putBit F.INTC_PEND.BITS n false) s

/-- Every event counter of a partition is zero. -/
def State.zeroEvents (s : State) (p : Nat) : State :=
  (List.range 256).foldl (fun s e => s.wr F.HUB_EVENT.COUNT (RegKind.idx .HUB_EVENT p e) 0) s

/-- An instance of a register at its reset value. -/
def State.resetReg (s : State) (k : RegKind) (i : Nat) : State := s.setReg k i (k.resetVal i)

/-! ## Function-level reset (R284, R399) -/

/-- A function is in reset for `ns` from now on (R401). -/
def State.resetUntil (s : State) (f ns : Nat) : State :=
  { s with pci := { s.pci with resetEnd := Tab.set 0 s.pci.resetEnd f (timeAdd s.time ns) } }

/-- A function-level reset of the VF of partition `p` (R399), after which the function is in reset for up to 40 ms, a free value (R401, log 7). -/
def State.flr (s : State) (p : Nat) : State :=
  let s := s.endWork (fun q => qPart q == p) 0xFD
  let s := (s.loseXfers fun q => q == p)
  let s := (List.range 64).foldl (fun s i => s.resetQueue (64 * p + i)) s
  let s := ((s.zeroEvents p).wr F.HUB_LEAD_STAT.MAX_START p 0).put F.RLT_XFER_CFG.ENABLE p false
  let s := ((List.range 128).filter (s.eastOf p)).foldl (fun s l => s.put F.RLT_EDGE_BIND.VALID l false) s
  let s := s.clearPending fun n => s.srcPart n == some p
  let (d, s) := (s.resetFns fun f => f == p + 1).draw 32
  s.resetUntil (p + 1) (d % 40000001)

/-! ## Warm device reset (R284, R400) -/

/-- Every plane is EMPTY, every edge and region clear; banks keep what they hold. -/
def State.emptyArray (s : State) : State :=
  let cogs := s.arr.cogs
  let s : State := { s with arr := ⟨s.arr.cogs, [], [], [], [], []⟩ }
  cogs.foldl (fun s e => s.setCog e.1 { Cog.reset with bank := e.2.bank }) s

/-- Every tensor is freed without write-back, and every shadow and reservation is released (R400). -/
def State.freeAll (s : State) : State :=
  let s := s.leavePool (s.mem.tensors.flatMap (·.2.frames))
  { s with mem := ⟨[], [], [], [], s.mem.wbCount⟩ }

/-- The registers of chapters 05, 06 and 09 that return to their reset values on a warm device reset (R158, R196; log 64). -/
def State.warmRegs (s : State) : State :=
  let s := (List.range 16).foldl (fun s p =>
    [RegKind.TNS_FAULT, .TNS_FAULT_TIME, .TNS_REPAIR_CNT, .POOL_FLOOR, .POOL_EVICT, .GEAR_LOAD_DIAG].foldl (fun s k => s.resetReg k p) s) s
  let s := (List.range 8).foldl (fun s h => s.wr F.HUB_CFG.VBASE h 0) s
  (List.range 1024).foldl (fun s q =>
    s.resetReg .Q_STATE q) (s.resetReg .JNL_COUNT 0)

/-- An activation of hub microcode ends with the reset: the hubs that were left load the new microcode as they clear (R482). -/
def State.warmActivation (s : State) : State :=
  match s.sec.active with
  | some a =>
    if a.comp = 2 then
      let s := match a.hubs with
        | h :: _ => s.startHub h
        | [] => s
      s.activated a
    else s
  | none => s

/-- Both streams are OFF: EN and ENABLE_PEND clear, what the FIFO holds is dropped, and the claims are released (R494). -/
def State.streamsOff (s : State) : State :=
  let s := [false, true].foldl (fun s t => (s.put (fEn t) 0 false).streamOff t) s
  { s with obs := { s.obs with fifo := [], timer := none } }

/-- Ports that are not DISABLED retrain (R378, R400). -/
def State.retrainPorts (s : State) : State :=
  let s : State := { s with rlt := { s.rlt with msgs := [], xfers := [] } }
  (List.range 16).foldl (fun s p => if s.portState p = pDisabled then s else (s.losePort p).startTraining p) s

/-- Steps 1 to 4 of R400. -/
def State.warmStop (s : State) : State :=
  let s := ((s.endWork (fun _ => true) 0xFD).loseXfers fun _ => true).dropHeld
  let s := (List.range 8).foldl (fun s h => (s.clearHub h).setHub h { (s.clearHub h).hub h with lead := [], pack := [], broom := [] }) s
  let s := (List.range 1024).foldl (fun s q => s.resetQueue q) s
  let s := (List.range 32).foldl (fun s b => (s.wr F.SRV_BATCH_CTRL.STATE b 0).put F.SRV_BATCH_CTRL.ENABLE_PEND b false) s
  let s := (List.range 16).foldl (fun s p => (s.put F.RLT_XFER_CFG.ENABLE p false).zeroEvents p) s
  let s : State := { s with srv := { s.srv with seqs := [], steps := [], groups := [] }, ctl := { s.ctl with ops := [] } }
  (s.emptyArray.freeAll).warmRegs

/-- A warm device reset (R400, R415, R462, R467): CAUSE and COUNT are recorded, with a DURATION_US up to 200 ms that no state decides (a free
value, log 1), for which every function is in reset (R401). It absorbs resets of VFs in progress (R398). -/
def State.warmReset (s : State) (cause : Nat) : State :=
  let s := s.tokenCut.warmStop.streamsOff
  let s := (List.range 17).foldl (fun s f => s.put F.PCI_IDE_STATE.SECURE f false) (s.retrainPorts.warmActivation)
  let s := (s.clearPending fun _ => true)
  let s := (List.range 16).foldl (fun s w => s.wr F.INTC_ACTIVE.BITS w 0) s
  let s := s.resetFns fun _ => true
  let s : State := { s with
    intc := { s.intc with flight := [], active := [] }
    pci := { s.pci with
      req := [], rsp := [], ideKeys := [], ideDown := [], ideK := [], ideCap := [], numVfs := 0, vfEn := false, mps := 128, mrrs := 512, flrPend := [] }
    sec := { s.sec with token := [] } }
  let (d, s) := ((s.wr F.SEC_TOKEN_CTRL.LEN 0 0).newNonce).draw 32
  let d := d % 200001
  let s := (List.range 17).foldl (fun s f => s.resetUntil f (d * 1000)) s
  ((s.wr F.PCI_RESET_STAT.CAUSE 0 cause).count F.PCI_RESET_STAT.COUNT 0 1).wr F.PCI_RESET_STAT.DURATION_US 0 d

/-- WARM_DEVICE_RESET (R398, R400, R506): cause 1 is PERST#, which is no reset before the PF has first become ready; 2 Hot Reset, 3
DL_Down, 4 a function-level reset of the PF. -/
def execWarmDeviceReset (cause : Nat) (s : State) : Result :=
  if cause = 0 ∨ 4 < cause then .fault .illFormed
  else s.ifLive <| if cause = 1 ∧ s.pci.ready = false then s else s.warmReset cause

/-- FUNCTION_LEVEL_RESET (R398, R399): of a VF, which starts once one in progress for it has ended; of the PF it is a warm device reset. -/
def execFunctionLevelReset (f : FnId) (s : State) : Result :=
  s.ifLive <|
    if f.val = 0 then s.warmReset 4
    else if s.present f = false then s
    else if s.inReset f then { s with pci := { s.pci with flrPend := s.pci.flrPend ++ [f.val] } }
    else s.flr (f.val - 1)

/-! ## Cold reset (R11, R217, R283, R398, R509) -/

/-- The registers that fuses hold. -/
def fuseRegs : List RegKind := [.COG_FENCE_MAP, .COG_FENCE_SUMMARY, .SEC_FUSE_STATE, .SEC_AUTH_STATE]

/-- What flash keeps of the bulk tier over a power loss: the map from its copies (R202); an INSTALLING entry comes back DELETING (R217). -/
def Blk.lossOf (b : Blk) : Blk :=
  { b with map := (Tab.find b.copies 0).getD [], cat := b.cat.map fun e => if e.2.state = .installing then (e.1, { e.2 with state := .deleting }) else e }

/-- What a power loss leaves in `t` of a burn of field fuses (R470). A burn takes no device time here, so it is cut short where no time has
passed since it (DESIGN CHOICE, log 46). -/
def State.burnLoss (s t : State) : State :=
  match s.sec.burn with
  | none => t
  | some b => if b.at_ ≠ s.time then t else s.cutBurn b t

/-- POR_N falls while the journal of a device-fatal stop is to be saved (R477): it may fall within the write, and a saved journal whose write
has not finished is discarded at the next boot (R516). Whether it does is a free value (log 68). -/
def State.saveLoss (s t : State) : State :=
  if s.on F.OBS_FATAL.JOURNAL_FINAL 0 && !s.on F.OBS_FATAL.SAVED 0 && s.on F.BLK_STATUS.READY 0 && s.rd F.OBS_FATAL.CAUSE 0 != 5 then
    let (v, t) := t.draw 1
    if v = 1 then { t with saved := none } else t
  else t

/-- The state after cold reset of the same part on the same board: its fuses, boot flash, bulk tier and saved journal, the pins as the
board drives them, and what is no part of the device: host memory, the commands that wait, what has left the package and the
counter of free values. -/
def State.coldReset (s : State) : State :=
  let z := State.reset
  let t : State := { z with
    regs := s.regs.filter fun e => fuseRegs.any fun k => k.code == e.1 % 256
    blk := s.blk.lossOf
    lpx := { z.lpx with retired := s.lpx.retired }
    sec := { z.sec with uid := s.sec.uid, seed := s.sec.seed, trims := s.sec.trims, fuseCrc := s.sec.fuseCrc, flash := s.sec.flash, cert := s.sec.cert, authHash := s.sec.authHash, fuseFails := s.sec.fuseFails }
    pins := { s.pins with porLow := true, thermTrip := false, devFault := false, pulses := [] }
    board := s.board
    saved := s.saved
    fresh := s.fresh
    out := s.out
    hostMem := s.hostMem
    pending := s.pending }
  let t := (List.range 64).foldl (fun t c => t.wr F.LPX_CH_STATE.RETIRED_PAGES c (s.rd F.LPX_CH_STATE.RETIRED_PAGES c)) t
  let t := (t.wr F.LPX_PG_CNT.RETIRED 0 s.lpx.retired.length).wr F.BLK_RD_CFG.RD_KREADS 0 (if s.board.cell = 2 then 1000 else 4000)
  let t := (List.range 16).foldl (fun t n => t.put F.OBS_GPIO_CFG.LEVEL n (Tab.get false s.pins.gpio n)) t
  s.saveLoss (((s.burnLoss t).put F.SEC_FUSE_STATE.DEBUG_SEEN 0 false).newNonce)

/-- COLD_RESET (R398, R508, R509): POR_N falls, in any state. -/
def execColdReset (s : State) : Result := .next s.coldReset

end Sys2Proof.Machine
end

