-- ==== Sys2Proof/Machine/PciCfg.lean ====
section
/-! DEFINITION. Configuration space of the functions (R379, R381, R394, R398, R401, R402). The spec says what it controls and gives it no
addresses: a configuration write is a REGISTER_WRITE of "BAR" 7 whose offset is the model's own number of a configuration register
(DESIGN CHOICE, log 91); the bits inside each are those of PCI Express (PRESUMED, log 91). -/

namespace Sys2Proof.Machine

/-- Error reporting of a function changed. -/
def State.modAer (s : State) (f : Nat) (g : Aer → Aer) : State :=
  { s with pci := { s.pci with aer := Tab.set Aer.start s.pci.aer f (g (Tab.get Aer.start s.pci.aer f)) } }

/-- A field of W1C bits after a write. -/
def w1c (old v : Nat) : Nat := old &&& ((2 ^ 32 - 1) ^^^ v)

/-- VF Enable written (R381, R398): clearing it resets every VF; in the fatal state, which only a cold reset leaves, no VF (R477). -/
def State.writeVfEn (s : State) (on : Bool) : State :=
  let was := s.pci.vfEn
  let s := if was && !on && s.live then ((List.range 17).filter fun f => f != 0 && s.present f).foldl (fun s f => s.flr (f - 1)) s else s
  { s with pci := { s.pci with vfEn := on } }

/-- A configuration register of function `f` written. SR-IOV, the sizes and IDE are the PF's. -/
def State.cfgWrite (s : State) (f off v : Nat) : State :=
  match off with
  | 0x00 =>
    let s : State := { s with pci := { s.pci with mse := Tab.set false s.pci.mse f (bit v 1), bme := Tab.set false s.pci.bme f (bit v 2) } }
    if s.live then s.release f else s
  | 0x04 =>
    let s := s.modAer f fun x => { x with ctl := bits v 0 4 }
    if f = 0 then { s with pci := { s.pci with mps := 128 * 2 ^ min 2 (bits v 5 3), mrrs := 128 * 2 ^ min 5 (bits v 12 3) } } else s
  | 0x08 => { s with pci := { s.pci with
      msixEn := Tab.set false s.pci.msixEn f (bit v 15), fnMask := Tab.set false s.pci.fnMask f (bit v 14) } }
  | 0x0C => if f = 0 then s.writeVfEn (bit v 0) else s
  | 0x10 => if f = 0 ∧ s.pci.vfEn = false then { s with pci := { s.pci with numVfs := min 16 (bits v 0 16) } } else s
  | 0x14 => s.modAer f fun x => { x with cap := setBits (setBits 0 6 1 (bits v 6 1)) 8 1 (bits v 8 1) }
  | 0x18 => s.modAer f fun x => { x with status := w1c x.status v }
  | 0x1C => s.modAer f fun x => { x with mask := v }
  | 0x20 => s.modAer f fun x => { x with severity := v }
  | 0x24 => s.modAer f fun x => { x with corr := w1c x.corr v }
  | 0x28 => s.modAer f fun x => { x with corrMask := v }
  | _ =>
    if f = 0 ∧ 0x100 ≤ off ∧ off < 0x100 + 17 * 0x40 ∧ off % 0x40 < 36 then
      { s with pci := { s.pci with ideCap := Tab.set 0 s.pci.ideCap (9 * ((off - 0x100) / 0x40) + off % 0x40 / 4) v } }
    else s

/-- What a configuration register of function `f` reads: those of `cfgWrite`, the four words of the header log, the D-state with No_Soft_Reset
(R402), and the times of Readiness Time Reporting (R399 to R402), in ns. -/
def State.cfgReadAt (s : State) (f off : Nat) : Nat :=
  let x := Tab.get Aer.start s.pci.aer f
  match off with
  | 0x00 => b2n (Tab.get false s.pci.mse f) * 2 + b2n (Tab.get false s.pci.bme f) * 4
  | 0x04 => x.ctl + (if f = 0 then Nat.log2 (s.pci.mps / 128) * 2 ^ 5 + Nat.log2 (s.pci.mrrs / 128) * 2 ^ 12 else 0)
  | 0x08 => b2n (Tab.get false s.pci.msixEn f) * 2 ^ 15 + b2n (Tab.get false s.pci.fnMask f) * 2 ^ 14 + 63
  | 0x0C => if f = 0 then b2n s.pci.vfEn else 0
  | 0x10 => if f = 0 then s.pci.numVfs else 0
  | 0x14 => x.cap
  | 0x18 => x.status
  | 0x1C => x.mask
  | 0x20 => x.severity
  | 0x24 => x.corr
  | 0x28 => x.corrMask
  | 0x2C => bits x.header 0 32
  | 0x30 => bits x.header 32 32
  | 0x34 => bits x.header 64 32
  | 0x38 => bits x.header 96 32
  | 0x3C => (if Tab.get false s.pci.d3 f then 3 else 0) + 8
  | 0x40 => 200000000
  | 0x44 => 40000000
  | 0x48 => 0
  | _ =>
    if f = 0 ∧ 0x100 ≤ off ∧ off < 0x100 + 17 * 0x40 ∧ off % 0x40 < 36 then
      Tab.get 0 s.pci.ideCap (9 * ((off - 0x100) / 0x40) + off % 0x40 / 4)
    else 0

end Sys2Proof.Machine
end

