-- ==== Sys2Proof/Machine/Sampler.lean ====
section
/-! DEFINITION. Masks, automata and the sampler (R334 to R342): the allowed tokens of a sequence, the automaton's step on a token,
and the choice of a token with its log-probability. -/

namespace Sys2Proof.Machine

/-! ## Automata (R335 to R337) -/

/-- The top of a sequence's automaton stack; 0xFFFE where it is empty (R336). -/
def stackTop (st : List Nat) : Nat := st.head?.getD 0xFFFE

/-- The mask set that a state selects for a stack top (R336): none where an index lies outside its table (R337); `some none`
where no entry of the state matches the top, so that no token is allowed (DESIGN CHOICE, log 35). -/
def State.pdaMask (s : State) (p tid : Nat) (x : Seq) : Option (Option Nat) :=
  let h := s.pdaHead p tid
  let o := h.stateOff + 16 * x.pdaState
  if h.nstate ≤ x.pdaState then none
  else
    let msel := s.tnum p tid (o + 8) 4
    let n := s.tnum p tid (o + 12) 2
    let pick : Option (Option Nat) :=
      if bit (s.tnum p tid (o + 14) 1) 0 then
        let fits (k : Nat) : Bool :=
          let sym := s.tnum p tid (h.topOff + 4 * (msel + k)) 2
          sym == stackTop x.pdaStack || sym == 0xFFFF
        match (List.range n).find? fun k => decide (h.ntop ≤ msel + k) || fits k with
        | none => some none
        | some k => if h.ntop ≤ msel + k then none else some (some (s.tnum p tid (h.topOff + 4 * (msel + k) + 2) 2))
      else some (some msel)
    match pick with
    | some (some m) => if h.nmask ≤ m then none else some (some m)
    | v => v

/-- Bit `t` of a bit set that begins at offset `o` of a tensor (R334). -/
def State.tokenBit (s : State) (p tid o t : Nat) : Bool := bit (s.tnum p tid (o + t / 8) 1) (t % 8)

/-- The allowed set of a sequence (R334); none where its automaton faults. -/
def State.allowedSet (s : State) (x : Seq) (vocab : Nat) : Option (List Nat) :=
  let p := x.part
  let base := if x.desc.bitmap then (List.range vocab).filter (s.tokenBit p x.desc.bitmapTid 0) else List.range vocab
  if x.desc.pda then
    match s.pdaMask p x.desc.pdaTid x with
    | none => none
    | some none => some []
    | some (some m) =>
      let o := (s.pdaHead p x.desc.pdaTid).maskOff + m * (ceilDiv vocab 256 * 32)
      some (base.filter (s.tokenBit p x.desc.pdaTid o))
  else some base

/-- An automaton's state, stack and FINAL flag after an emitted token (R337); none where it faults. -/
def State.pdaStep (s : State) (x : Seq) (t : Nat) : Option (Nat × List Nat × Bool) :=
  let p := x.part
  let tid := x.desc.pdaTid
  let h := s.pdaHead p tid
  let o := h.stateOff + 16 * x.pdaState
  if h.nstate ≤ x.pdaState then none
  else
    let first := s.tnum p tid o 4
    let n := s.tnum p tid (o + 4) 4
    if h.nedge < first + n then none
    else
      let edge (k : Nat) : Nat := h.edgeOff + 16 * (first + k)
      let takes (k top : Nat) : Bool :=
        decide (bits (s.tnum p tid (edge k) 4) 0 18 ≤ t ∧ t ≤ bits (s.tnum p tid (edge k + 4) 4) 0 18) &&
          s.tnum p tid (edge k + 12) 2 == top
      match ((List.range n).find? fun k => takes k (stackTop x.pdaStack)).or ((List.range n).find? fun k => takes k 0xFFFF) with
      | none => none
      | some k =>
        let next := s.tnum p tid (edge k + 8) 4
        let push := s.tnum p tid (edge k + 14) 2
        let st := x.pdaStack
        let st' : Option (List Nat) := match bits next 20 2 with
          | 0 => some st
          | 1 => if 64 ≤ st.length then none else some (push :: st)
          | 2 => if st.isEmpty then none else some (st.drop 1)
          | _ => if st.isEmpty then none else some (push :: st.drop 1)
        match st' with
        | none => none
        | some st' =>
          let q := bits next 0 20
          if h.nstate ≤ q then none else some (q, st', bit (s.tnum p tid (h.stateOff + 16 * q + 14) 1) 1)

/-! ## The sampler (R338 to R341) -/

/-- The generator of R340 as a number of 53 bits: u is this number times 2⁻⁵³. -/
def uniform53 (seed p : Nat) : Nat :=
  let x : Word64 := BitVec.ofNat 64 seed ^^^ (BitVec.ofNat 64 p * 0x9E3779B97F4A7C15)
  let x := (x ^^^ (x >>> 30)) * 0xBF58476D1CE4E5B9
  let x := (x ^^^ (x >>> 27)) * 0x94D049BB133111EB
  let x := x ^^^ (x >>> 31)
  (x >>> 11).toNat

/-- A candidate: token, z as an FP32 encoding, and weight. -/
structure Cand where
  tok : Nat
  z : Nat
  w : FVal
  deriving DecidableEq, Repr

/-- z of a logit (R338). -/
def zOf (temp l : Nat) : Nat := if temp = 0 then divF32 l 0x3F800000 else divF32 l temp

/-- The candidates with their weights, in ascending token ID (R338). Subtraction, product and exp2 each round to FP32
(DEDUCED, log 36). -/
def candidates (temp : Nat) (logits : List (Nat × Nat)) : List Cand :=
  let zs := (logits.map fun e => (e.1, zOf temp e.2)).filter fun e => fp32 e.2 != .nan && fp32 e.2 != .inf true
  let infs := zs.filter fun e => fp32 e.2 == .inf false
  if !infs.isEmpty then infs.map fun e => ⟨e.1, e.2, .fin false 1 0⟩
  else
    let m := zs.foldl (fun b e => maxF b (fp32 e.2)) (.inf true)
    zs.map fun e =>
      let d := fp32 (enc32 (sumF [fp32 e.2, negF m]))
      ⟨e.1, e.2, fp32 (exp2RN (enc32 (mulF d (fp32 0x3FB8AA3B))))⟩

/-- A candidate put into a list ordered by weight, heaviest first, lowest token first on a tie. -/
def insertCand (c : Cand) : List Cand → List Cand
  | [] => [c]
  | d :: ds => if ltF d.w c.w || (!ltF c.w d.w && decide (c.tok < d.tok)) then c :: d :: ds else d :: insertCand c ds

/-- A sum of weights in FP64, in the order of the list (R339). -/
def sum64 (l : List Cand) : FVal := l.foldl (fun a c => to64 (sumF [a, c.w])) .zero

/-- The shortest prefix whose running sum reaches a bound, or the whole list. -/
def prefixTo (bound : FVal) : FVal → List Cand → List Cand
  | _, [] => []
  | acc, c :: cs =>
    let acc := to64 (sumF [acc, c.w])
    if ltF acc bound then c :: prefixTo bound acc cs else [c]

/-- The first candidate at which the running sum exceeds the target, or the last (R339). -/
def pickAt (target : FVal) : FVal → List Cand → Option Cand
  | _, [] => none
  | _, [c] => some c
  | acc, c :: cs =>
    let acc := to64 (sumF [acc, c.w])
    if ltF target acc then some c else pickAt target acc cs

/-- The token chosen among the candidates (R339), for the index `pos` that it will have (R340). Products are rounded to FP64
(DEDUCED, log 36). -/
def chooseToken (r : Request) (pos : Nat) (cs : List Cand) : Option Cand :=
  if r.temp = 0 then
    cs.foldl (fun b c => match b with
      | none => some c
      | some d => if ltF (fp32 d.z) (fp32 c.z) then some c else some d) none
  else
    let one := r.topP == 0x3F800000
    let l :=
      if r.topK == 0 && one then cs
      else
        let l := (cs.foldr insertCand []).take (if r.topK = 0 then 1024 else r.topK)
        if one then l else prefixTo (to64 (mulF (fp32 r.topP) (sum64 l))) .zero l
    pickAt (to64 (mulF (.fin false (uniform53 r.seed pos) (-53)) (sum64 l))) .zero l

/-- The sum of the series of artanh from its term z^(2k+1) ÷ (2k+1) on, in units of 2⁻¹⁹², with `p` that power of z and `zz` the square of
z in the same units; the first argument bounds the terms. -/
def artanhFrom : Nat → Nat → Nat → Nat → Nat
  | 0, _, _, _ => 0
  | n + 1, k, p, zz => p / (2 * k + 1) + artanhFrom n (k + 1) (p * zz / 2 ^ 192) zz

/-- 2 artanh(a ÷ b) in units of 2⁻¹⁹², for 0 ≤ a ÷ b ≤ 1 ÷ 3. -/
def twoArtanh (a b : Nat) : Nat :=
  let z := a * 2 ^ 192 / b
  2 * artanhFrom 64 0 z (z * z / 2 ^ 192)

/-- The natural logarithm of the positive dyadic m × 2^e in units of 2⁻¹⁹²: with m between 2^k and 2^(k+1), (e + k) ln 2 and the logarithm
of m ÷ 2^k, which is 2 artanh((m − 2^k) ÷ (m + 2^k)). -/
def lnFix (m : Nat) (e : Int) : Int :=
  let k := bitLen m - 1
  (e + k) * (twoArtanh 1 3 : Nat) + (twoArtanh (m - 2 ^ k) (m + 2 ^ k) : Nat)

/-- The engine's logarithm (R341): of a positive finite value one of the two FP64 values that enclose the exact one, which lie within 1 ulp;
which is a free value, as is the result for any other operand (log 22). -/
def lnF (v : FVal) : FVal :=
  match v with
  | .fin false m e =>
    if m = 0 then fp64 (Config.ln64 (enc64 v) % 2 ^ 64)
    else
      let x := lnFix m e
      if x = 0 then .zero
      else
        let n := x.natAbs
        let q := bitLen n - 53
        .fin (decide (x < 0)) (n / 2 ^ q + Config.ln64 (enc64 v) % 2) ((q : Int) - 192)
  | _ => fp64 (Config.ln64 (enc64 v) % 2 ^ 64)

/-- The log-probability of a candidate (R341). -/
def logProb (cs : List Cand) (c : Cand) : Nat := enc32 (to64 (sumF [lnF c.w, negF (lnF (sum64 cs))]))

/-- A sequence is sampled from its logits, given as FP32 encodings by token (R334 to R341). -/
def State.sample (s : State) (x : Seq) (vocab rows : Nat) (logit : Nat → Nat) : Sampled :=
  match s.allowedSet x vocab with
  | none => .fault
  | some ts =>
    let cs := candidates x.desc.temp (ts.map fun t => (t, logit t))
    match chooseToken x.desc (x.n + rows) cs with
    | none => .none_
    | some c => .token c.tok (logProb cs c)

end Sys2Proof.Machine
end

