-- ==== Sys2Proof/Machine/Serving.lean ====
section
/-! DEFINITION. The serving engine (chapter 11): batches, STEP and its freeze, phases, sampling, the drain, records, and SEQEND. -/

namespace Sys2Proof.Machine

/-! ## Batches (R314, R343) -/

/-- The ring of a batch meets R343. -/
def State.resultRingOk (s : State) (b : Nat) : Bool :=
  let p := s.rd F.SRV_BATCH_CFG.PART b
  let base := s.rd F.SRV_RING_BASE.BASE b
  let n := 2 ^ s.rd F.SRV_RING_CFG.SIZE_LOG2 b * 32
  if s.on F.SRV_RING_CFG.LOC b then
    match s.mainTensor p (base % 2 ^ 32) with
    | some t => t.rw_ && t.state.resident && decide (n ≤ t.desc.length)
    | none => false
  else base % 32 == 0 && s.window (p + 1) base n true

/-- A DISABLED batch becomes ENABLED where its ring and its partition allow it. -/
def State.enableBatch (s : State) (b : Nat) : State :=
  if s.resultRingOk b && s.rd F.SEC_PART_STATE.STATE (s.rd F.SRV_BATCH_CFG.PART b) == 1 then s.wr F.SRV_BATCH_CTRL.STATE b 1 else s

/-- An ENABLE of a batch (R314). -/
def State.batchEnable (s : State) (b : Nat) : State :=
  match s.batchState b with
  | 0 => s.enableBatch b
  | 2 => (s.put F.SRV_BATCH_CTRL.ENABLE_PEND b true).setBmem b { s.bmem b with pendAt := s.time }
  | _ => s

/-- A DISABLE of a batch (R314). -/
def State.batchDisable (s : State) (b : Nat) : State :=
  match s.batchState b with
  | 1 => s.wr F.SRV_BATCH_CTRL.STATE b 2
  | 2 => s.put F.SRV_BATCH_CTRL.ENABLE_PEND b false
  | _ => s

/-- BATCH_ENABLE (R314, R346). -/
def execBatchEnable (f : FnId) (b : BatchId) (s : State) : Result := s.ifHost f.val (RegKind.addr .SRV_BATCH_CTRL b) <| if isPF f.val then s.batchEnable b else s.deny f
/-- BATCH_DISABLE (R314, R346). -/
def execBatchDisable (f : FnId) (b : BatchId) (s : State) : Result := s.ifHost f.val (RegKind.addr .SRV_BATCH_CTRL b) <| if isPF f.val then s.batchDisable b else s.deny f

/-- BATCH_STOP_DONE (R314, R404): a STOPPING batch with no live sequence and no step in flight becomes DISABLED; a pended ENABLE then
takes effect. -/
def execBatchStopDone (b : BatchId) (s : State) : Result :=
  s.ifLive <|
    let b := b.val
    if s.batchState b = 2 ∧ (s.batchSeqs b).isEmpty ∧ (s.step? b).isNone then
      let s := (s.wr F.SRV_BATCH_CTRL.STATE b 0).raise (104 + b)
      if s.on F.SRV_BATCH_CTRL.ENABLE_PEND b then
        let s := (s.put F.SRV_BATCH_CTRL.ENABLE_PEND b false).enableBatch b
        if s.batchState b = 1 then
          (s.put F.SRV_BATCH_CTRL.WAITED b true).wrSat F.SRV_BATCH_CTRL.WAIT_US b (s.waitUs (s.bmem b).pendAt)
        else s
      else s
    else s

/-! ## The step descriptor and its checks (R322, R323) -/

/-- A step descriptor (R322). -/
structure StepDesc where
  batch : Nat
  nphase : Nat
  flags : Nat
  rowBind : Nat
  rowMax : Nat
  seqBind : Nat
  inTid : Nat
  kvIdx : Nat
  kvLen : Nat
  logit : Nat
  offs : List Nat
  resZero : Bool
  deriving DecidableEq, Repr

/-- A step descriptor read from its 64 bytes (R322). -/
def StepDesc.parse (b : List Byte) : StepDesc where
  batch := fieldAt b 0 1
  nphase := fieldAt b 1 1
  flags := fieldAt b 2 1
  rowBind := fieldAt b 3 1
  rowMax := fieldAt b 4 2
  seqBind := fieldAt b 6 1
  inTid := fieldAt b 8 4
  kvIdx := fieldAt b 0xC 4
  kvLen := fieldAt b 0x10 4
  logit := fieldAt b 0x14 4
  offs := (List.range 16).map fun i => fieldAt b (0x20 + 2 * i) 2
  resZero := fieldAt b 7 1 == 0 && fieldAt b 0x18 8 == 0

/-- LOGITS_EDGE. -/
def StepDesc.edge (d : StepDesc) : Bool := bit d.flags 0
/-- The four step tensors, or three with LOGITS_EDGE. -/
def StepDesc.tids (d : StepDesc) : List Nat := [d.inTid, d.kvIdx, d.kvLen] ++ if d.edge then [] else [d.logit]

/-- Check 1 of R323: `ra` is the scratch address that the offsets count from, `lo` the frame of the command. -/
def State.stepFields (s : State) (p : Nat) (d : StepDesc) (ra lo : Nat) : Bool :=
  d.resZero && decide (d.batch < 32 ∧ 1 ≤ d.nphase ∧ d.nphase ≤ 16 ∧ d.flags < 4 ∧ 512 ≤ d.rowMax ∧ d.rowMax ≤ 8192) &&
  (decide (d.rowBind < 8) || d.rowBind == 0xFF) && (decide (d.seqBind < 8) || d.seqBind == 0xFF) && (!d.edge || d.logit == 0) &&
  (s.batchState d.batch == 1 || s.batchState d.batch == 2) && s.rd F.SRV_BATCH_CFG.PART d.batch == p &&
  (d.offs.take d.nphase).all fun o => o % 64 == 0 && decide (lo ≤ ra + o ∧ ra + o + 192 ≤ lo + 4096)

/-- A step tensor has the type and extents that R322 states, and the command declares it written. -/
def State.stepTensor (s : State) (c : Cmd) (tid : Nat) (ok : Desc → Bool) : Bool :=
  (c.decls.any fun e => e.tid == tid && e.mode == 2) &&
  match s.mainTensor c.part tid with
  | some t => t.rw_ && ok t.desc
  | none => false

/-- Check 2 of R323. -/
def State.stepTensors (s : State) (c : Cmd) (d : StepDesc) : Bool :=
  s.stepTensor c d.inTid (fun t => t.etype == 9 && t.extents == [d.rowMax, 4]) &&
  s.stepTensor c d.kvIdx (fun t => t.etype == 9 && t.extents == [512, s.rd F.SRV_BATCH_CFG.MAXP d.batch]) &&
  s.stepTensor c d.kvLen (fun t => t.ndim == 1 && t.dataLen == 8192) &&
  (d.edge || s.stepTensor c d.logit (fun t => decide (t.etype ≤ 1) && t.extents == [512, s.rd F.SRV_BATCH_CFG.VOCAB d.batch]))

/-- Check 3 of R323 for one phase. -/
def StepDesc.bindsOk (d : StepDesc) (sh : List ShapeEntry) : Bool :=
  let ok (i n : Nat) : Bool := i == 0xFF || ((shapeAt sh i).valid && decide (n ≤ (shapeAt sh i).planned))
  ok d.rowBind d.rowMax && ok d.seqBind 512

/-- A shape record with the counts of the freeze put in (R322, R324). -/
def StepDesc.bound (d : StepDesc) (rows sampled : Nat) (sh : List ShapeEntry) : List ShapeEntry :=
  (sh.zipIdx).map fun e =>
    if e.2 = d.rowBind then { e.1 with runtime := rows }
    else if e.2 = d.seqBind then { e.1 with runtime := sampled } else e.1

/-- Whether a rectangle holds west links that reach the serving engine, as logits over the west edge need (R290, R291, R327). -/
def westServes (rect : Nat) : Bool := [4, 5, 6, 7].any fun y => inRect rect (9 * y)

/-! ## The freeze (R324, R325) -/

/-- Whether a sequence's deadline has come at a time. -/
def Seq.late (x : Seq) (t : Nat) : Bool := x.dl != timeNone && decide (x.dl ≤ t)

/-- Whether a sequence is in prefill (R315). -/
def Seq.prefill (x : Seq) : Bool := decide (x.n < x.desc.promptLen)

/-- Whether a sequence is SKIPPED at a freeze (R324): its deadline has come, and it is not ENDING. -/
def Seq.skips (x : Seq) (t : Nat) : Bool := x.late t && !x.ending

/-- The participants of a freeze at time `t` (R324), in slot order: decode sequences one row each, then prefill sequences while
they fit; the SKIPPED ones too. -/
def participants (t rowMax : Nat) (l : List (Nat × Seq)) : List Participant :=
  let decode := (l.filter fun e => !e.2.skips t && !e.2.prefill).length
  (l.foldl (fun (a : Nat × List Participant) e =>
    let (used, ps) := a
    let x := e.2
    let p (rows : Nat) (samples skipped : Bool) : Participant := ⟨e.1 % 512, x.req, rows, samples, skipped, .waiting⟩
    if x.skips t then (used, ps ++ [p 0 false true])
    else if !x.prefill then (used, ps ++ [p 1 true false])
    else
      let rows := min x.desc.chunk (x.desc.promptLen - x.n)
      if used + rows ≤ rowMax then (used + rows, ps ++ [p rows (x.n + rows == x.desc.promptLen) false]) else (used, ps))
    (decode, [])).2

/-- A KV page's descriptor (R325). -/
def Desc.kvPage (d : Desc) (tid req : Nat) : Desc :=
  { d with tid := tid, kind := 1, home := 2, back := 0, homeAddr := 0, backAddr := 0, owner := req }

/-- The KV pages that the rows of a sequence enter are defined, zero, out of its reservation (R321, R325). -/
def State.defineKv (s : State) (x : Seq) (rows : Nat) : State :=
  match s.tensor x.part x.desc.kvTemplate with
  | none => s
  | some t =>
    (List.range (ceilDiv (x.n + rows) (2 ^ x.desc.pageLog2))).foldl (fun s j =>
      let tid := x.desc.kvTid + j
      if (s.tensor x.part tid).isSome then s
      else
        let d := t.desc.kvPage tid x.req
        let s := (s.setTensor x.part tid (d.fresh x.part s.time [])).placePages x.part tid
        { s with mem := { s.mem with admits := match Tab.find s.mem.admits x.req with
          | some (p, n) => Tab.insert s.mem.admits x.req (p, n - pagesOf d.length)
          | none => s.mem.admits } }) s

/-- The rows of the step input of a sequence (R325): token, position, slot, sampling mark. -/
def State.inRows (s : State) (x : Seq) (q : Participant) : List Byte :=
  (List.range q.rows).flatMap fun i =>
    let tok := if x.prefill then s.tnum x.part x.desc.promptTid (4 * (x.n + i)) 4 else x.last
    toBytes 4 tok ++ toBytes 4 (x.n + i) ++ toBytes 4 q.slot ++ toBytes 4 (b2n (q.samples && i + 1 == q.rows))

/-- The step tensors are written through the task's shadows (R325). -/
def State.writeStepTensors (s : State) (task p : Nat) (d : StepDesc) (ps : List Participant) : State :=
  let maxp := s.rd F.SRV_BATCH_CFG.MAXP d.batch
  let act := ps.filter fun q => !q.skipped
  let rows := act.flatMap fun q => match Tab.find s.srv.seqs (seqKey d.batch q.slot) with
    | some x => s.inRows x q
    | none => []
  let kv := (s.batchSeqs d.batch).map fun e => (e.1 % 512, (List.range maxp).flatMap fun j =>
    toBytes 4 (if j < e.2.desc.pages ∧ (s.tensor e.2.part (e.2.desc.kvTid + j)).isSome = true then e.2.desc.kvTid + j else 0xFFFFFFFF))
  let none_ := (List.replicate maxp (toBytes 4 0xFFFFFFFF)).flatten
  let lens := act.flatMap fun q => match Tab.find s.srv.seqs (seqKey d.batch q.slot) with
    | some x => toBytes 8 (q.slot * maxp * 4) ++ toBytes 4 (x.n + q.rows) ++ toBytes 4 0
    | none => []
  let s := if rows.isEmpty then s else s.shadowWrite task p d.inTid 0 rows
  let s := (List.range 512).foldl (fun s k =>
    s.shadowWrite task p d.kvIdx (k * maxp * 4) (((kv.find? fun e => e.1 == k).map (·.2)).getD none_)) s
  if lens.isEmpty then s else s.shadowWrite task p d.kvLen 0 lens

/-- An estimate moved by R319. -/
def ewma (est measured : Nat) : Nat :=
  if est = 0 then measured else ((est : Int) + (((measured : Int) - est) / 8)).toNat

/-- Whether a sink of a phase writes KV pages of the batch, as its tensor or through its index (R173, R326). -/
def State.kvSink (s : State) (b k p : Nat) (d : StreamDesc) : Bool :=
  d.dir == 1 && s.mem.tensors.any fun e => e.2.part == p && s.kvPage b e.2 && s.descWrites k p (e.1 % 2 ^ 32) d

/-- A phase of the step in flight on a batch starts (R326), once the shadow pages of its sink streams are reserved; KV sinks write out of
their sequence's reservation. Where the pages cannot be had the task aborts with E_ABORTED (R173); through an eviction's write-back the
phase waits. -/
def State.startPhase (s : State) (b : Nat) (x : Step) : State :=
  match x.phases[x.phase]?, s.cmd x.seq with
  | some (r, ds), some c =>
    let pages := ((ds.filter fun d => !s.kvSink b x.task c.part d).map (s.sinkPages x.task c.part r)).foldl (· + ·) 0
    match s.takePages (reqOf x.seq 19) c.part c.acceptedAt pages with
    | (s, .granted) =>
      let s := (s.modTask x.task fun t => { t with reserved := t.reserved + pages }).setStep b { x with running := true }
      s.startRegion x.seq x.handle c r ds (some (b, x.phase))
    | (s, .waits) => s
    | (s, .refused) => s.abortCmd x.seq eAborted 0
  | _, _ => s

/-- What a freeze of a batch changes in its cost model (R319): the gap since the last drain moves the estimate, and the row count is
remembered. -/
def State.freezeMark (s : State) (b rows : Nat) : State :=
  let m := s.bmem b
  let s := match m.drainAt with
    | some t => s.wrSat F.SRV_BATCH_STAT.GAP_NS b (ewma (s.rd F.SRV_BATCH_STAT.GAP_NS b) (s.time - t))
    | none => s
  s.setBmem b { m with lastRows := rows, drainAt := none }

/-- The freeze (R324, R325, R319): participants are fixed, the gap estimate moves, KV pages are defined and step tensors written,
and phase 0 starts, once the array is awake (R423). Where a write of a step tensor fails its eighth resend the task aborts (R192). -/
def State.freeze (s : State) (n hd : Nat) (c : Cmd) (d : StepDesc) (phases : List (RunBlk × List StreamDesc)) : State :=
  let b := d.batch
  let ps := participants s.time d.rowMax (s.batchSeqs b)
  let rows := (ps.map (·.rows)).foldl (· + ·) 0
  let sampled := (ps.filter (·.samples)).length
  let s := s.freezeMark b rows
  let s := ps.foldl (fun s q => match Tab.find s.srv.seqs (seqKey b q.slot) with
    | some x => if q.skipped then s else s.defineKv x q.rows
    | none => s) s
  let s := (s.writeStepTensors c.task c.part d ps).trace 0x07 n (b + rows * 2 ^ 8) sampled
  let phases := phases.map fun e => ({ e.1 with shape := d.bound rows sampled e.1.shape }, e.2)
  let bf16 := if d.edge then bit d.flags 1 else (s.mainTensor c.part d.logit).any fun t => t.desc.etype == 1
  let x : Step := ⟨n, hd, c.task, c.part, d.edge, bf16, d.rowBind, d.seqBind, d.logit, phases, 0, false, s.time, rows, ps, [], [], [d.inTid, d.kvIdx, d.kvLen],
    s.work⟩
  ((s.setStep b x).opStart n hd).orParity n fun s => if s.asleep then s else s.startPhase b x

/-- A step tensor that is ABSENT is first loaded whole, as any write to it does, and the STEP waits for the load (R172). -/
def State.stepLoads (s : State) (n p : Nat) (tids : List Nat) : State :=
  tids.foldl (fun s tid => match s.tensor p tid with
    | some t => if t.state = .absent then s.loadFor p tid n else s
    | none => s) s

/-- The checks of R323 in order, and the freeze. A STEP that waits is checked afresh when it goes on, its descriptor read again
(DESIGN CHOICE, log 37). -/
def State.tryStep (s : State) (n hd ra imm : Nat) : State :=
  match s.cmd n with
  | none => s
  | some c =>
    let p := c.part
    let h := s.hub c.hub
    let d := StepDesc.parse (h.scratchN (ra + imm) 64)
    let shapeErr := s.opEnd n hd (refusedWord 0 false eShape)
    if s.stepFields p d ra (frameBase c.frame) = false ∨ s.stepTensors c d = false then shapeErr
    else
      let data := s.frameData c.hub c
      let phases := (d.offs.take d.nphase).map fun o =>
        let r := RunBlk.parse (h.scratchN (ra + o) 192)
        (r, r.streams data)
      if (phases.any fun e => !d.bindsOk e.1.shape) then shapeErr
      else match phases.head? with
        | none => shapeErr
        | some (r0, ds0) =>
          if r0.nstream = 0 ∨ 16 < r0.nstream then shapeErr
          else match s.runFault c r0 ds0 with
            | some (code, owner) => s.opEnd n hd (refusedWord owner false code)
            | none =>
              if d.edge && phases.length == 1 && !westServes r0.rect then shapeErr
              else if (s.step? d.batch).isSome || s.srv.groups.any (fun g => g.batch == d.batch) then s.opWaits n hd
              else
                let ts := d.tids.dedup.filterMap fun tid => (s.tensor p tid).map fun t => (tid, t)
                let gone := ts.filter fun e => e.2.state == .absent
                let bulk := if gone.any fun e => s.backingTier p e.2 == 3 then 3 else 0
                if ts.any fun e => e.2.state == .loading || e.2.state == .writing then s
                else if s.bulkGate bulk = .refused then s.opEnd n hd (refusedWord 0 false eNoSpace)
                else if s.bulkGate bulk = .waits then s
                else
                  let shadow := (ts.map fun e => s.shadowNeed c.task p e.1 e.2).foldl (· + ·) 0
                  let load := (gone.map fun e => pagesOf e.2.desc.length).foldl (· + ·) 0
                  match s.takePages (reqOf n hd) p c.acceptedAt (shadow + load) with
                  | (s, .refused) => s.opEnd n hd (refusedWord 0 false eNoSpace)
                  | (s, .waits) => s
                  | (s, .granted) => if !gone.isEmpty then s.stepLoads n p (gone.map (·.1)) else
                    let s := s.modTask c.task fun w => { w with reserved := w.reserved + shadow }
                    if (s.batchSeqs d.batch).isEmpty then (s.freezeMark d.batch 0).opEnd n hd (outcomeWord 0 false false stZeroExtent 0)
                    else s.freeze n hd c d phases

/-- STEP (R264, R323): it takes a handle, and freezes when its checks pass. -/
def execStep (h : HubId) (s : State) : Result :=
  hubCmdExec h 0x50 s fun i n c =>
    let ra := ((s.hub h).reg i.ra).toNat % 65536
    match s.issue h i n c false (.step ra i.imm) with
    | (s, none) => s
    | (s, some hd) => s.tryStep n hd ra i.imm

/-! ## Phases and sampling (R326, R327, R338) -/

/-- STEP_PHASE_START (R326): a phase that has not begun, its forerunner complete, starts as a RUN does; phases after the first
are checked as they start, and a failure aborts the task with E_ABORTED; so is a first phase that has waited (DEDUCED, log 37: check 4 of R323
was made before the wait). In Idle-serve the array is awoken first (R423). -/
def execStepPhaseStart (b : BatchId) (s : State) : Result :=
  s.ifLive <|
    let b := b.val
    match s.step? b with
    | none => s
    | some x =>
      if x.running || s.asleep then s
      else match x.phases[x.phase]?, s.cmd x.seq with
        | some (r, ds), some c =>
          if r.nstream = 0 ∨ 16 < r.nstream ∨ (s.runFault c r ds).isSome = true ∨
              (x.edge = true ∧ x.phase + 1 = x.phases.length ∧ westServes r.rect = false) then s.abortCmd x.seq eAborted 0
          else s.startPhase b x
        | _, _ => s

/-- The logits of row `j` by token, as FP32 encodings (R327): from the logits tensor, or from the token that came over the west edge;
an element that the token does not hold is a free value. -/
def State.logitOf (s : State) (b : Nat) (x : Step) (j t : Nat) : Nat :=
  let eb := if x.bf16 then 16 else 32
  let raw :=
    if x.edge then
      let fl := x.tokens.getD j []
      let per := 256 / eb
      match fl[t / per]? with
      | some w => bits w.toNat (t % per * eb) eb
      | none => Config.freeValue (s.fresh + t) % 2 ^ eb
    else
      let v := s.rd F.SRV_BATCH_CFG.VOCAB b
      ofBytes (s.tbytes x.task x.part x.logitTid ((j * v + t) * (eb / 8)) (eb / 8))
  if x.bf16 then raw * 65536 else raw

/-- SAMPLE_SEQUENCE (R327, R334 to R341): the sequence at place `row` of the sampled order is sampled, its logits complete. -/
def execSampleSequence (b : BatchId) (row : Nat) (s : State) : Result :=
  s.ifLive <|
    let b := b.val
    match s.step? b with
    | none => s
    | some x =>
      match x.sampledOrder[row]? with
      | none => s
      | some q =>
        if x.samples row = false then s
        else s.atEngine (some (3, s.sampleReq x)) fun s =>
          let v := s.rd F.SRV_BATCH_CFG.VOCAB b
          let got := match Tab.find s.srv.seqs (seqKey b q.slot) with
            | some y => s.sample y v q.rows (s.logitOf b x row)
            | none => .none_
          let s := if x.edge then { s with fresh := s.fresh + v } else s
          s.setStep b { x with parts := x.parts.map fun r => if r.slot = q.slot then { r with got := got } else r }

/-! ## The drain (R329 to R333, R345) -/

/-- What a participant's drain gives: the state, its record if it has one, the end of its REQUEST, and whether it was LATE. -/
structure Drained where
  s : State
  rec_ : Option (List Byte)
  end_ : Option SeqEnd
  late : Bool

/-- KV shadows of a sequence are swapped in, their pages going back to its reservation (R321, R330). -/
def State.commitKv (s : State) (x : Seq) : State :=
  let s := (List.range x.desc.pages).foldl (fun s j =>
    match Tab.find s.mem.kvShadows (tkey x.part (x.desc.kvTid + j)) with
    | some h => s.commitShadow x.part (x.desc.kvTid + j) h
    | none => s) s
  s.dropKvShadows x

/-- The deadline after an emission or a LATE outcome at time `t` (R331). -/
def Seq.nextDl (x : Seq) (t : Nat) : Nat := if x.desc.tokenDl = 0xFFFFFFFF then timeNone else timeAdd t x.desc.tokenDl

/-- A sequence ends at a drain (R332): it is cleared, its record is written with `flags`, and its REQUEST ends after that. -/
def State.drainEnd (s : State) (b : Nat) (q : Participant) (x : Seq) (flags error tok lp : Nat) (aborted : Bool) (detail : Nat)
    (late : Bool) : Drained :=
  let r := recordBytes x.req flags error tok lp (s.rd F.SRV_STEP_CNT.STEPS b) b q.slot x.position s.time
  ⟨s.clearSeq (seqKey b q.slot), some r, some (x.endAs aborted (if aborted then eAborted else 0) detail), late⟩

/-- A LATE outcome (R330, R331), of a SKIPPED sequence too. -/
def State.drainLate (s : State) (b : Nat) (st : Step) (q : Participant) (x : Seq) : Drained :=
  let s := s.dropKvShadows x
  let run := x.lateRun + 1
  let fl := flLate + (if q.skipped then flSkipped else 0)
  if x.desc.lateMax ≠ 0 ∧ x.desc.lateMax ≤ run then s.drainEnd b q x (fl + flDead + flEnd) eAborted 0 0 true 0xF9 true
  else if x.ending then s.drainEnd b q x (fl + flEnd) 0 0 0 false 0 true
  else
    let x' := { x with lateRun := run, dl := x.nextDl (if q.skipped then st.tf else s.time) }
    let r := recordBytes x.req fl 0 0 0 (s.rd F.SRV_STEP_CNT.STEPS b) b q.slot x.position s.time
    ⟨s.setSeq (seqKey b q.slot) x', some r, none, true⟩

/-- A committed outcome (R330 to R332, R337). -/
def State.drainCommit (s : State) (b : Nat) (q : Participant) (x : Seq) : Drained :=
  let s := s.commitKv x
  let x1 := { x with n := x.n + q.rows }
  if !q.samples then
    if x.ending then s.drainEnd b q x flEnd 0 0 0 false 0 false
    else ⟨s.setSeq (seqKey b q.slot) x1, none, none, false⟩
  else match q.got with
    | .token t lp =>
      match (if x.desc.pda then s.pdaStep x t else some (x.pdaState, x.pdaStack, false)) with
      | none => s.drainEnd b q x (flDead + flEnd) eAborted 0 0 true 0xF7 false
      | some (ps, stack, final) =>
        let stop := x.desc.stops.contains t || final
        let limit := x.desc.maxNew ≤ x.emitted + 1
        let fl := flEmit + (if stop then flStop else 0) + (if limit then flLimit else 0)
        if stop || limit || x.ending then s.drainEnd b q x (fl + flEnd) 0 t lp false 0 false
        else
          let x2 := { x1 with
            last := t, emitted := x.emitted + 1, pdaState := ps, pdaStack := stack, lateRun := 0, dl := x.nextDl s.time }
          let r := recordBytes x.req fl 0 t lp (s.rd F.SRV_STEP_CNT.STEPS b) b q.slot x.position s.time
          ⟨s.setSeq (seqKey b q.slot) x2, some r, none, false⟩
    | .fault => s.drainEnd b q x (flDead + flEnd) eAborted 0 0 true 0xF7 false
    | _ => s.drainEnd b q x (flDead + flEnd) eAborted 0 0 true 0xF8 false

/-- The drain of one participant (R330). -/
def State.drainOne (s : State) (b : Nat) (st : Step) (q : Participant) : Drained :=
  match Tab.find s.srv.seqs (seqKey b q.slot) with
  | none => ⟨s, none, none, false⟩
  | some x =>
    match x.dead with
    | some e =>
      let s := s.dropKvShadows x
      let r := recordBytes x.req (flDead + flEnd) e 0 0 (s.rd F.SRV_STEP_CNT.STEPS b) b q.slot x.position s.time
      ⟨s.clearSeq (seqKey b q.slot), some r, none, false⟩
    | none => if q.skipped || x.late s.time then s.drainLate b st q x else s.drainCommit b q x

/-- The drain of every participant, in slot order: records, ends and LATE outcomes. -/
def State.drainAll (s : State) (b : Nat) (st : Step) : List Participant → State × List (List Byte) × List SeqEnd × Nat
  | [] => (s, [], [], 0)
  | q :: qs =>
    let d := s.drainOne b st q
    let (s, rs, es, n) := d.s.drainAll b st qs
    (s, d.rec_.toList ++ rs, d.end_.toList ++ es, n + b2n d.late)

/-- STEP_DRAIN (R319, R329 to R333, R345, R490): once the phases are over and every sampled sequence is sampled, each participant
takes its outcome at this one time, the step's cost estimate moves, STEP completes, and the records wait for the ring. -/
def execStepDrain (b : BatchId) (s : State) : Result :=
  s.ifLive <|
    let b := b.val
    match s.step? b with
    | none => s
    | some x =>
      if x.ran = false ∨ (x.parts.any fun q => q.samples && q.got == .waiting) = true then s
      else
        let s := s.count F.SRV_STEP_CNT.STEPS b 1
        let k := RegKind.idx .SRV_COST b (bandOf x.rows)
        let s := if x.rows = 0 then s else s.wrSat F.SRV_COST.STEP_NS k (ewma (s.rd F.SRV_COST.STEP_NS k) (s.time - x.tf))
        let (s, recs, ends, late) := s.drainAll b x x.parts
        let s := (s.count F.SRV_STEP_CNT.LATE b late).trace 0x08 x.seq b late
        let s := (s.dropStep b).setBmem b { s.bmem b with drainAt := some s.time }
        let s := if recs.isEmpty then s else s.pushGroup b recs ends
        s.opEnd x.seq x.handle (okWord false)

/-! ## The result ring (R343, R345) -/

/-- The REQUEST of an END record becomes final (R281, R332). -/
def State.endRequest (s : State) (e : SeqEnd) : State :=
  if e.aborted then s.finish e.req .aborted stAborted e.error e.detail else s.finish e.req .completed stOK 0 0

/-- Records are written at WRITE and upward. -/
def State.putRecords (s : State) (b : Nat) (recs : List (List Byte)) : State :=
  let p := s.rd F.SRV_BATCH_CFG.PART b
  let base := s.rd F.SRV_RING_BASE.BASE b
  let size := 2 ^ s.rd F.SRV_RING_CFG.SIZE_LOG2 b
  let w := s.rd F.SRV_RING_POS.WRITE b
  (recs.zipIdx).foldl (fun s e =>
    let o := (w + e.2) % size * 32
    if s.on F.SRV_RING_CFG.LOC b then s.mainPut p (base % 2 ^ 32) o e.1 false
    else if s.window (p + 1) (base + o) 32 true then s.hostWrite (base + o) e.1
    else s.pciEvent 9 (p + 1) (base + o)) s

/-- RECORD_WRITE (R281, R345, R391, R404): the oldest records of a batch that wait are written once the ring has room for all of
them; WRITE moves in one update, the vector is sent, and the REQUESTs that ended become final. -/
def execRecordWrite (b : BatchId) (s : State) : Result :=
  s.ifLive <|
    let b := b.val
    match s.srv.groups.find? fun g => g.batch == b with
    | none => s
    | some g =>
      let p := s.rd F.SRV_BATCH_CFG.PART b
      let size := 2 ^ s.rd F.SRV_RING_CFG.SIZE_LOG2 b
      let used := posDiff (s.rd F.SRV_RING_POS.WRITE b) (s.rd F.SRV_RING_POS.READ b)
      if size < used + g.recs.length then
        if g.counted then s
        else
          let gs := s.srv.groups.map fun h => if h = g then { h with counted := true } else h
          (({ s with srv := { s.srv with groups := gs } } : State).count F.SRV_BATCH_STAT.OVERRUN b 1).raise (104 + b)
      else if s.on F.SRV_RING_CFG.LOC b = false ∧ s.busOk (p + 1) = false then s
      else
        let s : State := { s with srv := { s.srv with groups := s.srv.groups.erase g } }
        let s := s.putRecords b g.recs
        let s := s.wr F.SRV_RING_POS.WRITE b (s.rd F.SRV_RING_POS.WRITE b + g.recs.length)
        g.ends.foldl State.endRequest (s.requestVec (p + 1) (s.rd F.SRV_BATCH_CFG.VEC b))

/-- READ of a result ring moves forward, not past WRITE (R343). -/
def State.moveRead (s : State) (b v : Nat) : State :=
  let r := s.rd F.SRV_RING_POS.READ b
  if posDiff v r ≤ posDiff (s.rd F.SRV_RING_POS.WRITE b) r then s.wr F.SRV_RING_POS.READ b v else s

/-- RING_READ_WRITE (R343, R346). -/
def execRingReadWrite (f : FnId) (b : BatchId) (v : Word32) (s : State) : Result :=
  s.ifHost f.val (RegKind.addr .SRV_RING_POS b) <| if ownFn f.val (s.rd F.SRV_BATCH_CFG.PART b) then s.moveRead b v.toNat else s.deny f

/-! ## SEQEND (R333) -/

/-- SEQEND (R264, R333): the live sequence that RA names ends. With AUX[0] = 1 its REQUEST aborts at once; with 0 it ends now, or is
ENDING until its step drains. On a sequence that is ENDING already the instruction waits and returns its end, which an abort with AUX[0] = 1
brings about at once. -/
def execSeqend (h : HubId) (s : State) : Result :=
  hubCmdExec h 0x51 s fun i n c =>
    let req := ((s.hub h).reg i.ra).toNat
    let e := s.jget req
    if (s.hub h).stalled then
      if e.seq = req ∧ e.state.open_ = true then s
      else s.syncEnd h i n (outcomeWord 0 false false e.status e.error)
    else match s.findSeq req with
      | none => s.syncEnd h i n (refusedWord 0 false eShape)
      | some (k, x) =>
        if x.part ≠ c.part ∨ x.dead.isSome = true then s.syncEnd h i n (refusedWord 0 false eShape)
        else if x.ending then (if bit i.aux 0 then s.seqAbort req eAborted 0xF6 else s).stall h
        else if bit i.aux 0 then (s.seqAbort req eAborted 0xF6).syncEnd h i n (okWord false)
        else if s.inStep (k / 512) req then (s.setSeq k { x with ending := true }).syncEnd h i n (okWord false)
        else (s.seqDone req).syncEnd h i n (okWord false)

/-! ## Operations that finish (R265) -/

/-- OPERATION_COMPLETE (R169, R264, R265): an operation of a command goes on or finishes, well or not: a gear load as R157 says, a
STEP that waited is checked afresh. A load from the host finishes well only once its read has completed (R396). -/
def execOperationComplete (seq : Nat) (hd : HandleId) (ok : Bool) (s : State) : Result :=
  s.ifLive <|
    match s.aop seq hd.val with
    | none => s
    | some o =>
      if ok && s.awaitsHost o.part o then s.hostGoes
      else match s.hostDenied o.part o with
      | some (tid, a) => s.loadDenied o.part tid a
      | none => match o.op with
        | .gload tid rect plane => s.atEngine (s.opReq seq o) fun s => s.gearGoes seq hd.val o tid rect plane ok
        | .step ra imm => if o.started then s else s.tryStep seq hd.val ra imm
        | _ => s.atEngine (s.opReq seq o) fun s => s.opGoes seq hd.val o ok

end Sys2Proof.Machine
end

