-- ==== Sys2Proof/Machine/RegWrite.lean ====
section
/-! DEFINITION. REGISTER_WRITE (R9, R10, R383, R384, R403): a host write of a register, under the access rules of its chapter, the access
codes of its fields, and the limits and actions that its description names. -/

namespace Sys2Proof.Machine

/-- A register value after a write, field by field (R9, R10): RW stores, W1C clears where 1 is written, the rest stays. -/
def storeFields (old v : Nat) (fs : List FieldInfo) : Nat :=
  fs.foldl (fun x f => match f.access with
    | .rw => setBits x f.lo f.w (bits v f.lo f.w)
    | .w1c => setBits x f.lo f.w (Nat.land (bits x f.lo f.w) (2 ^ f.w - 1 - bits v f.lo f.w))
    | _ => x) old

/-- A register written under the access codes of its fields. -/
def State.store (s : State) (k : RegKind) (i v : Nat) : State := s.setReg k i (storeFields (s.reg k i) v k.info.flds)

/-- A field held between limits after a write. -/
def State.held_ (s : State) (f : Fld) (i lo hi : Nat) : State := s.wr f i (clampTo lo hi (s.rd f i))

/-- Which functions may write a register (R80, R106, R142, R196, R221, R242, R287, R312, R346, R378, R403, R416, R446, R473, R494, R502). -/
def State.mayWrite (s : State) (f : Nat) (k : RegKind) (i : Nat) : Bool :=
  match k with
  | .COG_NUM_CFG | .RLT_XFER_CFG | .SEC_MEAS_EXT_CTRL | .SEC_MEAS_EXT_DATA | .INTC_SWSET => ownFn f i
  | .HUB_EVENT | .HUB_EVENT_ADD => ownFn f (i / 256)
  | .Q_BASE | .Q_CFG | .Q_CTRL | .Q_STATE | .Q_POS | .DOORBELL => ownFn f (qPart i)
  | .SRV_RING_POS => ownFn f (s.rd F.SRV_BATCH_CFG.PART i)
  | .RLT_EDGE_BIND => f == 0 || (s.rd F.SEC_PART_STATE.STATE (f - 1) != 0 && s.eastOf (f - 1) i)
  | .PCI_WIN_MAP => f == 0 || f == i / 16
  | _ => f == 0

/-- A queue's configuration is written only while the queue is DISABLED. -/
def State.qIdle (s : State) (q : Nat) : Bool := s.rd F.Q_STATE.STATE q == 0
/-- A batch's configuration is written only while the batch is DISABLED (R314). -/
def State.bIdle (s : State) (b : Nat) : Bool := s.rd F.SRV_BATCH_CTRL.STATE b == 0

/-- The action bits of a control register, each carried out in the order given. -/
def State.acts_ (s : State) (v : Nat) (l : List (Nat × (State → State))) : State :=
  l.foldl (fun s e => if bit v e.1 then e.2 s else s) s

/-- The registers of the array, the tiers, hubs, queues and partitions (chapters 02 to 10). -/
def State.writeCore (s : State) (k : RegKind) (i v : Nat) : State :=
  match k with
  | .COG_STALL_CFG => (s.store k i v).held_ F.COG_STALL_CFG.STREAM_STALL_LIMIT i 1 60000
  | .COG_FW_CTRL => (s.store k i v).held_ F.COG_FW_CTRL.ENTRY i 1 255
  | .GEAR_DL_CFG => (s.store k i v).held_ F.GEAR_DL_CFG.DEADLOCK_WINDOW i 1 1000
  | .POOL_FLOOR => s.writeFloor i v
  | .BLK_RD_CFG =>
    (((s.store k i v).held_ F.BLK_RD_CFG.RD_KREADS i 100 16000).held_ F.BLK_RD_CFG.SCRUB_DAYS i 1 30).held_ F.BLK_RD_CFG.BUDGET_PCT i 1 25
  | .LPX_CFG => ((s.store k i v).held_ F.LPX_CFG.REPLAY_TRIG i 1 65535).held_ F.LPX_CFG.TRACK_MS i 10 255
  | .LPX_CH_CTRL => (s.store k i v).acts_ v [(0, (·.shortReq i)), (1, (·.fullReq i)), (2, (·.retireReq i))]
  | .HUB_CFG => s.wr F.HUB_CFG.VBASE i (min 0x4000 (bits v 0 15 / 32 * 32))
  | .HUB_EVENT_ADD => s.eventAdd (i / 256) (i % 256) v
  | .Q_BASE => if s.qIdle i then s.store k i v else s
  | .Q_CFG =>
    if s.qIdle i then ((s.store k i v).held_ F.Q_CFG.CLASS i 0 2).held_ F.Q_CFG.SIZE_LOG2 i 6 12 else s
  | .Q_CTRL => s.acts_ v [(2, (·.cancelQueue i)), (1, (·.askDisable i)), (0, (·.askEnable i))]
  | .DOORBELL => if s.mainUp then s.ring i (v % 2 ^ 32) else s
  | .HUB_CTRL => if s.hubHeld i then s else (s.store k i v).acts_ v [(1, (·.askHubOff i)), (0, (·.askHubOn i))]
  | .HUB_PART_CFG =>
    let s := (s.store k i v).held_ F.HUB_PART_CFG.LEAD_HUBS i 0 8
    ((s.held_ F.HUB_PART_CFG.LEAD_HOLD i 1 255).held_ F.HUB_PART_CFG.SLICE_US i 10 65535).held_ F.HUB_PART_CFG.CMD_MAXLEN i 10 10000
  | .HUB_CYCLE => if s.on F.HUB_CYCLE_CTRL.PENDING 0 then s else s.store k i v
  | .HUB_CYCLE_CTRL => if bit v 31 then s.put F.HUB_CYCLE_CTRL.PENDING 0 true else s
  | .SRV_BATCH_CFG =>
    if s.bIdle i then
      ((s.store k i v).held_ F.SRV_BATCH_CFG.VOCAB i 1 262144 |>.held_ F.SRV_BATCH_CFG.MAXP i 1 65535).held_ F.SRV_BATCH_CFG.COLD_US i 1 65535
    else s
  | .SRV_BATCH_CTRL => (s.store k i v).acts_ v [(1, (·.batchDisable i)), (0, (·.batchEnable i))]
  | .SRV_RING_BASE => if s.bIdle i then s.store k i v else s
  | .SRV_RING_CFG => if s.bIdle i then (s.store k i v).held_ F.SRV_RING_CFG.SIZE_LOG2 i 8 16 else s
  | .SRV_RING_POS => s.moveRead i (bits v 32 32)
  | _ => s.store k i v

/-- VER_MAX and SLICE_VER hold 2 or 3 (R378). -/
def verOf (v : Nat) : Nat := if v = 2 then 2 else 3

/-- The registers of the fabric, the host interface and the interrupt controller (chapters 12 to 14), written by function `f`. -/
def State.writeLink (s : State) (f : Nat) (k : RegKind) (i v : Nat) : State :=
  match k with
  | .RLT_PORT_CFG =>
    let s := (s.store k i v).wr F.RLT_PORT_CFG.VER_MAX i (verOf (bits v 60 3))
    let s := s.wr F.RLT_PORT_CFG.PATTERN i (if bits v 58 2 = 3 then 1 else bits v 58 2)
    let s := (s.held_ F.RLT_PORT_CFG.BER_EXP i 3 15).held_ F.RLT_PORT_CFG.TEST_S i 1 3600
    ((s.held_ F.RLT_PORT_CFG.PEER_ERR_MAX i 1 255).held_ F.RLT_PORT_CFG.MSG_TIMEOUT i 1 255).held_ F.RLT_PORT_CFG.REPLAY_NS i 500 65535
  | .RLT_PORT_CTRL => (s.store k i v).acts_ v [(1, (·.disablePort i)), (2, (·.testPort i)), (0, (·.enablePort i))]
  | .RLT_XFER_CFG => s.writeXferCfg i v
  | .RLT_EDGE_BIND => (s.store k i v).held_ F.RLT_EDGE_BIND.VC i 0 2
  | .PCI_MBX_CTRL => (s.store k i v).acts_ v [(0, (·.mailboxGo))]
  | .PCI_WIN_MAP => s.writeWinMap (i / 16) (i % 16) v
  | .INTC_SRC_CFG => s.writeSrcCfg i v
  | .INTC_MASK => let (b, s) := s.draw 1; s.writeMask i (v % 2 ^ 32) (b == 1)
  | .INTC_TGT_CFG =>
    if 8 ≤ i then s.deny f else (s.wr F.INTC_TGT_CFG.MODE i (bits v 31 1)).wr F.INTC_TGT_CFG.THRESHOLD i (bits v 0 4)
  | .INTC_CPL => if 8 ≤ i then s.deny f else s.writeCpl i (bits v 0 9)
  | .INTC_SWSET => s.writeSwset i v
  | _ => s.store k i v

/-- The registers of power, security and observation (chapters 15 to 18). -/
def State.writeMgmt (s : State) (k : RegKind) (i v : Nat) : State :=
  match k with
  | .PWR_CFG => s.writePwrCfg v
  | .PWR_HOST_CAP => s.writeHostCap v
  | .PWR_RM_CFG => s.writeRmCfg v
  | .PWR_STEP_CAP => s.writeStepCap i (bits v 0 16)
  | .PWR_THERM_CFG =>
    let s := (s.store k i v).held_ F.PWR_THERM_CFG.T_WARN i 60 100
    s.held_ F.PWR_THERM_CFG.T_CTRL i (s.rd F.PWR_THERM_CFG.T_WARN i) 103
  | .CLK_CAP_CTRL => s.acts_ v [(0, (·.captureTime))]
  | .SEC_TOKEN_CTRL => s.writeTokenCtrl v
  | .SEC_MEAS_EXT_CTRL => s.acts_ v [(0, (·.measGo i))]
  | .OBS_SAMPLE_CTRL => s.writeStream false v
  | .OBS_TRACE_CTRL => s.writeStream true v
  | .OBS_BUF_CFG =>
    let tid := s.rd F.OBS_BUF_CFG.TID i
    let busy := s.rd (fState (i == 1)) 0 != 0
    let s := s.store k i v
    if busy then s.wr F.OBS_BUF_CFG.TID i tid else s
  | .OBS_GPIO_CLAIM => s.claimPin i (bits v 0 4)
  | .OBS_GPIO_CFG => s.writeGpioCfg i v
  | _ => s.store k i v

/-- The chapters whose registers `writeLink` and `writeMgmt` take. -/
def kindIsLink : RegKind → Bool
  | .RLT_DEV_ID | .RLT_PORT_CFG | .RLT_PORT_CTRL | .RLT_PORT_STATE | .RLT_XFER_CFG | .RLT_EDGE_BIND | .PCI_MBX_CTRL | .PCI_MBX_STATUS
  | .PCI_WIN_MAP | .PCI_IDE_STATE | .INTC_SRC_CFG | .INTC_MASK | .INTC_TGT_CFG | .INTC_CPL | .INTC_SWSET => true
  | _ => false
/-- Chapters 15 to 18. -/
def kindIsMgmt : RegKind → Bool
  | .PWR_CFG | .PWR_HOST_CAP | .PWR_RM_CFG | .PWR_STEP_CAP | .PWR_STATUS | .PWR_THERM_CFG | .CLK_CAP_CTRL | .SEC_TOKEN_CTRL
  | .SEC_TOKEN_STATUS | .SEC_MEAS_EXT_CTRL | .OBS_FATAL_CFG | .OBS_SAMPLE_CTRL | .OBS_TRACE_CTRL | .OBS_TRACE_MASK | .OBS_TRIG_MASK
  | .OBS_BUF_CFG | .OBS_BUF_POS | .OBS_GPIO_CLAIM | .OBS_GPIO_CFG => true
  | _ => false

/-- A register of 32 or 64 bits is written by function `f`. A direct write of RWA fields is refused (R10, R464). -/
def State.writeReg (s : State) (f : Nat) (k : RegKind) (i off v : Nat) : State :=
  if rwaMask k ≠ 0 then s.writeRwa k i off v
  else if kindIsLink k then s.writeLink f k i v
  else if kindIsMgmt k then s.writeMgmt k i v
  else s.writeCore k i v

/-- Bytes of a 256-bit value replaced from byte `o` on. -/
def putBytes (x : Word256) (o : Nat) (bs : List Byte) : Word256 :=
  let old := toBytes 32 x.toNat
  BitVec.ofNat 256 (ofBytes (old.take o ++ bs ++ old.drop (o + bs.length)))

/-- The writable registers wider than 64 bits: the mailbox request, the token buffer, the extension data (R393, R453, R459, R473);
the token buffer stays while BUSY (R467). -/
def State.writeWide (s : State) (k : RegKind) (i o : Nat) (bs : List Byte) : State :=
  match k with
  | .PCI_MBX_REQ => { s with pci := { s.pci with req := s.pci.req.writeN o bs } }
  | .SEC_TOKEN_BUF => if s.sec.apply.isSome then s else { s with sec := { s.sec with token := s.sec.token.writeN o bs } }
  | .SEC_MEAS_EXT_DATA => { s with sec := { s.sec with ext := Tab.set 0 s.sec.ext i (putBytes (Tab.get 0 s.sec.ext i) o bs) } }
  | _ => s

/-- An access that R384 allows: naturally aligned, inside one register, 4 bytes of a 32-bit register, 8 of a 64-bit one. Of a wider
register, and of the MSI-X table, 4 or 8 bytes (DEDUCED, log 65). -/
def accessOk (bar off size : Nat) : Bool :=
  (size == 4 || size == 8) && off % size == 0 && match regAt bar off with
    | some (k, _, o) =>
      if k.info.width = 32 then size == 4 && o == 0
      else if k.info.width = 64 then size == 8 && o == 0
      else decide (o + size ≤ k.info.width / 8)
    | none => true

/-- One 32-bit word of the MSI-X table of function `f` (R383): the low and high address, the data, and the vector control, whose bit 0
masks. -/
def State.writeMsix (s : State) (f o v : Nat) : State :=
  let k := f * 64 + o / 16
  let (a, d, u) := Tab.get (0, 0, false) s.pci.msixTab k
  let e : Nat × Nat × Bool := match o / 4 % 4 with
    | 0 => (setBits a 0 32 v, d, u)
    | 1 => (setBits a 32 32 v, d, u)
    | 2 => (a, v, u)
    | _ => (a, d, !bit v 0)
  { s with pci := { s.pci with msixTab := Tab.set (0, 0, false) s.pci.msixTab k e } }

/-- A write that R384 allows, by function `f`, at an offset of BAR0 or BAR4; where no register stands it is ignored (R382, R383). -/
def State.hostWriteReg (s : State) (f bar off size v : Nat) : State :=
  match regAt bar off with
  | some (k, i, o) =>
    if !s.mayWrite f k i then s.deny f
    else if 64 < k.info.width then s.writeWide k i o (toBytes size v)
    else s.writeReg f k i off v
  | none =>
    if bar = 4 ∧ 0x20000 ≤ off ∧ off < 0x20400 ∧ s.mainUp = true then
      let s := s.writeMsix f (off - 0x20000) (v % 2 ^ 32)
      if size = 8 then s.writeMsix f (off - 0x20000 + 4) (v / 2 ^ 32) else s
    else s

/-- REGISTER_WRITE (R10, R384, R396): `size` bytes of `v` at an offset of BAR0 or BAR4. An access that R384 does not allow is
BAD_ACCESS. Without a main tier BAR4 does not respond (R223). Number 7 stands for configuration space (DESIGN CHOICE, log 91), and
8 for a management core's own write at that offset of BAR0 (DESIGN CHOICE, log 93). -/
def execRegisterWrite (f : FnId) (bar : Nat) (off : Nat) (size : Nat) (v : Word64) (s : State) : Result :=
  if bar = 7 ∧ off < 0x1000 ∧ size = 4 then s.ifConfig f (s.cfgWrite f off (v.toNat % 2 ^ 32))
  else if bar = 8 ∧ off < 0x4000000 ∧ off % 4 = 0 ∧ size = 4 then s.ifLive (s.coreWrite off (v.toNat % 2 ^ 32))
  else if !(decide (bar = 0 ∧ off + size ≤ 0x4000000) || decide (bar = 4 ∧ off + size ≤ 0x400000)) then .fault .illFormed
  else s.ifHost f.val off <|
    if !s.mainUp && bar != 0 then s
    else if accessOk bar off size then s.hostWriteReg f bar off size (v.toNat % 2 ^ (8 * size)) else s.pciEvent 3 f off

end Sys2Proof.Machine
end

