-- ==== Sys2Proof/Machine/Dispatch.lean ====
section
/-! DEFINITION. The meaning of every command: one arm for each constructor of Instr. -/

namespace Sys2Proof.Machine

def exec (i : Instr) (s : State) : Host.Outcome State Fault Refusal :=
  match i with
  | .flitArrive l bad => Sys2Proof.Machine.execFlitArrive l bad s
  | .flitReplayAbandon l => Sys2Proof.Machine.execFlitReplayAbandon l s
  | .creditReturn c side => Sys2Proof.Machine.execCreditReturn c side s
  | .routerCopy c q => Sys2Proof.Machine.execRouterCopy c q s
  | .flitDiscardNoRoute c q => Sys2Proof.Machine.execFlitDiscardNoRoute c q s
  | .staleFlitDiscard c q => Sys2Proof.Machine.execStaleFlitDiscard c q s
  | .turnMarkArrive l => Sys2Proof.Machine.execTurnMarkArrive l s
  | .seqTokenStart c => Sys2Proof.Machine.execSeqTokenStart c s
  | .nop c => Sys2Proof.Machine.execNop c s
  | .loop c => Sys2Proof.Machine.execLoop c s
  | .br c => Sys2Proof.Machine.execBr c s
  | .cogEnd c => Sys2Proof.Machine.execCogEnd c s
  | .stop c => Sys2Proof.Machine.execStop c s
  | .aimm c => Sys2Proof.Machine.execAimm c s
  | .aadd c => Sys2Proof.Machine.execAadd c s
  | .aaddr c => Sys2Proof.Machine.execAaddr c s
  | .pcmp c => Sys2Proof.Machine.execPcmp c s
  | .pset c => Sys2Proof.Machine.execPset c s
  | .acnt c => Sys2Proof.Machine.execAcnt c s
  | .mma c => Sys2Proof.Machine.execMma c s
  | .accrd c => Sys2Proof.Machine.execAccrd c s
  | .accz c => Sys2Proof.Machine.execAccz c s
  | .vmov c => Sys2Proof.Machine.execVmov c s
  | .vadd c => Sys2Proof.Machine.execVadd c s
  | .vsub c => Sys2Proof.Machine.execVsub c s
  | .vmul c => Sys2Proof.Machine.execVmul c s
  | .vfma c => Sys2Proof.Machine.execVfma c s
  | .vmax c => Sys2Proof.Machine.execVmax c s
  | .vmin c => Sys2Proof.Machine.execVmin c s
  | .vcmp c => Sys2Proof.Machine.execVcmp c s
  | .vsel c => Sys2Proof.Machine.execVsel c s
  | .vcvt c => Sys2Proof.Machine.execVcvt c s
  | .vred c => Sys2Proof.Machine.execVred c s
  | .vexp2 c => Sys2Proof.Machine.execVexp2 c s
  | .vrcp c => Sys2Proof.Machine.execVrcp c s
  | .vrsq c => Sys2Proof.Machine.execVrsq c s
  | .vbcast c => Sys2Proof.Machine.execVbcast c s
  | .vimm c => Sys2Proof.Machine.execVimm c s
  | .vtst c => Sys2Proof.Machine.execVtst c s
  | .uread c => Sys2Proof.Machine.execUread c s
  | .uwrite c => Sys2Proof.Machine.execUwrite c s
  | .instrResultWrite c n => Sys2Proof.Machine.execInstrResultWrite c n s
  | .uwriteFlitMove c => Sys2Proof.Machine.execUwriteFlitMove c s
  | .uPortSlot c read => Sys2Proof.Machine.execUPortSlot c read s
  | .drainFlit c => Sys2Proof.Machine.execDrainFlit c s
  | .freewheelEnter c => Sys2Proof.Machine.execFreewheelEnter c s
  | .freewheelExit c => Sys2Proof.Machine.execFreewheelExit c s
  | .streamStallTimeout r => Sys2Proof.Machine.execStreamStallTimeout r s
  | .spillStart c side => Sys2Proof.Machine.execSpillStart c side s
  | .spillEnd c side => Sys2Proof.Machine.execSpillEnd c side s
  | .deadlockTimeout r => Sys2Proof.Machine.execDeadlockTimeout r s
  | .edgeTurnSend c side => Sys2Proof.Machine.execEdgeTurnSend c side s
  | .outputTurn c side => Sys2Proof.Machine.execOutputTurn c side s
  | .planeDrainDone r => Sys2Proof.Machine.execPlaneDrainDone r s
  | .edgeSourceFlit r k => Sys2Proof.Machine.execEdgeSourceFlit r k s
  | .edgeSinkFlit c side => Sys2Proof.Machine.execEdgeSinkFlit c side s
  | .doorbell f q tail => Sys2Proof.Machine.execDoorbell f q tail s
  | .commandAccept q => Sys2Proof.Machine.execCommandAccept q s
  | .commandReady q => Sys2Proof.Machine.execCommandReady q s
  | .hubSelect h => Sys2Proof.Machine.execHubSelect h s
  | .commandDispatch h readFail => Sys2Proof.Machine.execCommandDispatch h readFail s
  | .dispatchHoldGrant h => Sys2Proof.Machine.execDispatchHoldGrant h s
  | .hubNop h => Sys2Proof.Machine.execHubNop h s
  | .li h => Sys2Proof.Machine.execLi h s
  | .lih h => Sys2Proof.Machine.execLih h s
  | .add h => Sys2Proof.Machine.execAdd h s
  | .sub h => Sys2Proof.Machine.execSub h s
  | .hubAnd h => Sys2Proof.Machine.execHubAnd h s
  | .hubOr h => Sys2Proof.Machine.execHubOr h s
  | .hubXor h => Sys2Proof.Machine.execHubXor h s
  | .shl h => Sys2Proof.Machine.execShl h s
  | .shr h => Sys2Proof.Machine.execShr h s
  | .mul h => Sys2Proof.Machine.execMul h s
  | .setc h => Sys2Proof.Machine.execSetc h s
  | .ld h => Sys2Proof.Machine.execLd h s
  | .st h => Sys2Proof.Machine.execSt h s
  | .time h => Sys2Proof.Machine.execTime h s
  | .hubBr h => Sys2Proof.Machine.execHubBr h s
  | .call h => Sys2Proof.Machine.execCall h s
  | .ret h => Sys2Proof.Machine.execRet h s
  | .hubEnd h => Sys2Proof.Machine.execHubEnd h s
  | .abort h => Sys2Proof.Machine.execAbort h s
  | .iret h => Sys2Proof.Machine.execIret h s
  | .jnote h => Sys2Proof.Machine.execJnote h s
  | .define h => Sys2Proof.Machine.execDefine h s
  | .load h => Sys2Proof.Machine.execLoad h s
  | .flush h => Sys2Proof.Machine.execFlush h s
  | .evict h => Sys2Proof.Machine.execEvict h s
  | .free h => Sys2Proof.Machine.execFree h s
  | .copy h => Sys2Proof.Machine.execCopy h s
  | .trd h => Sys2Proof.Machine.execTrd h s
  | .twr h => Sys2Proof.Machine.execTwr h s
  | .gload h => Sys2Proof.Machine.execGload h s
  | .gearLoadResume seq hd => Sys2Proof.Machine.execGearLoadResume seq hd s
  | .shift h => Sys2Proof.Machine.execShift h s
  | .shiftResume h => Sys2Proof.Machine.execShiftResume h s
  | .run h => Sys2Proof.Machine.execRun h s
  | .drain h => Sys2Proof.Machine.execDrain h s
  | .wait h => Sys2Proof.Machine.execWait h s
  | .fence h => Sys2Proof.Machine.execFence h s
  | .evsig h => Sys2Proof.Machine.execEvsig h s
  | .evwait h => Sys2Proof.Machine.execEvwait h s
  | .notify h => Sys2Proof.Machine.execNotify h s
  | .step h => Sys2Proof.Machine.execStep h s
  | .seqend h => Sys2Proof.Machine.execSeqend h s
  | .hlib h => Sys2Proof.Machine.execHlib h s
  | .illegalInstruction h => Sys2Proof.Machine.execIllegalInstruction h s
  | .operationComplete seq hd ok => Sys2Proof.Machine.execOperationComplete seq hd ok s
  | .runComplete r => Sys2Proof.Machine.execRunComplete r s
  | .handleWaitDone h slot => Sys2Proof.Machine.execHandleWaitDone h slot s
  | .handleWaitTimeout h slot => Sys2Proof.Machine.execHandleWaitTimeout h slot s
  | .commandWatchdog seq => Sys2Proof.Machine.execCommandWatchdog seq s
  | .taskLinkStall q => Sys2Proof.Machine.execTaskLinkStall q s
  | .writeBackDone p tid ok => Sys2Proof.Machine.execWriteBackDone p tid ok s
  | .storedDataFailure p tid page seq => Sys2Proof.Machine.execStoredDataFailure p tid page seq s
  | .tensorRefetchDone p tid ok => Sys2Proof.Machine.execTensorRefetchDone p tid ok s
  | .queueEnable f q => Sys2Proof.Machine.execQueueEnable f q s
  | .queueDisable f q => Sys2Proof.Machine.execQueueDisable f q s
  | .queueCancel f q => Sys2Proof.Machine.execQueueCancel f q s
  | .queueStopDone q => Sys2Proof.Machine.execQueueStopDone q s
  | .hubEventAdd f p e v => Sys2Proof.Machine.execHubEventAdd f p e v s
  | .hubDisable f h => Sys2Proof.Machine.execHubDisable f h s
  | .hubEnable f h => Sys2Proof.Machine.execHubEnable f h s
  | .hubOfflineDone h => Sys2Proof.Machine.execHubOfflineDone h s
  | .hubParityFail h => Sys2Proof.Machine.execHubParityFail h s
  | .commit f => Sys2Proof.Machine.execCommit f s
  | .cycleTableActivate => Sys2Proof.Machine.execCycleTableActivate s
  | .slotBoundary => Sys2Proof.Machine.execSlotBoundary s
  | .partitionStopDone p => Sys2Proof.Machine.execPartitionStopDone p s
  | .poolFloorWrite f p v => Sys2Proof.Machine.execPoolFloorWrite f p v s
  | .batchEnable f b => Sys2Proof.Machine.execBatchEnable f b s
  | .batchDisable f b => Sys2Proof.Machine.execBatchDisable f b s
  | .batchStopDone b => Sys2Proof.Machine.execBatchStopDone b s
  | .stepPhaseStart b => Sys2Proof.Machine.execStepPhaseStart b s
  | .sampleSequence b row => Sys2Proof.Machine.execSampleSequence b row s
  | .stepDrain b => Sys2Proof.Machine.execStepDrain b s
  | .recordWrite b => Sys2Proof.Machine.execRecordWrite b s
  | .ringReadWrite f b v => Sys2Proof.Machine.execRingReadWrite f b v s
  | .bulkSectorRead addr rung => Sys2Proof.Machine.execBulkSectorRead addr rung s
  | .readDisturbThreshold ch blk => Sys2Proof.Machine.execReadDisturbThreshold ch blk s
  | .bulkRelocate ch blk ok => Sys2Proof.Machine.execBulkRelocate ch blk ok s
  | .scrubPatrol ch blk marginal => Sys2Proof.Machine.execScrubPatrol ch blk marginal s
  | .blockRetire ch blk => Sys2Proof.Machine.execBlockRetire ch blk s
  | .bulkWriteBack p tid ok => Sys2Proof.Machine.execBulkWriteBack p tid ok s
  | .blkFormat tag payload => Sys2Proof.Machine.execBlkFormat tag payload s
  | .catCreate tag payload => Sys2Proof.Machine.execCatCreate tag payload s
  | .catWrite tag payload => Sys2Proof.Machine.execCatWrite tag payload s
  | .catSeal tag payload => Sys2Proof.Machine.execCatSeal tag payload s
  | .catGrant tag payload => Sys2Proof.Machine.execCatGrant tag payload s
  | .catDelete tag payload => Sys2Proof.Machine.execCatDelete tag payload s
  | .catDeleteDone slot => Sys2Proof.Machine.execCatDeleteDone slot s
  | .mbxUnknownOp op tag => Sys2Proof.Machine.execMbxUnknownOp op tag s
  | .wck2dqTrack ch counts => Sys2Proof.Machine.execWck2dqTrack ch counts s
  | .shortRetrain ch => Sys2Proof.Machine.execShortRetrain ch s
  | .fullRetrain ch => Sys2Proof.Machine.execFullRetrain ch s
  | .retrainDone ch ok => Sys2Proof.Machine.execRetrainDone ch ok s
  | .lpxShortReq f ch => Sys2Proof.Machine.execLpxShortReq f ch s
  | .lpxFullReq f ch => Sys2Proof.Machine.execLpxFullReq f ch s
  | .lpxRetireReq f ch => Sys2Proof.Machine.execLpxRetireReq f ch s
  | .channelRetire ch => Sys2Proof.Machine.execChannelRetire ch s
  | .channelRetireSwitch ch => Sys2Proof.Machine.execChannelRetireSwitch ch s
  | .mr4Poll ch codes => Sys2Proof.Machine.execMr4Poll ch codes s
  | .refresh ch => Sys2Proof.Machine.execRefresh ch s
  | .frameReceive port bytes fec => Sys2Proof.Machine.execFrameReceive port bytes fec s
  | .frameTransmit port => Sys2Proof.Machine.execFrameTransmit port s
  | .replayTimeout port => Sys2Proof.Machine.execReplayTimeout port s
  | .portRetrain port => Sys2Proof.Machine.execPortRetrain port s
  | .portDownTimeout port => Sys2Proof.Machine.execPortDownTimeout port s
  | .portDownRetry port => Sys2Proof.Machine.execPortDownRetry port s
  | .hello port bytes => Sys2Proof.Machine.execHello port bytes s
  | .creditReq port => Sys2Proof.Machine.execCreditReq port s
  | .credit port bytes => Sys2Proof.Machine.execCredit port bytes s
  | .creditReportStale port vc => Sys2Proof.Machine.execCreditReportStale port vc s
  | .creditPeriodic port => Sys2Proof.Machine.execCreditPeriodic port s
  | .testReq port bytes => Sys2Proof.Machine.execTestReq port bytes s
  | .testAgree port => Sys2Proof.Machine.execTestAgree port s
  | .testRefuse port => Sys2Proof.Machine.execTestRefuse port s
  | .testAgreeTimeout port => Sys2Proof.Machine.execTestAgreeTimeout port s
  | .portTestDone port errors checked => Sys2Proof.Machine.execPortTestDone port errors checked s
  | .portEnable f port => Sys2Proof.Machine.execPortEnable f port s
  | .portDisable f port => Sys2Proof.Machine.execPortDisable f port s
  | .portTest f port => Sys2Proof.Machine.execPortTest f port s
  | .portStopDone port => Sys2Proof.Machine.execPortStopDone port s
  | .put n => Sys2Proof.Machine.execPut n s
  | .event n => Sys2Proof.Machine.execEvent n s
  | .completion n => Sys2Proof.Machine.execCompletion n s
  | .token n => Sys2Proof.Machine.execToken n s
  | .messageTimeout n => Sys2Proof.Machine.execMessageTimeout n s
  | .putTimeout p pos => Sys2Proof.Machine.execPutTimeout p pos s
  | .eastTokenOut l => Sys2Proof.Machine.execEastTokenOut l s
  | .xferCfgEnable f p v => Sys2Proof.Machine.execXferCfgEnable f p v s
  | .pmdTrainingDone port half => Sys2Proof.Machine.execPmdTrainingDone port half s
  | .bar2Read f off len => Sys2Proof.Machine.execBar2Read f off len s
  | .bar2Write f off bytes => Sys2Proof.Machine.execBar2Write f off bytes s
  | .winMapWrite f g slot v => Sys2Proof.Machine.execWinMapWrite f g slot v s
  | .faultyTlp f kind addr read => Sys2Proof.Machine.execFaultyTlp f kind addr read s
  | .dmaCompletion f tag ok => Sys2Proof.Machine.execDmaCompletion f tag ok s
  | .completionTimeout tag => Sys2Proof.Machine.execCompletionTimeout tag s
  | .busMasterChange f on => Sys2Proof.Machine.execBusMasterChange f on s
  | .dStateChange f hot => Sys2Proof.Machine.execDStateChange f hot s
  | .pcieLinkTrain speed width flit retrain => Sys2Proof.Machine.execPcieLinkTrain speed width flit retrain s
  | .ideIntegrityFail stream => Sys2Proof.Machine.execIdeIntegrityFail stream s
  | .ideKm stream key => Sys2Proof.Machine.execIdeKm stream key s
  | .msixSend f vec => Sys2Proof.Machine.execMsixSend f vec s
  | .functionLevelReset f => Sys2Proof.Machine.execFunctionLevelReset f s
  | .warmDeviceReset cause => Sys2Proof.Machine.execWarmDeviceReset cause s
  | .coldReset => Sys2Proof.Machine.execColdReset s
  | .intcSelect t => Sys2Proof.Machine.execIntcSelect t s
  | .intcLand t => Sys2Proof.Machine.execIntcLand t s
  | .intcWithdraw t => Sys2Proof.Machine.execIntcWithdraw t s
  | .intcCpl f t src => Sys2Proof.Machine.execIntcCpl f t src s
  | .intcMask f w v lands => Sys2Proof.Machine.execIntcMask f w v lands s
  | .intcSwset f p v => Sys2Proof.Machine.execIntcSwset f p v s
  | .capture f => Sys2Proof.Machine.execCapture f s
  | .modeWrite f v => Sys2Proof.Machine.execModeWrite f v s
  | .hostCapWrite f v => Sys2Proof.Machine.execHostCapWrite f v s
  | .idleServeEnter => Sys2Proof.Machine.execIdleServeEnter s
  | .idleServeWake => Sys2Proof.Machine.execIdleServeWake s
  | .governorSample watts mv amps => Sys2Proof.Machine.execGovernorSample watts mv amps s
  | .governorEval est => Sys2Proof.Machine.execGovernorEval est s
  | .divisorChange mv => Sys2Proof.Machine.execDivisorChange mv s
  | .brakeRelease => Sys2Proof.Machine.execBrakeRelease s
  | .cap eid v => Sys2Proof.Machine.execCap eid v s
  | .ramp eid v => Sys2Proof.Machine.execRamp eid v s
  | .pldmMode eid v => Sys2Proof.Machine.execPldmMode eid v s
  | .heartbeat eid => Sys2Proof.Machine.execHeartbeat eid s
  | .pwrStepChange code => Sys2Proof.Machine.execPwrStepChange code s
  | .throttleN low => Sys2Proof.Machine.execThrottleN low s
  | .throttleRelease => Sys2Proof.Machine.execThrottleRelease s
  | .coolantAlertN low => Sys2Proof.Machine.execCoolantAlertN low s
  | .coolantCeilingLift => Sys2Proof.Machine.execCoolantCeilingLift s
  | .kickstandEnter => Sys2Proof.Machine.execKickstandEnter s
  | .kickstandSafe => Sys2Proof.Machine.execKickstandSafe s
  | .tempSample readings => Sys2Proof.Machine.execTempSample readings s
  | .hardwareTrip tj => Sys2Proof.Machine.execHardwareTrip tj s
  | .haltJournalRead tag payload => Sys2Proof.Machine.execHaltJournalRead tag payload s
  | .refclkLoss => Sys2Proof.Machine.execRefclkLoss s
  | .bootRom => Sys2Proof.Machine.execBootRom s
  | .firmwareBoot => Sys2Proof.Machine.execFirmwareBoot s
  | .attest tag payload => Sys2Proof.Machine.execAttest tag payload s
  | .certRead tag payload => Sys2Proof.Machine.execCertRead tag payload s
  | .authProvision tag payload => Sys2Proof.Machine.execAuthProvision tag payload s
  | .apply f => Sys2Proof.Machine.execApply f s
  | .newNonce f => Sys2Proof.Machine.execNewNonce f s
  | .measExtend f p => Sys2Proof.Machine.execMeasExtend f p s
  | .rwaWriteRefused f off v => Sys2Proof.Machine.execRwaWriteRefused f off v s
  | .debugInstruction => Sys2Proof.Machine.execDebugInstruction s
  | .fatalLatch cause detail => Sys2Proof.Machine.execFatalLatch cause detail s
  | .fatalJournalSave => Sys2Proof.Machine.execFatalJournalSave s
  | .mgmtWatchdogExpire => Sys2Proof.Machine.execMgmtWatchdogExpire s
  | .railOutOfRange sram => Sys2Proof.Machine.execRailOutOfRange sram s
  | .updWrite tag payload => Sys2Proof.Machine.execUpdWrite tag payload s
  | .updVerify tag => Sys2Proof.Machine.execUpdVerify tag s
  | .updActivate tag payload => Sys2Proof.Machine.execUpdActivate tag payload s
  | .activationDone => Sys2Proof.Machine.execActivationDone s
  | .marginTrim short => Sys2Proof.Machine.execMarginTrim short s
  | .sensorCheck readings => Sys2Proof.Machine.execSensorCheck readings s
  | .queueDepthSample => Sys2Proof.Machine.execQueueDepthSample s
  | .obsStreamEnable f trace v => Sys2Proof.Machine.execObsStreamEnable f trace v s
  | .obsStreamStopDone trace => Sys2Proof.Machine.execObsStreamStopDone trace s
  | .gpioClaim f n v => Sys2Proof.Machine.execGpioClaim f n v s
  | .gpioEdge n level => Sys2Proof.Machine.execGpioEdge n level s
  | .tachWindow n pulses => Sys2Proof.Machine.execTachWindow n pulses s
  | .registerWrite f bar off size v => Sys2Proof.Machine.execRegisterWrite f bar off size v s
  | .boundaryScan code => Sys2Proof.Machine.execBoundaryScan code s

end Sys2Proof.Machine
end

