-- ==== Sys2Proof/Machine/Idle.lean ====
section
/-! DEFINITION. What happens while no command waits. -/

namespace Sys2Proof.Machine

/-- The oldest reset of a VF that waits for the end of one in progress, where that has ended (R398). -/
def State.nextReset (s : State) : State :=
  match s.pci.flrPend.find? fun f => !s.inReset f with
  | some f => ({ s with pci := { s.pci with flrPend := s.pci.flrPend.erase f } } : State).flr (f - 1)
  | none => s

/-- The token under way ends when its time has come, while the firmware runs (R461). -/
def State.tokenTick (s : State) : State := if s.live then s.tokenDue else s

/-- A tick of device time, 1 ns (R14, R16, R419, R432; DESIGN CHOICE, log 5): while the clocks run, the 64-bit device time, the work clock
and ACLK go on, the trace records that the capture FIFO holds are written to their buffer (R491), and a reset of a VF that waited for one
in progress starts as that has ended (R398); a token and a device-fatal stop under way go on (R461, R477). -/
def State.tick (s : State) : State :=
  if s.clocks && !s.pins.porLow then
    (({ s with time := (s.time + 1) % 2 ^ 64, work := s.work + s.workRate, aclk := s.aclk + s.aclkRate } : State).drainFifo).nextReset.tokenTick.fatalTick
  else s

end Sys2Proof.Machine
end

