-- ==== Sys2Proof/Machine/View.lean ====
section
/-! DEFINITION. What a read of a register returns: the value it holds, with the read-only fields that the manual defines as counts or copies
of other state computed at the moment of the read. No row of the table reads a register; these are the registers' meanings, and
what a host read of BAR0 or BAR4 through a function returns. -/

namespace Sys2Proof.Machine

/-- The fenced cogs of a block (R80). -/
def State.fencedIn (s : State) (b : Nat) : Nat := ((cogsOf b).filter s.fenced).length

/-- The number of a plane state (R114, R142). -/
def PState.num : PState → Nat
  | .empty => 0 | .loading => 1 | .loaded => 2 | .live => 3 | .draining => 4

/-- The GEAR_ID held in a plane, 0 where it is EMPTY (R142). -/
def BlockPlane.gearId (x : BlockPlane) : Nat := if x.state = .empty then 0 else (x.gear.map (·.id)).getD 0

/-- The tag that edge sources stamp on new tokens for the region that holds a block (R123, R142). -/
def State.entryTag (s : State) (b : Nat) : Nat :=
  match s.arr.regions.find? fun e => inRect e.2.rect b with
  | some e => b2n e.2.live
  | none => 0

/-- What HUB_STATE[h] reads (R287). -/
def State.hubState (s : State) (h : Nat) : Nat :=
  let x := s.hub h
  let st := if !x.stack.isEmpty then 2 else b2n x.cur.isSome
  let q := (x.cur.bind fun n => (Tab.find s.ctl.cmds n).map (·.queue)).getD 0
  q % 1024 + st * 2 ^ 10 + x.part.getD 0 * 2 ^ 12 + x.cur.getD 0 * 2 ^ 16

/-- What INTC_TGT_STATE[t] reads (R407, R416). -/
def State.tgtState (s : State) (t : Nat) : Nat :=
  let act := s.intc.active.filter fun a => a.1 == t
  let low := setBits 0 0 9 ((act.head?.map fun a => a.2.1).getD 0)
  setBits (setBits low 24 4 act.length) 28 4 (s.runLevel t)

/-- Whether the device drives a GPIO pin, and the level it drives (R490, R501): a trace trigger is high for 1 µs from a recorded event of
OBS_TRIG_MASK; an LED is off, on, or blinks at 1 or 4 Hz, by device time (DESIGN CHOICE, log 60). None: a high-impedance input, a tachometer,
or the second SMBus. -/
def State.pinOut (s : State) (n : Nat) : Option Bool :=
  match s.rd F.OBS_GPIO_CLAIM.FUNC n with
  | 2 => some (match s.rd F.OBS_GPIO_CFG.LED n with
    | 0 => false
    | 1 => true
    | 2 => s.time / 500000000 % 2 == 0
    | _ => s.time / 125000000 % 2 == 0)
  | 4 => some (s.obs.trigAt.any fun t => decide (s.time < timeAdd t 1000))
  | _ => none

/-- What a read of a register of at most 64 bits returns (R10): WO fields read as zero. -/
def State.readReg (s : State) (k : RegKind) (i : Nat) : Nat :=
  let held := k.info.flds.foldl (fun x f => if f.access = .wo then setBits x f.lo f.w 0 else x) (s.reg k i)
  match k with
  | .COG_FENCE_SUMMARY =>
    setBits (setBits 0 0 16 ((List.range 18432).filter fun c => !s.fenced c).length) 16 5 (((List.range 72).map s.fencedIn).foldl max 0)
  | .COG_BLK_STATE => setBits (setBits (setBits held 0 9 (s.running i)) 9 9 (s.freewheeling i)) 18 9 (s.fencedIn i)
  | .GEAR_BLK_STATE => setBits (setBits (setBits held 0 3 (s.bplane i false).state.num) 4 3 (s.bplane i true).state.num) 8 1 (s.entryTag i)
  | .GEAR_BLK_ID => setBits (setBits held 0 32 (s.bplane i false).gearId) 32 32 (s.bplane i true).gearId
  | .TNS_TABLE_FREE => s.tableFree
  | .POOL_FREE => s.freePages
  | .POOL_USED => s.usedPages i
  | .POOL_SHADOW => s.shadowPages i
  | .HUB_STATE => s.hubState i
  | .HUB_CFG => setBits held 17 3 (s.hub i).park.length
  | .JNL_COUNT => setBits held 0 17 s.jlive
  | .Q_POS => (s.queue i).head % 2 ^ 32 + (s.queue i).accept % 2 ^ 32 * 2 ^ 32
  | .HUB_CYCLE_CTRL => setBits held 0 7 (slotAt s.time)
  | .SRV_BATCH_STAT => setBits held 0 10 (s.srv.seqs.filter fun e => e.1 / 512 == i).length
  | .INTC_TGT_STATE => s.tgtState i
  | .OBS_GPIO_CFG => match s.pinOut i with
    | some b => setBits held 8 1 (b2n b)
    | none => held
  | .CLK_TIME => s.time
  | _ => held

/-! ## Reads by the host (R382 to R384) -/

/-- The functions that may read a register, as its chapter says (R2, R80, R158, R196, R242, R287, R312, R346, R378, R403, R416, R446, R473,
R494, R502). Where a chapter names functions for some of its registers, the physical function alone reads the others; the same where it names
none but for writes (R142, R221), and COG_NUM_CFG is read by those that may write it (R106) (DESIGN CHOICE, log 78). -/
def State.mayRead (s : State) (f : Nat) (k : RegKind) (i : Nat) : Bool :=
  match k with
  | .PCI_CHIP_ID | .COG_FENCE_MAP | .COG_FENCE_SUMMARY | .JNL_STATUS | .PCI_LINK_STATUS | .PWR_STATUS | .PWR_MEAS | .PWR_TEMP | .CLK_TIME
  | .SEC_UID | .SEC_MEAS | .OBS_FATAL | .OBS_FATAL_TIME => true
  | .COG_STALL_CFG | .COG_NUM_CFG | .GEAR_LOAD_DIAG | .TNS_FAULT | .TNS_FAULT_TIME | .TNS_REPAIR_CNT | .POOL_FLOOR | .POOL_USED | .POOL_SHADOW
  | .POOL_EVICT | .HUB_PART_CFG | .HUB_LEAD_STAT | .RLT_PART_SLICE | .RLT_XFER_CFG | .SEC_MEAS_EXT_DATA | .SEC_MEAS_EXT_CTRL => ownFn f i
  | .HUB_EVENT | .HUB_EVENT_ADD => ownFn f (i / 256)
  | .Q_BASE | .Q_CFG | .Q_CTRL | .Q_STATE | .Q_POS | .DOORBELL => ownFn f (qPart i)
  | .SRV_BATCH_CFG | .SRV_BATCH_CTRL | .SRV_RING_BASE | .SRV_RING_CFG | .SRV_RING_POS | .SRV_BATCH_STAT | .SRV_STEP_CNT =>
    ownFn f (s.rd F.SRV_BATCH_CFG.PART i)
  | .SRV_COST => ownFn f (s.rd F.SRV_BATCH_CFG.PART (i / k.info.n1))
  | .RLT_EDGE_BIND => f == 0 || (s.rd F.SEC_PART_STATE.STATE (f - 1) != 0 && s.eastOf (f - 1) i)
  | .PCI_ERR_CNT => f == 0 || f == i
  | .PCI_WIN_MAP | .PCI_MWIN_BASE | .PCI_MWIN_LIMIT => f == 0 || f == i / k.info.n1
  | _ => f == 0

/-- The bytes of a whole register: of at most 64 bits as `readReg` gives it; a wider one is the buffer, the hash or the image of an entry that
its chapter names (R215, R393, R447, R453, R459, R460, R473). -/
def State.regBytes (s : State) (k : RegKind) (i : Nat) : List Byte :=
  match k with
  | .BLK_CAT_ENTRY => (s.entry i).image i
  | .PCI_MBX_REQ => s.pci.req.readN 0 4096
  | .PCI_MBX_RSP => s.pci.rsp.readN 0 4096
  | .SEC_UID => toBytes 16 s.sec.uid
  | .SEC_AUTH_HASH => toBytes 32 (Tab.get 0 s.sec.authHash i).toNat
  | .SEC_MEAS => toBytes 32 (Tab.get 0 s.sec.meas i).toNat
  | .SEC_MEAS_EXT_DATA => toBytes 32 (Tab.get 0 s.sec.ext i).toNat
  | .SEC_TOKEN_BUF => s.sec.token.readN 0 (k.info.width / 8)
  | .SEC_REPORT_BUF => s.sec.report.readN 0 (k.info.width / 8)
  | _ => toBytes (k.info.width / 8) (s.readReg k i)

/-- The 32 bytes of the journal at an entry, from the copy that can be read, or none where neither can (R478); they read as zeros through a
virtual function where the entry is another partition's (R278). -/
def State.journalRead (s : State) (f slot : Nat) : Option (List Byte) :=
  (s.jnlEntry slot).map fun e => if f = 0 ∨ (e.seq ≠ 0 ∧ f = e.part + 1) then e.bytes else List.replicate 32 0

/-- How a read of a BAR is answered: with data, with poisoned data (R478), not at all (R479), or as an access that R384 does not allow. -/
inductive BarAnswer where
  | data (bytes : List Byte)
  | poisoned
  | ignored
  | notAllowed
  deriving DecidableEq, Repr

/-- An entry of the MSI-X table of function `f` as its 16 bytes (R383). -/
def State.msixEntry (s : State) (f v : Nat) : List Byte :=
  let (a, d, u) := Tab.get (0, 0, false) s.pci.msixTab (f * 64 + v)
  toBytes 8 a ++ toBytes 4 d ++ toBytes 4 (b2n (!u))

/-- The pending-bit array of function `f` (R383, R414). -/
def State.msixPending (s : State) (f : Nat) : List Byte :=
  toBytes 8 (((List.range 64).filter fun v => s.msix.contains (f * 64 + v)).foldl (fun x v => x + 2 ^ v) 0)

/-- What the PLDM numeric sensors report on the management SMBus, to any endpoint (R433, R434): package power, its 1 ms average, the junction
temperature, CAP_EFF, the brake and the kickstand state. Their order is the model's (DESIGN CHOICE, log 95). -/
def State.pldmSensors (s : State) : List Nat :=
  [s.rd F.PWR_MEAS.INST_W 0, s.rd F.PWR_MEAS.AVG_W 0, s.rd F.PWR_TEMP.TJ 0, s.rd F.PWR_STATUS.CAP_EFF 0, s.rd F.PWR_STATUS.BRAKE 0,
    s.rd F.PWR_STATUS.KICKSTAND 0]

/-- What firmware reports of tachometer pin `n` as a PLDM numeric sensor (R500): revolutions per minute, from the pulses of its last 1 s window.
A pin that no board record claims counts one pulse per revolution (DESIGN CHOICE, log 95). -/
def State.pldmTach (s : State) (n : Nat) : Option Nat :=
  if s.rd F.OBS_GPIO_CLAIM.FUNC n = 1 then some (s.rd F.OBS_GPIO_CFG.TACH n * 60 / max 1 (Tab.get 0 s.pins.pulses n)) else none

/-- Whether R384 allows a read: naturally aligned and inside one register; 4 bytes of a 32-bit register, 4 or 8 of a 64-bit one; 16 and 32 of
the journal too. Of the wider registers and of the rest of BAR4, 4 or 8 bytes (DEDUCED, log 65). -/
def readOk (bar off size : Nat) : Bool :=
  (size == 4 || size == 8 || ((size == 16 || size == 32) && bar == 4 && decide (0x100000 ≤ off ∧ off < 0x300000))) && off % size == 0 &&
    match regAt bar off with
    | some (k, _, o) => decide (o + size ≤ k.info.width / 8)
    | none => true

/-- An offset of BAR4 in the journal (R278). -/
def journalOff (bar off : Nat) : Bool := bar == 4 && decide (0x100000 ≤ off ∧ off < 0x300000)

/-- What function `f` reads, `size` bytes at an offset of BAR0 or BAR4 (R223, R382 to R384): zeros where no register stands, or through a
function that may not read it. Without a main tier only the PF's BAR0 responds. In the fatal state only the PF's BAR0 and the journal
answer (R479). -/
def State.hostReadAt (s : State) (f bar off size : Nat) : BarAnswer :=
  let zeros := BarAnswer.data (List.replicate size 0)
  if s.fatal && !(f == 0 && bar == 0) && !journalOff bar off then .ignored
  else if !readOk bar off size then .notAllowed
  else if !s.mainUp && (f != 0 || bar != 0) then zeros
  else match regAt bar off with
    | some (k, i, o) => if s.mayRead f k i then .data (((s.regBytes k i).drop o).take size) else zeros
    | none =>
      if bar ≠ 4 then zeros
      else if 0x20000 ≤ off ∧ off < 0x20400 then .data (((s.msixEntry f ((off - 0x20000) / 16)).drop (off % 16)).take size)
      else if 0x21000 ≤ off ∧ off < 0x21008 then .data (((s.msixPending f).drop (off % 8)).take size)
      else if journalOff bar off then
        match s.journalRead f ((off - 0x100000) / 32) with
        | some bs => .data ((bs.drop (off % 32)).take size)
        | none => .poisoned
      else zeros

end Sys2Proof.Machine
end

