-- ==== Sys2Proof/WellFormed.lean ====
section
/-! DEFINITION. Which commands a sender can form: operands inside the sizes that the manual gives what arrives (payloads, frames,
bus requests, sensor readings). A command that is not well formed stops in `Fault.illFormed`. -/

namespace Sys2Proof

/-- An access of BAR2 that one request of PCI Express makes, of no bytes too: inside the BAR and inside one 4 KiB page (R385). -/
def bar2Fits (off len : Nat) : Bool := decide (off % 4096 + len ≤ 4096 ∧ off + len ≤ 0x40000000)

/-- The command is one that a sender can form. The mailbox payload is at most 4,080 bytes (R393); a frame has 256 bytes (R348); there
are 80 sensors (R485), 64 vectors (R414), 16 window slots (R386); a link speed code is 1 to 6 and a width 1 to 16 (R379). -/
def Instr.wf : Instr → Bool
  | .blkFormat _ payload => decide (payload.length ≤ 4080)
  | .catCreate _ payload => decide (payload.length ≤ 4080)
  | .catWrite _ payload => decide (payload.length ≤ 4080)
  | .catSeal _ payload => decide (payload.length ≤ 4080)
  | .catGrant _ payload => decide (payload.length ≤ 4080)
  | .catDelete _ payload => decide (payload.length ≤ 4080)
  | .frameReceive _ bytes _ => decide (bytes.length = 256)
  | .bar2Read _ off len => bar2Fits off len
  | .bar2Write _ off bytes => bar2Fits off bytes.length
  | .winMapWrite _ _ slot _ => decide (slot < 16)
  | .faultyTlp _ kind _ _ => [1, 2, 3, 4, 5, 6, 10].contains kind
  | .pcieLinkTrain speed width flit _ => decide (1 ≤ speed ∧ speed ≤ 6) && [1, 2, 4, 8, 16].contains width && (speed != 6 || flit)
  | .msixSend _ vec => decide (vec < 64)
  | .warmDeviceReset cause => decide (1 ≤ cause ∧ cause ≤ 4)
  | .haltJournalRead _ payload => decide (payload.length ≤ 4080)
  | .attest _ payload => decide (payload.length ≤ 4080)
  | .certRead _ payload => decide (payload.length ≤ 4080)
  | .authProvision _ payload => decide (payload.length ≤ 4080)
  | .updWrite _ payload => decide (payload.length ≤ 4080)
  | .updActivate _ payload => decide (payload.length ≤ 4080)
  | .sensorCheck readings => decide (readings.length = 80)
  | .registerWrite _ bar off size _ =>
    decide (bar = 7 ∧ off < 0x1000 ∧ size = 4) || decide (bar = 8 ∧ off < 0x4000000 ∧ off % 4 = 0 ∧ size = 4) ||
      decide (bar = 0 ∧ off + size ≤ 0x4000000) || decide (bar = 4 ∧ off + size ≤ 0x400000)
  | .flitArrive _ _ | .flitReplayAbandon _ | .creditReturn _ _ | .routerCopy _ _ | .flitDiscardNoRoute _ _ | .staleFlitDiscard _ _
  | .turnMarkArrive _ | .seqTokenStart _ | .nop _ | .loop _ | .br _ | .cogEnd _ | .stop _ | .aimm _ | .aadd _ | .aaddr _ | .pcmp _ | .pset _
  | .acnt _ | .mma _ | .accrd _ | .accz _ | .vmov _ | .vadd _ | .vsub _ | .vmul _ | .vfma _ | .vmax _ | .vmin _ | .vcmp _ | .vsel _ | .vcvt _
  | .vred _ | .vexp2 _ | .vrcp _ | .vrsq _ | .vbcast _ | .vimm _ | .vtst _ | .uread _ | .uwrite _ | .instrResultWrite _ _ | .uwriteFlitMove _
  | .uPortSlot _ _ | .drainFlit _ | .freewheelEnter _ | .freewheelExit _ | .streamStallTimeout _ | .spillStart _ _ | .spillEnd _ _
  | .deadlockTimeout _ | .edgeTurnSend _ _ | .outputTurn _ _ | .planeDrainDone _ | .edgeSourceFlit _ _ | .edgeSinkFlit _ _ | .doorbell _ _ _
  | .commandAccept _ | .commandReady _ | .hubSelect _ | .commandDispatch _ _ | .dispatchHoldGrant _ | .hubNop _ | .li _ | .lih _ | .add _ | .sub _
  | .hubAnd _ | .hubOr _ | .hubXor _ | .shl _ | .shr _ | .mul _ | .setc _ | .ld _ | .st _ | .time _ | .hubBr _ | .call _ | .ret _ | .hubEnd _
  | .abort _ | .iret _ | .jnote _ | .define _ | .load _ | .flush _ | .evict _ | .free _ | .copy _ | .trd _ | .twr _ | .gload _ | .gearLoadResume _ _
  | .shift _ | .shiftResume _ | .run _ | .drain _ | .wait _ | .fence _ | .evsig _ | .evwait _ | .notify _ | .step _ | .seqend _ | .hlib _
  | .illegalInstruction _ | .operationComplete _ _ _ | .runComplete _ | .handleWaitDone _ _ | .handleWaitTimeout _ _ | .commandWatchdog _
  | .taskLinkStall _ | .writeBackDone _ _ _ | .storedDataFailure _ _ _ _ | .tensorRefetchDone _ _ _ | .queueEnable _ _ | .queueDisable _ _
  | .queueCancel _ _ | .queueStopDone _ | .hubEventAdd _ _ _ _ | .hubDisable _ _ | .hubEnable _ _ | .hubOfflineDone _ | .hubParityFail _ | .commit _
  | .cycleTableActivate | .slotBoundary | .partitionStopDone _ | .poolFloorWrite _ _ _ | .batchEnable _ _ | .batchDisable _ _ | .batchStopDone _
  | .stepPhaseStart _ | .sampleSequence _ _ | .stepDrain _ | .recordWrite _ | .ringReadWrite _ _ _ | .bulkSectorRead _ _ | .readDisturbThreshold _ _
  | .bulkRelocate _ _ _ | .scrubPatrol _ _ _ | .blockRetire _ _ | .bulkWriteBack _ _ _ | .catDeleteDone _ | .mbxUnknownOp _ _ | .wck2dqTrack _ _
  | .shortRetrain _ | .fullRetrain _ | .retrainDone _ _ | .lpxShortReq _ _ | .lpxFullReq _ _ | .lpxRetireReq _ _ | .channelRetire _
  | .channelRetireSwitch _ | .mr4Poll _ _ | .refresh _ | .frameTransmit _ | .replayTimeout _ | .portRetrain _ | .portDownTimeout _ | .portDownRetry _
  | .hello _ _ | .creditReq _ | .credit _ _ | .creditReportStale _ _ | .creditPeriodic _ | .testReq _ _ | .testAgree _ | .testRefuse _
  | .testAgreeTimeout _ | .portTestDone _ _ _ | .portEnable _ _ | .portDisable _ _ | .portTest _ _ | .portStopDone _ | .put _ | .event _
  | .completion _ | .token _ | .messageTimeout _ | .putTimeout _ _ | .eastTokenOut _ | .xferCfgEnable _ _ _ | .pmdTrainingDone _ _
  | .dmaCompletion _ _ _ | .completionTimeout _ | .busMasterChange _ _ | .dStateChange _ _ | .ideIntegrityFail _ | .ideKm _ _ | .functionLevelReset _
  | .coldReset | .intcSelect _ | .intcLand _ | .intcWithdraw _ | .intcCpl _ _ _ | .intcMask _ _ _ _ | .intcSwset _ _ _ | .capture _ | .modeWrite _ _
  | .hostCapWrite _ _ | .idleServeEnter | .idleServeWake | .governorSample _ _ _ | .governorEval _ | .divisorChange _ | .brakeRelease | .cap _ _
  | .ramp _ _ | .pldmMode _ _ | .heartbeat _ | .pwrStepChange _ | .throttleN _ | .throttleRelease | .coolantAlertN _ | .coolantCeilingLift
  | .kickstandEnter | .kickstandSafe | .tempSample _ | .hardwareTrip _ | .refclkLoss | .bootRom | .firmwareBoot | .apply _ | .newNonce _
  | .measExtend _ _ | .rwaWriteRefused _ _ _ | .debugInstruction | .fatalLatch _ _ | .fatalJournalSave | .mgmtWatchdogExpire | .railOutOfRange _
  | .updVerify _ | .activationDone | .marginTrim _ | .queueDepthSample | .obsStreamEnable _ _ _ | .obsStreamStopDone _ | .gpioClaim _ _ _
  | .gpioEdge _ _ | .tachWindow _ _ | .boundaryScan _ => true

end Sys2Proof
end

