-- ==== Sys2Proof/Safety.lean ====
section
/-! DEFINITION. The states and runs that claims speak of. -/

namespace Sys2Proof.Machine

/-! ## The whole block -/

/-- The canonical forms of a state: the register file lists no register at its reset value and no register twice; host memory lists no
zero byte and no address twice. -/
def State.canonical (s : State) : Bool :=
  Tab.rising s.regs && (s.regs.all fun e => RegKind.all.all fun k =>
    decide (k.code ≠ e.1 % 256 ∨ e.2 ≠ BitVec.ofNat 64 (k.resetVal (e.1 / 256)))) && Memory.wf s.hostMem

/-- The block is dead until its next cold reset (R443, R508): its clocks are stopped, POR_N is high, and no cold reset waits. -/
def State.dead (s : State) : Prop := s.clocks = false ∧ s.pins.porLow = false ∧ Instr.coldReset ∉ s.pending

/-- A run that does not stop: every command that waits is one that a sender can form. -/
def State.safe (s : State) : Prop := ∀ c ∈ s.pending, c.wf = true

/-- The device serves requests, and function `f` takes a memory request of the host (R223, R394, R395). -/
abbrev State.hears (s : State) (f : Nat) : Prop := s.live = true ∧ s.turnedAway f = none ∧ (f = 0 ∨ s.mainUp = true)

/-! ## Cogs -/

/-- Cog `c` is at instruction `i`, and `i` fires with the source values `vs`, its pops leaving the cog `y` (R50): the sequencer may issue,
the predicate is not pending and holds, every operand, output entry and unit is there, and parity is good. -/
abbrev State.fires (s : State) (c : Nat) (i : CogInstr) (vs : List Nat) (y : Cog) : Prop :=
  s.live = true ∧ (s.cog c).issues = true ∧ (s.cog c).instr = some i ∧ i.head.predRes.any (s.cog c).busy = false ∧
    (s.cog c).pred i.head = true ∧ s.clear c (s.cog c) i = true ∧
    (s.cog c).gather (s.cog c).plane ((s.cog c).srcs i) = some (vs, y, true)

/-- The cog and the opcode of a command that is a cog instruction (R67). -/
def cogOp : Instr → Option (CogId × Nat)
  | .nop c => some (c, 0x00) | .loop c => some (c, 0x01) | .br c => some (c, 0x02) | .cogEnd c => some (c, 0x03) | .stop c => some (c, 0x04)
  | .aimm c => some (c, 0x08) | .aadd c => some (c, 0x09) | .aaddr c => some (c, 0x0A) | .pcmp c => some (c, 0x0B)
  | .pset c => some (c, 0x0C) | .acnt c => some (c, 0x0D) | .mma c => some (c, 0x10) | .accrd c => some (c, 0x11)
  | .accz c => some (c, 0x12) | .vmov c => some (c, 0x20) | .vadd c => some (c, 0x21) | .vsub c => some (c, 0x22)
  | .vmul c => some (c, 0x23) | .vfma c => some (c, 0x24) | .vmax c => some (c, 0x25) | .vmin c => some (c, 0x26)
  | .vcmp c => some (c, 0x27) | .vsel c => some (c, 0x28) | .vcvt c => some (c, 0x29) | .vred c => some (c, 0x2A)
  | .vexp2 c => some (c, 0x2B) | .vrcp c => some (c, 0x2C) | .vrsq c => some (c, 0x2D) | .vbcast c => some (c, 0x2E)
  | .vimm c => some (c, 0x2F) | .vtst c => some (c, 0x30) | .uread c => some (c, 0x50) | .uwrite c => some (c, 0x51)
  | _ => none

/-- Two states that differ at most in cog `c` and in what the region and the command remember of quiet time (R78, R141). -/
structure CogOnly (c : Nat) (s t : State) : Prop where
  regs : t.regs = s.regs
  mem : t.mem = s.mem
  edges : t.arr.edges = s.arr.edges
  sinks : t.arr.sinks = s.arr.sinks
  planes : t.arr.planes = s.arr.planes
  east : t.arr.east = s.arr.east
  queues : t.ctl.queues = s.ctl.queues
  tasks : t.ctl.tasks = s.ctl.tasks
  hubs : t.ctl.hubs = s.ctl.hubs
  journal : t.ctl.jnlA = s.ctl.jnlA ∧ t.ctl.jnlB = s.ctl.jnlB
  others : Tab.rising s.arr.cogs = true → ∀ c', c' ≠ c → t.cog c' = s.cog c'
  rest : t.time = s.time ∧ t.out = s.out ∧ t.msix = s.msix ∧ t.hostMem = s.hostMem ∧ t.pending = s.pending ∧ t.blk = s.blk ∧
    t.srv = s.srv ∧ t.intc = s.intc ∧ t.obs = s.obs ∧ t.lpx = s.lpx ∧ t.rlt = s.rlt ∧ t.pci = s.pci ∧ t.pwr = s.pwr ∧ t.sec = s.sec ∧
    t.pins = s.pins

/-! ## Hubs -/

/-- Hub `h` executes instruction `i` next (R262, R263, R266): it runs, and the word at its program counter is `i` and legal. -/
abbrev State.hubIssues (s : State) (h : Nat) (i : HubInstr) : Prop :=
  s.live = true ∧ s.hubRuns h = true ∧ s.illegal h = false ∧ s.hubWord h = i

/-- A hub with RD written and the program counter on the next word (R243, R263). -/
def State.hubWith (s : State) (h rd : Nat) (v : Word64) : State :=
  s.setHub h { (s.hub h).setReg rd v with pc := ((s.hub h).pc + 1) % 8192 }

/-- An operation of command `n` on hub `h` issued under handle `hd` (R265): the handle names it, RD holds the handle, the program counter
moves on; the counter of free values goes on by one for the handle's number (log 13). -/
def State.issued (s : State) (h : Nat) (i : HubInstr) (n : Nat) (c : Cmd) (run : Bool) (op : HOp) (hd : Nat) : State :=
  ((({ s with fresh := s.fresh + 1 } : State).setCmd n { c with
    handles := Tab.insert c.handles hd ⟨run, i.tr, (s.hub h).pc, false, none⟩, issued := c.issued ++ [hd] }).setAop n hd
      ⟨op, c.part, c.task, c.acceptedAt, false, false, s.work⟩).hubWith h i.rd (BitVec.ofNat 64 hd)

/-- The RUN of block `k` of command `c` starts a region with block `r` and streams `ds`: its block is there and its checks pass (R270). -/
abbrev State.runStarts (s : State) (c : Cmd) (k : Nat) (r : RunBlk) (ds : List StreamDesc) : Prop :=
  k < c.hdr.nrun ∧ r = RunBlk.parse (slice (s.frameData c.hub c) (c.hdr.runblk.getD k 0) 192) ∧ ds = r.streams (s.frameData c.hub c) ∧
    r.nstream ≠ 0 ∧ r.nstream ≤ 16 ∧ s.runFault c r ds = none

/-- The STEP of command `c` on descriptor `d` with `phases` may freeze its batch (R323, R324): its fields, tensors, bindings and first
phase pass their checks, no STEP of the batch is under way, its tensors are resident and none is loading or being written back, and the
batch has sequences to run. -/
abbrev State.stepFreezes (s : State) (c : Cmd) (ra imm : Nat) (d : StepDesc) (phases : List (RunBlk × List StreamDesc)) : Prop :=
  d = StepDesc.parse ((s.hub c.hub).scratchN (ra + imm) 64) ∧ s.stepFields c.part d ra (frameBase c.frame) = true ∧ s.stepTensors c d = true ∧
    phases = ((d.offs.take d.nphase).map fun o =>
      let r := RunBlk.parse ((s.hub c.hub).scratchN (ra + o) 192)
      (r, r.streams (s.frameData c.hub c))) ∧
    (∀ e ∈ phases, d.bindsOk e.1.shape = true) ∧
    (∃ e, phases.head? = some e ∧ e.1.nstream ≠ 0 ∧ e.1.nstream ≤ 16 ∧ s.runFault c e.1 e.2 = none ∧
      (d.edge = true → phases.length = 1 → westServes e.1.rect = true)) ∧
    s.step? d.batch = none ∧ (∀ g ∈ s.srv.groups, g.batch ≠ d.batch) ∧ s.batchSeqs d.batch ≠ [] ∧
    ∀ tid ∈ d.tids, ∀ t, s.tensor c.part tid = some t → t.state ≠ .absent ∧ t.state ≠ .loading ∧ t.state ≠ .writing

/-- The shadow pages that a STEP of command `c` on descriptor `d` needs (R173, R323). -/
abbrev State.stepShadow (s : State) (c : Cmd) (d : StepDesc) : Nat :=
  ((d.tids.dedup.filterMap fun tid => (s.tensor c.part tid).map fun t => (tid, t)).map fun e =>
    s.shadowNeed c.task c.part e.1 e.2).foldl (· + ·) 0

/-- The movement engine that a request needs, if any, is its to use now (R301, R305). -/
abbrev State.hasTurn (s : State) (q : Option (Nat × EngReq)) : Prop := ∀ x ∈ q, s.engGrants x.1 x.2 = true

/-- The state in which that request has had its turn. -/
def State.served (s : State) : Option (Nat × EngReq) → State
  | some x => s.engServe x.1 x.2
  | none => s

/-- Two states that differ at most in hub `h`. -/
structure HubOnly (h : Nat) (s t : State) : Prop where
  regs : t.regs = s.regs
  arr : t.arr = s.arr
  mem : t.mem = s.mem
  queues : t.ctl.queues = s.ctl.queues
  cmds : t.ctl.cmds = s.ctl.cmds
  tasks : t.ctl.tasks = s.ctl.tasks
  ops : t.ctl.ops = s.ctl.ops
  journal : t.ctl.jnlA = s.ctl.jnlA ∧ t.ctl.jnlB = s.ctl.jnlB
  others : Tab.rising s.ctl.hubs = true → ∀ h', h' ≠ h → t.hub h' = s.hub h'
  rest : t.time = s.time ∧ t.out = s.out ∧ t.msix = s.msix ∧ t.hostMem = s.hostMem ∧ t.pending = s.pending ∧ t.blk = s.blk ∧
    t.srv = s.srv ∧ t.intc = s.intc ∧ t.obs = s.obs ∧ t.lpx = s.lpx ∧ t.rlt = s.rlt ∧ t.pci = s.pci ∧ t.pwr = s.pwr ∧ t.sec = s.sec ∧
    t.pins = s.pins

/-- The hub and the opcode of a command that is a hub instruction which works on registers and scratch only (R264). -/
def hubLocalOp : Instr → Option (HubId × Nat)
  | .hubNop h => some (h, 0x00) | .li h => some (h, 0x01) | .lih h => some (h, 0x02) | .add h => some (h, 0x03) | .sub h => some (h, 0x04)
  | .hubAnd h => some (h, 0x05) | .hubOr h => some (h, 0x06) | .hubXor h => some (h, 0x07) | .shl h => some (h, 0x08)
  | .shr h => some (h, 0x09) | .mul h => some (h, 0x0A) | .setc h => some (h, 0x0B) | .ld h => some (h, 0x0C) | .st h => some (h, 0x0D)
  | .time h => some (h, 0x0E) | .hubBr h => some (h, 0x10) | .call h => some (h, 0x11) | .ret h => some (h, 0x12)
  | _ => none

end Sys2Proof.Machine
end

