-- ==== Sys2Proof/Certificates/Slice0/Obligations.lean ====
section
/-! DEFINITION. The statements for the provers, one definition each. -/

open Sys2Proof Sys2Proof.Machine

/-- For every command c, queue rest and state s, one step of s with c at the front of its queue is exec of c on s with the queue's rest;
with an empty queue one step is one tick of device time, which is this model's own reading (log 5). (spec/95 (the commands),
spec/00_scope.md (R14, R419: device time)) -/
def Obligations.StepRunsFrontCommand : Prop :=
  (∀ (c : Instr) (rest : List Instr) (s : State), step { s with pending := c :: rest } = exec c { s with pending := rest }) ∧
  ∀ s : State, s.pending = [] → step s = .next s.tick

/-- For a format S instruction that fires at a cog (R50), NOP retires; LOOP with a count of zero continues after the body, else it pushes
its entry with counter, start and end and the counter and its initial count take the count; BR writes the program counter; END leaves the
sequencer waiting at its entry queue; STOP leaves the cog IDLE. The next state is given whole: the cog so changed, and nothing else but the
region's quiet time. For a format A instruction that fires at a cog, AIMM writes IMM32 to a[AD], AADD a[AS] + IMM32 modulo 2^32, AADDR a[AS]
+ a[IMM32[3:0]], PCMP the comparison COND of a[AS] and IMM32 to p[PD], PSET IMM32[0] to p[PD], ACNT the iterations done of counter
IMM32[1:0], or 0 where no open loop uses it; a write to p0 leaves it true. The instruction retires, and nothing else changes but the
region's quiet time. (R54, R55, R59, R61, R67) -/
def Obligations.CogControlAndAddressOps : Prop :=
  (
  ∀ (c : CogId) (s : State) (h : CogHead) (k creg addr r n : Nat) (sel : Bool),
    let x := s.cog c
    s.fires c (.s h k sel creg addr r n) [] x →
    (h.opc = 0x00 → exec (.nop c) s = .next (s.fired c x.retire)) ∧
    (h.opc = 0x01 → x.count sel creg n = 0 → exec (.loop c) s = .next (s.fired c (x.retireAt addr))) ∧
    (h.opc = 0x01 → x.count sel creg n ≠ 0 → exec (.loop c) s = .next (s.fired c { x with
      loops := ⟨k, x.pc + 1, addr⟩ :: x.loops, ctr := Tab.set 0 x.ctr k (x.count sel creg n),
      ctrInit := Tab.set 0 x.ctrInit k (x.count sel creg n), pc := x.pc + 1 })) ∧
    (h.opc = 0x02 → exec (.br c) s = .next (s.fired c { x with pc := addr })) ∧
    (h.opc = 0x03 → exec (.cogEnd c) s = .next (s.fired c { x.retire with mode := .entry })) ∧
    (h.opc = 0x04 → exec (.stop c) s = .next (s.fired c { x.retire with mode := .idle }))) ∧
  (
  ∀ (c : CogId) (s : State) (h : CogHead) (ad as_ cond pd r imm : Nat),
    let x := s.cog c
    s.fires c (.a h ad as_ cond pd r imm) [] x →
    (h.opc = 0x08 → exec (.aimm c) s = .next (s.fired c (x.setA ad (BitVec.ofNat 32 imm)).retire)) ∧
    (h.opc = 0x09 → exec (.aadd c) s = .next (s.fired c (x.setA ad (x.areg as_ + BitVec.ofNat 32 imm)).retire)) ∧
    (h.opc = 0x0A → exec (.aaddr c) s = .next (s.fired c (x.setA ad (x.areg as_ + x.areg (imm % 16))).retire)) ∧
    (h.opc = 0x0B → exec (.pcmp c) s = .next (s.fired c (x.setP pd (pcmpHolds cond (x.areg as_) (BitVec.ofNat 32 imm))).retire)) ∧
    (h.opc = 0x0C → exec (.pset c) s = .next (s.fired c (x.setP pd (bit imm 0)).retire)) ∧
    (h.opc = 0x0D → exec (.acnt c) s = .next (s.fired c
      (x.setA ad (if x.active (imm % 4) then BitVec.ofNat 32 (x.init (imm % 4) - x.c (imm % 4)) else 0)).retire)) ∧
    (x.setP 0 (bit imm 0)).p 0 = true)

/-- A cog whose instruction at address q retires: where no open loop ends at q the program counter is q + 1 modulo 256; where the innermost
loop ends at q and its counter is above 1, the counter falls by one and the program counter is the loop's start; where its counter is 1 the
loop is left, and the test goes on with the loop around it, the program counter being q + 1 modulo 256 when none of those ends at q. (R55,
R112) -/
def Obligations.CogLoopEndTest : Prop :=
  ∀ (x : Cog) (q : Nat),
    ((∀ l ∈ x.loops, l.stop ≠ q) → x.retireAt q = { x with pc := (q + 1) % 256 }) ∧
    ∀ (l : LoopEntry) (ls : List LoopEntry), x.loops = l :: ls → l.stop = q →
      (1 < x.c l.ctr → x.retireAt q = { x with pc := l.start, ctr := Tab.set 0 x.ctr l.ctr (x.c l.ctr - 1) }) ∧
      (x.c l.ctr ≤ 1 → x.retireAt q = ({ x with loops := ls } : Cog).retireAt q)

/-- For a format C instruction that fires at a cog with source values vs, VMOV gives SRCA; VSEL gives in each lane the SRCA lane where the
SRCC lane has a bit set, else the SRCB lane; VBCAST gives lane IMM20[3:0] of SRCA in every lane; VIMM gives IMM20[15:0], read as BF16, in
every lane. The result goes to DST at once, as registers or as flits of the running plane's tag, and the instruction retires. For a format C
instruction that fires at a cog, VADD, VSUB, VMUL, VFMA, VMAX and VMIN give in each lane the exact result of the lanes' values rounded once
to TYPE; VCMP gives all ones where the comparison holds and zero where not; VRED gives the reduction of R99 in every lane; VEXP2, VRCP and
VRSQ give their function of each lane; VCVT gives each lane converted to DTYPE, an 8-bit DTYPE in the half of DST that DHALF names; VTST
gives a predicate. The result goes in flight, an output entry is reserved for each flit, and the instruction retires. The value of VEXP2,
VRCP and VRSQ within its 1 ulp is the model's free value (log 21). (R53, R66, R67, R95, R96, R97, R98, R99, R100, R101) -/
def Obligations.CogVectorOps : Prop :=
  (
  ∀ (c : CogId) (s : State) (h : CogHead) (dst sa sb sc type pop imm : Nat) (et : Bool) (vs : List Nat) (y : Cog),
    let w := typeBits type
    let put (v : Nat) : State := s.fired c (y.result true y.plane (vecDest dst (resultFlits h.opc type imm) v y.plane et)).retire
    s.fires c (.c h dst sa sb sc type pop et imm) vs y →
    (h.opc = 0x20 → exec (.vmov c) s = .next (put (vs.getD 0 0))) ∧
    (h.opc = 0x28 → exec (.vsel c) s = .next (put (lanes16 w fun i =>
      if lane w (vs.getD 2 0) i ≠ 0 then lane w (vs.getD 0 0) i else lane w (vs.getD 1 0) i))) ∧
    (h.opc = 0x2E → exec (.vbcast c) s = .next (put (lanes16 w fun _ => lane w (vs.getD 0 0) (bits imm 0 4)))) ∧
    (h.opc = 0x2F → exec (.vimm c) s = .next (put (lanes16 w fun _ => if type = 0 then bits imm 0 16 * 2 ^ 16 else bits imm 0 16)))) ∧
  (
  ∀ (c : CogId) (s : State) (h : CogHead) (dst sa sb sc type pop imm : Nat) (et : Bool) (vs : List Nat) (y : Cog),
    let w := typeBits type
    let cfg := s.numCfg c
    let val (k i : Nat) : FVal := valueOf type (lane w (vs.getD k 0) i)
    let enc (v : FVal) : Nat := normZero cfg.1 w (encT cfg.2 type v)
    let fly (ds : List Dest) : State := s.fired c (y.result false y.plane ds).retire
    let put (v : Nat) : State := fly (vecDest dst (resultFlits h.opc type imm) v y.plane et)
    s.fires c (.c h dst sa sb sc type pop et imm) vs y →
    (h.opc = 0x21 → exec (.vadd c) s = .next (put (lanes16 w fun i => enc (sumF [val 0 i, val 1 i])))) ∧
    (h.opc = 0x22 → exec (.vsub c) s = .next (put (lanes16 w fun i => enc (sumF [val 0 i, negF (val 1 i)])))) ∧
    (h.opc = 0x23 → exec (.vmul c) s = .next (put (lanes16 w fun i => enc (mulF (val 0 i) (val 1 i))))) ∧
    (h.opc = 0x24 → exec (.vfma c) s = .next (put (lanes16 w fun i => enc (sumF [mulF (val 0 i) (val 1 i), val 2 i])))) ∧
    (h.opc = 0x25 → exec (.vmax c) s = .next (put (lanes16 w fun i => enc (maxF (val 0 i) (val 1 i))))) ∧
    (h.opc = 0x26 → exec (.vmin c) s = .next (put (lanes16 w fun i => enc (minF (val 0 i) (val 1 i))))) ∧
    (h.opc = 0x27 → exec (.vcmp c) s = .next (put (lanes16 w fun i =>
      if vcmpHolds (bits imm 16 3) (val 0 i) (val 1 i) then 2 ^ w - 1 else 0))) ∧
    (h.opc = 0x2A → exec (.vred c) s = .next (put (lanes16 w fun _ => enc (vredLane (bits imm 16 2) type (vs.getD 0 0))))) ∧
    (h.opc = 0x2B → exec (.vexp2 c) s = .next (put (lanes16 w fun i => enc (fp32 (exp2F (enc32 (val 0 i))))))) ∧
    (h.opc = 0x2C → exec (.vrcp c) s = .next (put (lanes16 w fun i => enc (fp32 (rcpF (enc32 (val 0 i))))))) ∧
    (h.opc = 0x2D → exec (.vrsq c) s = .next (put (lanes16 w fun i => enc (fp32 (rsqF (enc32 (val 0 i))))))) ∧
    (h.opc = 0x29 → bits imm 16 3 < 2 → exec (.vcvt c) s = .next (put (vcvtLanes cfg type (bits imm 16 3) (vs.getD 0 0)))) ∧
    (h.opc = 0x29 → 2 ≤ bits imm 16 3 → exec (.vcvt c) s = .next (fly [.vreg dst (BitVec.ofNat 256
      (setBits (y.v dst) (if bit imm 15 then 128 else 0) 128 (vcvtLanes cfg type (bits imm 16 3) (vs.getD 0 0))))])) ∧
    (h.opc = 0x30 → exec (.vtst c) s = .next (fly [.pred (bits imm 0 3) (lane w (vs.getD 0 0) (bits imm 4 4) != 0)])))

/-- For every lane width w and every function f of lane numbers, lane k of the sixteen lanes packed from f is f k truncated to w bits, for
every k below 16, and the packed value has no bit at or above 16 w. Every encoding of FP32, BF16, E4M3 or E5M2 that is not a NaN is the
encoding of its own exact value: rounding it once to its own format gives it back (infinities of the 8-bit formats, which SAT8 turns into
the largest value, are the encodings left out for E5M2). (R81, R82, R84, R102) -/
def Obligations.LanesAndNumbersRoundTrip : Prop :=
  (
  ∀ (w : Nat) (f : Nat → Nat), lanes16 w f < 2 ^ (16 * w) ∧ ∀ k, k < 16 → lane w (lanes16 w f) k = f k % 2 ^ w) ∧
  (
  (∀ x, x < 2 ^ 32 → fp32 x ≠ .nan → enc32 (fp32 x) = x) ∧
  (∀ x, x < 2 ^ 16 → valueOf 1 x ≠ .nan → encT false 1 (valueOf 1 x) = x) ∧
  (∀ sat x, x < 2 ^ 8 → valueOf 2 x ≠ .nan → encT sat 2 (valueOf 2 x) = x) ∧
  (∀ sat x, x < 2 ^ 8 → valueOf 3 x ≠ .nan → x % 128 ≠ 0x7C → encT sat 3 (valueOf 3 x) = x))

/-- For a format C instruction that fires at a cog, MMA sends the outer product of its A and B vectors, with block scale and ZERO, in flight
towards bank IMM20[19]; ACCRD hands bank IMM20[19] to the drain engine with DST, TYPE and ET; ACCZ makes every element of bank IMM20[19]
zero and leaves the other bank as it was. For a format U instruction that fires at a cog, UREAD with a count above zero starts a read stream
with the address and the stride of its address registers and that count, for the running plane; UWRITE with a count above zero starts a
transfer whose first flit, gathered as the instruction fires, is in U_OUT; with a count of zero either starts nothing. The instruction
retires. (R63, R64, R67, R68, R69, R89) -/
def Obligations.CogMatrixAndBankOps : Prop :=
  (
  ∀ (c : CogId) (s : State) (h : CogHead) (dst sa sb sc type pop imm : Nat) (et : Bool) (vs : List Nat) (y : Cog),
    let at_ := bits imm 16 2
    let n := if at_ = 0 then 1 else 2
    s.fires c (.c h dst sa sb sc type pop et imm) vs y →
    (h.opc = 0x10 → exec (.mma c) s = .next (s.fired c (y.result false y.plane [.accAdd (bits imm 19 1)
      (mmaVectors (if at_ = 0 then 16 else 8) n (vs.getD 0 0)) (mmaVectors (typeBits type) n (vs.getD 1 0)) at_ type
      (if 4 ≤ type then mmaScale y imm (vs.getD 2 0) else 127) (bit imm 18)]).retire)) ∧
    (h.opc = 0x11 → exec (.accrd c) s = .next (s.fired c
      ({ y with drain := some ⟨bits imm 19 1, dst, type, 0, et, y.plane⟩ } : Cog).retire)) ∧
    (h.opc = 0x12 → exec (.accz c) s = .next (s.fired c (y.put (.acc (bits imm 19 1) [])).retire))) ∧
  (
  ∀ (c : CogId) (s : State) (h : CogHead) (qsr areg sreg creg r n : Nat) (cs : Bool) (vs : List Nat) (y : Cog),
    s.fires c (.u h qsr areg sreg creg cs r n) vs y →
    (h.opc = 0x50 → y.count cs creg n ≠ 0 → exec (.uread c) s = .next (s.fired c ({ y with
      uread := some ⟨(y.areg areg).toNat, (y.areg sreg).toNat, y.count cs creg n, y.plane⟩ } : Cog).retire)) ∧
    (h.opc = 0x50 → y.count cs creg n = 0 → exec (.uread c) s = .next (s.fired c ({ y with uread := none } : Cog).retire)) ∧
    (h.opc = 0x51 → y.count cs creg n ≠ 0 → exec (.uwrite c) s = .next (s.fired c ({ y with
      uwrite := some ⟨qsr, (y.areg areg).toNat, (y.areg sreg).toNat, y.count cs creg n - 1, [BitVec.ofNat 256 (vs.getD 0 0)], y.plane⟩ }
        : Cog).retire)) ∧
    (h.opc = 0x51 → y.count cs creg n = 0 → exec (.uwrite c) s = .next (s.fired c ({ y with uwrite := none } : Cog).retire)))

/-- Writing an MMA result into bank b, in a cog whose accumulators are in canonical form, gives every element n of the bank the sum of its
products, with the old element unless ZERO is set, rounded once to FP32, and leaves every element of the other bank as it was; writing zeros
makes every element of the bank zero. (R68, R91, R92) -/
def Obligations.AccumulatorElements : Prop :=
  ∀ (x : Cog) (b n : Nat) (as_ bs : List (List Nat)) (at_ bt scale : Nat) (zero : Bool), b < 2 → n < 64 → Tab.rising x.acc = true →
    (x.put (.accAdd b as_ bs at_ bt scale zero)).accAt b n =
      mmaElem at_ bt scale zero (x.accAt b n) (as_.map (·.getD (n / 8) 0)) (bs.map (·.getD (n % 8) 0)) ∧
    (x.put (.accAdd b as_ bs at_ bt scale zero)).accAt (1 - b) n = x.accAt (1 - b) n ∧
    (x.put (.acc b [])).accAt b n = 0

/-- For every command that is a cog instruction with its cog c and opcode: where the program counter holds no such instruction that may
issue, or its predicate is pending, the state does not change; where the predicate is false, the instruction retires (LOOP past its body's
end) and only the cog and the region's dead time change; where the predicate holds and a register, an output entry or the unit is not free,
or a queue source lacks words, the state does not change; where a word read from a queue fails its parity, the command of the region aborts
with E_PARITY. (R38, R50, R51, R54, R55) -/
def Obligations.CogInstructionIssueCases : Prop :=
  ∀ (i : Instr) (c : CogId) (opc : Nat) (s : State), cogOp i = some (c, opc) →
    let x := s.cog c
    (s.cogFetch c opc = none → exec i s = .next s) ∧
    ∀ d, s.cogFetch c opc = some d →
      (d.head.predRes.any x.busy = true → exec i s = .next s) ∧
      (d.head.predRes.any x.busy = false → x.pred d.head = false → ∃ q, (opc ≠ 0x01 → q = x.pc) ∧
        exec i s = .next ((s.setCog c { x.retireAt q with waited := none }).note c false)) ∧
      (d.head.predRes.any x.busy = false → x.pred d.head = true →
        (s.clear c x d = false ∨ x.gather x.plane (x.srcs d) = none → exec i s = .next s) ∧
        ∀ vs y, s.clear c x d = true → x.gather x.plane (x.srcs d) = some (vs, y, false) → exec i s = .next (s.abortRegion c eParity))

/-- For every command that is a cog instruction, from every state in which it fires, the next state has the same registers, tensors, edge
links, plane states, queues, tasks, hubs, journal, messages, host memory, device time and command queue, and every other cog as it was (for
states whose table of cogs is in canonical form). (R49, R50, R53, R78) -/
def Obligations.CogInstructionFrame : Prop :=
  ∀ (i : Instr) (c : CogId) (opc : Nat) (d : CogInstr) (vs : List Nat) (y : Cog) (s : State), cogOp i = some (c, opc) →
    d.opc = opc → s.fires c d vs y → ∃ t, exec i s = .next t ∧ CogOnly c s t

/-- A flit that waits to cross into an input queue whose sender holds a credit, with fewer than eight negative acknowledgements in a row:
received good, it leaves its sender and is taken by the queue, and the receiving cog is woken; received bad, the sender's run of negative
acknowledgements and the receiving block's REPLAYS rise by one and a class 0 event is counted. At an edge port out of the array the same
holds of the head of the output queue, which goes to the port where a command runs on the cog's region, and is discarded with the block's
cog error source raised where none does. After eight negative acknowledgements in a row FLIT_REPLAY_ABANDON drops the flit, counts FAILS,
raises the cog error source and aborts the region's command with E_PARITY. An input queue outside a spill episode with a freed entry:
CREDIT_RETURN makes the credits of its sender one more and the freed entries one less. With no freed entry, or in a spill episode, nothing
changes. (R35, R36, R37, R47, R77, R136) -/
def Obligations.FlitsAndCreditsCrossLinks : Prop :=
  (
  ∀ (c : CogId) (d : Side) (s : State), s.live = true →
    (∀ f, s.crossing c d = some f → ((s.cog c).iq d.num).credits ≠ 0 → s.nacks c d < 8 →
      (let u := s.unsend c d
       let x := u.cog c
       exec (.flitArrive (.into c d) false) s = .next ((u.setCog c { x.settle d.num ((x.iq d.num).take f) with woken := true, flitAt := u.cycle }).note c
        (neighbour c d).isNone)) ∧
      exec (.flitArrive (.into c d) true) s =
        .next (((s.setNacks c d (s.nacks c d + 1)).count F.COG_LINK_ERR.REPLAYS (blockOf c) 1).fault 0)) ∧
    (∀ f fs, neighbour c d = none → ((s.cog c).oq d).flits = f :: fs → ((s.cog c).oq d).mark = false → ((s.cog c).oq d).nacks < 8 →
      (let o := (s.cog c).oq d
       let u := s.setCog c { (s.cog c).setOq d { o with flits := fs, nacks := 0 } with woken := true }
       ((u.regionOf c).isSome = true → exec (.flitArrive (.out c d) false) s = .next ((u.setSinkAt c d (u.sinkAt c d ++ [f])).note c false)) ∧
       ((u.regionOf c).isSome = false → exec (.flitArrive (.out c d) false) s = .next ((u.cogError (blockOf c)).note c false)) ∧
       exec (.flitArrive (.out c d) true) s = .next (((s.setCog c ((s.cog c).setOq d { o with nacks := o.nacks + 1 })).count
        F.COG_LINK_ERR.REPLAYS (blockOf c) 1).fault 0))) ∧
    ((s.crossing c d).isSome = true → s.nacks c d = 8 → exec (.flitReplayAbandon (.into c d)) s =
      .next ((((s.unsend c d).count F.COG_LINK_ERR.FAILS (blockOf c) 1).cogError (blockOf c)).abortRegion c eParity)) ∧
    (neighbour c d = none → ((s.cog c).oq d).flits ≠ [] → ((s.cog c).oq d).nacks = 8 → exec (.flitReplayAbandon (.out c d)) s =
      .next ((((s.setCog c ((s.cog c).setOq d { (s.cog c).oq d with flits := ((s.cog c).oq d).flits.drop 1, nacks := 0 })).count
        F.COG_LINK_ERR.FAILS (blockOf c) 1).cogError (blockOf c)).abortRegion c eParity))) ∧
  (
  ∀ (c : CogId) (d : Side) (s : State), s.live = true →
    let v := (s.cog c).iq d.num
    (v.freed ≠ 0 → v.spill = none → exec (.creditReturn c d) s =
      .next ((s.setCog c ((s.cog c).setIq d.num { v with freed := v.freed - 1, credits := v.credits + 1 })).note c false)) ∧
    (v.freed = 0 ∨ v.spill ≠ none → exec (.creditReturn c d) s = .next s))

/-- Settling an input queue drops some number k of flits from its head and keeps the rest in order; outside a spill episode its freed
entries rise by exactly k. (R32, R35, R43) -/
def Obligations.QueuesKeepOrder : Prop :=
  ∀ (x : Cog) (q n : Nat) (v : InQ), ∃ k, k ≤ n ∧ k ≤ v.flits.length ∧ (x.settleQ q n v).flits = v.flits.drop k ∧
    (x.settleQ q n v).spill = v.spill ∧ (x.settleQ q n v).credits = v.credits ∧
    (v.spill = none → (x.settleQ q n v).freed = v.freed + k)

/-- The arbiter grants a requester at which its pointer stands the entries that it waits for, when each is free. For the head flit f of an
input queue: ROUTER_COPY, where the arbiter grants f's queue the output queues that f's route entry names, appends f to each of them and
marks it copied if its parity is good, and aborts the region's command with E_PARITY if not, and without a grant changes nothing; it is
granted, and does so, where f has not been copied, every output queue named has a free entry (and has turned, for a LIVE-tag flit under a
SHIFT) and the pointer stands at f's queue. FLIT_DISCARD_NO_ROUTE drops an f whose entry names neither the core nor an output queue, and
raises the block's cog error source. STALE_FLIT_DISCARD, once the sequencer has run the LIVE plane of a draining region since the SHIFT,
drops an f of the other tag that its entry gives to the core: at once, raising the source, where it names no output queue, and without it
once f has been copied where it names some. TURN_MARK_ARRIVE moves a mark that a neighbour's output queue holds, or an edge port once no
DRAINING-tag flit waits before it, into the input queue, which has then turned, and takes one off an output queue at an edge port;
OUTPUT_TURN, where the region drains and the queue, not yet turned, may turn under R128, turns the queue, with a mark to send where its link
leads to a cog of the region or to an edge port; EDGE_TURN_SEND, where the region drains and a fed edge link, not yet turned, may turn under
R126, turns the link with its mark, and closes an east link that turns below token K; PLANE_DRAIN_DONE of a draining region, once every cog
of it has drained the plane that is not LIVE, unturns its queues and edge links, makes each block of it whose plane is DRAINING LOADED with
trace event 0x05, and ends the SHIFT in the region. (R38, R42, R43, R44, R45, R46, R114, R125, R126, R128, R129, R132) -/
def Obligations.RoutersAndTurns : Prop :=
  (
  ∀ (c : CogId) (q : InId) (s : State) (f : Flit) (fs : List Flit), s.live = true → ((s.cog c).iq q).flits = f :: fs →
    let x := s.cog c
    let v := x.iq q
    let outs := fwd (x.routeOf q f)
    let copied : State := (s.setCog c ((outs.foldl
      (fun (y : Cog) d => y.setOq d { y.oq d with flits := (y.oq d).flits ++ [f] }) x).settle q { v with copied := true })).note c false
    (s.arbPtr x = q.val → outs ≠ [] → v.copied = false →
      (∀ d ∈ outs, (x.oq d).free ≠ 0 ∧ tagBlocked (s.regionOf c) (x.oq d) f.tag = false) →
      (f.parOk = true → exec (.routerCopy c q) s = .next copied) ∧
      (f.parOk = false → exec (.routerCopy c q) s = .next (s.abortRegion c eParity))) ∧
    (s.arbGrants c x q = true → f.parOk = true → exec (.routerCopy c q) s = .next copied) ∧
    (s.arbGrants c x q = true → f.parOk = false → exec (.routerCopy c q) s = .next (s.abortRegion c eParity)) ∧
    (s.arbGrants c x q = false → exec (.routerCopy c q) s = .next s) ∧
    (∀ k, s.arbPtr x = k → s.wants c x k ≠ [] → (∀ d, (s.wants c x k).count d ≤ (x.oq d).free) → s.arbGrants c x k = true) ∧
    (core (x.routeOf q f) = false → outs = [] →
      exec (.flitDiscardNoRoute c q) s = .next (((s.setCog c (x.settle q v.pop)).cogError (blockOf c)).note c false)) ∧
    (∀ k r, s.regionOf c = some (k, r) → r.draining = true → f.tag ≠ r.live → x.ranLive = true → core (x.routeOf q f) = true →
      (outs = [] → exec (.staleFlitDiscard c q) s = .next (((s.setCog c (x.settle q v.pop)).cogError (blockOf c)).note c false)) ∧
      (outs ≠ [] → v.copied = true → exec (.staleFlitDiscard c q) s = .next ((s.setCog c (x.settle q v.pop)).note c false)))) ∧
  (
  (∀ (c : CogId) (d : Side) (s : State), s.live = true →
    (∀ e, neighbour c d = some e → ((s.cog e).oq d.opp).mark = true →
      let u := s.setCog e ((s.cog e).setOq d.opp { (s.cog e).oq d.opp with mark := false })
      exec (.turnMarkArrive (.into c d)) s =
        .next ((u.setCog c ((u.cog c).setIq d.num { (u.cog c).iq d.num with turned := true })).note c false)) ∧
    (neighbour c d = none → (s.edgeIn c d).mark = true → (∀ k r, s.regionOf c = some (k, r) → ∀ f ∈ (s.edgeIn c d).flits, f.tag = r.live) →
      let u := s.setEdgeIn c d { s.edgeIn c d with mark := false }
      exec (.turnMarkArrive (.into c d)) s =
        .next ((u.setCog c ((u.cog c).setIq d.num { (u.cog c).iq d.num with turned := true })).note c false)) ∧
    (neighbour c d = none → ((s.cog c).oq d).mark = true →
      exec (.turnMarkArrive (.out c d)) s = .next (s.setCog c ((s.cog c).setOq d { (s.cog c).oq d with mark := false }))) ∧
    ∀ k r, s.regionOf c = some (k, r) → r.draining = true →
      (((s.cog c).oq d).turned = false → (s.cog c).mayTurn d (!r.live) = true → exec (.outputTurn c d) s =
        .next ((s.setCog c ((s.cog c).setOq d { (s.cog c).oq d with
          turned := true, mark := (neighbour c d).all fun e => inRect r.rect (blockOf e) })).note c false)) ∧
      (neighbour c d = none → (s.edgeIn c d).turned = false → s.fedEdge r c d = true → s.mayTurnEdge r c d = true →
        exec (.edgeTurnSend c d) s =
          .next (s.setEdgeIn c d { s.edgeIn c d with turned := true, mark := true, closed := s.lastEast r c d }))) ∧
  ∀ (k : RunId) (r : Region) (s : State), s.live = true → Tab.find s.arr.regions k = some r → r.draining = true →
    (∀ c ∈ rectCogs r.rect, (s.cog c).drained (!r.live) = true) →
    let u := ((rectCogs r.rect).foldl (fun (u : State) c => u.setCog c (u.cog c).unturn) s).unturnEdges r.rect
    let v := (rectBlocks r.rect).foldl (fun (v : State) b =>
      let p := v.bplane b (!r.live)
      (v.setBplane b (!r.live) (if p.state = .draining then { p with state := .loaded } else p)).trace 0x05 r.seq b (b2n (!r.live))) u
    exec (.planeDrainDone k) s = .next (v.setRegion k { r with draining := false, shiftK := none }))

/-- SPILL_START on a full queue of a holding plane whose pannier gives it a slice, while the cog's instruction lacks words of another
source, starts an episode: an empty slice of the plane its tail names, the sender granted up to eight credits of the slice, SPILLS of the
block one more and trace event 0x06. SPILL_END on an empty slice, with room in the queue for all the sender may still send, ends it: what
had arrived joins the queue and the credits follow its free entries. INSTR_RESULT_WRITE writes every destination of result n in flight once
no earlier result writes the same register, queue or bank. DRAIN_FLIT writes the next flit of a drain into its vector register, or, with an
entry that the arbiter grants it, into its output queue with EOT on the last where ET is set. UWRITE_FLIT_MOVE moves the next flit of a
running UWRITE's source into U_OUT. A slot of the U port that grants the read stream moves the flit at the stream's address into U_IN, one
that grants UWRITE writes the oldest flit of U_OUT, and the port's pointer goes on by one. (R33, R45, R52, R53, R63, R64, R69, R121, R134,
R135, R136, R137) -/
def Obligations.SpillsAndEngines : Prop :=
  (
  ∀ (c : CogId) (d : Side) (s : State), s.live = true →
    let x := s.cog c
    let v := x.iq d.num
    (∀ f, v.flits.getLast? = some f → v.spill = none → v.flits.length = 8 → (x.planeOf f.tag).spills d.num = true →
      (s.bplane (blockOf c) f.tag).state.holds = true → x.starved.any (· != d.num) = true →
      exec (.spillStart c d) s = .next ((((s.setCog c (x.setIq d.num { v with
        spill := some f.tag, sliceHead := 0, side := [], arrived := [], freed := 0,
        credits := max v.credits (min 8 (x.planeOf f.tag).sliceCap) })).count F.GEAR_PAN_STAT.SPILLS (blockOf c) 1).trace 0x06
        (s.regionSeq c) (cogX c + 256 * cogY c) (0x20 + d.num)).note c false)) ∧
    (v.spill ≠ none → v.side = [] → v.credits + v.arrived.length ≤ 8 - v.flits.length →
      exec (.spillEnd c d) s = .next ((s.setCog c (x.settle d.num { v with
        spill := none, sliceHead := 0, flits := v.flits ++ v.arrived, arrived := [], freed := 0,
        credits := 8 - v.flits.length - v.arrived.length })).note c false))) ∧
  (
  ∀ (c : CogId) (s : State), s.live = true →
    let x := s.cog c
    (∀ n f, x.inflight[n]? = some f → x.writable n = true → exec (.instrResultWrite c n) s = .next ((s.setCog c
      { f.dests.foldl Cog.put { x with inflight := x.inflight.eraseIdx n } with waited := none }).note c false)) ∧
    (∀ d, x.drain = some d → x.freewheel = false →
      let y : Cog := { x with drain := if d.next + 1 = d.flits then none else some { d with next := d.next + 1 }, waited := none }
      let data := x.drainData d (s.numCfg c).1 d.next
      (outOf d.dst = none → exec (.drainFlit c) s =
        .next ((s.setCog c (y.setV (d.dst + d.next) (BitVec.ofNat 256 data))).note c false)) ∧
      ∀ sd, outOf d.dst = some sd → s.arbGrants c x 6 = true →
        exec (.drainFlit c) s = .next ((s.setCog c (y.setOq sd { x.oq sd with
          flits := (x.oq sd).flits ++ [.make data d.plane (d.et && d.next + 1 == d.flits)] })).note c false)) ∧
    (∀ w vs y, x.uwrite = some w → w.left ≠ 0 → w.uout.length < 8 → x.gather w.plane [⟨w.src, 8, 0, true⟩] = some (vs, y, true) →
      exec (.uwriteFlitMove c) s = .next ((s.setCog c { y with
        waited := none, uwrite := some { w with left := w.left - 1, uout := w.uout ++ [BitVec.ofNat 256 (vs.getD 0 0)] } }).note c false)) ∧
    (s.fenced c = false → x.freewheel = false → (s.regionOf c).isSome = true →
      let u := s.setCog c { x with uptr := (x.uptr + 1) % 4 }
      (x.uGrant = none → exec (.uPortSlot c .good) s = .next u) ∧
      (x.uGrant = some 3 → exec (.uPortSlot c .good) s = .next ((u.uwriteFlit c).note c false)) ∧
      ∀ rs, x.uGrant = some 2 → (u.cog c).uread = some rs →
        let t := u.ureadFlit c rs ((u.cog c).bank.num (bankAddr rs.addr) 32)
        exec (.uPortSlot c .good) s = .next ((t.setCog c { t.cog c with waited := none }).note c false)))

/-- SEQ_TOKEN_START makes a cog that waits at its entry queue run from address 0 the plane its head flit names. FREEWHEEL_ENTER puts a cog
of a command that enables it into freewheel once its sequencer has waited for words, a grant or its entry queue for ENTRY x 16 ACLK cycles
without a break and no flit has come into it in this cycle, and FREEWHEEL_EXIT ends the freewheel of a woken cog. A region whose stall limit
alone has run out aborts its task with E_STALL, and one whose deadlock window ran out first aborts with E_DEADLOCK, its full slices counted.
A source stream of a running region with tokens left, room at its edge port and no LIVE-plane flit held back before its TURN mark, whose
read meets no hindrance and waits for no paused channel, and that begins no unit of 4 KiB, or begins one that its engine grants it and that
needs no host read: EDGE_SOURCE_FLIT leaves the waiting order, counts what its reads did on the bus, puts the next flit of its token,
stamped with the plane of R120 and with EOT on the token's last, at the port, captures it, and goes on to the next flit or token; or aborts
the command with E_PARITY where a free value says that a word failed its eighth resend. What waits for the main tier or the host then goes
on. EDGE_SINK_FLIT takes the oldest flit of an edge port: one for which no region runs is discarded and the cog error source is raised; a
sink stream's flit inside its walk, of a CLEAN or DIRTY tensor, whose channels are not paused, and that begins no unit of 4 KiB or begins
one that the main tier grants, is written into its tensor's shadow, and the stream goes on, or the command aborts in the same way. (R47,
R59, R75, R77, R79, R120, R126, R141, R180, R192, R236, R301) -/
def Obligations.CogsAndEdgePortsRun : Prop :=
  (
  (∀ (c : CogId) (s : State), s.live = true →
    let x := s.cog c
    (∀ pl, x.freewheel = false → s.tokenStart c = some pl → exec (.seqTokenStart c) s = .next ((s.setCog c { x with
      mode := .run, plane := pl, pc := 0, waited := none,
      ranLive := x.ranLive || (s.regionOf c).any fun e => pl == e.2.live }).note c false)) ∧
    (∀ k r t, s.regionOf c = some (k, r) → r.cfg.fwEn = true → x.freewheel = false → x.waited = some t →
      t + r.cfg.fwEntry * 16 ≤ s.cycle → s.waits c = true → x.flitAt ≠ s.cycle →
      exec (.freewheelEnter c) s = .next (s.setCog c { x with freewheel := true, woken := false })) ∧
    (x.freewheel = true → x.woken = true → exec (.freewheelExit c) s =
      .next ((s.setCog c { x with freewheel := false, woken := false, waited := none }).note c false))) ∧
  ∀ (k : RunId) (r : Region) (s : State), s.live = true → Tab.find s.arr.regions k = some r →
    (s.deadAt r = none → ∀ t, s.stallAt r = some t → exec (.streamStallTimeout k) s = .next (s.abortCmd r.seq eStall 0)) ∧
    (∀ d, s.deadAt r = some d → (∀ t, s.stallAt r = some t → d ≤ t) →
      exec (.deadlockTimeout k) s = .next (s.deadlock r))) ∧
  (
  (∀ (k : RunId) (i : StreamId) (s : State) (g : Region) (st : Stream) (t : Tensor), s.live = true →
    Tab.find s.arr.regions k = some g → g.stream i = some st → s.tensor g.part st.desc.tid = some t → st.desc.dir = 0 → st.holds = false →
    st.tok < s.streamTotal g st →
    let cd := st.portOf st.tok
    let tag := g.stamp (st.desc.tokenBase + st.tok)
    let srcs := s.nextSources g st t
    let unit := st.unitStart t st.tok st.flit
    (s.edgeIn cd.1 cd.2).flits.length < 8 → ¬ (g.draining = true ∧ tag = g.live ∧ (s.edgeIn cd.1 cd.2).turned = false) →
    s.readMeets g.part srcs = .ready → s.mainWaits (k, i) (s.chansAt (s.regionTask g) g.part srcs) = false →
    (unit = true → s.engGrants (engineOf srcs) (s.streamReq g) = true ∧ hostOf srcs = none) →
      let v := if unit then s.engServe (engineOf srcs) (s.streamReq g) else s
      let send (v : State) : State :=
        let w := v.sourceFlit (v.regionTask g) g.part st.desc t g.shape g.plist st.tok st.flit
        let last := decide (st.desc.tokenFlits (elemBits t.desc.etype) ≤ st.flit + 1)
        let u := (v.captureFlit (v.regionTask g) g.part st.desc t g.shape g.plist st.tok st.flit).setEdgeIn cd.1 cd.2
          { v.edgeIn cd.1 cd.2 with flits := (v.edgeIn cd.1 cd.2).flits ++ [.make w.1 tag last] }
        ((u.setRegion k (g.setStream (if last then { st with tok := st.tok + 1, flit := 0 } else { st with flit := st.flit + 1 }))).badIndices
          g.part st.desc.tid w.2).note cd.1 false
      exec (.edgeSourceFlit k i) s = .next ((((v.leaveMain (· == (k.val, st.idx))).busErrors false
        (v.burstsAt (v.regionTask g) g.part srcs)).orParity g.seq send).mainGo.hostGoes)) ∧
  ∀ (c : CogId) (d : Side) (s : State) (f : Flit) (fs : List Flit), s.live = true → d ≠ .e → neighbour c d = none →
    s.sinkAt c d = f :: fs →
    (s.regionOf c = none → exec (.edgeSinkFlit c d) s = .next ((s.setSinkAt c d fs).cogError (blockOf c))) ∧
    ∀ key r st l t, s.regionOf c = some (key, r) → r.sinkOn c d = some (st, l) → s.tensor r.part st.desc.tid = some t →
      (t.state = .clean ∨ t.state = .dirty) →
      let n := Tab.get (0, 0) st.links l
      let tok := l + n.1 * st.desc.nlink
      tok < s.streamTotal r st → n.2 < st.desc.tokenFlits (elemBits t.desc.etype) →
      s.mainWaits (key, st.idx) (s.chansAt (s.regionTask r) r.part (s.sinkPlaces r st t tok n.2)) = false →
      (st.unitStart t tok n.2 = true → s.engGrants 0 (s.streamReq r) = true) →
      let v := if st.unitStart t tok n.2 then s.engServe 0 (s.streamReq r) else s
      exec (.edgeSinkFlit c d) s = .next ((((((v.leaveMain (· == (key, st.idx))).setSinkAt c d fs).sinkFlit r st t tok n.2 f.data).orParity
        r.seq fun u => u.setRegion key (r.setStream
          { st with links := Tab.set (0, 0) st.links l (if f.eot then (n.1 + 1, 0) else (n.1, n.2 + 1)) })).mainGo).note c false))

/-- For a hub that executes instruction i next, with a and b the values of ra and rb: NOP only moves on; LI, LIH, ADD, SUB, AND, OR, XOR,
SHL, SHR, MUL, SETC, LD and TIME write RD with the value of R264 (modulo 2^64, shift counts modulo 64, the scratch word at (ra + IMM32)
modulo 65,536 with bits [2:0] ignored) and the program counter moves to the next word modulo 8,192; nothing else changes. A write to h0 is
ignored. For a hub that executes instruction i next: ST writes the eight bytes of rb at the scratch word of (ra + IMM32) modulo 65,536; BR
goes to its target where the condition holds, else to the next word; CALL saves the next word's address in h31 and goes to its target; RET
goes to h31. For the running command n: JNOTE writes NOTE of its journal entry in both copies; ABORT aborts its task with E_ABORTED and
DETAIL ra[31:0]. IRET at level 1 of a handler restores the saved program counter and wait, switches the interrupt bank out and completes the
source, or, where the source is not ACTIVE on the hub, is a stray completion, logged with INTC_ERR in strict mode and counted in relaxed
mode; what the handler took does not count toward the interrupted command. (R243, R257, R263, R264, R277, R309, R409, R410, R412, R413) -/
def Obligations.HubRegisterAndControlInstructions : Prop :=
  (
  ∀ (h : HubId) (s : State) (i : HubInstr), s.hubIssues h i →
    let x := s.hub h
    let a := x.reg i.ra
    let b := x.reg i.rb
    let ext := (BitVec.ofNat 32 i.imm).signExtend 64
    (i.opc = 0x00 → exec (.hubNop h) s = .next (s.setHub h { x with pc := (x.pc + 1) % 8192 })) ∧
    (i.opc = 0x01 → exec (.li h) s = .next (s.hubWith h i.rd ext)) ∧
    (i.opc = 0x02 → exec (.lih h) s = .next (s.hubWith h i.rd (BitVec.ofNat 64 (setBits (x.reg i.rd).toNat 32 32 i.imm)))) ∧
    (i.opc = 0x03 → exec (.add h) s = .next (s.hubWith h i.rd (a + b + ext))) ∧
    (i.opc = 0x04 → exec (.sub h) s = .next (s.hubWith h i.rd (a - b))) ∧
    (i.opc = 0x05 → exec (.hubAnd h) s = .next (s.hubWith h i.rd (a &&& b))) ∧
    (i.opc = 0x06 → exec (.hubOr h) s = .next (s.hubWith h i.rd (a ||| b))) ∧
    (i.opc = 0x07 → exec (.hubXor h) s = .next (s.hubWith h i.rd (a ^^^ b))) ∧
    (i.opc = 0x08 → exec (.shl h) s = .next (s.hubWith h i.rd (a <<< ((b.toNat + i.imm) % 64)))) ∧
    (i.opc = 0x09 → exec (.shr h) s = .next (s.hubWith h i.rd (a >>> ((b.toNat + i.imm) % 64)))) ∧
    (i.opc = 0x0A → exec (.mul h) s = .next (s.hubWith h i.rd (a * b))) ∧
    (i.opc = 0x0B → exec (.setc h) s = .next (s.hubWith h i.rd (if condHolds (i.aux % 8) a b = some true then 1 else 0))) ∧
    (i.opc = 0x0C → exec (.ld h) s = .next (s.hubWith h i.rd
      (BitVec.ofNat 64 (ofBytes (x.scratch.readN ((a.toNat + i.imm) % 65536 / 8 * 8) 8))))) ∧
    (i.opc = 0x0E → exec (.time h) s = .next (s.hubWith h i.rd (BitVec.ofNat 64 s.time))) ∧
    (∀ v, x.setReg 0 v = x)) ∧
  (
  ∀ (h : HubId) (s : State) (i : HubInstr), s.hubIssues h i →
    let x := s.hub h
    let a := x.reg i.ra
    let b := x.reg i.rb
    (i.opc = 0x0D → exec (.st h) s = .next ((s.setHub h { x with
      scratch := x.scratch.writeN ((a.toNat + i.imm) % 65536 / 8 * 8) (toBytes 8 b.toNat) }).hubNext h)) ∧
    (i.opc = 0x10 → condHolds (i.aux % 8) a b = some true → ∀ t, s.target h i = some t →
      exec (.hubBr h) s = .next (s.setHub h { x with pc := t })) ∧
    (i.opc = 0x10 → condHolds (i.aux % 8) a b = some false →
      exec (.hubBr h) s = .next (s.setHub h { x with pc := (x.pc + 1) % 8192 })) ∧
    (i.opc = 0x11 → ∀ t, s.target h i = some t →
      exec (.call h) s = .next (s.setHub h { x.setReg 31 (BitVec.ofNat 64 (x.pc + 1)) with pc := t })) ∧
    (i.opc = 0x12 → exec (.ret h) s = .next (s.setHub h { x with pc := (x.reg 31).toNat % 8192 })) ∧
    (∀ n c, s.curCmd h = some (n, c) →
      (i.opc = 0x16 → exec (.jnote h) s = .next ((s.jput n { s.jget n with note := a.toNat % 2 ^ 32 }).hubNext h)) ∧
      (i.opc = 0x14 → exec (.abort h) s = .next ((s.hubNext h).abortCmd n eAborted (a.toNat % 2 ^ 32)))) ∧
    (∀ src pc w, i.opc = 0x15 → x.stack = [(src, pc, w)] →
      let v := s.setHub h ({ x with stack := [], pc := pc, wait := w } : Hub).swapBank
      let u := if (s.intc.active.any fun a => a.1 == h.val && a.2.1 == src) = true then v.complete h src
        else if s.on F.INTC_TGT_CFG.MODE h = true then v.count F.INTC_STRAY_COUNT.COUNT h 1
        else (((v.wr F.INTC_ERR_LOG.TARGET 0 h).wr F.INTC_ERR_LOG.SOURCE 0 src).wr F.INTC_ERR_LOG.TIME 0 s.time).raise 156
      (x.cur = none → exec (.iret h) s = .next u) ∧
      (∀ n, x.cur = some n → exec (.iret h) s =
        .next (u.modCmd n fun c => c.exclude x.irqSince u.work))))

/-- For a hub that runs command n at instruction i: DRAIN, WAIT and FENCE move to the next word and enter a wait that is to fill RD, with
the time it began, marked as met where it is met already, and the command may park in it (R268): DRAIN and WAIT for the handle in ra with a
limit of rb ns, 0 for none, FENCE without limit; EVSIG adds IMM32 to event ra[7:0] of the partition and moves on; EVWAIT with IMM32 = 0
returns 0 where the event has reached rb[31:0] and 1 where not, and with another IMM32 enters such a wait for the event with a limit of that
many microseconds; NOTIFY hands MSI-X vector AUX[5:0] of the partition's function to the sender and moves on; END ends the command where
every handle has its outcome, else enters such a wait. An illegal instruction aborts the task with E_ABORTED, DETAIL 0xFE and the word's
address. A wait of the running command, other than END's, that was met no later than its limit ends: RD takes the handle's or FENCE's
outcome word (0 for an event), the time waited is excluded where R309 says so, and the handles waited for are free again; END's ends the
command. One whose limit ran out before it was met ends with its TIMEOUT word in RD (1 for an event). (R264, R265, R266, R272, R273, R275,
R276, R309) -/
def Obligations.HubWaitsAndEvents : Prop :=
  ∀ (h : HubId) (s : State) (n : Nat) (c : Cmd), s.live = true → s.curCmd h = some (n, c) →
    let x := s.hub h
    (∀ i, s.hubIssues h i →
      let a := x.reg i.ra
      let b := x.reg i.rb
      let e := a.toNat % 256
      let limit := if b.toNat = 0 then timeNone else timeAdd s.time b.toNat
      let waits (k : WaitKind) (rd lim : Nat) : State :=
        let u := s.hubNext h
        (u.setHub h { u.hub h with wait := some ⟨k, rd, lim, s.work, none⟩ }).markMet.park h
      (i.opc = 0x39 → exec (.drain h) s = .next (waits (.handle a.toNat) i.rd limit)) ∧
      (i.opc = 0x40 → exec (.wait h) s = .next (waits (.handle a.toNat) i.rd limit)) ∧
      (i.opc = 0x41 → exec (.fence h) s = .next (waits .fence i.rd timeNone)) ∧
      (i.opc = 0x42 → exec (.evsig h) s = .next ((s.eventAdd c.part e i.imm).hubNext h)) ∧
      (i.opc = 0x43 → i.imm = 0 → exec (.evwait h) s =
        .next (s.hubWith h i.rd (BitVec.ofNat 64 (if s.eventMet c.part e (b.toNat % 2 ^ 32) then 0 else 1)))) ∧
      (i.opc = 0x43 → i.imm ≠ 0 → exec (.evwait h) s =
        .next (waits (.event e (b.toNat % 2 ^ 32)) i.rd (timeAdd s.time (i.imm * 1000)))) ∧
      (i.opc = 0x44 → exec (.notify h) s = .next ((s.request (c.part + 1) (i.aux % 64)).hubNext h)) ∧
      (i.opc = 0x13 → c.settled = true → exec (.hubEnd h) s = .next (s.endCommand h n)) ∧
      (i.opc = 0x13 → c.settled = false → exec (.hubEnd h) s = .next (waits .finish 0 timeNone))) ∧
    (s.hubRuns h = true → s.illegal h = true →
      exec (.illegalInstruction h) s = .next (s.abortCmd n eAborted (0xFE + x.pc % 2 ^ 13 * 2 ^ 8))) ∧
    (∀ w, x.wait = some w →
      let c' := c.exclude (c.waitSpan w s.work).1 (c.waitSpan w s.work).2
      let ends (d : Cmd) (word : Nat) : State := (s.setCmd n d).setHub h (({ x with wait := none } : Hub).setReg w.rd (BitVec.ofNat 64 word))
      (w.inTime = true → w.kind ≠ .finish → exec (.handleWaitDone h none) s = .next (ends (c'.afterWait w) (c.waitWord w))) ∧
      (w.inTime = true → w.kind = .finish → exec (.handleWaitDone h none) s = .next ((s.setCmd n (c'.afterWait w)).endCommand h n)) ∧
      (w.inTime = false → w.limit ≠ timeNone → w.limit ≤ s.time → w.kind ≠ .finish →
        exec (.handleWaitTimeout h none) s = .next (ends c' w.timeoutWord)))

/-- h0 of a hub reads as zero whatever its register table holds; in a hub whose register table is in canonical form, a register other than
h0 reads as last written, every other register as before, and the table stays in canonical form. (R243) -/
def Obligations.HubRegisterFile : Prop :=
  ∀ (x : Hub) (v : Word64), x.reg 0 = 0 ∧ x.setReg 0 v = x ∧
    (Tab.wf (fun _ => (0 : Word64)) x.regs = true → ∀ r, r ≠ 0 →
      (x.setReg r v).reg r = v ∧ (∀ q, q ≠ r → (x.setReg r v).reg q = x.reg q) ∧
      Tab.wf (fun _ => (0 : Word64)) (x.setReg r v).regs = true)

/-- For every hub instruction whose fields are in the ranges of R263, decoding its encoding gives it back, with every field at every value;
and for every 64-bit word, encoding what it decodes to gives the word back. (R263) -/
def Obligations.HubInstructionsRoundTrip : Prop :=
  (∀ i : HubInstr, i.opc < 256 → i.rd < 32 → i.ra < 32 → i.rb < 32 → i.aux < 256 → i.imm < 2 ^ 32 → hubDecode (hubEncode i) = i) ∧
  ∀ w : Word64, hubEncode (hubDecode w) = w

/-- For every cog instruction of the formats S, A, C and U whose fields are in the ranges of R66 and whose opcode selects its format,
decoding its encoding gives it back, with every field at every value; for every 64-bit word that decodes, the instruction is well-formed and
its encoding is the word; and a word decodes exactly where its opcode is below 0x58. (R66, R67) -/
def Obligations.CogInstructionsRoundTrip : Prop :=
  (∀ i : CogInstr, i.wf = true → cogDecode (cogEncode i) = some i) ∧
  (∀ (w : Word64) (i : CogInstr), cogDecode w = some i → i.wf = true ∧ cogEncode i = w) ∧
  ∀ w : Word64, (cogDecode w).isSome = true ↔ w.toNat / 2 ^ 56 < 0x58

/-- Words written out bit by bit from the encoding tables: cog NOP, filler, BR to 5 under p3, AADD a2 := a1 + 7, BF16 VFMA v4 := v1 x v2 +
N_IN with its pop bit, UWRITE of E_IN; and hub LI h5 := -1, BR to body word 9 under LTU of h1 and h2, RUN of block 2 with TRY. Each decodes
to that instruction with those operands. (R33, R66, R67, R263, R264) -/
def Obligations.ExampleWordsDecode : Prop :=
  cogDecode 0x0000000000000000 = some (.s ⟨0x00, false, 0⟩ 0 false 0 0 0 0) ∧
  cogDecode 0x0080000000000000 = some (.s ⟨0x00, true, 0⟩ 0 false 0 0 0 0) ∧
  cogDecode 0x0218005000000000 = some (.s ⟨0x02, false, 3⟩ 0 false 0 5 0 0) ∧
  cogDecode 0x0901080000000007 = some (.a ⟨0x09, false, 0⟩ 2 1 0 0 0 7) ∧
  cogDecode 0x2400808501200000 = some (.c ⟨0x24, false, 0⟩ 4 1 2 0x20 1 1 false 0) ∧
  cogDecode 0x5104260000000010 = some (.u ⟨0x51, false, 0⟩ 0x21 3 0 0 false 0 16) ∧
  hubDecode 0x01280000FFFFFFFF = ⟨0x01, 5, 0, 0, false, 0, 0xFFFFFFFF⟩ ∧
  hubDecode 0x1000440200002009 = ⟨0x10, 0, 1, 2, false, 2, 0x2009⟩ ∧
  hubDecode 0x3808010200000000 = ⟨0x38, 1, 0, 0, true, 2, 0⟩

/-- For every command that is a hub instruction working on registers, scratch and the program counter, from every state in which its hub
executes it next, the next state has the same registers of the device, array, tensors, queues, commands, tasks, operations, journal,
messages, host memory, device time and command queue, and every other hub as it was (for states whose table of hubs is in canonical form);
where the hub does not execute that instruction next, nothing changes. (R243, R262, R264) -/
def Obligations.HubInstructionFrame : Prop :=
  ∀ (i : Instr) (h : HubId) (opc : Nat) (s : State), hubLocalOp i = some (h, opc) →
    (∀ d, s.hubIssues h d → d.opc = opc → ∃ t, exec i s = .next t ∧ HubOnly h s t) ∧
    (s.hubFetch h opc = none → exec i s = .next s)

/-- A hub that runs command n with a free handle executes one of these next: some free handle hd of the command names the operation, RD
holds hd, the program counter moves on, and the operation is tried at once (a RUN not while the array sleeps in Idle-serve). So, on main-
home tensors: LOAD of a CLEAN or DIRTY one ends with OK; FLUSH and EVICT of a CLEAN one with a backing, not held, end with OK, EVICT with
its pages given back; COPY between resident tensors of one length, the target RW and its shadow pages granted, starts; HLIB of a resident RO
tensor of at most 32,768 bytes starts; GLOAD of an image that passes checks 1 to 16 goes to check 17, RUN whose checks pass starts its
region, and STEP whose checks pass, its pages granted, freezes its batch. Which free handle it is, is the model's free value (log 13). With
all 16 handles in use the task aborts with E_ABORTED and DETAIL 0xFC with the word address. SHIFT of a running RUN's handle whose checks of
R123 pass makes the named plane LIVE and the other DRAINING and returns OK, and one that must wait stays at the program counter, stalled and
waiting; SHIFT_RESUME judges a stalled SHIFT again from check 1. RUN_COMPLETE, once the region meets R271, ends the RUN's fills, planes and
cogs and gives its handle OK. SEQEND with AUX[0] = 1 aborts the REQUEST of a live sequence of the partition at once; with 0 the sequence
ends now where no step in flight holds it, and is ENDING from now on where one does; of a sequence that is ENDING it waits, having aborted
it with AUX[0] = 1 (log 38). STEP_PHASE_START of a step's next phase, with the array awake, its checks passed and its pages granted,
reserves them and starts it. (R114, R115, R116, R123, R169, R264, R265, R270, R271, R323, R326, R333) -/
def Obligations.OperationsIssueAndRun : Prop :=
  (
  ∀ (h : HubId) (s : State) (i : HubInstr) (n : Nat) (c : Cmd), s.hubIssues h i → s.curCmd h = some (n, c) →
    let x := s.hub h
    let a := (x.reg i.ra).toNat
    let b := (x.reg i.rb).toNat
    let p := c.part
    let o (op : HOp) : AOp := ⟨op, p, c.task, c.acceptedAt, false, false, s.work⟩
    (c.freeHandles ≠ [] → ∃ hd ∈ c.freeHandles,
      let u (run : Bool) (op : HOp) : State := s.issued h i n c run op hd
      (i.opc = 0x21 → exec (.load h) s = .next ((u false (.load (a % 2 ^ 32))).tryLoad n hd c.part c.acceptedAt (a % 2 ^ 32))) ∧
      (i.opc = 0x22 → exec (.flush h) s = .next ((u false (.flush (a % 2 ^ 32))).tryFlush n hd c.part c.task (a % 2 ^ 32))) ∧
      (i.opc = 0x23 → exec (.evict h) s = .next ((u false (.evict (a % 2 ^ 32))).tryEvict n hd c.part c.task (a % 2 ^ 32))) ∧
      (i.opc = 0x25 → exec (.copy h) s = .next ((u false (.copy (a % 2 ^ 32) (b % 2 ^ 32))).tryCopy n hd c.part c.task c.acceptedAt
        (a % 2 ^ 32) (b % 2 ^ 32))) ∧
      (i.opc = 0x58 → exec (.hlib h) s = .next ((u false (.hlib (a % 2 ^ 32))).tryHlib n hd c.part (a % 2 ^ 32))) ∧
      (i.opc = 0x30 → let op := HOp.gload (a % 2 ^ 32) (b % 2 ^ 16) (i.aux % 2)
        exec (.gload h) s = .next ((u false op).tryGload n hd (o op) (a % 2 ^ 32) (b % 2 ^ 16) (i.aux % 2))) ∧
      (i.opc = 0x38 → s.asleep = false → exec (.run h) s = .next ((u true (.run (i.aux % 4))).tryRun n hd (i.aux % 4))) ∧
      (i.opc = 0x38 → s.asleep = true → exec (.run h) s = .next (u true (.run (i.aux % 4)))) ∧
      (i.opc = 0x50 → exec (.step h) s = .next ((u false (.step (a % 65536) i.imm)).tryStep n hd (a % 65536) i.imm)) ∧
      (∀ t, s.tensor p (a % 2 ^ 32) = some t → t.main = true →
        (i.opc = 0x21 → t.state = .clean ∨ t.state = .dirty →
          exec (.load h) s = .next ((u false (.load (a % 2 ^ 32))).opEnd n hd (okWord false))) ∧
        (t.state = .clean → t.desc.back ≠ 0 →
          (∀ v, i.opc = 0x22 → v = u false (.flush (a % 2 ^ 32)) → v.opBlocked c.task p (a % 2 ^ 32) t = false →
            exec (.flush h) s = .next (v.opEnd n hd (okWord false))) ∧
          (∀ v, i.opc = 0x23 → v = u false (.evict (a % 2 ^ 32)) → v.opBlocked c.task p (a % 2 ^ 32) t = false →
            exec (.evict h) s = .next ((v.vacate p (a % 2 ^ 32)).opEnd n hd (okWord false)))) ∧
        (t.state = .clean ∨ t.state = .dirty →
          (∀ b' v w, i.opc = 0x25 → s.tensor p (b % 2 ^ 32) = some b' → b'.main = true → b'.rw_ = true → b'.desc.length = t.desc.length →
            b'.state = .clean ∨ b'.state = .dirty → v = u false (.copy (a % 2 ^ 32) (b % 2 ^ 32)) →
            v.bulkGate (v.sourceTier p v.chain (a % 2 ^ 32)) = .granted →
            v.takePages (reqOf n hd) p c.acceptedAt (v.shadowNeed c.task p (b % 2 ^ 32) b') = (w, .granted) →
            exec (.copy h) s = .next ((w.modTask c.task fun k =>
              { k with reserved := k.reserved + v.shadowNeed c.task p (b % 2 ^ 32) b' }).opStart n hd)) ∧
          (∀ v, i.opc = 0x58 → t.rw_ = false → t.desc.length ≤ 32768 → v = u false (.hlib (a % 2 ^ 32)) →
            v.bulkGate (v.sourceTier p v.chain (a % 2 ^ 32)) = .granted → exec (.hlib h) s = .next (v.opStart n hd)) ∧
          (∀ v g len, i.opc = 0x30 → t.desc.ndim = 1 → t.desc.etype = 8 →
            v = u false (.gload (a % 2 ^ 32) (b % 2 ^ 16) (i.aux % 2)) →
            v.gearImage (o (.gload (a % 2 ^ 32) (b % 2 ^ 16) (i.aux % 2))) (a % 2 ^ 32) = some (g, len) →
            v.gearFault p s.work (b % 2 ^ 16) (i.aux % 2 == 1) g len = none →
            exec (.gload h) s = .next (v.gearPlace n hd (o (.gload (a % 2 ^ 32) (b % 2 ^ 16) (i.aux % 2))) g (i.aux % 2 == 1))))) ∧
      (∀ v c' r ds, i.opc = 0x38 → s.asleep = false → v = u true (.run (i.aux % 4)) → v.cmd n = some c' →
        v.runStarts c' (i.aux % 4) r ds → exec (.run h) s = .next ((v.opStart n hd).startRegion n hd c' r ds none)) ∧
      (∀ v w c' d phases, i.opc = 0x50 → v = u false (.step (a % 65536) i.imm) → v.cmd n = some c' →
        v.stepFreezes c' (a % 65536) i.imm d phases →
        v.takePages (reqOf n hd) c'.part c'.acceptedAt (v.stepShadow c' d) = (w, .granted) →
        exec (.step h) s = .next ((w.modTask c'.task fun k => { k with reserved := k.reserved + v.stepShadow c' d }).freeze n hd c' d phases))) ∧
    (c.freeHandles = [] →
      let t := s.abortCmd n eAborted (0xFC + x.pc % 2 ^ 13 * 2 ^ 8)
      (i.opc = 0x21 → exec (.load h) s = .next t) ∧ (i.opc = 0x22 → exec (.flush h) s = .next t) ∧
      (i.opc = 0x23 → exec (.evict h) s = .next t) ∧ (i.opc = 0x25 → exec (.copy h) s = .next t) ∧
      (i.opc = 0x58 → exec (.hlib h) s = .next t) ∧ (i.opc = 0x30 → exec (.gload h) s = .next t) ∧
      (i.opc = 0x38 → exec (.run h) s = .next t) ∧ (i.opc = 0x50 → exec (.step h) s = .next t))) ∧
  (
  (∀ (h : HubId) (s : State) (i : HubInstr) (n : Nat) (c : Cmd) (key : Nat) (r : Region), s.hubIssues h i → s.curCmd h = some (n, c) →
    let x := s.hub h
    let gear := (x.reg i.rb).toNat % 2 ^ 32
    i.opc = 0x31 → (s.arr.regions.find? fun e => e.2.seq == n && e.2.handle == (x.reg i.ra).toNat && e.2.step.isNone) = some (key, r) →
      (s.shiftCheck r gear i.imm = .go →
        (x.stalled = false → exec (.shift h) s = .next ((s.shiftNow key r gear i.imm).syncEnd h i n (okWord false))) ∧
        (x.stalled = true → exec (.shiftResume h) s = .next ((s.shiftNow key r gear i.imm).syncEnd h i n (okWord false)))) ∧
      (s.shiftCheck r gear i.imm = .waits → x.stalled = false →
        exec (.shift h) s = .next (s.setHub h { x with stalled := true, waited := true }))) ∧
  (∀ (k : RunId) (s : State) (g : Region) (c : Cmd), s.live = true → Tab.find s.arr.regions k = some g → s.runDone g = true →
    g.step = none → s.cmd g.seq = some c →
    let u := (s.endFills g).closeRegion k
    exec (.runComplete k) s = .next (((u.modCmd g.seq fun c => c.exclude g.quietWork u.work).trace 0x03 g.seq (okWord false)
      (s.countedTime g.seq c)).opEnd g.seq g.handle (okWord false))) ∧
  (∀ (h : HubId) (s : State) (i : HubInstr) (n : Nat) (c : Cmd) (k : Nat) (y : Seq), s.hubIssues h i → s.curCmd h = some (n, c) →
    i.opc = 0x51 → (s.hub h).stalled = false →
    let req := ((s.hub h).reg i.ra).toNat
    s.findSeq req = some (k, y) → y.part = c.part → y.dead = none →
      (i.aux % 2 = 1 → y.ending = false →
        exec (.seqend h) s = .next ((s.seqAbort req eAborted 0xF6).syncEnd h i n (okWord false))) ∧
      (i.aux % 2 = 0 → y.ending = false → s.inStep (k / 512) req = false →
        exec (.seqend h) s = .next ((s.seqDone req).syncEnd h i n (okWord false))) ∧
      (i.aux % 2 = 0 → y.ending = false → s.inStep (k / 512) req = true →
        exec (.seqend h) s = .next ((s.setSeq k { y with ending := true }).syncEnd h i n (okWord false))) ∧
      (y.ending = true →
        let u := if i.aux % 2 = 1 then s.seqAbort req eAborted 0xF6 else s
        exec (.seqend h) s = .next (u.setHub h { u.hub h with stalled := true }))) ∧
  ∀ (b : BatchId) (s : State) (x : Step) (r : RunBlk) (ds : List StreamDesc) (c : Cmd), s.live = true → s.step? b = some x →
    x.running = false → s.asleep = false → x.phases[x.phase]? = some (r, ds) → s.cmd x.seq = some c →
    r.nstream ≠ 0 → r.nstream ≤ 16 → s.runFault c r ds = none →
    (x.edge = true → x.phase + 1 = x.phases.length → westServes r.rect = true) →
    let pages := ((ds.filter fun d => !s.kvSink b x.task c.part d).map (s.sinkPages x.task c.part r)).foldl (· + ·) 0
    ∀ u, s.takePages (reqOf x.seq 19) c.part c.acceptedAt pages = (u, .granted) →
      exec (.stepPhaseStart b) s = .next (((u.modTask x.task fun t => { t with reserved := t.reserved + pages }).setStep b
        { x with running := true }).startRegion x.seq x.handle c r ds (some (b.val, x.phase))))

/-- On a main-home tensor: LOAD of a CLEAN or DIRTY tensor ends with OK; of an ABSENT one whose backing is not LOST and whose pages are
granted it makes it LOADING, reads a host backing and starts, and of one whose backing is LOST it ends as aborted with E_STATE_LOST; of a
LOADING one it joins that load, and of one that an eviction writes back it gives the eviction up and waits for the write-back, with WAITED.
FLUSH and EVICT of a tensor with a backing that is DIRTY and not held make it WRITING with their write-back, the next in number, and start;
FLUSH of a CLEAN tensor ends with OK; EVICT of a CLEAN one gives its pages back, makes it ABSENT and ends with OK. Of a LOST tensor all end
as aborted with E_STATE_LOST; a FLUSH or EVICT without a backing is refused with E_CONFLICT, and any of them on no tensor or one not main-
home with E_SHAPE. A hub that runs command n executes next: DEFINE of a descriptor that passes every check of R166 registers the tensor:
with a backing ABSENT, in the bulk tier CLEAN, in the main tier with the pages granted to it, in the near tier with what it displaces ABSENT
and its bytes zero; FREE of a tensor that no other names as backing, not WRITING and not held, drops its shadows and its descriptor; TRD of
a resident main-home tensor within its length copies (AUX + 1) x 32 bytes, as the task sees them, to hub scratch at IMM32 modulo 64 KiB; TWR
into a resident main-home RW tensor within its length, its new shadow pages granted, writes as many bytes of scratch into the task's shadow.
Each returns OK in RD; TRD and TWR do so where they need not wait for a channel and the movement engine is theirs to use, TWR unless the
model's free value says that its write failed for the eighth time (log 78), and what waited for the channels then goes on; DEFINE of a bulk
address where the bulk tier is up. Which pages a tensor gets is the model's free value. (R163, R166, R167, R168, R169, R170, R172, R173,
R189, R195, R198, R236) -/
def Obligations.TensorsMoveByState : Prop :=
  (
  ∀ (s : State) (n hd p task acc tid : Nat),
    (s.tensor p tid = none → s.tryLoad n hd p acc tid = s.opEnd n hd (refusedWord 0 false eShape) ∧
      s.tryFlush n hd p task tid = s.opEnd n hd (refusedWord 0 false eShape) ∧
      s.tryEvict n hd p task tid = s.opEnd n hd (refusedWord 0 false eShape)) ∧
    ∀ t, s.tensor p tid = some t →
      (t.main = false → s.tryLoad n hd p acc tid = s.opEnd n hd (refusedWord 0 false eShape)) ∧
      (t.main = true →
        let writes (w : WriteBack) : State :=
          let u := s.modTensor p tid fun t => { t with state := .writing, wb := some w, landed := false, wbNo := s.mem.wbCount, awaited := false }
          { u with mem := { u.mem with wbCount := u.mem.wbCount + 1 } }
        (t.state = .clean ∨ t.state = .dirty → s.tryLoad n hd p acc tid = s.opEnd n hd (okWord false)) ∧
        (t.state = .loading → s.tryLoad n hd p acc tid = (s.opWaits n hd).opStart n hd) ∧
        (∀ o, t.state = .writing → t.wb = some (.eviction o) →
          s.tryLoad n hd p acc tid = ((s.setTensor p tid { t with awaited := true }).opWaits n hd).opStart n hd) ∧
        (t.state = .absent → s.backLost p t = true → s.tryLoad n hd p acc tid = s.opEnd n hd (outcomeWord 0 false false stAborted eStateLost)) ∧
        (∀ u, t.state = .absent → s.backLost p t = false → s.askLoad (reqOf n hd) p acc 0 t = (u, .granted) → s.tryLoad n hd p acc tid =
          (((u.modTensor p tid fun t => { t.gone with state := .loading }).placePages p tid).fetchHost p tid).opStart n hd) ∧
        (t.state = .lost → s.tryLoad n hd p acc tid = s.opEnd n hd (outcomeWord 0 false false stAborted eStateLost)) ∧
        (t.desc.back = 0 → s.tryFlush n hd p task tid = s.opEnd n hd (refusedWord tid false eConflict) ∧
          s.tryEvict n hd p task tid = s.opEnd n hd (refusedWord tid false eConflict)) ∧
        (t.desc.back ≠ 0 →
          (t.state = .lost → s.tryFlush n hd p task tid = s.opEnd n hd (outcomeWord 0 false false stAborted eStateLost) ∧
            s.tryEvict n hd p task tid = s.opEnd n hd (outcomeWord 0 false false stAborted eStateLost)) ∧
          (t.state = .dirty → s.opBlocked task p tid t = false →
            s.tryFlush n hd p task tid = (writes .flush).opStart n hd ∧ s.tryEvict n hd p task tid = (writes .evict).opStart n hd) ∧
          (t.state = .clean → s.opBlocked task p tid t = false →
            s.tryFlush n hd p task tid = s.opEnd n hd (okWord false) ∧
            s.tryEvict n hd p task tid = ((s.leavePool t.frames).setTensor p tid t.gone).opEnd n hd (okWord false))))) ∧
  (
  ∀ (h : HubId) (s : State) (i : HubInstr) (n : Nat) (c : Cmd), s.hubIssues h i → s.curCmd h = some (n, c) →
    let x := s.hub h
    let tid := (x.reg i.ra).toNat % 2 ^ 32
    let off := (x.reg i.rb).toNat
    let len := (i.aux + 1) * 32
    let p := c.part
    (∀ b d, i.opc = 0x20 → b = x.scratchN ((x.reg i.ra).toNat + i.imm) 64 → d = Desc.parse b → d.tid ≠ 0 → s.tensor p d.tid = none →
      s.kvReserved p d.tid = none → s.descOk d b = true → s.bulkGate (if d.back = 2 ∨ d.home = 3 then 3 else 0) = .granted →
      s.backingOk p d = true → s.tableFree ≠ 0 →
      let with_ (u : State) : State := u.setTensor p d.tid (d.fresh p u.time [])
      ((d.back ≠ 0 ∨ d.home = 3) → exec (.define h) s = .next ((with_ s).syncEnd h i n (okWord false))) ∧
      (∀ u, d.home = 2 → d.back = 0 → s.takePages (reqOf n 16) p c.acceptedAt (pagesOf d.length) = (u, .granted) →
        exec (.define h) s = .next (((with_ u).placePages p d.tid).syncEnd h i n (okWord false))) ∧
      (d.home = 1 → d.back = 0 → s.nearOwner (tkey p d.tid) d = none → exec (.define h) s =
        .next ((with_ ((s.displace (tkey p d.tid) d).zeroBanks d.nearRect d.nearBase d.nearLen)).syncEnd h i n (okWord false)))) ∧
    (∀ t, s.tensor p tid = some t →
      (i.opc = 0x24 → s.dependant p tid = none → t.state ≠ .writing → s.opBlocked c.task p tid t = false →
        exec (.free h) s = .next (((s.modTask c.task fun w => { w with shadows := Tab.erase w.shadows (tkey p tid) }).dropTensor p
          tid).syncEnd h i n (okWord false))) ∧
      (i.opc = 0x26 → t.main = true → (t.state = .clean ∨ t.state = .dirty) → off + len ≤ t.desc.length →
        s.mainWaits (hubReq h) (s.readChans p tid off len) = false → s.engGrants 0 (s.hubAsk n c) = true →
        let u := ((s.engServe 0 (s.hubAsk n c)).leaveMain (· == hubReq h)).mainRead p tid off len
        exec (.trd h) s = .next (((u.setHub h { u.hub h with
          scratch := ((s.tbytes c.task p tid off len).zipIdx).foldl (fun m e => Memory.write m ((i.imm % 65536 + e.2) % 65536) e.1)
            (u.hub h).scratch }).syncEnd h i n (okWord false)).mainGo)) ∧
      (i.opc = 0x27 → t.main = true → t.rw_ = true → (t.state = .clean ∨ t.state = .dirty) → off + len ≤ t.desc.length →
        s.mainWaits (hubReq h) (s.readChans p tid off len) = false → s.engGrants 0 (s.hubAsk n c) = true →
        let fresh := ([off / 65536, (off + len - 1) / 65536].dedup.filter fun g =>
          !(((s.taskShadow c.task p tid).map (·.pages)).getD []).contains g).length
        ∀ u, s.takePages (reqOf n 16) p c.acceptedAt fresh = (u, .granted) →
          let v := ((u.engServe 0 (u.hubAsk n c)).leaveMain (· == hubReq h)).modTask c.task fun w => { w with reserved := w.reserved + fresh }
          let w := v.shadowWrite c.task p tid off ((v.hub h).scratchN (i.imm % 65536) len)
          exec (.twr h) s = .next ((w.orParity n fun s => s.syncEnd h i n (okWord false)).mainGo))))

/-- OPERATION_COMPLETE, where no host read of its load is outstanding and none was denied and the movement engine that it needs is its to
use: a started LOAD of a LOADING tensor, none of its channels paused, ends well or fails; a started GLOAD ends well, its planes LOADED, or
fails, its planes EMPTY; an operation that waits is tried again. One whose load had a host read denied fails. WRITE_BACK_DONE of a tensor
that a FLUSH alone writes back, its backing taking the bytes, none of its channels paused and the engine its to use, leaves it CLEAN and
ends the FLUSHes with OK; one that failed leaves it DIRTY, records WRITEBACK_FAILED and refuses them with E_NOSPACE. GEAR_LOAD_RESUME of a
gear load that waits under check 17, its planes now free, writes them and starts. COMMAND_WATCHDOG aborts a task whose running command
counts more than it may, with E_ABORTED and DETAIL 0xFB. TASK_LINK_STALL aborts a task whose next command has not become readable within the
stall limit of its LINK = 1 command, with E_STALL or an earlier cause that is met. STORED_DATA_FAILURE in a bulk tensor is recorded with
cause 6 and aborts the reading command with E_PARITY; in a main CLEAN tensor with a backing it records the page, begins a repair and holds
the reading command's streams. TENSOR_REFETCH_DONE gives the tensor its backing's bytes where they can be read, counts the repair and lets
the streams go on, or, not well or with a bulk page that has failed, ends the repair as failed. (R115, R116, R157, R169, R175, R193, R194,
R229, R258, R265, R301, R309) -/
def Obligations.OperationsEnd : Prop :=
  ∀ (s : State), s.live = true →
    (∀ (seq : Nat) (hd : HandleId) (ok : Bool) (o : AOp), s.aop seq hd.val = some o →
      (ok && s.awaitsHost o.part o) = false →
      (∀ tid a, s.hostDenied o.part o = some (tid, a) → exec (.operationComplete seq hd ok) s = .next (s.loadDenied o.part tid a)) ∧
      (s.hostDenied o.part o = none → s.hasTurn (s.opReq seq o) →
        let u := s.served (s.opReq seq o)
        (∀ tid t, o.op = .load tid → o.started = true → u.tensor o.part tid = some t → t.state = .loading →
          (u.tensorChans t 0 t.desc.length).any u.paused = false → exec (.operationComplete seq hd ok) s =
            .next (if ok && !u.readsBad o.part t then u.loadEnds o.part tid else u.loadFails o.part tid t)) ∧
        (∀ tid rect plane, o.op = .gload tid rect plane → o.started = true →
          let id := ((u.bplane (rectKey rect) (plane == 1)).gear.map (·.id)).getD 0
          let ends (f : State → Nat → State) (w : Nat) : State := (((rectBlocks rect).foldl f u).gearDiag o.part 0 0 none id).opEnd seq hd w
          exec (.operationComplete seq hd ok) s = .next (if ok
            then ends (fun v b => v.setBplane b (plane == 1) { v.bplane b (plane == 1) with state := .loaded }) (okWord false)
            else ends (fun v b => v.emptyPlane b (plane == 1)) (outcomeWord 0 false false stAborted eParity))) ∧
        (∀ tid, o.op = .load tid → o.started = false →
          exec (.operationComplete seq hd ok) s = .next (u.tryLoad seq hd o.part o.acc tid)))) ∧
    (∀ (seq : Nat) (hd : HandleId) (o : AOp) (tid rect plane : Nat) (g : GearImage) (len : Nat), s.aop seq hd.val = some o →
      o.op = .gload tid rect plane → o.passed = true → o.started = false → s.gearImage o tid = some (g, len) →
      s.gearJudge g (plane == 1) = .write → exec (.gearLoadResume seq hd) s =
        .next ((s.gearWrite g (plane == 1)).setAop seq hd { o with started := true, passed := true })) ∧
    (∀ (p : PartId) (tid : Word32) (t : Tensor), s.tensor p.val tid.toNat = some t → t.state = .writing → t.wb = some .flush →
      s.backingReady p.val t = true → (s.tensorChans t 0 t.desc.length).any s.paused = false → t.awaited = false →
      s.hasTurn (s.backReq p.val t) →
      let u := s.served (s.backReq p.val t)
      let ends (v : State) (w : Nat) : State := v.opsEnd (v.startedOn p.val (HOp.flushes tid.toNat)) w
      (∀ v, (u.mainRead p.val tid.toNat 0 t.desc.length).writeBack p.val t = some v → exec (.writeBackDone p tid true) s =
        .next (ends (v.modTensor p.val tid.toNat fun t => { t with state := .clean, wb := none, landed := false }) (okWord false))) ∧
      exec (.writeBackDone p tid false) s = .next (ends ((u.setTensor p.val tid.toNat { t with
        state := .dirty, wb := none, landed := false }).tnsFault p.val 7 2 0 tid.toNat) (refusedWord 0 false eNoSpace))) ∧
    (∀ (seq : Nat) (c : Cmd), s.cmd seq = some c → (c.stage = .running ∨ c.stage = .parked) → c.hdr.kind = 0 →
      0 < s.overdue seq c → exec (.commandWatchdog seq) s = .next (s.abortCmd seq eAborted 0xFB)) ∧
    (∀ (q : QueueId) (k : Task) (e n : Nat) (c : Cmd), (s.queue q.val).linkPrev = true → (s.queue q.val).taskOpen = true →
      (s.queue q.val).doomed = false → s.readable q.val = false → s.task (s.queue q.val).taskSeq = some k → k.linkEnd = some e →
      k.cmds.getLast? = some n → s.cmd n = some c → c.stage = .ended → s.due e (c.cfg.stallMs * 1000000) = true →
      let at_ := timeAdd e (c.cfg.stallMs * 1000000)
      exec (.taskLinkStall q) s = .next (s.abortBy (s.queue q.val).taskSeq
        ((s.firstCause (s.queue q.val).taskSeq at_ eStall).getD ⟨at_, eStall, 0, n, []⟩))) ∧
    (∀ (p : PartId) (tid : Word32) (t : Tensor) (page seq : Nat), s.tensor p.val tid.toNat = some t →
      (t.bulk = true → exec (.storedDataFailure p tid page seq) s =
        .next ((s.tnsFault p.val 6 3 0 tid.toNat).abortCmd seq eParity 0)) ∧
      (t.bulk = false → t.near = false → t.state = .clean → t.desc.back ≠ 0 → t.repairing = false →
        exec (.storedDataFailure p tid page seq) s = .next ((((s.draw 13).2.pageFail t page (s.draw 13).1).modTensor p.val tid.toNat
          fun u => { u with repairing := true, struck := t.frames[page]?.toList }).holdStreams p.val tid.toNat (fun r => r.seq == seq) true))) ∧
    ∀ (p : PartId) (tid : Word32) (t : Tensor), s.tensor p.val tid.toNat = some t → t.repairing = true →
      (s.readsBad p.val t = false →
        let srcs := (List.range t.desc.dataLen).filterMap (s.backSource p.val t)
        s.readMeets p.val srcs = .ready → hostOf srcs = none →
        let u := (s.setTensor p.val tid.toNat { t with data := s.backingData p.val t, repairing := false, struck := [] }).mainWritten t 0
          t.desc.length
        exec (.tensorRefetchDone p tid true) s = .next ((((u.count F.TNS_REPAIR_CNT.REFETCH p.val 1).fault 0).tnsFault p.val 1 2 0
         tid.toNat).holdStreams p.val tid.toNat (fun _ => true) false)) ∧
      ∀ ok, ok = false ∨ s.readsBad p.val t = true → exec (.tensorRefetchDone p tid ok) s =
        .next (s.repairFails p.val tid.toNat (tierCause (s.backingTier p.val t)) (s.backingTier p.val t))

/-- DOORBELL from a function that reaches the queue's partition stores TAIL, unless the new TAIL passes HEAD + SIZE or goes back, when it is
counted in DB_IGNORED and DB_ERR is set; from another function it is denied and counted. COMMAND_ACCEPT of a queue that may accept, for a
command that follows no LINK = 1 command: the next sequence number is taken; a header that passes R253 makes the command ACCEPTED as a task
of its own with ACCEPT past it, and one that fails makes it REFUSED with the code of the first failed check. COMMAND_READY of a queue with a
ready command, in no deque and continued by no hub, records its ready time and its home hub and puts it at the tail of the deque of its
class of the hub that R303 places it at. (R247, R248, R249, R250, R253, R254, R255, R259, R287, R303) -/
def Obligations.CommandsAreSubmitted : Prop :=
  (∀ (f : FnId) (q : QueueId) (tail : Word32) (s : State), s.hears f.val → s.mainUp = true →
    let x := s.queue q.val
    (ownFn f.val (qPart q.val) = true → posDiff tail.toNat x.head ≤ s.qSize q.val → posDiff tail.toNat x.tail < 2 ^ 31 →
      exec (.doorbell f q tail) s = .next (s.setQueue q.val { x with tail := tail.toNat })) ∧
    (ownFn f.val (qPart q.val) = true → s.qSize q.val < posDiff tail.toNat x.head ∨ 2 ^ 31 ≤ posDiff tail.toNat x.tail →
      exec (.doorbell f q tail) s =
        .next (((s.count F.Q_STATE.DB_IGNORED q.val 1).put F.Q_STATE.DB_ERR q.val true).raise (88 + qPart q.val))) ∧
    (ownFn f.val (qPart q.val) = false → exec (.doorbell f q tail) s = .next (s.count F.PCI_ERR_CNT.DENIED f.val 1))) ∧
  (∀ (q : QueueId) (s u : State) (n : Nat), s.live = true → s.accepts q.val = true → (s.queue q.val).linkPrev = false →
    s.takeSeq = (u, n) →
    let x := s.queue q.val
    let b := s.ringSlot q.val x.accept
    let h := Header.parse b
    let code := headerCheck b false
    let v := u.setCmd n (Cmd.new q.val x.accept (h.safe code) u.time n)
    let e (st : JState) (status : Nat) : JEntry :=
      ⟨h.kind % 2, h.link, u.qClass q.val, 1, st, n, x.accept, code, status, qPart q.val, q.val, 0, 0, h.cookie⟩
    let y : Queue := { x with accept := (x.accept + 1 + h.nslot) % 2 ^ 32, linkPrev := h.link }
    (code = 0 → exec (.commandAccept q) s = .next ((((v.jset n (e .accepted 0)).setTask n ⟨q.val, [n], [], 0, [], [], none⟩).setQueue
      q.val { y with taskSeq := n, taskOpen := true, doomed := false }).moveHead q.val)) ∧
    (code ≠ 0 → let w := ((v.setQueue q.val y).jput n (e .refused stRefused)).finish n .refused stRefused code 0
      exec (.commandAccept q) s = .next (w.setQueue q.val { w.queue q.val with doomed := h.link }))) ∧
  ∀ (q : QueueId) (s : State) (n : Nat) (c : Cmd) (h : Nat), s.live = true → s.readyCmd q.val = some (n, c) →
    (s.queue q.val).inDeque = false → (∀ g < 8, (s.hub g).cont ≠ some q.val) → (s.queue q.val).readySeq ≠ n → s.homeHub q.val = some h →
    s.dropUnserved q.val = s →
    exec (.commandReady q) s = .next ((s.setQueue q.val { s.queue q.val with
      readySeq := n, readyTime := s.time, adrift := false, home := (s.homeOf q.val).getD (s.queue q.val).home, inDeque := true }).setHub h
        ((s.hub h).setDeque (s.qClass q.val) ((s.hub h).deque (s.qClass q.val) ++ [q.val])))

/-- HUB_SELECT of a free hub whose next pick is the head of a deque of its own or the tail of another hub's takes that queue's ready command
out of the deque; it goes on with the queue it continues, or resumes the command it has parked, where that is its pick. COMMAND_DISPATCH of
a taken command at step 1, in no handler, whose dispatch read the engine grants and, of a host ring, a window admits: a ring read that fails
aborts its task with E_PARITY; a DEADLINE that has passed refuses it with E_ADMIT_TIME; otherwise its body and data are in the hub: a
PROGRAM whose run blocks and declarations pass their checks ends at once where a block has a zero extent, and else, with no declared or
gathered tensor LOST, goes on to reserve its pages; a REQUEST that passes R317, none of its tensors LOST, takes its holds.
DISPATCH_HOLD_GRANT of a PROGRAM that waits at step 8, in no handler, and can take its holds starts it. (R171, R260, R268, R301, R303, R304,
R306, R317, R318, R409) -/
def Obligations.HubsTakeCommands : Prop :=
  (∀ (h : HubId) (s : State) (cls q : Nat), s.live = true → s.park h.val = s → (s.hub h.val).cur = none → (s.hub h.val).stack = [] →
    let u := s.dropCont h.val
    (s.pickNext h.val = some (.own cls q) → exec (.hubSelect h) s =
      .next ((u.setHub h.val ((u.hub h.val).setDeque cls (((u.hub h.val).deque cls).drop 1))).takeCmd h.val q)) ∧
    (∀ g, s.pickNext h.val = some (.steal g cls q) → exec (.hubSelect h) s =
      .next ((u.setHub g ((u.hub g).setDeque cls ((u.hub g).deque cls).dropLast)).takeCmd h.val q)) ∧
    (s.pickNext h.val = some (.cont q) → exec (.hubSelect h) s =
      .next ((s.setHub h.val { s.hub h.val with cont := none }).takeCmd h.val q)) ∧
    (∀ n, s.pickNext h.val = some (.parked n) → exec (.hubSelect h) s = .next (s.unpark h.val n))) ∧
  (∀ (h : HubId) (s : State) (n : Nat) (c : Cmd), s.live = true → s.curCmd h.val = some (n, c) → c.stage = .taken → c.dstep = 0 →
    (s.hub h.val).stack = [] → s.ringOpen c.queue = true → s.engGrants (s.ringEngine c.queue) (s.readReq c) = true →
    (s.on F.Q_CFG.LOC c.queue = true ∨ s.window (c.part + 1) (s.ringAddr c.queue (c.pos + 1)) 64 false = true) →
    let u := ((s.engServe (s.ringEngine c.queue) (s.readReq c)).readBody h.val c).hostGoes
    let data := u.frameData h.val c
    let blocks := c.hdr.blocks data
    let d := { c with decls := (c.hdr.declList data).map fun w => (⟨w % 2 ^ 32, bits w 32 2⟩ : Decl) }
    exec (.commandDispatch h true) s = .next ((s.ringFails c).abortCmd n eParity 0) ∧
    (c.deadline ≠ timeNone → c.deadline ≤ u.time → exec (.commandDispatch h false) s = .next (u.refuse n eAdmitTime)) ∧
    (c.deadline = timeNone ∨ u.time < c.deadline →
      (∀ v, c.hdr.kind = 0 → u.blockSteps n c blocks = (v, .ok) → v.declOk c.part d.decls blocks data = true →
        let w := v.setCmd n d
        ((blocks.any fun b => zeroExtent b.shape) = true → exec (.commandDispatch h false) s =
          .next ((w.setCmd n { d with zeroExtent := true, cfg := w.runCfg c.part }).endCommand h.val n)) ∧
        ((blocks.any fun b => zeroExtent b.shape) = false → (∀ x ∈ d.decls, ∀ t, w.tensor c.part x.tid = some t → t.state ≠ .lost) →
          (blocks.any fun b => (b.streams data).any (w.gathersLost c.task c.part)) = false →
          exec (.commandDispatch h false) s = .next (w.reserveStep h.val n))) ∧
      (c.hdr.kind = 1 → let q := Request.parse data
        u.requestOk c.part c.hdr.nslot q = true →
        let w := u.setCmd n { c with decls := q.reads }
        (∀ x ∈ q.reads, ∀ t, w.tensor c.part x.tid = some t → t.state ≠ .lost) →
        exec (.commandDispatch h false) s = .next (w.requestHold h.val n)))) ∧
  ∀ (h : HubId) (s : State) (n : Nat) (c : Cmd), s.live = true → s.curCmd h.val = some (n, c) → c.stage = .taken → c.dstep = 8 →
    (s.hub h.val).stack = [] → s.holdReady c = true → c.hdr.kind = 0 → exec (.dispatchHoldGrant h) s = .next (s.startProgram h.val n c)

/-- When DISPATCH_HOLD_GRANT starts a PROGRAM, its hub's program counter is the first word of the frame's body area; R1 holds its sequence
number, R2 the scratch address of its frame, R3 its ring position, R4 its queue and every other register 0; its journal entry is DISPATCHED
at the device time; and it holds its declared tensors. (R171, R243, R260, R262, R279) -/
def Obligations.ProgramsStartAtTheirBody : Prop :=
  ∀ (h : HubId) (s : State) (n : Nat) (c : Cmd), s.live = true → s.curCmd h.val = some (n, c) → c.stage = .taken → c.dstep = 8 →
    (s.hub h.val).stack = [] → s.holdReady c = true → c.hdr.kind = 0 → Tab.rising s.ctl.hubs = true →
    ∃ t, exec (.dispatchHoldGrant h) s = .next t ∧ (t.hub h.val).pc = bodyBase c.frame ∧
      (t.hub h.val).reg 1 = BitVec.ofNat 64 n ∧ (t.hub h.val).reg 2 = BitVec.ofNat 64 (frameBase c.frame) ∧
      (t.hub h.val).reg 3 = BitVec.ofNat 64 c.pos ∧ (t.hub h.val).reg 4 = BitVec.ofNat 64 c.queue ∧
      (∀ r, 4 < r → r < 32 → (t.hub h.val).reg r = 0) ∧
      (t.jget n).state = .dispatched ∧ (t.jget n).time = s.time ∧
      ∃ d, t.cmd n = some d ∧ d.held = true ∧ d.stage = .running

/-- QUEUE_ENABLE of a DISABLED queue makes it ENABLED where its ring meets R246, and sets CFG_ERR where not; of a STOPPING queue it sets
ENABLE_PEND. QUEUE_DISABLE of an ENABLED queue makes it STOPPING. QUEUE_CANCEL of a queue that is not DISABLED makes it STOPPING, clears
ENABLE_PEND and aborts its tasks and sequences with E_ABORTED and DETAIL 0xFF. QUEUE_STOP_DONE of a STOPPING queue with no command left and
no ENABLE that waits makes it DISABLED, in no deque, with its three positions kept and all else of its context clear. HUB_EVENT_ADD adds its
value to an event counter modulo 2^32. HUB_DISABLE by the PF of an ONLINE hub makes it STOPPING with empty deques; HUB_ENABLE of an OFFLINE
hub makes it ONLINE, and of a STOPPING one sets ENABLE_PEND. HUB_OFFLINE_DONE of a STOPPING hub that runs and parks nothing, is in no
handler and has no ENABLE that waits clears it and makes it OFFLINE. HUB_PARITY_FAIL clears the hub, counts a class 3 event and keeps the
hub ONLINE, unless it is the third within one hour, which stops it. Any function but the PF is denied. (R244, R246, R275, R285, R286, R287,
R298, R474, R475) -/
def Obligations.QueuesAndHubsTurnOnAndOff : Prop :=
  (
  (∀ (f : FnId) (q : QueueId) (s : State), s.hears f.val → ownFn f.val (qPart q.val) = true →
    (s.rd F.Q_STATE.STATE q.val = 0 →
      (s.ringOk q.val = true → exec (.queueEnable f q) s = .next (s.wr F.Q_STATE.STATE q.val 1)) ∧
      (s.ringOk q.val = false →
        exec (.queueEnable f q) s = .next ((s.put F.Q_STATE.CFG_ERR q.val true).raise (88 + qPart q.val)))) ∧
    (s.rd F.Q_STATE.STATE q.val = 2 → exec (.queueEnable f q) s =
      .next ((s.put F.Q_STATE.ENABLE_PEND q.val true).setQueue q.val { s.queue q.val with pendAt := s.time })) ∧
    (s.rd F.Q_STATE.STATE q.val = 1 → exec (.queueDisable f q) s = .next (s.wr F.Q_STATE.STATE q.val 2)) ∧
    (s.rd F.Q_STATE.STATE q.val = 2 → exec (.queueDisable f q) s = .next (s.put F.Q_STATE.ENABLE_PEND q.val false)) ∧
    (s.rd F.Q_STATE.STATE q.val ≠ 0 → exec (.queueCancel f q) s =
      .next (((s.put F.Q_STATE.ENABLE_PEND q.val false).wr F.Q_STATE.STATE q.val 2).abortQueue q.val eAborted 0xFF)) ∧
    (s.rd F.Q_STATE.STATE q.val = 0 → exec (.queueCancel f q) s = .next s)) ∧
  (∀ (q : QueueId) (s : State), s.live = true → s.rd F.Q_STATE.STATE q.val = 2 → (∀ e ∈ s.ctl.cmds, e.2.queue ≠ q.val) →
    s.rd F.Q_STATE.ENABLE_PEND q.val = 0 → Tab.rising s.regs = true → Tab.rising s.ctl.queues = true →
    let x := { Queue.clear with accept := (s.queue q.val).accept, head := (s.queue q.val).head, tail := (s.queue q.val).tail }
    let t := ((s.setQueue q.val x).undeque q.val).wr F.Q_STATE.STATE q.val 0
    exec (.queueStopDone q) s = .next t ∧ t.rd F.Q_STATE.STATE q.val = 0 ∧ t.queue q.val = x) ∧
  ∀ (f : FnId) (p : PartId) (e : EventId) (v : Word32) (s : State), s.hears f.val → ownFn f.val p.val = true →
    exec (.hubEventAdd f p e v) s = .next (s.eventAdd p.val e.val v.toNat)) ∧
  (
  (∀ (f : FnId) (h : HubId) (s : State), s.hears f.val →
    (f.val = 0 → s.hubHeld h.val = false →
      (s.rd F.HUB_CTRL.STATE h.val = 1 → exec (.hubDisable f h) s = .next (s.stopHub h.val)) ∧
      (s.rd F.HUB_CTRL.STATE h.val = 0 → exec (.hubEnable f h) s =
        .next ((s.wr F.HUB_CTRL.STATE h.val 1).setHub h.val { s.hub h.val with loadOnEnable := false })) ∧
      (s.rd F.HUB_CTRL.STATE h.val = 2 → exec (.hubEnable f h) s =
        .next ((s.put F.HUB_CTRL.ENABLE_PEND h.val true).setHub h.val { s.hub h.val with pendAt := s.time }))) ∧
    (f.val ≠ 0 → exec (.hubDisable f h) s = .next (s.deny f.val) ∧ exec (.hubEnable f h) s = .next (s.deny f.val))) ∧
  (∀ (h : HubId) (s : State), s.live = true → s.rd F.HUB_CTRL.STATE h.val = 2 → (s.hub h.val).cur = none → (s.hub h.val).park = [] →
    (s.hub h.val).stack = [] → s.rd F.HUB_CTRL.ENABLE_PEND h.val = 0 → Tab.rising s.regs = true →
    exec (.hubOfflineDone h) s = .next ((s.clearHub h.val).wr F.HUB_CTRL.STATE h.val 0)) ∧
  ∀ (h : HubId) (s : State), s.live = true →
    let x := s.hub h.val
    let fails := s.time :: x.fails.filter fun t => decide (s.time - t ≤ 3600000000000)
    let u := (((x.cur.toList ++ x.park.map (·.seq)).foldl (fun s n => s.abortCmd n eParity 0) s).clearHub h.val).fault 3
    let v := u.setHub h.val { u.hub h.val with fails := fails }
    (fails.length < 3 → exec (.hubParityFail h) s = .next v) ∧
    (3 ≤ fails.length → v.rd F.HUB_CTRL.STATE h.val = 1 → exec (.hubParityFail h) s = .next (v.stopHub h.val)))

/-- COMMIT by the PF sets PENDING. CYCLE_TABLE_ACTIVATE with PENDING set at the start of slot 0 makes the staging table active in all 128
slots at once and clears PENDING, and otherwise changes nothing. SLOT_BOUNDARY makes the running slot time ÷ 8 µs modulo 128.
PARTITION_STOP_DONE of a STOPPING partition with no command left and no ENABLE that waits scrubs it and makes it DISABLED. POOL_FLOOR_WRITE
by the PF stores a floor within the pool, and one that would exceed it sets FLOOR_ERR and leaves the floor. Other functions are denied.
BATCH_ENABLE by the PF of a DISABLED batch whose ring meets R343 in an ENABLED partition makes it ENABLED; of a STOPPING batch it sets
ENABLE_PEND. BATCH_DISABLE of an ENABLED batch makes it STOPPING. BATCH_STOP_DONE of a STOPPING batch with no sequence, no step in flight
and no ENABLE that waits makes it DISABLED and raises its source. RING_READ_WRITE by a function that reaches the batch moves READ forward as
far as WRITE, and ignores a value beyond it. Other functions are denied. (R187, R287, R296, R297, R299, R300, R301, R314, R343, R346, R404)
-/
def Obligations.PartitionsSlotsAndBatches : Prop :=
  (
  (∀ (f : FnId) (s : State), s.hears f.val → f.val = 0 → exec (.commit f) s = .next (s.put F.HUB_CYCLE_CTRL.PENDING 0 true)) ∧
  (∀ (f : FnId) (p : PartId) (v : Word32) (s : State), s.hears f.val → f.val ≠ 0 →
    exec (.commit f) s = .next (s.deny f.val) ∧ exec (.poolFloorWrite f p v) s = .next (s.deny f.val)) ∧
  (∀ s : State, s.live = true →
    exec .slotBoundary s = .next { s with ctl := { s.ctl with slot := s.time / 8000 % 128 } } ∧
    (s.rd F.HUB_CYCLE_CTRL.PENDING 0 = 0 ∨ s.time % 1024000 ≠ 0 → exec .cycleTableActivate s = .next s) ∧
    (s.rd F.HUB_CYCLE_CTRL.PENDING 0 = 1 → s.time % 1024000 = 0 → Tab.rising s.regs = true →
      let table := (List.range 128).foldl (fun m i =>
        Tab.set none m i (if s.on F.HUB_CYCLE.VALID i then some (s.rd F.HUB_CYCLE.PART i) else none)) []
      let t : State := { (s.put F.HUB_CYCLE_CTRL.PENDING 0 false) with ctl := { s.ctl with table := table } }
      exec .cycleTableActivate s = .next t ∧ t.rd F.HUB_CYCLE_CTRL.PENDING 0 = 0 ∧
        ∀ i < 128, Tab.get none t.ctl.table i = if s.rd F.HUB_CYCLE.VALID i = 1 then some (s.rd F.HUB_CYCLE.PART i) else none)) ∧
  (∀ (p : PartId) (s : State), s.live = true → s.rd F.SEC_PART_STATE.STATE p.val = 2 → (∀ e ∈ s.ctl.cmds, e.2.part ≠ p.val) →
    Tab.find ((s.scrubPart p.val).wr F.SEC_PART_STATE.STATE p.val 0).ctl.partPend p.val = none →
    exec (.partitionStopDone p) s = .next ((s.scrubPart p.val).wr F.SEC_PART_STATE.STATE p.val 0)) ∧
  ∀ (f : FnId) (p : PartId) (v : Word32) (s : State), s.hears f.val → f.val = 0 → v.toNat < 2 ^ 25 →
    let others := (((List.range 16).filter (· != p.val)).map fun q => s.rd F.POOL_FLOOR.FLOOR q).foldl (· + ·) 0
    (others + v.toNat ≤ s.rd F.POOL_TOTAL.PAGES 0 → exec (.poolFloorWrite f p v) s = .next (s.wr F.POOL_FLOOR.FLOOR p.val v.toNat)) ∧
    (s.rd F.POOL_TOTAL.PAGES 0 < others + v.toNat →
      exec (.poolFloorWrite f p v) s = .next (s.put F.POOL_FLOOR.FLOOR_ERR p.val true))) ∧
  (
  (∀ (f : FnId) (b : BatchId) (s : State), s.hears f.val →
    (f.val = 0 →
      (s.batchState b.val = 0 → s.resultRingOk b.val = true → s.rd F.SEC_PART_STATE.STATE (s.rd F.SRV_BATCH_CFG.PART b.val) = 1 →
        exec (.batchEnable f b) s = .next (s.wr F.SRV_BATCH_CTRL.STATE b.val 1)) ∧
      (s.batchState b.val = 2 → exec (.batchEnable f b) s =
        .next ((s.put F.SRV_BATCH_CTRL.ENABLE_PEND b.val true).setBmem b.val { s.bmem b.val with pendAt := s.time })) ∧
      (s.batchState b.val = 1 → exec (.batchDisable f b) s = .next (s.wr F.SRV_BATCH_CTRL.STATE b.val 2))) ∧
    (f.val ≠ 0 → exec (.batchEnable f b) s = .next (s.deny f.val) ∧ exec (.batchDisable f b) s = .next (s.deny f.val))) ∧
  (∀ (b : BatchId) (s : State), s.live = true → s.batchState b.val = 2 → s.batchSeqs b.val = [] → s.step? b.val = none →
    let u := (s.wr F.SRV_BATCH_CTRL.STATE b.val 0).raise (104 + b.val)
    u.rd F.SRV_BATCH_CTRL.ENABLE_PEND b.val = 0 → exec (.batchStopDone b) s = .next u) ∧
  ∀ (f : FnId) (b : BatchId) (v : Word32) (s : State), s.hears f.val →
    let r := s.rd F.SRV_RING_POS.READ b.val
    (ownFn f.val (s.rd F.SRV_BATCH_CFG.PART b.val) = true →
      (posDiff v.toNat r ≤ posDiff (s.rd F.SRV_RING_POS.WRITE b.val) r →
        exec (.ringReadWrite f b v) s = .next (s.wr F.SRV_RING_POS.READ b.val v.toNat)) ∧
      (posDiff (s.rd F.SRV_RING_POS.WRITE b.val) r < posDiff v.toNat r → exec (.ringReadWrite f b v) s = .next s)) ∧
    (ownFn f.val (s.rd F.SRV_BATCH_CFG.PART b.val) = false → exec (.ringReadWrite f b v) s = .next (s.deny f.val)))

/-- SAMPLE_SEQUENCE of a waiting sampled participant of a step, the sampler's engine being its to use, samples its sequence from its row of
the logits tensor once the phases are over, or from its token of the west edge once that has come; logits that did not come are free values
(log 22). STEP_DRAIN, once every sampled participant is sampled, counts the step, moves the cost estimate of the step's band by R319 (of no
band where it ran no row), drains every participant in slot order at this one time, records the trace event 0x08, ends the STEP with OK and
leaves its records waiting. RECORD_WRITE of a batch's oldest waiting records, the ring having room for all of them, writes them at WRITE and
upward, moves WRITE past them in one update, requests the batch's vector and makes the ended REQUESTs final; without room nothing is
written, the overrun is counted once and the batch's source is raised. (R281, R301, R319, R327, R329, R330, R332, R338, R345, R404, R490) -/
def Obligations.StepsSampleDrainAndRecord : Prop :=
  (∀ (b : BatchId) (row : Nat) (s : State) (x : Step) (q : Participant) (y : Seq), s.live = true → s.step? b.val = some x →
    x.sampledOrder[row]? = some q → q.got = .waiting →
    (x.edge = true → row < x.tokens.length) → (x.edge = false → x.ran = true) →
    Tab.find s.srv.seqs (seqKey b.val q.slot) = some y →
    s.hasTurn (some (3, s.sampleReq x)) →
    let v := s.served (some (3, s.sampleReq x))
    let got := v.sample y (v.rd F.SRV_BATCH_CFG.VOCAB b.val) q.rows (v.logitOf b.val x row)
    let u : State := if x.edge then { v with fresh := v.fresh + v.rd F.SRV_BATCH_CFG.VOCAB b.val } else v
    exec (.sampleSequence b row) s = .next (u.setStep b.val { x with
      parts := x.parts.map fun r => if r.slot = q.slot then { r with got := got } else r })) ∧
  (∀ (b : BatchId) (s u : State) (x : Step) (recs : List (List Byte)) (ends : List SeqEnd) (late : Nat), s.live = true →
    s.step? b.val = some x → x.ran = true → (∀ q ∈ x.parts, q.samples = true → q.got ≠ .waiting) →
    let k := RegKind.idx .SRV_COST b.val (bandOf x.rows)
    let v := s.count F.SRV_STEP_CNT.STEPS b.val 1
    let v := if x.rows = 0 then v else v.wrSat F.SRV_COST.STEP_NS k (ewma (v.rd F.SRV_COST.STEP_NS k) (v.time - x.tf))
    v.drainAll b.val x x.parts = (u, recs, ends, late) →
    let w := ((u.count F.SRV_STEP_CNT.LATE b.val late).trace 0x08 x.seq b.val late).dropStep b.val
    let w := w.setBmem b.val { w.bmem b.val with drainAt := some w.time }
    exec (.stepDrain b) s =
      .next ((if recs.isEmpty then w else w.pushGroup b.val recs ends).opEnd x.seq x.handle (okWord false))) ∧
  ∀ (b : BatchId) (s : State) (g : RecordGroup), s.live = true → (s.srv.groups.find? fun g => g.batch == b.val) = some g →
    let p := s.rd F.SRV_BATCH_CFG.PART b.val
    let used := posDiff (s.rd F.SRV_RING_POS.WRITE b.val) (s.rd F.SRV_RING_POS.READ b.val)
    let size := 2 ^ s.rd F.SRV_RING_CFG.SIZE_LOG2 b.val
    (used + g.recs.length ≤ size → s.rd F.SRV_RING_CFG.LOC b.val = 1 ∨ s.busOk (p + 1) = true →
      let u := ({ s with srv := { s.srv with groups := s.srv.groups.erase g } } : State).putRecords b.val g.recs
      let u := u.wr F.SRV_RING_POS.WRITE b.val (u.rd F.SRV_RING_POS.WRITE b.val + g.recs.length)
      exec (.recordWrite b) s =
        .next (g.ends.foldl State.endRequest (u.requestVec (p + 1) (u.rd F.SRV_BATCH_CFG.VEC b.val)))) ∧
    (size < used + g.recs.length →
      (g.counted = true → exec (.recordWrite b) s = .next s) ∧
      (g.counted = false → exec (.recordWrite b) s = .next ((({ s with srv := { s.srv with
        groups := s.srv.groups.map fun h => if h = g then { h with counted := true } else h } } : State).count
          F.SRV_BATCH_STAT.OVERRUN b.val 1).raise (104 + b.val))))

/-- With TEMP zero, whenever there is a candidate one is chosen, and it is one of the candidates; with none, none is. The number that a draw
multiplies by 2^-53 is below 2^53, so the draw is below 1. An estimate of R319 takes its first measurement whole and then moves by the
eighth of the difference, rounded down. The drain of a live participant: whose KV shadows commit with a sampled token, neither a stop nor at
its limit nor ending, its rows are added, the token becomes LAST, one more is emitted, the run of LATE outcomes is zero and the record has
EMIT alone; that is LATE below LATE_MAX, its run of LATE outcomes rises, its deadline moves and its N stands; of a REQUEST that was aborted,
a record with DEAD and END is written and the sequence cleared. (R319, R321, R330, R331, R332, R339, R340, R344) -/
def Obligations.SamplingAndDrains : Prop :=
  (
  (∀ (r : Request) (pos : Nat), r.temp = 0 → chooseToken r pos [] = none) ∧
  (∀ (r : Request) (pos : Nat) (c : Cand) (cs : List Cand), r.temp = 0 → ∃ d, chooseToken r pos (c :: cs) = some d ∧ d ∈ c :: cs) ∧
  (∀ seed p : Nat, uniform53 seed p < 2 ^ 53) ∧
  (∀ m : Nat, ewma 0 m = m) ∧
  ∀ e m : Nat, 0 < e → ((ewma e m : Nat) : Int) = e + ((m : Int) - e) / 8) ∧
  (
  ∀ (b : Nat) (s : State) (st : Step) (q : Participant) (x : Seq), Tab.find s.srv.seqs (seqKey b q.slot) = some x →
    (∀ t lp, x.dead = none → q.skipped = false → x.late s.time = false → q.samples = true → q.got = .token t lp → x.desc.pda = false →
      t ∉ x.desc.stops → x.emitted + 1 < x.desc.maxNew → x.ending = false →
      (s.drainOne b st q).s = (s.commitKv x).setSeq (seqKey b q.slot) { x with
        n := x.n + q.rows, last := t, emitted := x.emitted + 1, lateRun := 0, dl := x.nextDl (s.commitKv x).time } ∧
      (s.drainOne b st q).end_ = none ∧ (s.drainOne b st q).rec_ = some (recordBytes x.req flEmit 0 t lp
        ((s.commitKv x).rd F.SRV_STEP_CNT.STEPS b) b q.slot x.position (s.commitKv x).time)) ∧
    (x.dead = none → (q.skipped || x.late s.time) = true → x.ending = false → x.desc.lateMax = 0 ∨ x.lateRun + 1 < x.desc.lateMax →
      (s.drainOne b st q).late = true ∧ (s.drainOne b st q).end_ = none ∧
      Tab.find (s.drainOne b st q).s.srv.seqs (seqKey b q.slot) = some { x with
        lateRun := x.lateRun + 1, dl := x.nextDl (if q.skipped then st.tf else s.time) }) ∧
    (∀ e, x.dead = some e → (s.drainOne b st q).s = (s.dropKvShadows x).clearSeq (seqKey b q.slot) ∧ (s.drainOne b st q).end_ = none))

/-- BULK_SECTOR_READ of a mapped sector: passing its first read it counts one page read of its block; rung 1 or 2 counts a class 0 event too
(rung 2 as many more reads as retry levels it went through); rung 3 also schedules the block urgently; rung 4 also counts the reads of the
row and its parity page, delivers what the parity rebuilds and counts the rebuild; failing all, it is lost. A page that was lost before
fails again; a page with a good header passes at the rung given. READ_DISTURB_THRESHOLD schedules a block at RD_KREADS x 1,000 page reads,
urgently at twice that, and not below. BULK_RELOCATE of a written block that is scheduled or due for wear levelling copies every page
through the ladder, moves its unit (or the parity it holds) to another block, reads that back and counts the relocation (of parity, where
the block is empty after it); where the copy does not verify, the block chosen is retired. SCRUB_PATROL of a written block that is due
counts the reads of every page and schedules the block where it is marginal. BLOCK_RETIRE retires the block at once and copies and moves its
unit and reads that back, or schedules the block where the unit found no other block or writes are held, or moves the parity it holds.
(R206, R207, R208, R209, R210, R211, R212) -/
def Obligations.FlashBlocksWear : Prop :=
  ∀ s : State, s.live = true →
    (∀ (a r b : Nat), s.blkReady = true → s.mapped_ (s.unitOf a) (s.chanOf a) = some b →
      let c := s.chanOf a
      let n := s.board.retries
      let row := ((s.countRead c b (4 + n)).rebuildReads a).schedule c b 2
      (s.passes a r = 0 → exec (.bulkSectorRead a r) s = .next (s.countRead c b 1)) ∧
      (s.passes a r = 1 → exec (.bulkSectorRead a r) s = .next ((s.countRead c b 1).fault 0)) ∧
      (s.passes a r = 2 → exec (.bulkSectorRead a r) s =
        .next (((s.draw 8).2.countRead c b (2 + (s.draw 8).1 % max 1 n)).fault 0)) ∧
      (s.passes a r = 3 → exec (.bulkSectorRead a r) s = .next (((s.countRead c b (4 + n)).schedule c b 2).fault 0)) ∧
      (s.passes a r = 4 →
        let k := (row.fault 0).blk
        let bytes := (List.range 4096).map fun i => k.rebuilt (a / 4096 * 4096 + i)
        exec (.bulkSectorRead a r) s = .next (({ row.fault 0 with blk := { k with data := k.data.writeN (a / 4096 * 4096) bytes } } : State).count
          F.BLK_STAT.REBUILDS 0 1)) ∧
      (s.passes a r = 5 → exec (.bulkSectorRead a r) s = .next (row.sectorLost a)) ∧
      (s.pageBad a = true → s.passes a r = 5) ∧
      (s.pageBad a = false → s.headerOk (s.unitOf a) c = true → n ≠ 0 → r ≤ 3 → s.passes a r = r)) ∧
    (∀ (ch : FlashCh) (blk : Nat),
      let n := s.rd F.BLK_RD_CFG.RD_KREADS 0 * 1000
      (2 * n ≤ (s.block ch.val blk).reads → exec (.readDisturbThreshold ch blk) s = .next (s.schedule ch.val blk 2)) ∧
      (n ≤ (s.block ch.val blk).reads → (s.block ch.val blk).reads < 2 * n →
        exec (.readDisturbThreshold ch blk) s = .next (s.schedule ch.val blk 1)) ∧
      ((s.block ch.val blk).reads < n → exec (.readDisturbThreshold ch blk) s = .next s)) ∧
    (∀ (ch : FlashCh) (blk : Nat), s.blkHeld = false → s.blkReady = true → (s.block ch.val blk).written = true →
      let x := s.block ch.val blk
      let n := s.rd F.BLK_GEOMETRY.PPB 0
      (x.sched ≠ 0 ∨ s.wearDue ch.val blk = true →
        (∀ u b : Nat, x.unit = some u → (((s.copyReads u ch.val blk).moveUnit u ch.val).mapped_ u ch.val = some b) → b ≠ blk →
          exec (.bulkRelocate ch blk true) s =
            .next ((((s.copyReads u ch.val blk).moveUnit u ch.val).countRead ch.val b n).count F.BLK_STAT.RELOCATIONS 0 1)) ∧
        (x.unit = none → let t := s.moveParity ch.val blk
          ((t.block ch.val blk).written = false → exec (.bulkRelocate ch blk true) s = .next (t.count F.BLK_STAT.RELOCATIONS 0 1)) ∧
          ((t.block ch.val blk).written = true → exec (.bulkRelocate ch blk true) s = .next t)) ∧
        (∀ b : Nat, (s.pickBlock ch.val).1 = some b →
          exec (.bulkRelocate ch blk false) s = .next ((s.pickBlock ch.val).2.retireBlock ch.val b))) ∧
      (s.due x.readAt (s.rd F.BLK_RD_CFG.SCRUB_DAYS 0 * 86400000000000) = true →
        let v := s.countRead ch.val blk n
        let w := v.setBlock ch.val blk { v.block ch.val blk with readAt := v.time }
        exec (.scrubPatrol ch blk false) s = .next w ∧ exec (.scrubPatrol ch blk true) s = .next (w.schedule ch.val blk 1))) ∧
    (∀ (ch : FlashCh) (blk : Nat), (s.block ch.val blk).retired = false → blk < s.board.blocksPerCh →
      blk ∉ Tab.get [] s.board.factoryBad ch.val →
      let v := s.retireBlock ch.val blk
      let moved (u : Nat) : State := (v.copyReads u ch.val blk).moveUnit u ch.val
      (v.blkHeld = true → exec (.blockRetire ch blk) s = .next (v.schedule ch.val blk 2)) ∧
      (v.blkHeld = false →
        ((v.block ch.val blk).unit = none → exec (.blockRetire ch blk) s = .next (v.moveParity ch.val blk)) ∧
        (∀ u b : Nat, (v.block ch.val blk).unit = some u → (moved u).mapped_ u ch.val = some b → b ≠ blk →
          exec (.blockRetire ch blk) s = .next ((moved u).countRead ch.val b (v.rd F.BLK_GEOMETRY.PPB 0))) ∧
        (∀ u : Nat, (v.block ch.val blk).unit = some u → (moved u).mapped_ u ch.val = some blk →
          exec (.blockRetire ch blk) s = .next (v.schedule ch.val blk 2))))

/-- Where a channel has free blocks, moving a unit on it leaves the unit mapped to a block that was free and of the lowest erase count among
the free ones, and the erase count of the block that held it before has risen by one; which of several such blocks it takes is the model's
free value. BULK_WRITE_BACK of a WRITING tensor whose bytes lie in SPILL entries granted to its partition, with no write-back asked for
before it waiting on a unit it touches, writes not stopped, the flash engine its to use and every channel having the blocks it needs,
rewrites each unit that the bytes touch, stores them and leaves them landed for WRITE_BACK_DONE. (R202, R210, R212, R218, R301) -/
def Obligations.UnitsMoveToLeastWornBlocks : Prop :=
  (∀ (s : State) (u c old : Nat), Tab.rising s.blk.blocks = true → s.mapped_ u c = some old → (s.block c old).unit = some u →
    c < 32 → old < 2 ^ 32 → s.board.blocksPerCh ≤ 2 ^ 32 →
    (∃ b < s.board.blocksPerCh, s.blockFree c b = true) →
    ∃ b, (s.moveUnit u c).mapped_ u c = some b ∧ s.blockFree c b = true ∧
      (∀ b' < s.board.blocksPerCh, s.blockFree c b' = true → (s.block c b).erases ≤ (s.block c b').erases) ∧
      ((s.moveUnit u c).block c old).erases = (s.block c old).erases + 1) ∧
  ∀ (p : PartId) (tid : Word32) (s : State) (t : Tensor), s.live = true → s.tensor p.val tid.toNat = some t →
    t.state = .writing → t.landed = false → s.blkHeld = false → s.blkReady = true → s.bulkAddrs p.val t ≠ [] →
    s.bulkTurn t (s.bulkUnits p.val t) = false → s.takesBack p.val s.chain t.desc = true →
    (∀ a ∈ s.bulkAddrs p.val t, s.spill p.val a = true) → s.writeStop = false → s.hasTurn (s.backReq p.val t) →
    let u := s.served (s.backReq p.val t)
    ∀ w, u.writeUnits (s.bulkUnits p.val t) = some w →
    exec (.bulkWriteBack p tid true) s = .next (((u.backPairs p.val t).foldl (fun v e => v.putBack p.val e) w).modTensor p.val tid.toNat fun t => { t with landed := true })

/-- A mailbox request of at most 4,080 payload bytes that the PF takes raises source 161, and one that comes while none is held and the
management firmware is not being replaced has the effect of its operation, and its answer (operation code, tag, status, error, owner and
payload) goes into PCI_MBX_RSP with DONE set, or it is held where the operation waits. So: ATTEST with DEBUG_SEEN clear writes the signed
report and answers its length; CERT_READ of at most 4,064 bytes answers the certificate's length and those bytes; AUTH_PROVISION with every
slot empty and two to four different keys registers them; HALT_JOURNAL_READ of at most 127 saved entries inside the journal answers them.
While BUSY is set, every request sets OVERRUN and has no other effect but source 161. The operation codes of the catalogue operations and
the payload layouts are the model's (log 40). MBX_UNKNOWN_OP with a code that is none of the known ones, the mailbox being free, raises
source 161 and is answered with status REFUSED and E_SHAPE. (R204, R216, R393, R444, R455, R456, R458, R466, R480) -/
def Obligations.MailboxRequestsAreAnswered : Prop :=
  (
  ∀ (s : State) (tag : Word32) (pl : List Byte), s.hears 0 → pl.length ≤ 4080 →
    let u := s.raise 161
    (s.rd F.PCI_MBX_STATUS.BUSY 0 = 0 → s.firmwareBusy = false →
      (exec (.blkFormat tag pl) s = .next (State.settle (u.blkFormat pl) (Config.mboxOp 0 % 65536) tag.toNat pl) ∧
        exec (.catCreate tag pl) s = .next (State.settle (u.catCreate pl) (Config.mboxOp 1 % 65536) tag.toNat pl) ∧
        exec (.catWrite tag pl) s = .next (State.settle (u.catWrite pl) (Config.mboxOp 2 % 65536) tag.toNat pl) ∧
        exec (.catSeal tag pl) s = .next (State.settle (u.catSeal pl) (Config.mboxOp 3 % 65536) tag.toNat pl) ∧
        exec (.catDelete tag pl) s = .next (State.settle (u.catDelete pl) (Config.mboxOp 4 % 65536) tag.toNat pl) ∧
        exec (.catGrant tag pl) s = .next (State.settle (u.catGrant pl) (Config.mboxOp 5 % 65536) tag.toNat pl) ∧
        exec (.attest tag pl) s = .next (State.settle (u.attest pl) 0x0210 tag.toNat pl) ∧
        exec (.certRead tag pl) s = .next (State.settle (u.certRead pl) 0x0211 tag.toNat pl) ∧
        exec (.authProvision tag pl) s = .next (State.settle (u.authProvision pl) 0x0220 tag.toNat pl) ∧
        exec (.haltJournalRead tag pl) s = .next (State.settle (u.haltJournalRead pl) 0x0301 tag.toNat pl) ∧
        exec (.updWrite tag pl) s = .next (State.settle (u.updWrite pl) 0x0401 tag.toNat pl) ∧
        exec (.updVerify tag) s = .next (State.settle u.updVerify 0x0402 tag.toNat []) ∧
        exec (.updActivate tag pl) s = .next (State.settle (u.updActivate pl) 0x0403 tag.toNat pl)) ∧
      (u.rd F.SEC_FUSE_STATE.DEBUG_SEEN 0 = 0 →
        let body := u.reportBody (slice pl 0 32) (fieldAt pl 32 4)
        let r := body ++ slice (Config.slhSign (u.keySeed "nmh-id-sk") (u.keySeed "nmh-id-prf") (u.keySeed "nmh-id-pk")
          (ascii "NMH-ATTEST") body) 0 17088
        exec (.attest tag pl) s = .next (({ u with sec := { u.sec with report := u.sec.report.writeN 0 r } } : State).reply 0x0210
          tag.toNat (.ok (toBytes 4 r.length)))) ∧
      (fieldAt pl 4 4 ≤ 4064 → exec (.certRead tag pl) s = .next (u.reply 0x0211 tag.toNat
        (.ok (toBytes 4 u.sec.cert.length ++ (u.sec.cert.drop (fieldAt pl 0 4)).take (fieldAt pl 4 4))))) ∧
      (let n := fieldAt pl 0 4
        let hs := (List.range n).map fun i => slice pl (4 + 32 * i) 32
        u.sec.apply = none → (∀ i < 8, u.slot i = 0) → 2 ≤ n → n ≤ 4 → hs.dedup.length = n → exec (.authProvision tag pl) s =
          .next (((hs.zipIdx).foldl (fun v e => v.register e.2 e.1) u.beginBurn).reply 0x0220 tag.toNat (.ok []))) ∧
      (∀ j, u.saved = some j → fieldAt pl 4 4 ≤ 127 → fieldAt pl 0 4 + fieldAt pl 4 4 ≤ 65536 → exec (.haltJournalRead tag pl) s =
        .next (u.reply 0x0301 tag.toNat (.ok (j.bytes (fieldAt pl 0 4) (fieldAt pl 4 4)))))) ∧
    (s.rd F.PCI_MBX_STATUS.BUSY 0 = 1 → ∀ c ∈ [Instr.blkFormat tag pl, .catCreate tag pl, .catWrite tag pl, .catSeal tag pl,
      .catDelete tag pl, .catGrant tag pl, .attest tag pl, .certRead tag pl, .authProvision tag pl, .haltJournalRead tag pl,
      .updWrite tag pl, .updVerify tag, .updActivate tag pl], exec c s = .next (u.put F.PCI_MBX_STATUS.OVERRUN 0 true))) ∧
  (
  ∀ (s : State) (op : Nat) (tag : Word32), s.hears 0 → opKnown (op % 65536) = false → s.rd F.PCI_MBX_STATUS.BUSY 0 = 0 →
    s.firmwareBusy = false → exec (.mbxUnknownOp op tag) s = .next ((s.raise 161).reply (op % 65536) tag.toNat (.refused eShape 0)))

/-- With the mailbox free and, after source 161 is raised, the bulk tier ready and flash writes not held: BLK_FORMAT by a known over-
provisioning code of an empty catalogue leaves no data, entry or mapping and answers; CAT_CREATE of a slot up to 1,023 is held while the
slot is DELETING; with a slot in use it is E_CONFLICT naming its MODEL_ID; with LENGTH 0 E_SHAPE; with too few free units E_NOSPACE; and
otherwise takes the lowest range that fits. CAT_WRITE past LENGTH is E_SHAPE and with WRITE_STOP E_NOSPACE; one whose host read a window
admits, IDE up, writes the host's bytes after those written, unless the model's free value says that the read failed twice (log 92), when it
ends as aborted with E_PARITY. CAT_SEAL of an entry that is whole and whose hash is its DIGEST makes it READY and otherwise is refused with
E_SHAPE, the entry staying as it was. CAT_DELETE of an entry in which a tensor is defined is E_CONFLICT naming the lowest TID, and otherwise
makes it DELETING; CAT_DELETE_DONE then frees its units and the slot. CAT_GRANT whose token passes every check ends it and answers. With the
mailbox free and all components running from one bundle: UPD_WRITE inside 32 MiB, no activation in progress, the PF mastering the bus, a
window admitting the read and IDE up, writes those bytes to the other bundle (or ends with E_PARITY as for CAT_WRITE); UPD_VERIFY answers
each component's first failed check and version. UPD_ACTIVATE while an activation is in progress is E_CONFLICT naming its component; one of
a component 1 to 4 whose image passes every check and takes the hand-off begins: STATE, COMP and HUBS_LEFT show it and the first hub named
stops, OFFLINE hubs loading when they are enabled. ACTIVATION_DONE of an activation of no hubs completes it; of one whose first hub is
OFFLINE it brings that hub ONLINE and goes to the next. (R204, R213, R216, R452, R461, R466, R480, R481, R482) -/
def Obligations.CatalogueAndUpdates : Prop :=
  (
  ∀ (s : State) (tag : Word32) (pl : List Byte), s.hears 0 → pl.length ≤ 4080 → s.rd F.PCI_MBX_STATUS.BUSY 0 = 0 → s.firmwareBusy = false →
    let u := s.raise 161
    u.blkReady = true → u.blkHeld = false →
    let no (c : Instr) (k e o : Nat) : Prop := exec c s = .next (u.reply (Config.mboxOp k % 65536) tag.toNat (.refused e o))
    let yes (c : Instr) (k : Nat) (v : State) (a : List Byte) : Prop := exec c s = .next (v.reply (Config.mboxOp k % 65536) tag.toNat (.ok a))
    let slot := fieldAt pl 0 4
    let x := u.entry slot
    (slot ≤ 2 → (∀ e ∈ u.blk.cat, e.2.state = .free) → ∃ v, yes (.blkFormat tag pl) 0 v [] ∧
      v.blk.data = [] ∧ v.blk.cat = [] ∧ v.blk.map = [] ∧ v.blk.op = slot ∧ v.blk.formats = u.blk.formats + 1) ∧
    (slot ≤ 1023 → fieldAt pl 8 4 ≤ 1 →
      let id := fieldAt pl 4 4
      let n := ceilDiv (fieldAt pl 0x10 8) (max 1 u.unitBytes)
      (x.state = .deleting → exec (.catCreate tag pl) s = .next (u.holdMbox (Config.mboxOp 1 % 65536) tag.toNat pl)) ∧
      (x.state ≠ .deleting → x.state ≠ .free → no (.catCreate tag pl) 1 eConflict x.modelId) ∧
      (x.state = .free → id ≠ 0 → (∀ e ∈ u.blk.cat, e.2.modelId ≠ id) →
        (fieldAt pl 0x10 8 = 0 → no (.catCreate tag pl) 1 eShape 0) ∧
        (fieldAt pl 0x10 8 ≠ 0 → u.rd F.BLK_CAP.FREE_UNITS 0 < n → no (.catCreate tag pl) 1 eNoSpace 0) ∧
        (fieldAt pl 0x10 8 ≠ 0 → n ≤ u.rd F.BLK_CAP.FREE_UNITS 0 → ∀ b, u.lowestFit n = some b → ∃ v a,
          yes (.catCreate tag pl) 1 v a ∧ (v.entry slot).base = b * max 1 u.unitBytes ∧ (v.entry slot).nunits = n ∧
            (v.entry slot).modelId = id ∧ (v.entry slot).state = if fieldAt pl 8 4 = 1 then .ready else .installing))) ∧
    (x.state = .installing →
      (x.length < x.written + fieldAt pl 4 4 → no (.catWrite tag pl) 2 eShape 0) ∧
      (x.written + fieldAt pl 4 4 ≤ x.length →
        (u.writeStop = true → no (.catWrite tag pl) 2 eNoSpace 0) ∧
        (u.writeStop = false → u.busOk 0 = true → u.window 0 (fieldAt pl 8 8) (fieldAt pl 4 4) false = true →
          Tab.get false u.pci.ideDown 0 = false → exec (.catWrite tag pl) s = .next (u.hostTry 0 (fieldAt pl 8 8)
            (fun v => v.reply (Config.mboxOp 2 % 65536) tag.toNat ⟨[], stAborted, eParity, 0⟩)
            (fun v => (({ v with blk := v.blk.writeN (x.base + x.written) (v.hostRead (fieldAt pl 8 8) (fieldAt pl 4 4)) } : State).setEntry
              slot { x with written := x.written + fieldAt pl 4 4 }).reply (Config.mboxOp 2 % 65536) tag.toNat (.ok []))))) ∧
      (x.written = x.length → ofBytes (sha256 (u.blk.data.readN x.base x.length)) = x.digest →
        yes (.catSeal tag pl) 3 (u.setEntry slot { x with state := .ready, sealTime := u.time }) []) ∧
      (x.written ≠ x.length ∨ ofBytes (sha256 (u.blk.data.readN x.base x.length)) ≠ x.digest → no (.catSeal tag pl) 3 eShape 0)) ∧
    (slot ≤ 1023 →
      (∀ k, u.tidInside x (fun _ => true) = some k → no (.catDelete tag pl) 4 eConflict k) ∧
      (u.tidInside x (fun _ => true) = none → yes (.catDelete tag pl) 4 (u.setEntry slot { x with state := .deleting }) [])) ∧
    (∀ v e, u.sec.apply = none → e.error = 0 → u.applyToken (onlyGrant slot (fieldAt pl 4 4)) = (v, e) → yes (.catGrant tag pl) 5 (v.tokenEnds e) []) ∧
    ∀ k, (s.entry k).state = .deleting → s.blkHeld = false →
      let w := (s.entryUnits (s.entry k)).foldl State.freeUnit s
      let v : State := { w with blk := w.blk.wipe (s.entry k).base ((s.entry k).nunits * w.unitBytes) }
      exec (.catDeleteDone k) s = .next (v.setEntry k CatEntry.free).retryMbox) ∧
  (
  ∀ (s : State) (tag : Word32), s.live = true →
    (∀ pl : List Byte, s.hears 0 → pl.length ≤ 4080 → s.rd F.PCI_MBX_STATUS.BUSY 0 = 0 → s.firmwareBusy = false →
      let u := s.raise 161
      (∀ b, u.staging = some b →
        (fieldAt pl 0 4 + fieldAt pl 4 4 ≤ 0x02000000 → u.activeComp = none → u.busOk 0 = true →
          u.window 0 (fieldAt pl 8 8) (fieldAt pl 4 4) false = true → Tab.get false u.pci.ideDown 0 = false →
          exec (.updWrite tag pl) s = .next (u.hostTry 0 (fieldAt pl 8 8) (fun v => v.reply 0x0401 tag.toNat ⟨[], stAborted, eParity, 0⟩)
            (fun v =>
              let fl := v.sec.flash.writeN (bundleBase b + fieldAt pl 0 4) (v.hostRead (fieldAt pl 8 8) (fieldAt pl 4 4))
              ({ v with sec := { v.sec with flash := fl } } : State).reply 0x0401 tag.toNat (.ok [])))) ∧
        exec (.updVerify tag) s = .next (u.reply 0x0402 tag.toNat
          (.ok ([1, 2, 3, 4].flatMap fun c => toBytes 4 (u.imageCheck b c) ++ toBytes 4 (u.imageOf b c).version)))) ∧
      (∀ k, u.activeComp = some k → exec (.updActivate tag pl) s =
        .next ((u.wr F.OBS_UPD_STATUS.LAST_ERR 0 eConflict).reply 0x0403 tag.toNat (.refused eConflict k))) ∧
      (let c := fieldAt pl 0 1
        let b := 1 - (Tab.get ⟨0, 0, 0, 0⟩ u.sec.running c).bundle
        u.activeComp = none → 1 ≤ c → c ≤ 4 → u.imageCheck b c = 0 → Config.handOff c (u.imageOf b c).version = true →
        let all := if c = 2 then (List.range 8).filter (bit (fieldAt pl 1 1)) else []
        let hubs := all.filter fun h => u.rd F.HUB_CTRL.STATE h != 0
        let v := (all.filter fun h => u.rd F.HUB_CTRL.STATE h == 0).foldl (fun v h => v.setHub h { v.hub h with loadOnEnable := true }) u
        let v : State := { v with sec := { v.sec with active := some ⟨c, hubs, BitVec.ofNat 256 (ofBytes (v.headHash b c)), u.imageOf b c⟩ } }
        let v := ((v.wr F.OBS_UPD_STATUS.STATE 0 2).wr F.OBS_UPD_STATUS.COMP 0 c).wr F.OBS_UPD_STATUS.HUBS_LEFT 0
          (hubs.foldl (fun m h => m + 2 ^ h) 0)
        exec (.updActivate tag pl) s = .next ((v.nextHub hubs).reply 0x0403 tag.toNat (.ok [])))) ∧
    (s.sec.active = none → exec .activationDone s = .next s) ∧
    (∀ a, s.sec.active = some a →
      (a.hubs = [] → exec .activationDone s = .next (s.activated a)) ∧
      (∀ h g gs, a.hubs = h :: g :: gs → s.rd F.HUB_CTRL.STATE h = 0 →
        let u := s.startHub h
        let v : State := { u with sec := { u.sec with active := some { a with hubs := g :: gs } } }
        exec .activationDone s =
          .next ((v.wr F.OBS_UPD_STATUS.HUBS_LEFT 0 ((g :: gs).foldl (fun m k => m + 2 ^ k) 0)).nextHub (g :: gs)))))

/-- WCK2DQ_TRACK of a running channel with one count a rank, TRACK_MS after the last, stores the counts; REFRESH the time of the rank whose
turn it is; neither touches TRAINING or RETIRED channels. SHORT_RETRAIN starts one that waited on an ONLINE channel where fewer than four
run, or asks for one on drift or on REPLAY_TRIG, not within 1 s of a short one, and else does nothing. FULL_RETRAIN starts one that waited
where none runs, or one of the device where REPLAY_TRIG is reached again within 1 s, unless a lead-class command holds it off still.
RETRAIN_DONE of a short one with no full one of the device due makes the channel ONLINE with its baseline from the last tracking and starts
a full one that pends; of a full one that succeeds it makes it ONLINE with new baselines and DBI as LPX_CFG has it, counts it, and the third
within an hour calls for retirement; of a full one that fails it latches a device-fatal cause 1 with the channel in DETAIL; a retirement
that is due begins then, and what waited for the channel goes on. Requests of the PF for a retrain are ignored with IGNORED set on MIGRATING
and RETIRED channels, and pend or start on ONLINE ones; one for retirement of an ONLINE channel, fewer than four being retired or due, makes
it due. Other functions are denied. CHANNEL_RETIRE of an ONLINE channel that is due makes it MIGRATING, counts a class 3 event and raises
source 136; there, and on a MIGRATING channel that waits for its pages, where its remap pages are granted the top of the pool leaves
POOL_TOTAL and becomes the channel's remap pages, what stood there moves into the pool and the copy begins, and where not MIGR_WAIT is set.
CHANNEL_RETIRE_SWITCH of a MIGRATING channel whose copy has begun makes it RETIRED and counts it. MR4_POLL of a running channel with one
reading a rank, 4 ms after the last, stores the hottest; the code 31 (PRESUMED, log 32) sets HOT, and another code, read on a HOT channel,
clears it only at the third reading in a row. (R231, R232, R233, R234, R235, R236, R237, R238, R240, R241, R242, R441) -/
def Obligations.MainTierChannels : Prop :=
  (
  ∀ (ch : LpxCh) (s : State), s.live = true →
    let c := ch.val
    let x := s.chan c
    let trig := s.replayTrig c
    let late := s.shortLately c
    (s.chanRuns c = true →
      (∀ ns : List Nat, ns.length = s.lpxRanks → s.due x.trackAt (s.rd F.LPX_CFG.TRACK_MS 0 * 1000000) = true →
        exec (.wck2dqTrack ch ns) s = .next (s.setChan c { x with osc := ns, trackAt := s.time })) ∧
      exec (.refresh ch) s = .next (s.setChan c { x with
        refreshAt := (List.range s.lpxRanks).map fun k => if k = s.staleRank x then s.time else x.refreshAt.getD k 0 })) ∧
    (s.chanRuns c = false → (∀ ns, exec (.wck2dqTrack ch ns) s = .next s) ∧ exec (.refresh ch) s = .next s) ∧
    (s.chanState c = cOnline → s.chansIn cShort < 4 → x.shortPend = true →
      exec (.shortRetrain ch) s = .next ((s.setChan c { x with shortPend := false }).moveChan c cShort)) ∧
    (x.shortPend = false → (x.drifted = true ∨ (trig = true ∧ late = false) → exec (.shortRetrain ch) s = .next (s.shortReq c)) ∧
      (x.drifted = false → trig = false ∨ late = true → exec (.shortRetrain ch) s = .next s)) ∧
    (s.chanState c = cOnline → s.chansIn cFull = 0 → x.fullPend = true →
      exec (.fullRetrain ch) s = .next ((s.setChan c { x with fullPend := false, leadWait := none }).moveChan c cFull)) ∧
    (s.chanState c = cOnline → x.fullPend = false → trig = true → late = true →
      let u := s.setChan c { x with leadWait := some (x.leadWait.getD s.time) }
      (u.leadHolds (x.leadWait.getD s.time) = false → exec (.fullRetrain ch) s = .next (u.startFull c)) ∧
      (u.leadHolds (x.leadWait.getD s.time) = true → exec (.fullRetrain ch) s = .next u)) ∧
    (s.chanState c = cShort → x.leadWait = none → ∀ ok,
      let u := (s.setChan c { x with base := x.osc, shortAt := some s.time, events := [] }).moveChan c cOnline
      (x.fullPend = false → exec (.retrainDone ch ok) s = .next (u.retireStep c).mainGo) ∧
      (x.fullPend = true → exec (.retrainDone ch ok) s = .next (u.startFull c).mainGo)) ∧
    (s.chanState c = cFull →
      (let fulls := s.time :: x.fulls.filter fun t => decide (s.time ≤ timeAdd t 3600000000000)
       let base := (s.oscBases c).1
       let u := (((s.oscBases c).2.setChan c { x with
         base := base, osc := base, events := [], fulls := fulls, shortPend := false, fullPend := false
         dbiWr := s.on F.LPX_CFG.DBI_WR 0, dbiRd := s.on F.LPX_CFG.DBI_RD 0 }).count F.LPX_CH_STATE.FULL_RETRAINS c 1).moveChan c cOnline
       (fulls.length < 3 → exec (.retrainDone ch true) s = .next (u.retireStep c).mainGo) ∧
       (3 ≤ fulls.length → exec (.retrainDone ch true) s = .next ((u.retireTrigger c).retireStep c).mainGo)) ∧
      (x.retire = false → exec (.retrainDone ch false) s = .next (s.latchFatal 1 c).mainGo) ∧
      (x.retire = true → exec (.retrainDone ch false) s = .next (((s.moveChan c cOnline).retireStep c).latchFatal 1 c).mainGo)) ∧
    ∀ f : FnId, s.hears f.val →
      (f.val = 0 →
        (s.chanState c = cMigrating ∨ s.chanState c = cRetired →
          exec (.lpxShortReq f ch) s = .next (s.put F.LPX_CH_CTRL.IGNORED c true) ∧
          exec (.lpxFullReq f ch) s = .next (s.put F.LPX_CH_CTRL.IGNORED c true)) ∧
        (s.chanState c = cOnline →
          exec (.lpxShortReq f ch) s = .next ((s.setChan c { x with shortPend := true }).startShort c) ∧
          exec (.lpxFullReq f ch) s = .next ((s.setChan c { x with fullPend := true }).startFull c) ∧
          (x.retire = false → s.retiring < 4 → exec (.lpxRetireReq f ch) s = .next (s.setChan c { x with retire := true })))) ∧
      (f.val ≠ 0 → exec (.lpxShortReq f ch) s = .next (s.deny f.val) ∧ exec (.lpxFullReq f ch) s = .next (s.deny f.val) ∧
        exec (.lpxRetireReq f ch) s = .next (s.deny f.val))) ∧
  (
  ∀ (ch : LpxCh) (s : State), s.live = true →
    let c := ch.val
    let x := s.chan c
    (∀ u : State, (s.chanState c = cOnline ∧ x.retire = true ∧
          u = (((s.setChan c { x with retire := false }).moveChan c cMigrating).fault 3).raise 136) ∨
        (s.chanState c = cMigrating ∧ x.copying = false ∧ u = s) →
      let m := u.remapPages
      (∀ v, u.takePages (lpxReq c) 16 timeMax m = (v, .granted) →
        let top := v.topWithout m
        let holes := v.lpx.retired.filter fun n => decide (top ≤ n ∧ n < v.lpx.top)
        let y : State := { v with lpx := { v.lpx with top := top, remaps := v.lpx.remaps ++ [(c, top, holes)] } }
        let z := y.moveTop
        let w := z.wr F.POOL_TOTAL.PAGES 0 (z.rd F.POOL_TOTAL.PAGES 0 - m)
        exec (.channelRetire ch) s =
          .next ((w.setChan c { w.chan c with copying := true, moved := [] }).put F.LPX_CH_STATE.MIGR_WAIT c false)) ∧
      (∀ v g, u.takePages (lpxReq c) 16 timeMax m = (v, g) → g ≠ .granted →
        exec (.channelRetire ch) s = .next (v.put F.LPX_CH_STATE.MIGR_WAIT c true))) ∧
    (s.chanState c = cMigrating → x.copying = true →
      let u := (s.setChan c { x with copying := false, moved := [] }).moveChan c cRetired
      exec (.channelRetireSwitch ch) s = .next (u.wr F.LPX_STATUS.RETIRED 0 (s.rd F.LPX_STATUS.RETIRED 0 + 1))) ∧
    (∀ (v0 : Nat) (vs : List Nat), s.chanRuns c = true → vs.length + 1 = s.lpxRanks → s.due x.pollAt 4000000 = true →
      let v := vs.foldl (fun b y => if mr4Code b < mr4Code y then y else b) v0
      let u := (s.setChan c { x with pollAt := s.time }).wr F.LPX_CH_STATE.MR4 c v
      let k := { u.chan c with cool := 0 }
      (mr4Code v = 31 → u.on F.LPX_CH_STATE.HOT c = false → exec (.mr4Poll ch (v0 :: vs)) s =
        .next ((((u.setChan c k).put F.LPX_CH_STATE.HOT c true).raise 136).hotCount)) ∧
      (mr4Code v = 31 → u.on F.LPX_CH_STATE.HOT c = true → exec (.mr4Poll ch (v0 :: vs)) s = .next (u.setChan c k)) ∧
      (mr4Code v ≠ 31 → u.on F.LPX_CH_STATE.HOT c = false → exec (.mr4Poll ch (v0 :: vs)) s = .next u) ∧
      (mr4Code v ≠ 31 → u.on F.LPX_CH_STATE.HOT c = true →
        ((u.chan c).cool < 2 → exec (.mr4Poll ch (v0 :: vs)) s = .next (u.setChan c { u.chan c with cool := (u.chan c).cool + 1 })) ∧
        (2 ≤ (u.chan c).cool → exec (.mr4Poll ch (v0 :: vs)) s =
          .next (((u.setChan c k).put F.LPX_CH_STATE.HOT c false).hotCount)))))

/-- A frame read from the header word and the words of a frame whose fields fit their widths is that frame. A trailer read from the word of
a trailer whose fields fit their widths is that trailer, and the 64 bits of the word have even parity. (R350, R351) -/
def Obligations.FramesAndTrailersRoundTrip : Prop :=
  (∀ f : Frame, f.type < 2 ^ 3 → f.hops < 2 ^ 4 → f.slice < 2 ^ 12 → f.dst < 2 ^ 20 → f.src < 2 ^ 20 → f.vc < 2 ^ 2 →
    f.header < 2 ^ 64 ∧ Frame.parse f.header f.words = f) ∧
  ∀ t : Trailer, t.crvc < 2 ^ 2 → t.crcnt < 2 ^ 5 → t.ack < 2 ^ 12 → t.lseq < 2 ^ 12 → t.par < 2 ^ 31 →
    t.word < 2 ^ 64 ∧ Trailer.parse t.word = t ∧ oddParity 64 t.word = false

/-- FRAME_RECEIVE on a DISABLED, DOWN or QUARANTINED port changes nothing. On a port that carries frames, of a sequenced frame of 256 bytes
with a sound trailer and no FEC fault, the trailer's acknowledgement and credits are used; then an intact frame that is the next in order is
accepted into the fabric core, any other intact one changes nothing more, and one whose words fail PAR is asked for again. So is, its
trailer not used, one with trailer parity odd, in an uncorrectable codeword (which is counted) or out of alignment. FRAME_TRANSMIT on a port
that carries frames: a waiting LINK frame goes out first; with none, the oldest frame still to be replayed; with none, and fewer than 512
frames unacknowledged, the head of the VC that arbitration serves; otherwise an IDLE frame. A port that is not TRAINING, UP, STOPPING or in
TEST sends nothing. REPLAY_TIMEOUT, with no acknowledgement for REPLAY_NS while frames are unacknowledged, marks all of them to be sent
again and counts it. (R349, R350, R351, R352, R354, R356, R357) -/
def Obligations.FramesCrossPorts : Prop :=
  (
  ∀ (p : PortId) (bs : List Byte) (s : State), s.live = true → bs.length = 256 →
    (s.portState p.val = pDisabled ∨ s.portState p.val = pDown ∨ s.portState p.val = pQuarantined →
      ∀ fec, exec (.frameReceive p bs fec) s = .next s) ∧
    (s.carrying p.val = true → Tab.rising s.regs = true →
      let words := wordsOf bs
      let t := Trailer.parse (words.getD 31 0).toNat
      let f := Frame.parse (words.getD 0 0).toNat ((words.drop 1).take 30)
      let u := (s.corrected p.val 0).useTrailer p.val t
      1 ≤ f.type → f.type ≤ 3 →
        (oddParity 64 (words.getD 31 0).toNat = false → u.carrying p.val = true →
          (parOf ((words.take 31).map (·.toNat)) = t.par →
            (t.lseq = ((u.port p.val).ack + 1) % 4096 → exec (.frameReceive p bs 0) s = .next (u.accept p.val t.lseq f)) ∧
            (t.lseq ≠ ((u.port p.val).ack + 1) % 4096 → exec (.frameReceive p bs 0) s = .next u)) ∧
          (parOf ((words.take 31).map (·.toNat)) ≠ t.par →
            exec (.frameReceive p bs 0) s = .next (u.setPort p.val { u.port p.val with waiting := true, nak := true }))) ∧
        ∀ fec, fec % 8 ≠ 0 ∨ oddParity 64 (words.getD 31 0).toNat = true →
          let v := s.corrected p.val (fec / 8)
          let w := if bit fec 2 then v.count F.RLT_PORT_ERR.FEC_UNCORR p.val 1 else v
          w.carrying p.val = true → exec (.frameReceive p bs fec) s = .next (w.setPort p.val { w.port p.val with waiting := true, nak := true }))) ∧
  (
  ∀ (port : PortId) (s : State), s.live = true →
    let p := port.val
    let x := s.port p
    (s.carrying p = true →
      (∀ ws rest, x.links = ws :: rest → exec (.frameTransmit port) s = .next ((s.setPort p { x with links := rest }).putPlain p 4 ws)) ∧
      (x.links = [] →
        (∀ l q, 0 < x.resend → x.sent[x.sent.length - x.resend]? = some (l, q) → exec (.frameTransmit port) s =
          .next ((s.setPort p { x with resend := x.resend - 1 }).putFrame p q.frame.header l q.frame.words)) ∧
        (x.resend = 0 → x.sent.length < 512 →
          (∀ vc, x.nextVc = some vc → exec (.frameTransmit port) s = .next (s.putNew p vc)) ∧
          (x.nextVc = none → exec (.frameTransmit port) s = .next (s.putPlain p 0 []))) ∧
        (x.resend = 0 → 512 ≤ x.sent.length → exec (.frameTransmit port) s = .next (s.putPlain p 0 []))) ∧
      (s.due x.ackAt (s.rd F.RLT_PORT_CFG.REPLAY_NS p) = true → x.sent ≠ [] → exec (.replayTimeout port) s =
        .next (((s.setPort p { x with resend := x.sent.length, replays := x.replays + 1, ackAt := s.time }).count
          F.RLT_PORT_ERR.REPLAYS p 1).fault 0)) ∧
      (s.due x.ackAt (s.rd F.RLT_PORT_CFG.REPLAY_NS p) = false → exec (.replayTimeout port) s = .next s)) ∧
    (s.portState p = pDisabled ∨ s.portState p = pDown ∨ s.portState p = pQuarantined → exec (.frameTransmit port) s = .next s))

/-- PORT_RETRAIN of an UP port whose oldest frame was replayed eight times starts TRAINING with the replay buffer kept and counts it, and of
one with fewer changes nothing. PORT_DOWN_TIMEOUT of a retraining port not UP within 100 ms makes it DOWN with its frames lost.
PORT_DOWN_RETRY of a port DOWN for 1 s trains it again. PMD_TRAINING_DONE of a TRAINING port notes trained lanes and their rate. HELLO on a
TRAINING port with trained lanes, the device ID being valid: a common version and fitting roles make the port UP at the highest common
version with the peer's credits; no common version makes it DOWN with E_VERSION, roles that do not fit DOWN with E_CONFLICT; while the
device ID is not valid the HELLO waits there. On a port that carries frames CREDIT_REQ is answered with CREDIT and CREDIT sets the count of
freed entries of every VC. TEST_REQ is agreed to on a port that is not DISABLED, DOWN or QUARANTINED, and refused on one that asks for a
test itself with the lower device ID. CREDIT_REPORT_STALE on an UP port with no report of a VC for 12 frame periods sends CREDIT_REQ, and
CREDIT_PERIODIC sends CREDIT once 100 us have passed since the last. For a port that asked for a test TEST_AGREE starts the pattern, and
TEST_REFUSE or no answer within 10 ms fails it. The layout of HELLO is the model's (log 50). (R347, R353, R354, R355, R359, R360, R375,
R376) -/
def Obligations.LinksComeUpAndRetrain : Prop :=
  (
  ∀ (port : PortId) (s : State), s.live = true →
    let p := port.val
    let x := s.port p
    (s.portState p = pUp → 8 ≤ x.replays → exec (.portRetrain port) s =
      .next (((s.setPort p { x with retrain := true, replays := 0 }).count F.RLT_PORT_STATE.RETRAINS p 1).startTraining p)) ∧
    (x.replays < 8 → exec (.portRetrain port) s = .next s) ∧
    (s.portState p = pTraining → x.retrain = true → s.due x.since 100000000 = true →
      exec (.portDownTimeout port) s = .next (s.failPort p pDown 0)) ∧
    (s.portState p = pDown → s.due x.since 1000000000 = true → exec (.portDownRetry port) s = .next (s.startTraining p)) ∧
    (s.due x.since 100000000 = false → exec (.portDownTimeout port) s = .next s) ∧
    (s.portState p = pTraining → ∀ half, exec (.pmdTrainingDone port half) s =
      .next ((s.setPort p { x with trained := true }).put F.RLT_PORT_STATE.HALF_RATE p half))) ∧
  (
  ∀ (port : PortId) (s : State), s.live = true →
    let p := port.val
    let x := s.port p
    (∀ bs, s.portState p = pTraining → x.trained = true → s.rd F.RLT_DEV_ID.VALID 0 = 0 →
      exec (.hello port bs) s = .next (s.setPort p { x with heard := some bs })) ∧
    (∀ bs, s.portState p = pTraining → x.trained = true → s.rd F.RLT_DEV_ID.VALID 0 = 1 →
      let w := fieldAt bs 8 8
      let u := (s.wr F.RLT_PORT_STATE.PEER_ID p (bits w 12 20)).wr F.RLT_PORT_STATE.PEER_KIND p (bits w 8 1)
      let low := max 2 (bits w 0 4)
      let high := min (s.rd F.RLT_PORT_CFG.VER_MAX p) (bits w 4 4)
      (high < low → exec (.hello port bs) s = .next (u.failPort p pDown eVersion)) ∧
      (low ≤ high → x.role ≠ bit w 8 → exec (.hello port bs) s = .next (u.failPort p pDown eConflict)) ∧
      (low ≤ high → x.role = bit w 8 →
        let y : Port := { x with
          granted := (List.range 4).foldl (fun m c => Tab.set 0 m c (fieldAt bs (16 + 2 * c) 2)) []
          heardAt := (List.range 4).foldl (fun m c => Tab.set 0 m c u.time) []
          ackAt := u.time, resend := x.sent.length, replays := 0, retrain := false, ver := high, creditAt := u.time, heard := none }
        exec (.hello port bs) s = .next (((u.setPort p y).movePort p pUp).wr F.RLT_PORT_STATE.VER p high) ∧
          ∀ c < 4, Tab.get 0 y.granted c = fieldAt bs (16 + 2 * c) 2)) ∧
    (s.carrying p = true →
      exec (.creditReq port) s = .next (s.sendLink p x.creditWords) ∧
      ∀ bs, let y := (List.range 4).foldl (fun (x : Port) v =>
          let n := fieldAt bs (8 + 8 * v) 4
          { x with freed := Tab.set 0 x.freed v n, report := Tab.set 0 x.report v (n % 32), heardAt := Tab.set 0 x.heardAt v s.time }) x
        exec (.credit port bs) s = .next (s.setPort p y) ∧ y.sent = x.sent ∧ y.used = x.used ∧
        (Tab.rising x.freed = true → ∀ c < 4, Tab.get 0 y.freed c = fieldAt bs (8 + 8 * c) 4)) ∧
    (s.portState p ≠ pDisabled → s.portState p ≠ pDown → s.portState p ≠ pQuarantined → ∀ bs,
      let loses := s.portState p = pTest ∧ s.devId < s.rd F.RLT_PORT_STATE.PEER_ID p
      (loses → exec (.testReq port bs) s = .next (s.sendLink p (linkWords 6 []))) ∧
      (¬ loses → exec (.testReq port bs) s = .next (s.sendLink p (linkWords 5 [])))) ∧
    (s.portState p = pUp →
      (s.due x.creditAt 100000 = true →
        exec (.creditPeriodic port) s = .next ((s.setPort p { x with creditAt := s.time }).sendLink p x.creditWords)) ∧
      (s.due x.creditAt 100000 = false → exec (.creditPeriodic port) s = .next s) ∧
      ∀ vc < 4, s.due (Tab.get 0 x.heardAt vc) (s.twelvePeriods p) = true → exec (.creditReportStale port vc) s =
        .next ((s.setPort p { x with heardAt := Tab.set 0 x.heardAt vc s.time }).sendLink p (linkWords 2 []))) ∧
    (s.portState p = pTest → x.test = 1 →
      exec (.testAgree port) s = .next (s.setPort p { x with test := 2, since := s.time }) ∧
      exec (.testRefuse port) s = .next ((s.put F.RLT_PORT_STATE.FAIL p true).endTest p) ∧
      (s.due x.since 10000000 = true → exec (.testAgreeTimeout port) s = .next ((s.put F.RLT_PORT_STATE.FAIL p true).endTest p)) ∧
      (s.due x.since 10000000 = false → exec (.testAgreeTimeout port) s = .next s)))

/-- PORT_ENABLE by the PF of a DISABLED, DOWN or QUARANTINED port starts TRAINING; of a STOPPING or TEST one it sets ENABLE_PEND.
PORT_DISABLE of a TRAINING, UP or DOWN port without a pended enable makes it STOPPING. PORT_TEST of an UP, DOWN or DISABLED port makes it
STOPPING towards a test. PORT_STOP_DONE of a STOPPING port that has drained, or has stopped for 100 us, loses what is left and makes it
DISABLED, or asks the peer for the test. PORT_TEST_DONE after TEST_S seconds of pattern stores the four lanes' counts and trains again.
Other functions are denied. (R375, R376, R378) -/
def Obligations.PortsAreControlled : Prop :=
  ∀ (port : PortId) (s : State),
    let p := port.val
    let x := s.port p
    let st := s.portState p
    (∀ f : FnId, s.hears f.val →
      (f.val = 0 →
        (st = pDisabled ∨ st = pDown ∨ st = pQuarantined → exec (.portEnable f port) s = .next (s.startTraining p)) ∧
        (st = pStopping ∨ st = pTest → exec (.portEnable f port) s =
          .next ((s.put F.RLT_PORT_CTRL.ENABLE_PEND p true).setPort p { x with pendAt := s.time })) ∧
        (s.rd F.RLT_PORT_CTRL.ENABLE_PEND p = 0 → st = pTraining ∨ st = pUp ∨ st = pDown →
          exec (.portDisable f port) s = .next ((s.setPort p { x with toTest := false }).movePort p pStopping)) ∧
        (st = pUp ∨ st = pDown ∨ st = pDisabled →
          exec (.portTest f port) s = .next ((s.setPort p { x with toTest := true }).movePort p pStopping))) ∧
      (f.val ≠ 0 → exec (.portEnable f port) s = .next (s.deny f.val) ∧ exec (.portDisable f port) s = .next (s.deny f.val) ∧
        exec (.portTest f port) s = .next (s.deny f.val))) ∧
    (s.live = true →
      (st = pStopping → x.drained = true ∨ s.due x.since 100000 = true →
        let u := s.losePort p
        (x.toTest = true → exec (.portStopDone port) s =
          .next (((u.setPort p { u.port p with test := 1 }).movePort p pTest).sendLink p (linkWords 4 []))) ∧
        (x.toTest = false → (u.movePort p pDisabled).rd F.RLT_PORT_CTRL.ENABLE_PEND p = 0 →
          exec (.portStopDone port) s = .next (u.movePort p pDisabled))) ∧
      (st = pTest → x.test = 2 → s.due x.since (s.rd F.RLT_PORT_CFG.TEST_S p * 1000000000) = true → ∀ errors checked : List Nat,
        exec (.portTestDone port errors checked) s = .next (((List.range 4).foldl (fun (s : State) n =>
          s.storeLane p n (errors.getD n 0) (checked.getD n 0)) s).endTest p)))

/-- PUT whose first frame has come, into a main RW tensor of its length, held by no command or other PUT, not moving and with its pages
granted, begins, and once whole commits the bytes and answers OK; into no tensor, or one of another kind or length, it is refused with
E_SHAPE, into a LOST one with E_STATE_LOST, into one that another PUT writes with E_CONFLICT. Of a whole message: EVENT adds VALUE to its
counter and sends OK. COMPLETION of the transfer it names at its destination gives that its outcome, and otherwise is counted as late. TOKEN
to a link whose cog is not the partition's is dropped as NO_PART. MESSAGE_TIMEOUT marks an open message without its next frame as lost.
PUT_TIMEOUT of a transfer all sent ends it as TIMEOUT. TOKEN of a whole message to a link of its partition with room adds its flits to the
link's buffer, EOT on the last, and the message ends. EAST_TOKEN_OUT on an unbound link takes what stands at the edge off it, counts each
flit UNBOUND and raises the source; on a bound one it sends a whole token as a message, through the link's own port where that is UP and its
rows allow it and through the fabric core where not, and with no whole token there it changes nothing. XFER_CFG_ENABLE while ENABLE is set
changes ENABLE alone; while it is clear it stores the ring's fields and, where it asks for ENABLE and the ring is a main RW tensor of its
size, sets ENABLE with the ring's next position 0. (R360, R368, R369, R371, R372, R373, R378) -/
def Obligations.MessagesAndTokens : Prop :=
  (
  ∀ (n : Nat) (s : State), s.live = true →
    (∀ m, s.rlt.msgs[n]? = some m → m.op = 1 → m.begun = true →
      (m.isOpen = true → exec (.put n) s = .next (s.setMsg n { m with begun := true })) ∧
      (m.isOpen = false → m.bad = false → exec (.put n) s = .next ((s.dropMsg n).commitPut m)) ∧
      (m.isOpen = false → m.bad = true → exec (.put n) s = .next ((s.dropMsg n).answerPut m xRefused eParity))) ∧
    (∀ m, s.rlt.msgs[n]? = some m → m.op = 1 → m.begun = false →
      (s.tensor m.part m.tid = none → exec (.put n) s = .next ((s.dropMsg n).answerPut m xRefused eShape)) ∧
      ∀ t, s.tensor m.part m.tid = some t →
        (t.state = .lost → exec (.put n) s = .next ((s.dropMsg n).answerPut m xRefused eStateLost)) ∧
        (t.state ≠ .lost → t.main = false ∨ t.rw_ = false ∨ t.desc.length ≠ m.arg →
          exec (.put n) s = .next ((s.dropMsg n).answerPut m xRefused eShape)) ∧
        (t.state ≠ .lost → t.main = true → t.rw_ = true → t.desc.length = m.arg → s.putWrites m.part m.tid = true →
          exec (.put n) s = .next ((s.dropMsg n).answerPut m xRefused eConflict)) ∧
        (t.state ≠ .lost → t.main = true → t.rw_ = true → t.desc.length = m.arg → s.putWrites m.part m.tid = false →
          (∀ e ∈ s.ctl.cmds, e.2.holds m.part m.tid false = false) →
          t.state ≠ .loading → t.state ≠ .writing → ∀ u, s.takePages (putReq m.part m.tid) m.part m.came (pagesOf t.desc.length) =
            (u, .granted) → (m.isOpen = true → exec (.put n) s = .next (u.setMsg n { m with begun := true })) ∧
            (m.isOpen = false → m.bad = false → exec (.put n) s = .next ((u.dropMsg n).commitPut m)) ∧
            (m.isOpen = false → m.bad = true → exec (.put n) s = .next ((u.dropMsg n).answerPut m xRefused eParity)))) ∧
    (∀ m, s.msg n 2 = some m →
      (m.bad = true → exec (.event n) s = .next (s.dropMsg n)) ∧
      (m.bad = false → exec (.event n) s =
        .next (((s.dropMsg n).eventAdd m.part m.evt (m.arg % 2 ^ 32)).sendCompletion m xOK 0 m.tid))) ∧
    (∀ m, s.msg n 3 = some m → m.bad = false →
      let u := s.dropMsg n
      (∀ x, u.xfer m.part m.tid = some x → x.dst = m.flow.src →
        exec (.completion n) s = .next (u.finishXfer x (bits m.head 48 8) (m.arg % 256))) ∧
      ((∀ x, u.xfer m.part m.tid = some x → x.dst ≠ m.flow.src) → exec (.completion n) s = .next (u.count F.RLT_XFER_CFG.LATE_DONE m.part 1))) ∧
    (∀ m, s.rlt.msgs[n]? = some m →
      (m.op = 0x10 → s.eastOf m.part m.link = false → exec (.token n) s = .next ((s.dropMsg n).countDrop m.port .noPart)) ∧
      (m.op = 0x10 → s.eastOf m.part m.link = true → m.bad = true →
        exec (.token n) s = .next ((s.dropMsg n).badToken m.link m)) ∧
      (m.isOpen = true → s.due m.at_ (s.msgTimeout m.port) = true →
        exec (.messageTimeout n) s = .next (s.setMsg n { m with bad := true })) ∧
      (m.isOpen = false ∨ s.due m.at_ (s.msgTimeout m.port) = false → exec (.messageTimeout n) s = .next s)) ∧
    ∀ (p : PartId) (x : Xfer), s.xfer p.val n = some x → x.started = true → x.left = 0 → s.due x.sentAt (s.msgTimeout x.port) = true →
      exec (.putTimeout p n) s = .next (s.finishXfer x xTimeout 0)) ∧
  (
  (∀ (n : Nat) (s : State) (m : Msg), s.live = true → s.rlt.msgs[n]? = some m → m.op = 0x10 → m.bad = false → m.done = true →
    let l := m.link
    let x := s.eastIn l
    let rest := m.data.drop m.given
    s.eastOf m.part l = true → ceilDiv rest.length 32 ≤ 2048 - x.flits.length →
    exec (.token n) s = .next ((((s.setEast l { x with flits := x.flits ++ flitsOf rest true }).note (eastCog l) false).dropMsg n).eastFrees l)) ∧
  (∀ (l : Nat) (s : State), s.live = true → l < 128 →
    let fs := s.sinkAt (eastCog l) .e
    let k := (fs.takeWhile fun f => !f.eot).length
    (fs = [] → exec (.eastTokenOut l) s = .next s) ∧
    (fs ≠ [] → s.rd F.RLT_EDGE_BIND.VALID l = 0 → exec (.eastTokenOut l) s =
      .next (((s.setSinkAt (eastCog l) .e []).count F.RLT_PORT_DROP.UNBOUND (l / 8) fs.length).raise 138)) ∧
    (s.rd F.RLT_EDGE_BIND.VALID l = 1 →
      (k = fs.length → exec (.eastTokenOut l) s = .next s) ∧
      (k < fs.length →
        let u := s.setSinkAt (eastCog l) .e (fs.drop (fs.take (k + 1)).length)
        ∀ p, u.partOfBlock (blockOf (eastCog l)) = some p →
          let bs := (fs.take (k + 1)).flatMap fun f => toBytes 32 f.data.toNat
          let head := msgHead 0x10 0 0 false (u.rd F.RLT_EDGE_BIND.REMOTE_LINK l) 0
          let frames := u.msgFrames p 1 (u.rd F.RLT_EDGE_BIND.VC l) (u.rd F.RLT_EDGE_BIND.DST l) head bs.length bs
          (u.portState (l / 8) = pUp → exec (.eastTokenOut l) s = .next (frames.foldl (fun s f =>
            if s.allowed (l / 8) f.slice then s.enqueue (l / 8) ⟨f, 0, none⟩ else s.dropFrame 16 .sliceDeny ⟨f, 0, none⟩) u)) ∧
          (u.portState (l / 8) ≠ pUp → exec (.eastTokenOut l) s = .next (u.originate frames none))))) ∧
  ∀ (f : FnId) (p : PartId) (v : Word64) (s : State), s.hears f.val →
    (ownFn f.val p.val = true →
      (s.rd F.RLT_XFER_CFG.ENABLE p.val = 1 →
        exec (.xferCfgEnable f p v) s = .next (s.put F.RLT_XFER_CFG.ENABLE p.val (bit v.toNat 63))) ∧
      (s.rd F.RLT_XFER_CFG.ENABLE p.val = 0 →
        let u := ((s.wr F.RLT_XFER_CFG.SIZE_LOG2 p.val (clampTo 4 12 (bits v.toNat 56 4))).wr F.RLT_XFER_CFG.EVT p.val
          (bits v.toNat 48 8)).wr F.RLT_XFER_CFG.TID p.val (bits v.toNat 0 32)
        let fits := ∃ t, u.mainTensor p.val (bits v.toNat 0 32) = some t ∧ t.rw_ = true ∧
          t.desc.length = 2 ^ u.rd F.RLT_XFER_CFG.SIZE_LOG2 p.val * 64
        (bit v.toNat 63 = true → fits → exec (.xferCfgEnable f p v) s =
          .next (({ u with rlt := { u.rlt with xpos := Tab.set 0 u.rlt.xpos p.val 0 } } : State).put F.RLT_XFER_CFG.ENABLE p.val true)) ∧
        (bit v.toNat 63 = false ∨ ¬ fits → exec (.xferCfgEnable f p v) s = .next u))) ∧
    (ownFn f.val p.val = false → exec (.xferCfgEnable f p v) s = .next (s.deny f.val)))

/-- While the function takes requests and the main tier is up: BAR2_READ of bytes that a window serves, no channel they need being waited
for, returns the tensor's committed bytes, no data for a request of no bytes, or poisoned data where it meets a failed page or, by the
model's free value (log 67), finds one that has failed; BAR2_WRITE puts its bytes there and makes a CLEAN tensor DIRTY; either waits in
order where a channel is paused. An access that no window serves is logged as kind 4, a read being answered as unsupported. WIN_MAP_WRITE by
the PF or the function itself of a mapping that R386 allows, or of one without VALID, stores it, and of one that it does not allow sets
MAP_ERR and stores nothing. FAULTY_TLP is logged with its kind (2 only where ECRC is checked), and a read of kind 3, 4 or 6 is answered as
unsupported. (R223, R229, R236, R385, R386, R387, R388, R396, R397, R403) -/
def Obligations.HostWindows : Prop :=
  (∀ (f : FnId) (s : State) (off : Nat), s.hears f.val → s.mainUp = true →
    (∀ len, bar2Fits off len = true →
      (∀ p tid o t, s.windowAt f.val off len false = some (p, tid, o) → s.tensor p tid = some t →
        let chs := s.tensorChans t o len
        (s.mainWaits (heldReq s.lpx.heldNo) chs = true →
          exec (.bar2Read f off len) s = .next (s.holdMain chs (.read f.val off p tid o len))) ∧
        (s.mainWaits (heldReq s.lpx.heldNo) chs = false →
          (len = 0 → exec (.bar2Read f off len) s = .next (s.sendTlp f.val 2 (.readData f.val []))) ∧
          (len ≠ 0 → ∀ v w, (s.busErrors false (s.burstsOf t.frames o len)).draw 1 = (v, w) →
            (w.meetsFailure p tid o len = true → exec (.bar2Read f off len) s = .next (w.poison f.val off)) ∧
            (w.meetsFailure p tid o len = false → v = 1 →
              exec (.bar2Read f off len) s = .next ((w.poison f.val off).storedFailure p tid (o / 65536) 0)) ∧
            (w.meetsFailure p tid o len = false → v ≠ 1 →
              exec (.bar2Read f off len) s = .next (w.sendTlp f.val 2 (.readData f.val (t.data.readN o len))))))) ∧
      (s.windowAt f.val off len false = none →
        exec (.bar2Read f off len) s = .next ((s.pciEvent 4 f.val off).sendTlp f.val 2 (.unsupported f.val)))) ∧
    ∀ bs, bar2Fits off bs.length = true →
      (∀ p tid o t, s.windowAt f.val off bs.length true = some (p, tid, o) → s.tensor p tid = some t →
        let chs := s.tensorChans t o bs.length
        (s.mainWaits (heldReq s.lpx.heldNo) chs = true →
          exec (.bar2Write f off bs) s = .next (s.holdMain chs (.put p tid o bs false))) ∧
        (s.mainWaits (heldReq s.lpx.heldNo) chs = false → exec (.bar2Write f off bs) s = .next ((s.setTensor p tid { t with
          data := t.data.writeN o bs, state := if t.state = .clean then .dirty else t.state }).mainWritten t o bs.length))) ∧
      (s.windowAt f.val off bs.length true = none → exec (.bar2Write f off bs) s = .next (s.pciEvent 4 f.val off))) ∧
  (∀ (f g : FnId) (slot : Nat) (v : Word64) (s : State), s.hears f.val → slot < 16 →
    let j := RegKind.idx .PCI_WIN_MAP g.val slot
    let u := if bit v.toNat 61 then s.put F.PCI_WIN_MAP.MAP_ERR j false else s
    (f.val = 0 ∨ f = g →
      (bit v.toNat 63 = true → u.mapOk g.val v.toNat = false →
        exec (.winMapWrite f g slot v) s = .next (u.put F.PCI_WIN_MAP.MAP_ERR j true)) ∧
      (bit v.toNat 63 = false ∨ u.mapOk g.val v.toNat = true →
        let t := ((((u.put F.PCI_WIN_MAP.VALID j (bit v.toNat 63)).put F.PCI_WIN_MAP.WR j (bit v.toNat 62)).wr F.PCI_WIN_MAP.PART j
          (bits v.toNat 52 4)).wr F.PCI_WIN_MAP.PAGE j (bits v.toNat 32 20)).wr F.PCI_WIN_MAP.TID j (bits v.toNat 0 32)
        exec (.winMapWrite f g slot v) s = .next t ∧
        (Tab.rising s.regs = true → t.rd F.PCI_WIN_MAP.VALID j = bits v.toNat 63 1 ∧ t.rd F.PCI_WIN_MAP.TID j = bits v.toNat 0 32 ∧
          t.rd F.PCI_WIN_MAP.PAGE j = bits v.toNat 32 20))) ∧
    (f.val ≠ 0 → f ≠ g → exec (.winMapWrite f g slot v) s = .next (s.deny f.val))) ∧
  ∀ (f : FnId) (kind addr : Nat) (s : State), s.live = true → [1, 2, 3, 4, 5, 6, 10].contains kind = true →
    (kind = 2 → bit (Tab.get Aer.start s.pci.aer f.val).cap 8 = false → ∀ read, exec (.faultyTlp f kind addr read) s = .next s) ∧
    (kind ≠ 2 ∨ bit (Tab.get Aer.start s.pci.aer f.val).cap 8 = true →
      exec (.faultyTlp f kind addr false) s = .next (s.pciEvent kind f.val addr)) ∧
    (kind = 3 ∨ kind = 4 ∨ kind = 6 →
      exec (.faultyTlp f kind addr true) s = .next ((s.pciEvent kind f.val addr).sendTlp f.val 2 (.unsupported f.val)))

/-- DMA_COMPLETION of a sent read of its function: a good one ends it and the engine goes on; a bad one is logged and the read is requested
again, and the second failure ends it; a stale one ends it; one for a function that IDE refuses is logged and discarded; one that no read of
the function awaits is logged as kind 7. COMPLETION_TIMEOUT fails a sent read the same way. BUS_MASTER_CHANGE and D_STATE_CHANGE of a
function not in reset, the PF being ready, store the function's new enable or state, and else are answered with Request Retry Status.
PCIE_LINK_TRAIN, 20 ms after POR_N has risen at the earliest, at a speed (6 in flit mode only) and width of R379 stores them, sets DEGRADED
below speed 4 or width 8 and raises source 155 where that changes. IDE_KM makes its stream Secure with the new key and the other K bit;
IDE_INTEGRITY_FAIL of a Secure stream makes it Insecure, counts it, logs it and fails the loads that read, and of another changes nothing.
MSIX_SEND of a pending vector that neither its own nor the function's mask masks, of a function that may master the bus, sends the message
once, and otherwise changes nothing. (R379, R380, R391, R394, R395, R396, R397, R401, R402, R414, R474) -/
def Obligations.HostLinkAndFunctions : Prop :=
  (∀ (f : FnId) (tag : Nat) (s : State), s.live = true →
    (s.ideRefuses f.val = true → ∀ ok, exec (.dmaCompletion f tag ok) s =
      .next (s.pciEvent 10 f.val (((s.dmaOf tag).map (·.addr)).getD 0))) ∧
    (s.ideRefuses f.val = false →
      ((∀ e, s.dmaOf tag = some e → e.f ≠ f.val) → ∀ ok, exec (.dmaCompletion f tag ok) s = .next (s.pciEvent 7 f.val 0)) ∧
      ∀ e, s.dmaOf tag = some e → e.f = f.val →
        let ended := ({ s with pci := { s.pci with dma := Tab.erase s.pci.dma tag } } : State).hostGoes
        (e.dropped = true → ∀ ok, exec (.dmaCompletion f tag ok) s = .next ended) ∧
        (e.dropped = false → exec (.dmaCompletion f tag true) s = .next ended ∧
          exec (.dmaCompletion f tag false) s = .next (s.dmaFails tag e))) ∧
    (s.dmaOf tag = none → exec (.completionTimeout tag) s = .next s) ∧
    ∀ e, s.dmaOf tag = some e → e.dropped = false →
      (e.again = true → exec (.completionTimeout tag) s = .next ((s.pciEvent 8 e.f e.addr).readFails tag e)) ∧
      (e.again = false →
        let y : Dma := { e with again := true, sent := false }
        let v := s.pciEvent 8 e.f e.addr
        let u := ({ v with pci := { v.pci with dma := Tab.insert v.pci.dma tag y } } : State).fault 0
        s.dmaFails tag e = (if u.busOk e.f then u.sendHeld tag y else u) ∧ exec (.completionTimeout tag) s = .next (s.dmaFails tag e))) ∧
  (∀ (f : FnId) (b : Bool) (s : State), s.clocks = true → s.pins.porLow = false →
    (s.inReset f.val = true → let u := (s.pciEvent 6 f.val 0).sendTlp f.val 2 (.retryStatus f.val)
      exec (.busMasterChange f b) s = .next u ∧ exec (.dStateChange f b) s = .next u) ∧
    (s.inReset f.val = false → s.pci.ready = false → s.unbooted = false → let u := s.sendTlp f.val 2 (.retryStatus f.val)
      exec (.busMasterChange f b) s = .next u ∧ exec (.dStateChange f b) s = .next u) ∧
    (s.inReset f.val = false → s.pci.ready = true ∨ s.unbooted = true →
      let u : State := { s with pci := { s.pci with bme := Tab.set false s.pci.bme f.val b } }
      let v : State := { s with pci := { s.pci with d3 := Tab.set false s.pci.d3 f.val b } }
      exec (.busMasterChange f b) s = .next (if u.live then u.release f.val else u) ∧
      exec (.dStateChange f b) s = .next (if v.live then v.release f.val else v))) ∧
  (∀ (speed width : Nat) (flit retrain : Bool) (s : State), s.clocks = true → s.pins.porLow = false → 1 ≤ speed → speed ≤ 6 →
    (speed = 6 → flit = true) → width ∈ [1, 2, 4, 8, 16] → s.due 0 20000000 = true →
    let u := ((s.wr F.PCI_LINK_STATUS.SPEED 0 speed).wr F.PCI_LINK_STATUS.WIDTH 0 width).put F.PCI_LINK_STATUS.FLIT 0 flit
    let v := (if retrain then u.count F.PCI_LINK_STATUS.RETRAINS 0 1 else u).put F.PCI_LINK_STATUS.DEGRADED 0 (decide (speed < 4 ∨ width < 8))
    exec (.pcieLinkTrain speed width flit retrain) s =
      .next (if s.on F.PCI_LINK_STATUS.DEGRADED 0 = decide (speed < 4 ∨ width < 8) then v else v.raise 155)) ∧
  (∀ (f : FnId) (key : Word256) (s : State), s.clocks = true → s.pins.porLow = false →
    exec (.ideKm f key) s = .next (let u := s.put F.PCI_IDE_STATE.SECURE f.val true
      { u with pci := { u.pci with
        ideKeys := Tab.set 0 u.pci.ideKeys f.val key
        ideK := Tab.set false u.pci.ideK f.val (s.on F.PCI_IDE_STATE.SECURE f.val && !Tab.get false s.pci.ideK f.val)
        ideDown := Tab.erase u.pci.ideDown f.val } })) ∧
  (∀ (f : FnId) (s : State), s.live = true →
    (s.rd F.PCI_IDE_STATE.SECURE f.val = 0 → exec (.ideIntegrityFail f) s = .next s) ∧
    (s.rd F.PCI_IDE_STATE.SECURE f.val = 1 →
      let u := ((s.put F.PCI_IDE_STATE.SECURE f.val false).count F.PCI_IDE_STATE.FAILS f.val 1).fault 3
      let v : State := { u with pci := { u.pci with
        ideKeys := Tab.erase u.pci.ideKeys f.val, ideDown := Tab.set false u.pci.ideDown f.val true } }
      let w := (v.draw 48).2.pciEvent 10 f.val (v.draw 48).1
      exec (.ideIntegrityFail f) s = .next ((w.pci.dma.filter fun e => e.2.f == f.val && !e.2.dropped).foldl (fun w e =>
        match w.tensor e.2.part e.2.tid with
        | some t => if t.state = .loading then w.loadFails e.2.part e.2.tid t else w
        | none => w) w))) ∧
  ∀ (f : FnId) (vec : Nat) (s : State), s.clocks = true → s.pins.porLow = false → vec < 64 →
    let k := f.val * 64 + vec
    let ready := s.msix.contains k && s.busOk f.val && Tab.get false s.pci.msixEn f.val && !Tab.get false s.pci.fnMask f.val &&
      (Tab.get (0, 0, false) s.pci.msixTab k).2.2
    (ready = true → exec (.msixSend f vec) s = .next (({ s with msix := s.msix.filter (· != k) } : State).sendTlp f.val 0 (.msix f.val vec))) ∧
    (ready = false → exec (.msixSend f vec) s = .next s)

/-- COLD_RESET, in any state, gives a state in which POR_N is low, nothing runs, time and the tensor table are as after cold reset, and the
fuses' identity (and the authorities, where no burn was under way), the boot flash, the board and the saved journal are kept, but that one
which was being replaced may be lost (log 68). WARM_DEVICE_RESET of causes 2 to 4 is the reset of R400, and of cause 1 only once the PF has
been ready. FUNCTION_LEVEL_RESET of a VF that is there resets its partition's work, or waits where the VF is in reset, and of the PF it is a
warm reset of cause 4. BOOT_ROM while POR_N is low starts the clocks; it leaves RECOVERY where a fuse group fails its CRC or neither copy of
component 1 is accepted, and else takes the copy of the higher version (A on a tie) and measures it. FIRMWARE_BOOT takes components 2 to 4;
where neither bundle's copy of one is accepted the boot ends there, and else the tiers are trained, the board record's pins set, the PF
becomes ready, the boot state RUNNING and the power pins are sampled. (R398, R399, R400, R450, R451, R506, R508, R509, R516) -/
def Obligations.ResetsAndBoot : Prop :=
  (∀ s : State, let t := s.coldReset
    exec .coldReset s = .next t ∧ t.pins.porLow = true ∧ t.time = 0 ∧ t.mem = State.reset.mem ∧ t.ctl = State.reset.ctl ∧
    t.arr = State.reset.arr ∧ t.srv = State.reset.srv ∧ t.rlt = Rlt.reset ∧ t.pci = Pci.reset ∧ t.pwr = Pwr.reset ∧ t.board = s.board ∧
    (s.rd F.OBS_FATAL.JOURNAL_FINAL 0 = 0 ∨ s.rd F.OBS_FATAL.SAVED 0 = 1 → t.saved = s.saved) ∧ (t.saved = s.saved ∨ t.saved = none) ∧ t.sec.flash = s.sec.flash ∧ t.sec.uid = s.sec.uid ∧ (s.sec.burn = none → t.sec.authHash = s.sec.authHash) ∧
    t.sec.running = [] ∧ t.hostMem = s.hostMem) ∧
  (∀ s : State, s.live = true →
    (∀ cause, 2 ≤ cause → cause ≤ 4 → exec (.warmDeviceReset cause) s = .next (s.warmReset cause)) ∧
    (s.pci.ready = false → exec (.warmDeviceReset 1) s = .next s) ∧
    (s.pci.ready = true → exec (.warmDeviceReset 1) s = .next (s.warmReset 1)) ∧
    ∀ f : FnId, (f.val = 0 → exec (.functionLevelReset f) s = .next (s.warmReset 4)) ∧
      (f.val ≠ 0 → s.present f.val = false → exec (.functionLevelReset f) s = .next s) ∧
      (f.val ≠ 0 → s.present f.val = true →
        (s.inReset f.val = false → exec (.functionLevelReset f) s = .next (s.flr (f.val - 1))) ∧
        (s.inReset f.val = true → exec (.functionLevelReset f) s =
          .next { s with pci := { s.pci with flrPend := s.pci.flrPend ++ [f.val] } }))) ∧
  (∀ s : State, s.pins.porLow = true →
    let u := s.release_
    u.clocks = true ∧ u.pins.porLow = false ∧
    (u.sec.fuseCrc = false → exec .bootRom s = .next (u.wr F.SEC_BOOT_STATUS.STATE 0 3)) ∧
    (u.sec.fuseCrc = true →
      let a := u.imageCheck 0 1
      let b := u.imageCheck 1 1
      let v := (u.wr F.SEC_BOOT_STATUS.FAIL_A 0 a).wr F.SEC_BOOT_STATUS.FAIL_B 0 b
      (v.romPick a b = none → exec .bootRom s = .next (v.wr F.SEC_BOOT_STATUS.STATE 0 3)) ∧
      ∀ k, v.romPick a b = some k → exec .bootRom s = .next ((((v.romMeasure a b).setRunning 1 (v.imageOf k 1)).wr
        F.SEC_BOOT_STATUS.BUNDLE 0 k).wr F.SEC_BOOT_STATUS.VERSION 0 (v.imageOf k 1).version))) ∧
  ∀ (s : State) (x : Running), s.live = true → Tab.find s.sec.running 1 = some x → s.rd F.SEC_BOOT_STATUS.STATE 0 = 0 →
    s.pci.ready = false → let u := [2, 3, 4].foldl (fun (s : State) c => s.bootComp x.bundle c) s
    (u.unbooted = true → exec .firmwareBoot s = .next u) ∧
    (u.unbooted = false →
      let v := u.trainMain.trainBulk
      let w := match v.boardRecord with
        | some r => (List.range 16).foldl (fun (v : State) n => v.bootPin r n) v
        | none => v
      exec .firmwareBoot s = .next (({ w with pci := { w.pci with ready := true } } : State).wr F.SEC_BOOT_STATUS.STATE 0 1).samplePins)

/-- INTC_SELECT gives a target without a delivery in flight its eligible source of highest priority, the lowest number on a tie. INTC_LAND,
within 8 ns of the selection, clears PENDING, sets ACTIVE and, on a hub that is ONLINE, executes no waiting instruction and, for a source of
a partition, serves it, jumps to the source's vector; INTC_WITHDRAW after that time removes the delivery and leaves PENDING. INTC_CPL of an
active source completes it; of another on a strict target it is logged and raises source 156, on a relaxed one it is counted. INTC_MASK by
the PF stores a word of masks, without the management cores' own sources, once what is in flight on strict targets has landed or been
withdrawn. INTC_SWSET raises the software sources of a partition. A hub's completion and a mask come from the PF, the management cores'
completions (targets 8 and 9) from them; other functions are denied. (R404, R407, R408, R409, R410, R412, R413, R416) -/
def Obligations.InterruptsAreDelivered : Prop :=
  (∀ (t : TgtId) (s : State), s.live = true →
    (Tab.find s.intc.flight t.val = none →
      (s.selected t.val = none → exec (.intcSelect t) s = .next s) ∧
      ∀ n, s.selected t.val = some n →
        (let fl := Tab.insert s.intc.flight t.val (n, s.rd F.INTC_SRC_CFG.PRIO n, s.time)
         exec (.intcSelect t) s = .next { s with intc := { s.intc with flight := fl } }) ∧
        s.eligible t.val n = true ∧ ∀ m < 512, s.eligible t.val m = true →
          s.rd F.INTC_SRC_CFG.PRIO m < s.rd F.INTC_SRC_CFG.PRIO n ∨ (s.rd F.INTC_SRC_CFG.PRIO m = s.rd F.INTC_SRC_CFG.PRIO n ∧ n ≤ m)) ∧
    ∀ n prio sel, Tab.find s.intc.flight t.val = some (n, prio, sel) →
      (s.canLand t.val = true → s.routable n t.val = true → s.time ≤ timeAdd sel 8 → exec (.intcLand t) s = .next (s.land t.val n prio)) ∧
      (s.canLand t.val = false ∨ s.routable n t.val = false ∨ timeAdd sel 8 < s.time → exec (.intcLand t) s = .next s) ∧
      (timeAdd sel 8 ≤ s.time → exec (.intcWithdraw t) s =
        .next { s with intc := { s.intc with flight := Tab.erase s.intc.flight t.val } }) ∧
      (s.time < timeAdd sel 8 → exec (.intcWithdraw t) s = .next s)) ∧
  ∀ (f : FnId) (s : State), s.hears f.val →
    (∀ (t : TgtId) (n : Nat), n < 512 → 8 ≤ t.val ∨ f.val = 0 →
      ((s.intc.active.any fun a => a.1 == t.val && a.2.1 == n) = true → exec (.intcCpl f t n) s = .next (s.complete t.val n)) ∧
      ((s.intc.active.any fun a => a.1 == t.val && a.2.1 == n) = false →
        (s.rd F.INTC_TGT_CFG.MODE t.val = 1 → exec (.intcCpl f t n) s = .next (s.count F.INTC_STRAY_COUNT.COUNT t.val 1)) ∧
        (s.rd F.INTC_TGT_CFG.MODE t.val = 0 → exec (.intcCpl f t n) s = .next ((((s.wr F.INTC_ERR_LOG.TARGET 0 t.val).wr
          F.INTC_ERR_LOG.SOURCE 0 n).wr F.INTC_ERR_LOG.TIME 0 s.time).raise 156)))) ∧
    (∀ (w : MaskId) (v : Word32) (lands : Bool), (f.val = 0 → 
        let m := if w.val = 5 then setBits v.toNat 0 4 (bits (s.rd F.INTC_MASK.MASK 5) 0 4) else v.toNat
        exec (.intcMask f w v lands) s = .next ((((List.range 10).foldl (fun u t => u.maskFlight w.val m lands t) s).wr
          F.INTC_MASK.MASK w.val m).handWord w.val)) ∧
      (f.val ≠ 0 → exec (.intcMask f w v lands) s = .next (s.deny f.val))) ∧
    (∀ (t : TgtId) (n : Nat), t.val < 8 → f.val ≠ 0 → exec (.intcCpl f t n) s = .next (s.deny f.val)) ∧
    ∀ (p : PartId) (v : Word32), (ownFn f.val p.val = true → exec (.intcSwset f p v) s =
        .next ((List.range 16).foldl (fun (u : State) i => if bit v.toNat i then u.raise (256 + 16 * p.val + i) else u) s)) ∧
      (ownFn f.val p.val = false → exec (.intcSwset f p v) s = .next (s.deny f.val))

/-- With the clocks on and the device not halted, a management message raises source 162, and where it is the rack manager's it is heard
(its time is kept while HB_EN is set, and kickstand ends) and then: CAP stores the cap held to 350 to 1,200 W, setting MIN_CLAMP below 350,
and it arrives with the ramp held; RAMP stores the ramp time; PLDM_MODE stores the mode and applies it; HEARTBEAT does no more. From another
endpoint it does nothing else. PWR_STEP_CHANGE to a new code stores it and its cap arrives with ramp 0. HOST_CAP_WRITE by the PF stores a
cap held to 350 to 1,200 W, which arrives with ramp 0, MODE_WRITE the fields of PWR_CFG held in range, and CAPTURE latches device time;
other functions are denied. A lower cap that leaves CAP_EFF where it was applies the brake where the mean power lies above it by more than
BRAKE_TOL and 200 W per ms of ramp, unless the caps were judged at that time. The upper bounds of CAP and RAMP are the model's (log 30).
(R420, R421, R426, R428, R433, R434, R435, R446) -/
def Obligations.PowerLimitsAreSet : Prop :=
  (∀ (eid v : Nat) (s : State), s.clocks = true → s.pins.porLow = false → s.halted = false →
    let r := s.raise 162
    (r.validEid eid = true →
      let m : State := if r.rd F.PWR_RM_CFG.HB_EN 0 ≠ 0 then { r with pwr := { r.pwr with lastMsg := some r.time } } else r
      let u : State := if m.rd F.PWR_STATUS.KICKSTAND 0 ≠ 0 then ((({ m with pwr := { m.pwr with kick := none } } : State).put
        F.PWR_STATUS.KICKSTAND 0 false).put F.PWR_STATUS.KICK_SAFE 0 false).raise 158 else m
      exec (.cap eid v) s = .next (((if v < 350 then u.put F.PWR_STATUS.MIN_CLAMP 0 true else u).wr F.PWR_STATUS.CAP_RM 0
        (clampTo 350 1200 v)).capArrives (u.rd F.PWR_STATUS.CAP_RM 0) (clampTo 350 1200 v) u.pwr.rampMs) ∧
      exec (.ramp eid v) s = .next { u.evalCaps none with pwr := { (u.evalCaps none).pwr with rampMs := min v 10000 } } ∧
      exec (.pldmMode eid v) s = .next (((u.evalCaps none).wr F.PWR_CFG.MODE 0 (min 2 v)).applyMode) ∧
      exec (.heartbeat eid) s = .next (u.evalCaps none)) ∧
    (r.validEid eid = false → ∀ c ∈ [Instr.cap eid v, .ramp eid v, .pldmMode eid v, .heartbeat eid], exec c s = .next r) ∧
    let p : State := { s with pins := { s.pins with step := v % 8 } }
    (∀ now, s.rd F.PWR_STATUS.PIN_CODE 0 = now → now ≠ v % 8 → exec (.pwrStepChange v) s = .next ((p.wr F.PWR_STATUS.PIN_CODE 0 (v % 8)).capArrives
        (max 350 (s.rd F.PWR_STEP_CAP.CAP now)) (max 350 (s.rd F.PWR_STEP_CAP.CAP (v % 8))) 0)) ∧
    (s.rd F.PWR_STATUS.PIN_CODE 0 = v % 8 → exec (.pwrStepChange v) s = .next p)) ∧
  (∀ (s : State) (old c ramp : Nat), let t := s.evalCaps (some ramp)
    (old ≤ c → s.capArrives old c ramp = t) ∧ (t.rd F.PWR_STATUS.CAP_EFF 0 < s.rd F.PWR_STATUS.CAP_EFF 0 → s.capArrives old c ramp = t) ∧
    (c < old → s.rd F.PWR_STATUS.CAP_EFF 0 ≤ t.rd F.PWR_STATUS.CAP_EFF 0 → (∀ j, s.pwr.judged = some j → j.at_ ≠ s.time) →
      (t.above (c + 200 * ramp + t.rd F.PWR_CFG.BRAKE_TOL 0) = true →
        s.capArrives old c ramp = t.brakeFor (t.rd F.PWR_STATUS.CAP_EFF 0)) ∧
      (t.above (c + 200 * ramp + t.rd F.PWR_CFG.BRAKE_TOL 0) = false → s.capArrives old c ramp = t))) ∧
  ∀ (f : FnId) (v : Word32) (s : State), s.hears f.val →
    (f.val = 0 →
      (∀ x, bits v.toNat 0 16 = x →
        let u : State := if x < 350 then s.put F.PWR_STATUS.MIN_CLAMP 0 true else s
        exec (.hostCapWrite f v) s =
          .next ((u.wr F.PWR_HOST_CAP.CAP 0 (clampTo 350 1200 x)).capArrives (s.rd F.PWR_HOST_CAP.CAP 0) (clampTo 350 1200 x) 0)) ∧
      exec (.capture f) s = .next ((s.wr F.CLK_TIME_CAP.TIME 0 s.time).count F.CLK_CAP_CTRL.CAPTURES 0 1) ∧
      exec (.modeWrite f v) s = .next (s.writePwrCfg v.toNat)) ∧
    (f.val ≠ 0 → ∀ c ∈ [Instr.hostCapWrite f v, .capture f, .modeWrite f v], exec c s = .next (s.deny f.val))

/-- After the limit inputs are evaluated CAP_EFF is at least 350 W, no input held up to 350 W lies below it, LIMITER is the lowest code
among the inputs that give it, and MODE_EFF is the ceiling in force. (R421, R425, R426) -/
def Obligations.CapEffIsTheLowestLimit : Prop :=
  ∀ s : State, Tab.rising s.regs = true → s.ceiling < 4 →
    let c := s.capRegs.rd F.PWR_STATUS.CAP_EFF 0
    let l := s.capRegs.rd F.PWR_STATUS.LIMITER 0
    c ≤ 1200 ∧ 350 ≤ c ∧ (∀ e ∈ s.limits, c ≤ max 350 e.2) ∧ (∃ e ∈ s.limits, e.1 = l ∧ max 350 e.2 = c) ∧
    (∀ e ∈ s.limits, max 350 e.2 = c → l ≤ e.1) ∧ s.capRegs.rd F.PWR_STATUS.MODE_EFF 0 = s.ceiling

/-- With the clocks on and the device not halted: GOVERNOR_SAMPLE, once a us, keeps the newest 1,000 samples and stores the readings and
their average (log 30); GOVERNOR_EVAL, once every 10 us, computes CAP_EFF, applies the duty of the first allowed setting at or below the
goal, of the slowest where none is, and moves VDD_CORE to what the setting needs; DIVISOR_CHANGE applies the divisor chosen, or the fastest
allowed where that is slower, and counts it, a faster one only once VDD_CORE has reached its voltage; BRAKE_RELEASE with no cause left
releases the brake; THROTTLE_N going low applies the brake and raises source 160, and THROTTLE_RELEASE 100 us after its return ends that
cause, power rising to a CAP_EFF above the average; COOLANT_ALERT_N going low applies the brake and the coolant ceiling, lifted by
COOLANT_CEILING_LIFT 10 s after its return with TJ below T_WARN; KICKSTAND_ENTER after more than 500 ms without a message and KICKSTAND_SAFE
after 5 s of it set the kickstand input. IDLE_SERVE_ENTER sets IDLE on an idle array after IDLE_US and lowers VDD_CORE; with a RUN or phase
ready IDLE_SERVE_WAKE raises VDD_CORE and, once it is up, clears IDLE and starts what waited (the two steps are the model's, log 94). While
POR_N is low PWR_STEP, THROTTLE_N and COOLANT_ALERT_N only take their levels. (R404, R418, R422, R423, R424, R427, R431, R436, R437, R438,
R516) -/
def Obligations.GovernorActs : Prop :=
  (∀ s : State, s.clocks = true → s.pins.porLow = false → s.halted = false →
    (∀ w mv a : Nat, (s.beatDue beatSample 1000 = false → exec (.governorSample w mv a) s = .next s) ∧
      (s.beatDue beatSample 1000 = true →
      let u : State := { s.beat beatSample with pwr := { s.pwr with samples := (w :: s.pwr.samples).take 1000 } }
      exec (.governorSample w mv a) s = .next ((((u.wrSat F.PWR_MEAS.INST_W 0 w).wrSat F.PWR_MEAS.AVG_W 0
        (u.pwr.sum / u.pwr.samples.length)).wrSat F.PWR_MEAS.CORE_MV 0 mv).wrSat F.PWR_MEAS.CORE_A 0 a).windowStep)) ∧
    (∀ (est : List Nat) (d duty w : Nat), (s.beatDue beatEval 10000 = false → exec (.governorEval est) s = .next s) ∧
      (s.beatDue beatEval 10000 = true →
      let u := (s.beat beatEval).capRegs
      let goal := min (u.rd F.PWR_STATUS.CAP_EFF 0) (u.pwr.ramp.level u.time)
      let choices := (settings.filter fun e => decide (u.fastest ≤ e.1)).zip est
      (choices.find? (fun e => decide (e.2 ≤ goal))).or choices.getLast? = some ((d, duty), w) →
      exec (.governorEval est) s =
        .next ({ (u.wr F.PWR_STATUS.DUTY 0 duty) with pwr := { u.pwr with wantDiv := d, est := some w } } : State).slewCore)) ∧
    (∀ mv : Nat, let d := max s.pwr.wantDiv s.fastest
      let now := s.rd F.PWR_STATUS.ACLK_DIV 0
      (now = d → exec (.divisorChange mv) s = .next s) ∧
      (d < now → s.vdd < s.volt d → exec (.divisorChange mv) s = .next s.slewCore) ∧
      (now ≠ d → now < d ∨ s.volt d ≤ s.vdd → exec (.divisorChange mv) s = .next (((s.wr F.PWR_STATUS.ACLK_DIV 0
        d).count F.CLK_STATUS.DIV_CHANGES 0 1).wrSat F.PWR_MEAS.CORE_MV 0 mv).slewCore)) ∧
    (s.pwr.brakeCap = none → s.pwr.brakeCool = none → s.pwr.brakeThr = false → s.rd F.PWR_STATUS.BRAKE 0 = 1 →
      exec .brakeRelease s = .next (({ s with pwr := { s.pwr with judged := none } } : State).put F.PWR_STATUS.BRAKE 0 false).applyMode) ∧
    (s.rd F.PWR_STATUS.THROTTLE 0 = 0 →
      let p (low : Bool) : State := { s with pins := { s.pins with throttle := low } }
      let u := ((p true).put F.PWR_STATUS.THROTTLE 0 true).raise 160
      exec (.throttleN true) s = .next ({ u with pwr := { u.pwr with brakeThr := true, throttleUp := none } } : State).brakeOn ∧
      exec (.throttleN false) s = .next (p false)) ∧
    (∀ t, s.pwr.throttleUp = some t → s.pwr.brakeThr = true → s.due t 100000 = true →
      let u := ({ s with pwr := { s.pwr with brakeThr := false, throttleUp := none } } : State).brakeOff
      exec .throttleRelease s = .next (if u.rd F.PWR_MEAS.AVG_W 0 < u.rd F.PWR_STATUS.CAP_EFF 0 then
        u.riseTo (u.rd F.PWR_MEAS.AVG_W 0) (u.rd F.PWR_STATUS.CAP_EFF 0) else u)) ∧
    (s.pwr.coolLow = false →
      let u := ({ s with pins := { s.pins with coolant := true }, pwr := { s.pwr with coolLow := true } } : State).raise 160
      let v : State := { u with pwr := { u.pwr with brakeCool := some u.time, coolUp := none } }
      exec (.coolantAlertN true) s = .next (((v.put F.PWR_STATUS.COOLANT 0 true).brakeOn).evalCaps none) ∧
      ∀ t, s.pwr.coolUp = some t → s.due t 10000000000 = true → s.rd F.PWR_TEMP.TJ 0 < 8 * s.rd F.PWR_THERM_CFG.T_WARN 0 →
        exec .coolantCeilingLift s =
          .next ((({ s with pwr := { s.pwr with coolUp := none } } : State).put F.PWR_STATUS.COOLANT 0 false).evalCaps none)) ∧
    (∀ t, s.pwr.lastMsg = some t → s.rd F.PWR_RM_CFG.HB_EN 0 = 1 → s.rd F.PWR_RM_CFG.RM_EID 0 ≠ 0 →
      s.rd F.PWR_STATUS.KICKSTAND 0 = 0 →
      (s.due t 500000001 = true → exec .kickstandEnter s = .next (((({ s with pwr := { s.pwr with
        kick := some (s.rd F.PWR_STATUS.CAP_RM 0, s.time) } } : State).put F.PWR_STATUS.KICKSTAND 0 true).raise 158).evalCaps none)) ∧
      (s.due t 500000001 = false → exec .kickstandEnter s = .next s)) ∧
    (∀ w t, s.pwr.kick = some (w, t) → s.rd F.PWR_STATUS.KICK_SAFE 0 = 0 →
      (s.due t 5000000000 = true → exec .kickstandSafe s = .next ((({ s with pwr := { s.pwr with
        kick := some (min w (s.rd F.PWR_RM_CFG.SAFE_CAP 0), t) } } : State).put F.PWR_STATUS.KICK_SAFE 0 true).evalCaps none)) ∧
      (s.due t 5000000000 = false → exec .kickstandSafe s = .next s))) ∧
  (∀ s : State, s.pins.porLow = true → (∀ v : Nat, exec (.pwrStepChange v) s = .next { s with pins := { s.pins with step := v % 8 } }) ∧
    ∀ low : Bool, exec (.throttleN low) s = .next { s with pins := { s.pins with throttle := low } } ∧
      exec (.coolantAlertN low) s = .next { s with pins := { s.pins with coolant := low } }) ∧
  ∀ s : State, s.live = true →
    (s.rd F.PWR_CFG.IDLE_EN 0 = 1 → s.asleep = false → s.arrayBusy = false →
      s.due s.pwr.idleFrom (s.rd F.PWR_CFG.IDLE_US 0 * 1000) = true → exec .idleServeEnter s =
        .next ({ (s.put F.PWR_STATUS.IDLE 0 true) with pwr := { s.pwr with wake := none } } : State).slewCore) ∧
    (s.arrayBusy = true → exec .idleServeEnter s = .next s) ∧
    (s.asleep = true → s.arrayBusy = true → let need := s.volt (s.rd F.PWR_STATUS.ACLK_DIV 0)
      (s.vdd < need → s.pwr.wake = none →
        exec .idleServeWake s = .next ({ s with pwr := { s.pwr with wake := some s.time } } : State).slewCore) ∧
      (s.vdd < need → s.pwr.wake ≠ none → exec .idleServeWake s = .next s) ∧
      (need ≤ s.vdd →
        let u : State := { (s.put F.PWR_STATUS.IDLE 0 false).wakePhases with pwr := { s.pwr with wake := none } }
        exec .idleServeWake s = .next ((u.ctl.ops.filter fun e => e.2.sleeps).foldl
          (fun (v : State) e => v.wakeRun (e.1 / 16) (e.1 % 16) e.2) u))) ∧
    (s.arrayBusy = false → exec .idleServeWake s = .next s)

/-- TEMP_SAMPLE, every 10 us, stores the highest reading of the sensors not excluded as TJ, raises source 159 where it crosses T_WARN and
moves the thermal input; from 840 eighths of a degree on it halts the device. HARDWARE_TRIP at or above 920 eighths of a degree stops the
clocks, clears ROOT_LOCK and drives THERMTRIP_N, and below it changes nothing; REFCLK_LOSS stops the clocks, clears ROOT_LOCK and drives
DEV_FAULT_N. FATAL_LATCH of a cause 1 to 6, MGMT_WATCHDOG_EXPIRE (cause 5) and RAIL_OUT_OF_RANGE (cause 6, DETAIL 2 for VDD_SRAM and 1 for
VDD_CORE) answer the state with that cause latched (State.latchFatal), and in the fatal state they change nothing. FATAL_JOURNAL_SAVE with
the journal final, the bulk tier ready and another cause than 5 saves the journal and sets SAVED; with JOURNAL_FINAL clear it changes
nothing. (R404, R419, R440, R442, R443, R476, R477, R478, R508) -/
def Obligations.HeatClocksAndFatalCauses : Prop :=
  (
  (∀ (rs : List Nat) (tj k : Nat) (s : State), s.clocks = true → s.pins.porLow = false → s.halted = false →
    hottest (rs.take 80) s.pwr.excluded = some (tj, k) → s.beatDue beatTemp 10000 = true →
    let warn := 8 * s.rd F.PWR_THERM_CFG.T_WARN 0
    let u := ((s.beat beatTemp).wrSat F.PWR_TEMP.TJ 0 tj).wr F.PWR_TEMP.SENSOR 0 k
    let u := u.wrSat F.PWR_TEMP.TJ_PEAK 0 (max tj (u.rd F.PWR_TEMP.TJ_PEAK 0))
    let u := (if decide (warn ≤ s.rd F.PWR_TEMP.TJ 0) != decide (warn ≤ tj) then u.raise 159 else u).thermalStep tj
    (tj < 840 → exec (.tempSample rs) s = .next u) ∧ (840 ≤ tj → exec (.tempSample rs) s = .next u.halt)) ∧
  ∀ (tj : Nat) (s : State), s.clocks = true → s.pins.porLow = false →
    (920 ≤ tj → exec (.hardwareTrip tj) s =
      .next { (s.put F.CLK_STATUS.ROOT_LOCK 0 false) with clocks := false, pins := { s.pins with thermTrip := true } }) ∧
    (tj < 920 → exec (.hardwareTrip tj) s = .next s) ∧
    exec .refclkLoss s =
      .next { (s.put F.CLK_STATUS.ROOT_LOCK 0 false) with clocks := false, pins := { s.pins with devFault := true } }) ∧
  (
  (∀ (s : State) (detail : Nat), s.live = true →
    (∀ cause, 1 ≤ cause → cause ≤ 6 → exec (.fatalLatch cause detail) s = .next (s.latchFatal cause detail)) ∧
    exec .mgmtWatchdogExpire s = .next (s.latchFatal 5 0) ∧ exec (.railOutOfRange true) s = .next (s.latchFatal 6 2) ∧
    exec (.railOutOfRange false) s = .next (s.latchFatal 6 1)) ∧
  (∀ (s : State) (cause detail : Nat), s.fatal = true → s.latchFatal cause detail = s ∧
    exec (.fatalLatch cause detail) s = .next s ∧ exec .mgmtWatchdogExpire s = .next s ∧ ∀ b, exec (.railOutOfRange b) s = .next s) ∧
  ∀ s : State, s.clocks = true → s.pins.porLow = false →
    (s.rd F.OBS_FATAL.JOURNAL_FINAL 0 = 1 → s.rd F.BLK_STATUS.READY 0 = 1 → s.rd F.OBS_FATAL.CAUSE 0 ≠ 5 →
      exec .fatalJournalSave s = .next { (s.put F.OBS_FATAL.SAVED 0 true) with saved := some s.journalCopy }) ∧
    (s.rd F.OBS_FATAL.JOURNAL_FINAL 0 = 0 → exec .fatalJournalSave s = .next s))

/-- MARGIN_TRIM, once a second, without a short margin changes nothing, with one below 30 mV of trim adds 5 mV and moves VDD_CORE, and with
one at 30 mV adds a divisor step, up to 3, with a power event. SENSOR_CHECK, every 10 s, checks each of its 80 readings. QUEUE_DEPTH_SAMPLE,
every PERIOD_US while sampling is ON, puts a record for each block in scope into the capture FIFO. OBS_STREAM_ENABLE by the PF writes the
stream's control register; OBS_STREAM_STOP_DONE writes out the FIFO and makes a STOPPING stream with nothing pended OFF, unless a record of
it still waits there for its buffer. GPIO_CLAIM by the PF judges the claim; GPIO_EDGE of a new level stores it and raises the pin's source
where its edge is selected; TACH_WINDOW, once a second on a tachometer pin, stores the pulses. BOUNDARY_SCAN loads the instruction: IDCODE
answers the part's code, a code from 3 on acts as BYPASS. Other functions are denied. (R484, R485, R486, R489, R491, R492, R494, R502, R512)
-/
def Obligations.ObservationAndPins : Prop :=
  (∀ s : State, s.clocks = true → s.pins.porLow = false → s.halted = false →
    (s.beatDue beatMargin 1000000000 = false → ∀ b, exec (.marginTrim b) s = .next s) ∧
    (s.beatDue beatMargin 1000000000 = true → exec (.marginTrim false) s = .next (s.beat beatMargin) ∧
      (s.rd F.OBS_CAL_STATUS.TRIM_MV 0 < 30 →
        exec (.marginTrim true) s = .next ((s.beat beatMargin).count F.OBS_CAL_STATUS.TRIM_MV 0 5).slewCore) ∧
      (30 ≤ s.rd F.OBS_CAL_STATUS.TRIM_MV 0 → s.rd F.OBS_CAL_STATUS.DIV_STEPS 0 < 3 → exec (.marginTrim true) s =
        .next ((((s.beat beatMargin).wr F.OBS_CAL_STATUS.DIV_STEPS 0 (s.rd F.OBS_CAL_STATUS.DIV_STEPS 0 + 1)).evalCaps none).powerEvent)) ∧
      (30 ≤ s.rd F.OBS_CAL_STATUS.TRIM_MV 0 → 3 ≤ s.rd F.OBS_CAL_STATUS.DIV_STEPS 0 →
        exec (.marginTrim true) s = .next (s.beat beatMargin))) ∧
    ∀ rs : List Nat, rs.length = 80 → (s.beatDue beatSensors 10000000000 = false → exec (.sensorCheck rs) s = .next s) ∧
      (s.beatDue beatSensors 10000000000 = true → exec (.sensorCheck rs) s =
        .next ((List.range 80).foldl (fun (u : State) k => u.checkSensor rs k) (s.beat beatSensors)))) ∧
  (∀ s : State, s.live = true →
    (s.rd F.OBS_SAMPLE_CTRL.STATE 0 = 1 → s.beatDue beatDepth (s.rd F.OBS_SAMPLE_CTRL.PERIOD_US 0 * 1000) = true →
      exec .queueDepthSample s = .next ((s.sampleScope.map s.depthRecord).foldl (fun (u : State) r => u.captureRec r) (s.beat beatDepth))) ∧
    (s.rd F.OBS_SAMPLE_CTRL.STATE 0 ≠ 1 → exec .queueDepthSample s = .next s) ∧
    (∀ tr : Bool, s.rd (fState tr) 0 = 2 → s.on (fPend tr) 0 = false → let u := s.drainFifo
      ((u.obs.fifo.any fun r => r.1 == streamNo tr) = false → exec (.obsStreamStopDone tr) s = .next (u.streamOff tr)) ∧
      ((u.obs.fifo.any fun r => r.1 == streamNo tr) = true → exec (.obsStreamStopDone tr) s = .next u)) ∧
    ∀ (n : GpioId) (pulses : Nat), s.rd F.OBS_GPIO_CLAIM.FUNC n.val = 1 → s.beatDue (beatTach n) 1000000000 = true →
      exec (.tachWindow n pulses) s = .next ((s.beat (beatTach n)).wrSat F.OBS_GPIO_CFG.TACH n.val pulses)) ∧
  (∀ (f : FnId) (s : State), s.hears f.val →
    (f.val = 0 → (∀ (tr : Bool) (v : Word32), exec (.obsStreamEnable f tr v) s = .next (s.writeStream tr v.toNat)) ∧
      ∀ (n : GpioId) (v : Word32), exec (.gpioClaim f n v) s = .next (s.claimPin n.val (bits v.toNat 0 4))) ∧
    (f.val ≠ 0 → (∀ (tr : Bool) (v : Word32), exec (.obsStreamEnable f tr v) s = .next (s.deny f.val)) ∧
      ∀ (n : GpioId) (v : Word32), exec (.gpioClaim f n v) s = .next (s.deny f.val))) ∧
  (∀ (n : GpioId) (s : State), exec (.gpioEdge n (Tab.get false s.pins.gpio n.val)) s = .next s ∧
    (Tab.get false s.pins.gpio n.val = false →
      let u := ({ s with pins := { s.pins with gpio := Tab.set false s.pins.gpio n.val true } } : State).put F.OBS_GPIO_CFG.LEVEL n.val true
      u.live = true → exec (.gpioEdge n true) s =
        .next (if bit (u.rd F.OBS_GPIO_CFG.EDGE n.val) 0 then u.raise (164 + n.val) else u))) ∧
  ∀ (code : Nat) (s : State), code < 256 →
    let u : State := { s with pins := { s.pins with jtag := code } }
    (code = 1 → exec (.boundaryScan code) s = .next (u.send (.boundary 1 0x14816B47))) ∧
    (code = 0 → s.pins.porLow = true → exec (.boundaryScan code) s = .next (u.send (.boundary 0 0))) ∧
    (code = 2 → ∃ v, exec (.boundaryScan code) s = .next (({ u with fresh := u.fresh + 1 } : State).send (.boundary 2 v))) ∧
    (3 ≤ code → exec (.boundaryScan code) s = .next (u.send (.boundary 0xFF 0)))

/-- REGISTER_WRITE by a function that is heard, of BAR0, or of BAR4 once the main tier is up: of a form that R384 does not allow is logged
as BAD_ACCESS; at no register, outside the MSI-X table, changes nothing; of the MSI-X table stores the entry; of a register the function may
not write is denied and counted; of one with RWA fields is refused for those; and of any other stores it by its chapter's rules. In the
model's numbers (logs 91, 93) bar 7 is configuration space, answered Request Retry Status while the function is in reset or the device is
not ready, and bar 8 a management core's store. A plain store gives a register in which every RW field takes the written bits. For every
register of at most 64 bits, a store gives a value in which each RW field holds the written bits, each W1C field holds its old bits less
those written as 1, and each field of another access code keeps its old bits. (R9, R10, R383, R384, R396, R403, R464) -/
def Obligations.HostRegisterWrites : Prop :=
  (
  (∀ (f : FnId) (off : Nat) (v : Word64) (s : State), s.clocks = true → s.pins.porLow = false → off < 0x1000 →
    (s.inReset f.val = true → exec (.registerWrite f 7 off 4 v) s = .next ((s.pciEvent 6 f.val 0).sendTlp f.val 2 (.retryStatus f.val))) ∧
    (s.inReset f.val = false → s.pci.ready = true ∨ s.unbooted = true →
      exec (.registerWrite f 7 off 4 v) s = .next (s.cfgWrite f.val off (v.toNat % 2 ^ 32))) ∧
    (s.inReset f.val = false → s.pci.ready = false → s.unbooted = false →
      exec (.registerWrite f 7 off 4 v) s = .next (s.sendTlp f.val 2 (.retryStatus f.val)))) ∧
  (∀ (f : FnId) (off : Nat) (v : Word64) (s : State), s.live = true → off < 0x4000000 → off % 4 = 0 →
    exec (.registerWrite f 8 off 4 v) s = .next (s.coreWrite off (v.toNat % 2 ^ 32))) ∧
  ∀ (f : FnId) (bar off size : Nat) (v : Word64) (s : State), s.hears f.val →
    (bar = 0 ∧ off + size ≤ 0x4000000) ∨ (bar = 4 ∧ off + size ≤ 0x400000) →
    bar = 0 ∨ s.mainUp = true →
    let w := v.toNat % 2 ^ (8 * size)
    (accessOk bar off size = false → exec (.registerWrite f bar off size v) s = .next (s.pciEvent 3 f.val off)) ∧
    (accessOk bar off size = true →
      (regAt bar off = none → bar = 0 ∨ off < 0x20000 ∨ 0x20400 ≤ off → exec (.registerWrite f bar off size v) s = .next s) ∧
      (regAt bar off = none → bar = 4 → 0x20000 ≤ off → off < 0x20400 → exec (.registerWrite f bar off size v) s =
        .next (let u := s.writeMsix f.val (off - 0x20000) (w % 2 ^ 32)
          if size = 8 then u.writeMsix f.val (off - 0x20000 + 4) (w / 2 ^ 32) else u)) ∧
      ∀ k i o, regAt bar off = some (k, i, o) →
        (s.mayWrite f.val k i = false → exec (.registerWrite f bar off size v) s = .next (s.deny f.val)) ∧
        (s.mayWrite f.val k i = true →
          (64 < k.info.width → exec (.registerWrite f bar off size v) s = .next (s.writeWide k i o (toBytes size w))) ∧
          (k.info.width ≤ 64 →
            (rwaMask k ≠ 0 → exec (.registerWrite f bar off size v) s = .next (s.writeRwa k i off w)) ∧
            (rwaMask k = 0 → kindIsLink k = true → exec (.registerWrite f bar off size v) s = .next (s.writeLink f.val k i w)) ∧
            (rwaMask k = 0 → kindIsLink k = false → kindIsMgmt k = true →
              exec (.registerWrite f bar off size v) s = .next (s.writeMgmt k i w)) ∧
            (rwaMask k = 0 → kindIsLink k = false → kindIsMgmt k = false →
              exec (.registerWrite f bar off size v) s = .next (s.writeCore k i w)))))) ∧
  (
  ∀ (k : RegKind) (old v : Nat) (f : FieldInfo), f ∈ k.info.flds → k.info.width ≤ 64 →
    let x := storeFields old v k.info.flds
    (f.access = .rw → bits x f.lo f.w = bits v f.lo f.w) ∧
    (f.access = .w1c → bits x f.lo f.w = Nat.land (bits old f.lo f.w) (2 ^ f.w - 1 - bits v f.lo f.w)) ∧
    (f.access ≠ .rw → f.access ≠ .w1c → bits x f.lo f.w = bits old f.lo f.w))

/-- From the PF, while no token is applied: APPLY carries the token out (State.applyToken) and sets BUSY until its end, a free time within
the limit (log 46); NEW_NONCE issues a new nonce, the model's free value, at the device time. While one is applied both set OVERRUN only.
MEAS_EXTEND from a function that reaches the partition extends SEC_MEAS[16 + p] by the partition's input. RWA_WRITE_REFUSED by the PF of a
register with RWA fields is refused for those (State.writeRwa), and elsewhere changes nothing. DEBUG_INSTRUCTION with debug open, the first
time, sets DEBUG_SEEN and extends SEC_MEAS[7] by the UID, the time, the 8-bit code and zeros; with debug closed, or seen, it changes
nothing. Other functions are denied. A token that fails one of the checks 1 to 5 of R461 changes no measurement, nonce, fuse, slot, tensor,
command or bulk state and no register but the SEC_PART_STATE of the partitions whose map it would have written; its outcome is that check
with E_APPROVAL, which SEC_TOKEN_STATUS holds at its end. With fewer than two registered authorities every token fails check 1. (R452, R453,
R461, R462, R463, R464, R471, R472, R473) -/
def Obligations.TokensNoncesAndMeasurements : Prop :=
  (
  (∀ (f : FnId) (s : State), s.hears f.val →
    (f.val = 0 →
      (s.sec.apply = none →
        (∃ d, d ≤ (s.applyToken fun _ => true).2.until_ - s.time ∧
          let (t, e) := s.applyToken fun _ => true
          let u : State := { t with fresh := t.fresh + 1, sec := { t.sec with apply := some { e with until_ := timeAdd s.time d } } }
          exec (.apply f) s = .next (u.put F.SEC_TOKEN_STATUS.BUSY 0 true).tokenDue) ∧
        ∃ v, exec (.newNonce f) s = .next (let u : State := { s with fresh := s.fresh + 1 }
          { (u.setReg .SEC_NONCE 0 v) with sec := { s.sec with nonceAt := s.time } })) ∧
      (s.sec.apply ≠ none → exec (.apply f) s = .next (s.put F.SEC_TOKEN_STATUS.OVERRUN 0 true) ∧
        exec (.newNonce f) s = .next (s.put F.SEC_TOKEN_STATUS.OVERRUN 0 true)) ∧
      ∀ (off : Nat) (v : Word64) (k : RegKind) (i o : Nat), regAt 0 off = some (k, i, o) →
        (rwaMask k ≠ 0 → exec (.rwaWriteRefused f off v) s = .next (s.writeRwa k i off v.toNat)) ∧
        (rwaMask k = 0 → exec (.rwaWriteRefused f off v) s = .next s)) ∧
    (f.val ≠ 0 → exec (.apply f) s = .next (s.deny f.val) ∧ exec (.newNonce f) s = .next (s.deny f.val) ∧
      ∀ (off : Nat) (v : Word64) (k : RegKind) (i o : Nat), regAt 0 off = some (k, i, o) → rwaMask k ≠ 0 →
        exec (.rwaWriteRefused f off v) s = .next (s.deny f.val)) ∧
    ∀ p : PartId, (ownFn f.val p.val = true → exec (.measExtend f p) s =
        .next (s.extend (16 + p.val) (toBytes 32 (Tab.get 0 s.sec.ext p.val).toNat))) ∧
      (ownFn f.val p.val = false → exec (.measExtend f p) s = .next (s.deny f.val))) ∧
  ∀ s : State, s.clocks = true → s.pins.porLow = false →
    (s.rd F.SEC_FUSE_STATE.DEBUG_CLOSED 0 = 1 ∨ s.rd F.SEC_FUSE_STATE.DEBUG_SEEN 0 = 1 → exec .debugInstruction s = .next s) ∧
    (s.rd F.SEC_FUSE_STATE.DEBUG_CLOSED 0 = 0 → s.rd F.SEC_FUSE_STATE.DEBUG_SEEN 0 = 0 → ∃ code, code < 256 ∧
      exec .debugInstruction s = .next ((({ s with fresh := s.fresh + 1 } : State).put F.SEC_FUSE_STATE.DEBUG_SEEN 0 true).extend 7
        (toBytes 16 s.sec.uid ++ toBytes 8 s.time ++ toBytes 1 code ++ List.replicate 7 0)))) ∧
  (
  ∀ (s : State) (fits : List TokAct → Bool), s.tokenCheck ≠ 0 →
    let t := (s.applyToken fits).1
    let e := (s.applyToken fits).2
    t.sec = s.sec ∧ t.ctl = s.ctl ∧ t.blk = s.blk ∧ t.mem = s.mem ∧ t.fresh = s.fresh ∧
    e.check = s.tokenCheck ∧ e.error = eApproval ∧
    (Tab.rising s.regs = true → (∀ k i, k ≠ .SEC_PART_STATE → t.reg k i = s.reg k i) ∧
      (t.tokenEnds e).rd F.SEC_TOKEN_STATUS.CHECK 0 = s.tokenCheck ∧ (t.tokenEnds e).rd F.SEC_TOKEN_STATUS.ERROR 0 = eApproval ∧
      (t.tokenEnds e).rd F.SEC_TOKEN_STATUS.BUSY 0 = 0 ∧ (t.tokenEnds e).rd F.SEC_TOKEN_STATUS.DONE 0 = 1) ∧
    (s.registered.length < 2 → s.tokenCheck = 1))

/-- A dead block has its clocks stopped and POR_N high, and no cold reset waits. Every step from such a state that answers a next state
gives such a state again, and the array, the tensors, the commands and journal, the serving engine, the bulk and main tiers, the fabric, the
host interface, security, the governor, the journal saved and device time are as they were. (R398, R419, R443, R508, R509) -/
def Obligations.DeadBlocksStayDead : Prop :=
  ∀ s t : State, s.dead → step s = .next t → t.dead ∧ t.arr = s.arr ∧ t.mem = s.mem ∧ t.ctl = s.ctl ∧ t.srv = s.srv ∧ t.blk = s.blk ∧
    t.lpx = s.lpx ∧ t.rlt = s.rlt ∧ t.pci = s.pci ∧ t.sec = s.sec ∧ t.pwr = s.pwr ∧ t.saved = s.saved ∧ t.time = s.time

/-- The state after cold reset has its clocks on, is live and not dead, is canonical, holds no command, tensor, sequence or transfer, and
its next sequence number is 1. Every register reads as its reset value: the one that its table gives, and where it gives none the model's
(log 2). HARDWARE_TRIP at 115 degrees from it gives a dead block. (R11, R254, R283, R398, R443) -/
def Obligations.ResetState : Prop :=
  State.reset.clocks = true ∧ State.reset.live = true ∧ ¬ State.reset.dead ∧ State.reset.canonical = true ∧ State.reset.safe ∧
  State.reset.pending = [] ∧ State.reset.ctl.cmds = [] ∧ State.reset.mem.tensors = [] ∧ State.reset.srv.seqs = [] ∧
  State.reset.rlt.xfers = [] ∧ State.reset.ctl.nextSeq = 1 ∧ State.reset.time = 0 ∧
  (∀ k i, State.reset.reg k i = k.resetVal i % 2 ^ 64) ∧
  ∃ t, exec (.hardwareTrip 920) State.reset = .next t ∧ t.dead

/-- For every command and state: if the command is one that a sender can form, executing it answers a next state; if it is not, the block
stops with the fault illFormed. No command is refused. (R348, R379, R385, R386, R393, R414, R485) -/
def Obligations.FormedCommandsRun : Prop :=
  ∀ (c : Instr) (s : State), (c.wf = true → ∃ t, exec c s = .next t) ∧ (c.wf = false → exec c s = .fault .illFormed)

/-- From a state in which FATAL is set, every command other than COLD_RESET and TEMP_SAMPLE leaves the array, the tensors, the commands and
journal, the serving engine, the fabric, the bulk tier and the interrupt deliveries as they are. (R477, R479) -/
def Obligations.FatalStateServesNoWork : Prop :=
  ∀ (c : Instr) (s t : State), s.fatal = true → c ≠ .coldReset → (∀ rs, c ≠ .tempSample rs) → exec c s = .next t →
    t.arr = s.arr ∧ t.mem = s.mem ∧ t.ctl = s.ctl ∧ t.srv = s.srv ∧ t.rlt = s.rlt ∧ t.blk = s.blk ∧ t.intc = s.intc

/-- Writing register instance i of kind k makes it read as the value modulo 2^64, leaves every instance with another key as it was, and
keeps a canonical state canonical. Writing bytes to memory keeps its canonical form, makes the written addresses read as those bytes and
leaves every other address as it was; two memories in canonical form that read alike everywhere are equal. (R8, R9, R10, R11) -/
def Obligations.RegistersAndMemoryReadBack : Prop :=
  (∀ (s : State) (k : RegKind) (i v : Nat), s.canonical = true →
    (s.setReg k i v).canonical = true ∧ (s.setReg k i v).reg k i = v % 2 ^ 64 ∧
    ∀ k' i', k'.key i' ≠ k.key i → (s.setReg k i v).reg k' i' = s.reg k' i') ∧
  (∀ (m : Memory) (a : Nat) (bs : List Byte), m.wf = true →
    (m.writeN a bs).wf = true ∧ (m.writeN a bs).readN a bs.length = bs ∧
    ∀ b, b < a ∨ a + bs.length ≤ b → (m.writeN a bs).read b = m.read b) ∧
  ∀ m n : Memory, m.wf = true → n.wf = true → (∀ a, m.read a = n.read a) → m = n

/-- The lane functions of VMAX and VMIN: with a NaN in either lane the result is NaN. Otherwise the result is one of the two lanes, no lane
is larger than VMAX's or smaller than VMIN's, and of a zero of each sign VMAX gives +0 and VMIN -0. A cog that fires VMAX or VMIN writes
these, lane by lane. (R97) -/
def Obligations.VmaxVminLanes : Prop :=
  (∀ a b : FVal, a = .nan ∨ b = .nan → maxF a b = .nan ∧ minF a b = .nan) ∧
  (∀ a b : FVal, a ≠ .nan → b ≠ .nan →
    (maxF a b = a ∨ maxF a b = b) ∧ ltF (maxF a b) a = false ∧ ltF (maxF a b) b = false ∧
    (minF a b = a ∨ minF a b = b) ∧ ltF a (minF a b) = false ∧ ltF b (minF a b) = false) ∧
  (∀ e e' : Int, maxF (.fin true 0 e) (.fin false 0 e') = .fin false 0 e' ∧ maxF (.fin false 0 e) (.fin true 0 e') = .fin false 0 e ∧
    minF (.fin true 0 e) (.fin false 0 e') = .fin true 0 e ∧ minF (.fin false 0 e) (.fin true 0 e') = .fin true 0 e') ∧
  ∀ (c : CogId) (s : State) (h : CogHead) (dst sa sb sc type pop imm : Nat) (et : Bool) (vs : List Nat) (y : Cog),
    let w := typeBits type
    let cfg := s.numCfg c
    let val (k i : Nat) : FVal := valueOf type (lane w (vs.getD k 0) i)
    let put (f : FVal → FVal → FVal) : State := s.fired c (y.result false y.plane (vecDest dst (resultFlits h.opc type imm)
      (lanes16 w fun i => normZero cfg.1 w (encT cfg.2 type (f (val 0 i) (val 1 i)))) y.plane et)).retire
    s.fires c (.c h dst sa sb sc type pop et imm) vs y →
      (h.opc = 0x25 → exec (.vmax c) s = .next (put maxF)) ∧ (h.opc = 0x26 → exec (.vmin c) s = .next (put minF))

/-- An MMA product with operand B of a 4-bit type and scale byte v from 0x00 to 0xFE is the product of A's element and B's expanded element
times 2^(v - 127): a finite product keeps its sign and its zeros and moves its exponent by v - 127, and an infinite or NaN product stays.
With 0xFF it is NaN. (R87) -/
def Obligations.BlockScales : Prop :=
  ∀ (atype btype a b : Nat), 4 ≤ btype →
    let product := mulF (valueOf (if atype = 0 then 1 else atype + 1) a) (valueOf 2 (expand4 btype b))
    mmaProduct atype btype 0xFF a b = .nan ∧
    ∀ (v : Nat), v ≤ 0xFE →
      (∀ (neg : Bool) (m : Nat) (e : Int), product = .fin neg m e → mmaProduct atype btype v a b = .fin neg m (e + v - 127)) ∧
      (∀ neg : Bool, product = .inf neg → mmaProduct atype btype v a b = .inf neg) ∧
      (product = .nan → mmaProduct atype btype v a b = .nan)

/-- FLIT_DISCARD_NO_ROUTE on the head flit of an input queue whose route entry has CORE and every FWD bit clear: the flit leaves its queue,
the block's cog error source is raised, and the commands, the tasks and the regions that run stay. (R44) -/
def Obligations.UnroutedFlitsAreDiscarded : Prop :=
  ∀ (c : CogId) (q : InId) (s : State) (f : Flit) (fs : List Flit), s.live = true → ((s.cog c).iq q).flits = f :: fs →
    Tab.rising s.arr.cogs = true → Tab.rising s.arr.regions = true →
    Tab.rising (s.cog c).inq = true → core ((s.cog c).routeOf q f) = false → fwd ((s.cog c).routeOf q f) = [] →
    ∃ (u t : State), exec (.flitDiscardNoRoute c q) s = .next t ∧ t = (u.raise (blockOf c)).note c false ∧
      (∃ k, ((u.cog c).iq q).flits = fs.drop k) ∧ t.ctl = s.ctl ∧ t.mem = s.mem ∧ (∀ k, (Tab.find t.arr.regions k).isSome =
        (Tab.find s.arr.regions k).isSome)
end

