-- ==== Sys2Proof/Laws/Tab.lean ====
section
/-! SUPPORT. The laws of sparse tables and of byte memory: what a table reads as after a change, and that every change keeps the
canonical form. -/

namespace Sys2Proof

variable {α : Type}

/-- The bound that the canonical form gives every key of the tail. -/
theorem Tab.rising_cons {j : Nat} {v : α} {m : Tab α} :
    Tab.rising ((j, v) :: m) = true ↔ (∀ e ∈ m, j < e.1) ∧ Tab.rising m = true := by
  induction m generalizing j v with
  | nil => simp [Tab.rising]
  | cons e m ih =>
    obtain ⟨k, w⟩ := e
    simp only [Tab.rising, Bool.and_eq_true, decide_eq_true_eq, List.mem_cons, forall_eq_or_imp]
    rw [ih]
    constructor
    · rintro ⟨h, ht, hr⟩
      exact ⟨⟨h, fun e he => lt_trans h (ht e he)⟩, ht, hr⟩
    · rintro ⟨⟨h, -⟩, ht, hr⟩
      exact ⟨h, ht, hr⟩

/-- A key below every listed one reads as the default. -/
theorem Tab.get_of_lt {d : α} {m : Tab α} {k : Nat} (h : ∀ e ∈ m, k < e.1) : Tab.get d m k = d := by
  cases m with
  | nil => rfl
  | cons e m => simp [Tab.get, h e (List.mem_cons_self ..)]

/-- A key below every listed one is not found. -/
theorem Tab.find_of_lt {m : Tab α} {k : Nat} (h : ∀ e ∈ m, k < e.1) : Tab.find m k = none := by
  cases m with
  | nil => rfl
  | cons e m => simp [Tab.find, h e (List.mem_cons_self ..)]

/-- Reading is finding, with the default for what is not listed. -/
theorem Tab.get_eq_find (d : α) (m : Tab α) (k : Nat) : Tab.get d m k = (Tab.find m k).getD d := by
  induction m with
  | nil => rfl
  | cons e m ih => simp only [Tab.get, Tab.find]; split_ifs <;> simp [ih]

/-- An inserted key is found with its value, in any table. -/
@[simp] theorem Tab.find_insert_same (m : Tab α) (k : Nat) (v : α) : Tab.find (Tab.insert m k v) k = some v := by
  induction m with
  | nil => simp [Tab.insert, Tab.find]
  | cons e m ih =>
    simp only [Tab.insert]
    split_ifs with h1 h2
    · simp [Tab.find]
    · simp [Tab.find]
    · simp only [Tab.find, if_neg h1, if_neg h2, ih]

/-- An inserted key reads as its value, in any table. -/
@[simp] theorem Tab.get_insert_same (d : α) (m : Tab α) (k : Nat) (v : α) : Tab.get d (Tab.insert m k v) k = v := by
  simp [Tab.get_eq_find]

/-- Inserting leaves every other key of a table as it was. -/
theorem Tab.find_insert_other {m : Tab α} (hm : Tab.rising m = true) {k q : Nat} (hq : q ≠ k) (v : α) :
    Tab.find (Tab.insert m k v) q = Tab.find m q := by
  induction m with
  | nil => simp only [Tab.insert, Tab.find]; split_ifs <;> rfl
  | cons e m ih =>
    obtain ⟨j, w⟩ := e
    obtain ⟨hb, hr⟩ := Tab.rising_cons.1 hm
    simp only [Tab.insert]
    split_ifs with h1 h2
    · simp only [Tab.find]
      split_ifs with h3 h4 h5 <;> first | rfl | omega
    · subst h2
      simp only [Tab.find]
      split_ifs <;> rfl
    · simp only [Tab.find, ih hr]

/-- Erasing a key of a canonical table leaves it not found. -/
theorem Tab.find_erase_same {m : Tab α} (hm : Tab.rising m = true) (k : Nat) : Tab.find (Tab.erase m k) k = none := by
  induction m with
  | nil => rfl
  | cons e m ih =>
    obtain ⟨j, w⟩ := e
    obtain ⟨hb, hr⟩ := Tab.rising_cons.1 hm
    simp only [Tab.erase]
    split_ifs with h1 h2
    · simp [Tab.find, h1]
    · subst h2
      exact Tab.find_of_lt hb
    · simp only [Tab.find, if_neg h1, if_neg h2, ih hr]

/-- Erasing leaves every other key of a canonical table as it was. -/
theorem Tab.find_erase_other {m : Tab α} (hm : Tab.rising m = true) {k q : Nat} (hq : q ≠ k) :
    Tab.find (Tab.erase m k) q = Tab.find m q := by
  induction m with
  | nil => rfl
  | cons e m ih =>
    obtain ⟨j, w⟩ := e
    obtain ⟨hb, hr⟩ := Tab.rising_cons.1 hm
    simp only [Tab.erase]
    split_ifs with h1 h2
    · rfl
    · subst h2
      simp only [Tab.find]
      split_ifs with h3
      · exact Tab.find_of_lt fun e he => lt_trans h3 (hb e he)
      · rfl
    · simp only [Tab.find, ih hr]

/-- What a canonical table lists after an insertion. -/
theorem Tab.mem_insert {m : Tab α} {k : Nat} {v : α} {e : Nat × α} (h : e ∈ Tab.insert m k v) : e = (k, v) ∨ e ∈ m := by
  induction m with
  | nil => simpa [Tab.insert] using h
  | cons f m ih =>
    simp only [Tab.insert] at h
    split_ifs at h with h1 h2
    · simpa using h
    · simp only [List.mem_cons] at h ⊢
      tauto
    · simp only [List.mem_cons] at h ⊢
      rcases h with rfl | h
      · simp
      · rcases ih h with h | h <;> simp [h]

/-- What a table lists after a removal it listed before. -/
theorem Tab.mem_erase {m : Tab α} {k : Nat} {e : Nat × α} (h : e ∈ Tab.erase m k) : e ∈ m := by
  induction m with
  | nil => simp [Tab.erase] at h
  | cons f m ih =>
    simp only [Tab.erase] at h
    split_ifs at h with h1 h2
    · exact h
    · exact List.mem_cons_of_mem _ h
    · simp only [List.mem_cons] at h ⊢
      exact h.imp id ih

/-- Insertion keeps keys strictly rising. -/
theorem Tab.rising_insert {m : Tab α} (hm : Tab.rising m = true) (k : Nat) (v : α) : Tab.rising (Tab.insert m k v) = true := by
  induction m with
  | nil => rfl
  | cons e m ih =>
    obtain ⟨j, w⟩ := e
    obtain ⟨hb, hr⟩ := Tab.rising_cons.1 hm
    simp only [Tab.insert]
    split_ifs with h1 h2
    · refine Tab.rising_cons.2 ⟨fun e he => ?_, hm⟩
      rcases List.mem_cons.1 he with rfl | he
      · exact h1
      · exact lt_trans h1 (hb e he)
    · subst h2
      exact Tab.rising_cons.2 ⟨hb, hr⟩
    · refine Tab.rising_cons.2 ⟨fun e he => ?_, ih hr⟩
      rcases Tab.mem_insert he with rfl | he
      · show j < k
        omega
      · exact hb e he

/-- Removal keeps keys strictly rising. -/
theorem Tab.rising_erase {m : Tab α} (hm : Tab.rising m = true) (k : Nat) : Tab.rising (Tab.erase m k) = true := by
  induction m with
  | nil => rfl
  | cons e m ih =>
    obtain ⟨j, w⟩ := e
    obtain ⟨hb, hr⟩ := Tab.rising_cons.1 hm
    simp only [Tab.erase]
    split_ifs with h1 h2
    · exact hm
    · exact hr
    · exact Tab.rising_cons.2 ⟨fun e he => hb e (Tab.mem_erase he), ih hr⟩

variable [DecidableEq α]

/-- A write keeps keys strictly rising. -/
theorem Tab.rising_set (d : α) {m : Tab α} (hm : Tab.rising m = true) (k : Nat) (v : α) :
    Tab.rising (Tab.set d m k v) = true := by
  unfold Tab.set
  split_ifs
  · exact Tab.rising_erase hm k
  · exact Tab.rising_insert hm k v

/-- A written key of a canonical table reads as written. -/
theorem Tab.get_set_same (d : α) {m : Tab α} (hm : Tab.rising m = true) (k : Nat) (v : α) : Tab.get d (Tab.set d m k v) k = v := by
  unfold Tab.set
  split_ifs with h
  · simp [Tab.get_eq_find, Tab.find_erase_same hm, h]
  · simp

/-- A key written with another value than the default reads as written, in any table. -/
theorem Tab.get_set_same_of_ne (d : α) (m : Tab α) (k : Nat) {v : α} (hv : v ≠ d) : Tab.get d (Tab.set d m k v) k = v := by
  simp [Tab.set, hv]

/-- A write leaves every other key of a canonical table as it was, whatever default it is read with. -/
theorem Tab.get_set_other (d d' : α) {m : Tab α} (hm : Tab.rising m = true) {k q : Nat} (hq : q ≠ k) (v : α) :
    Tab.get d' (Tab.set d m k v) q = Tab.get d' m q := by
  unfold Tab.set
  split_ifs
  · simp [Tab.get_eq_find, Tab.find_erase_other hm hq]
  · simp [Tab.get_eq_find, Tab.find_insert_other hm hq]

/-- A write keeps the canonical form. -/
theorem Tab.wf_set (d : α) {m : Tab α} (hm : Tab.wf (fun _ => d) m = true) (k : Nat) (v : α) :
    Tab.wf (fun _ => d) (Tab.set d m k v) = true := by
  simp only [Tab.wf, Tab.sparse, Bool.and_eq_true, List.all_eq_true, decide_eq_true_eq] at hm ⊢
  refine ⟨Tab.rising_set d hm.1 k v, fun e he => ?_⟩
  unfold Tab.set at he
  split_ifs at he with h
  · exact hm.2 e (Tab.mem_erase he)
  · rcases Tab.mem_insert he with rfl | he
    · exact h
    · exact hm.2 e he

/-! ## Byte memory -/

/-- The empty memory is canonical. -/
theorem Memory.wf_nil : Memory.wf [] = true := rfl

/-- Writing a byte keeps the canonical form. -/
theorem Memory.wf_write {m : Memory} (hm : m.wf = true) (a : Nat) (b : Byte) : (m.write a b).wf = true :=
  Tab.wf_set unlistedByte hm a b

/-- The keys of a canonical memory rise. -/
theorem Memory.rising_of_wf {m : Memory} (hm : m.wf = true) : Tab.rising m = true := by
  simp only [Memory.wf, Tab.wf, Bool.and_eq_true] at hm
  exact hm.1

/-- A written byte reads as written. -/
theorem Memory.read_write_same {m : Memory} (hm : m.wf = true) (a : Nat) (b : Byte) : (m.write a b).read a = b :=
  Tab.get_set_same unlistedByte (Memory.rising_of_wf hm) a b

/-- Writing a byte leaves every other byte as it was. -/
theorem Memory.read_write_other {m : Memory} (hm : m.wf = true) {a q : Nat} (hq : q ≠ a) (b : Byte) :
    (m.write a b).read q = m.read q :=
  Tab.get_set_other unlistedByte unlistedByte (Memory.rising_of_wf hm) hq b

/-- Writing bytes keeps the canonical form. -/
theorem Memory.wf_writeN {m : Memory} (hm : m.wf = true) (a : Nat) (bs : List Byte) : (m.writeN a bs).wf = true := by
  induction bs generalizing m a with
  | nil => exact hm
  | cons b bs ih => exact ih (Memory.wf_write hm a b) (a + 1)

/-- Writing a number keeps the canonical form. -/
theorem Memory.wf_setNum {m : Memory} (hm : m.wf = true) (a n x : Nat) : (m.setNum a n x).wf = true :=
  Memory.wf_writeN hm a _

/-- Writing bytes leaves every byte outside them as it was. -/
theorem Memory.read_writeN_other {m : Memory} (hm : m.wf = true) (a : Nat) (bs : List Byte) {q : Nat}
    (hq : q < a ∨ a + bs.length ≤ q) : (m.writeN a bs).read q = m.read q := by
  induction bs generalizing m a with
  | nil => rfl
  | cons b bs ih =>
    simp only [List.length_cons] at hq
    rw [Memory.writeN, ih (Memory.wf_write hm a b) (a + 1) (by omega), Memory.read_write_other hm (by omega)]

/-- Reading yields as many bytes as asked for. -/
@[simp] theorem Memory.length_readN (m : Memory) (a n : Nat) : (m.readN a n).length = n := by
  induction n generalizing a with
  | zero => rfl
  | succ n ih => simp [Memory.readN, ih]

end Sys2Proof
end

