-- ==== Sys2Proof/Laws/State.lean ====
section
/-! SUPPORT. What each update of the state leaves as it was, field by field, and what it makes its own field read as. -/

namespace Sys2Proof.Machine

variable (s : State)

/-! ### A state with one part replaced -/

theorem State.time_withRegs (x : Tab Word64) : ({ s with regs := x } : State).time = s.time := rfl
theorem State.work_withRegs (x : Tab Word64) : ({ s with regs := x } : State).work = s.work := rfl
theorem State.aclk_withRegs (x : Tab Word64) : ({ s with regs := x } : State).aclk = s.aclk := rfl
theorem State.clocks_withRegs (x : Tab Word64) : ({ s with regs := x } : State).clocks = s.clocks := rfl
theorem State.arr_withRegs (x : Tab Word64) : ({ s with regs := x } : State).arr = s.arr := rfl
theorem State.mem_withRegs (x : Tab Word64) : ({ s with regs := x } : State).mem = s.mem := rfl
theorem State.ctl_withRegs (x : Tab Word64) : ({ s with regs := x } : State).ctl = s.ctl := rfl
theorem State.blk_withRegs (x : Tab Word64) : ({ s with regs := x } : State).blk = s.blk := rfl
theorem State.srv_withRegs (x : Tab Word64) : ({ s with regs := x } : State).srv = s.srv := rfl
theorem State.intc_withRegs (x : Tab Word64) : ({ s with regs := x } : State).intc = s.intc := rfl
theorem State.obs_withRegs (x : Tab Word64) : ({ s with regs := x } : State).obs = s.obs := rfl
theorem State.lpx_withRegs (x : Tab Word64) : ({ s with regs := x } : State).lpx = s.lpx := rfl
theorem State.rlt_withRegs (x : Tab Word64) : ({ s with regs := x } : State).rlt = s.rlt := rfl
theorem State.pci_withRegs (x : Tab Word64) : ({ s with regs := x } : State).pci = s.pci := rfl
theorem State.pwr_withRegs (x : Tab Word64) : ({ s with regs := x } : State).pwr = s.pwr := rfl
theorem State.sec_withRegs (x : Tab Word64) : ({ s with regs := x } : State).sec = s.sec := rfl
theorem State.pins_withRegs (x : Tab Word64) : ({ s with regs := x } : State).pins = s.pins := rfl
theorem State.board_withRegs (x : Tab Word64) : ({ s with regs := x } : State).board = s.board := rfl
theorem State.saved_withRegs (x : Tab Word64) : ({ s with regs := x } : State).saved = s.saved := rfl
theorem State.fresh_withRegs (x : Tab Word64) : ({ s with regs := x } : State).fresh = s.fresh := rfl
theorem State.beats_withRegs (x : Tab Word64) : ({ s with regs := x } : State).beats = s.beats := rfl
theorem State.msix_withRegs (x : Tab Word64) : ({ s with regs := x } : State).msix = s.msix := rfl
theorem State.out_withRegs (x : Tab Word64) : ({ s with regs := x } : State).out = s.out := rfl
theorem State.hostMem_withRegs (x : Tab Word64) : ({ s with regs := x } : State).hostMem = s.hostMem := rfl
theorem State.pending_withRegs (x : Tab Word64) : ({ s with regs := x } : State).pending = s.pending := rfl
theorem State.cog_of_withRegs (x : Tab Word64) (c0 : Nat) : ({ s with regs := x } : State).cog c0 = s.cog c0 := rfl
theorem State.hub_of_withRegs (x : Tab Word64) (h0 : Nat) : ({ s with regs := x } : State).hub h0 = s.hub h0 := rfl
theorem State.queue_of_withRegs (x : Tab Word64) (q0 : Nat) : ({ s with regs := x } : State).queue q0 = s.queue q0 := rfl
theorem State.cmd_of_withRegs (x : Tab Word64) (n0 : Nat) : ({ s with regs := x } : State).cmd n0 = s.cmd n0 := rfl
theorem State.task_of_withRegs (x : Tab Word64) (k0 : Nat) : ({ s with regs := x } : State).task k0 = s.task k0 := rfl
theorem State.aop_of_withRegs (x : Tab Word64) (n0 d0 : Nat) : ({ s with regs := x } : State).aop n0 d0 = s.aop n0 d0 := rfl
theorem State.tensor_of_withRegs (x : Tab Word64) (p0 t0 : Nat) : ({ s with regs := x } : State).tensor p0 t0 = s.tensor p0 t0 := rfl
theorem State.regionOf_of_withRegs (x : Tab Word64) (c0 : Nat) : ({ s with regs := x } : State).regionOf c0 = s.regionOf c0 := rfl
theorem State.port_of_withRegs (x : Tab Word64) (p0 : Nat) : ({ s with regs := x } : State).port p0 = s.port p0 := rfl
theorem State.chan_of_withRegs (x : Tab Word64) (c0 : Nat) : ({ s with regs := x } : State).chan c0 = s.chan c0 := rfl

theorem State.time_withOut (x : List Sent) : ({ s with out := x } : State).time = s.time := rfl
theorem State.work_withOut (x : List Sent) : ({ s with out := x } : State).work = s.work := rfl
theorem State.aclk_withOut (x : List Sent) : ({ s with out := x } : State).aclk = s.aclk := rfl
theorem State.clocks_withOut (x : List Sent) : ({ s with out := x } : State).clocks = s.clocks := rfl
theorem State.regs_withOut (x : List Sent) : ({ s with out := x } : State).regs = s.regs := rfl
theorem State.arr_withOut (x : List Sent) : ({ s with out := x } : State).arr = s.arr := rfl
theorem State.mem_withOut (x : List Sent) : ({ s with out := x } : State).mem = s.mem := rfl
theorem State.ctl_withOut (x : List Sent) : ({ s with out := x } : State).ctl = s.ctl := rfl
theorem State.blk_withOut (x : List Sent) : ({ s with out := x } : State).blk = s.blk := rfl
theorem State.srv_withOut (x : List Sent) : ({ s with out := x } : State).srv = s.srv := rfl
theorem State.intc_withOut (x : List Sent) : ({ s with out := x } : State).intc = s.intc := rfl
theorem State.obs_withOut (x : List Sent) : ({ s with out := x } : State).obs = s.obs := rfl
theorem State.lpx_withOut (x : List Sent) : ({ s with out := x } : State).lpx = s.lpx := rfl
theorem State.rlt_withOut (x : List Sent) : ({ s with out := x } : State).rlt = s.rlt := rfl
theorem State.pci_withOut (x : List Sent) : ({ s with out := x } : State).pci = s.pci := rfl
theorem State.pwr_withOut (x : List Sent) : ({ s with out := x } : State).pwr = s.pwr := rfl
theorem State.sec_withOut (x : List Sent) : ({ s with out := x } : State).sec = s.sec := rfl
theorem State.pins_withOut (x : List Sent) : ({ s with out := x } : State).pins = s.pins := rfl
theorem State.board_withOut (x : List Sent) : ({ s with out := x } : State).board = s.board := rfl
theorem State.saved_withOut (x : List Sent) : ({ s with out := x } : State).saved = s.saved := rfl
theorem State.fresh_withOut (x : List Sent) : ({ s with out := x } : State).fresh = s.fresh := rfl
theorem State.beats_withOut (x : List Sent) : ({ s with out := x } : State).beats = s.beats := rfl
theorem State.msix_withOut (x : List Sent) : ({ s with out := x } : State).msix = s.msix := rfl
theorem State.hostMem_withOut (x : List Sent) : ({ s with out := x } : State).hostMem = s.hostMem := rfl
theorem State.pending_withOut (x : List Sent) : ({ s with out := x } : State).pending = s.pending := rfl
theorem State.reg_of_withOut (x : List Sent) (k0 : RegKind) (i0 : Nat) : ({ s with out := x } : State).reg k0 i0 = s.reg k0 i0 := rfl
theorem State.rd_of_withOut (x : List Sent) (f0 : Fld) (i0 : Nat) : ({ s with out := x } : State).rd f0 i0 = s.rd f0 i0 := rfl
theorem State.live_of_withOut (x : List Sent) : ({ s with out := x } : State).live = s.live := rfl
theorem State.cog_of_withOut (x : List Sent) (c0 : Nat) : ({ s with out := x } : State).cog c0 = s.cog c0 := rfl
theorem State.hub_of_withOut (x : List Sent) (h0 : Nat) : ({ s with out := x } : State).hub h0 = s.hub h0 := rfl
theorem State.queue_of_withOut (x : List Sent) (q0 : Nat) : ({ s with out := x } : State).queue q0 = s.queue q0 := rfl
theorem State.cmd_of_withOut (x : List Sent) (n0 : Nat) : ({ s with out := x } : State).cmd n0 = s.cmd n0 := rfl
theorem State.task_of_withOut (x : List Sent) (k0 : Nat) : ({ s with out := x } : State).task k0 = s.task k0 := rfl
theorem State.aop_of_withOut (x : List Sent) (n0 d0 : Nat) : ({ s with out := x } : State).aop n0 d0 = s.aop n0 d0 := rfl
theorem State.tensor_of_withOut (x : List Sent) (p0 t0 : Nat) : ({ s with out := x } : State).tensor p0 t0 = s.tensor p0 t0 := rfl
theorem State.regionOf_of_withOut (x : List Sent) (c0 : Nat) : ({ s with out := x } : State).regionOf c0 = s.regionOf c0 := rfl
theorem State.port_of_withOut (x : List Sent) (p0 : Nat) : ({ s with out := x } : State).port p0 = s.port p0 := rfl
theorem State.chan_of_withOut (x : List Sent) (c0 : Nat) : ({ s with out := x } : State).chan c0 = s.chan c0 := rfl

theorem State.time_withHostmem (x : Memory) : ({ s with hostMem := x } : State).time = s.time := rfl
theorem State.work_withHostmem (x : Memory) : ({ s with hostMem := x } : State).work = s.work := rfl
theorem State.aclk_withHostmem (x : Memory) : ({ s with hostMem := x } : State).aclk = s.aclk := rfl
theorem State.clocks_withHostmem (x : Memory) : ({ s with hostMem := x } : State).clocks = s.clocks := rfl
theorem State.regs_withHostmem (x : Memory) : ({ s with hostMem := x } : State).regs = s.regs := rfl
theorem State.arr_withHostmem (x : Memory) : ({ s with hostMem := x } : State).arr = s.arr := rfl
theorem State.mem_withHostmem (x : Memory) : ({ s with hostMem := x } : State).mem = s.mem := rfl
theorem State.ctl_withHostmem (x : Memory) : ({ s with hostMem := x } : State).ctl = s.ctl := rfl
theorem State.blk_withHostmem (x : Memory) : ({ s with hostMem := x } : State).blk = s.blk := rfl
theorem State.srv_withHostmem (x : Memory) : ({ s with hostMem := x } : State).srv = s.srv := rfl
theorem State.intc_withHostmem (x : Memory) : ({ s with hostMem := x } : State).intc = s.intc := rfl
theorem State.obs_withHostmem (x : Memory) : ({ s with hostMem := x } : State).obs = s.obs := rfl
theorem State.lpx_withHostmem (x : Memory) : ({ s with hostMem := x } : State).lpx = s.lpx := rfl
theorem State.rlt_withHostmem (x : Memory) : ({ s with hostMem := x } : State).rlt = s.rlt := rfl
theorem State.pci_withHostmem (x : Memory) : ({ s with hostMem := x } : State).pci = s.pci := rfl
theorem State.pwr_withHostmem (x : Memory) : ({ s with hostMem := x } : State).pwr = s.pwr := rfl
theorem State.sec_withHostmem (x : Memory) : ({ s with hostMem := x } : State).sec = s.sec := rfl
theorem State.pins_withHostmem (x : Memory) : ({ s with hostMem := x } : State).pins = s.pins := rfl
theorem State.board_withHostmem (x : Memory) : ({ s with hostMem := x } : State).board = s.board := rfl
theorem State.saved_withHostmem (x : Memory) : ({ s with hostMem := x } : State).saved = s.saved := rfl
theorem State.fresh_withHostmem (x : Memory) : ({ s with hostMem := x } : State).fresh = s.fresh := rfl
theorem State.beats_withHostmem (x : Memory) : ({ s with hostMem := x } : State).beats = s.beats := rfl
theorem State.msix_withHostmem (x : Memory) : ({ s with hostMem := x } : State).msix = s.msix := rfl
theorem State.out_withHostmem (x : Memory) : ({ s with hostMem := x } : State).out = s.out := rfl
theorem State.pending_withHostmem (x : Memory) : ({ s with hostMem := x } : State).pending = s.pending := rfl
theorem State.reg_of_withHostmem (x : Memory) (k0 : RegKind) (i0 : Nat) : ({ s with hostMem := x } : State).reg k0 i0 = s.reg k0 i0 := rfl
theorem State.rd_of_withHostmem (x : Memory) (f0 : Fld) (i0 : Nat) : ({ s with hostMem := x } : State).rd f0 i0 = s.rd f0 i0 := rfl
theorem State.live_of_withHostmem (x : Memory) : ({ s with hostMem := x } : State).live = s.live := rfl
theorem State.cog_of_withHostmem (x : Memory) (c0 : Nat) : ({ s with hostMem := x } : State).cog c0 = s.cog c0 := rfl
theorem State.hub_of_withHostmem (x : Memory) (h0 : Nat) : ({ s with hostMem := x } : State).hub h0 = s.hub h0 := rfl
theorem State.queue_of_withHostmem (x : Memory) (q0 : Nat) : ({ s with hostMem := x } : State).queue q0 = s.queue q0 := rfl
theorem State.cmd_of_withHostmem (x : Memory) (n0 : Nat) : ({ s with hostMem := x } : State).cmd n0 = s.cmd n0 := rfl
theorem State.task_of_withHostmem (x : Memory) (k0 : Nat) : ({ s with hostMem := x } : State).task k0 = s.task k0 := rfl
theorem State.aop_of_withHostmem (x : Memory) (n0 d0 : Nat) : ({ s with hostMem := x } : State).aop n0 d0 = s.aop n0 d0 := rfl
theorem State.tensor_of_withHostmem (x : Memory) (p0 t0 : Nat) : ({ s with hostMem := x } : State).tensor p0 t0 = s.tensor p0 t0 := rfl
theorem State.regionOf_of_withHostmem (x : Memory) (c0 : Nat) : ({ s with hostMem := x } : State).regionOf c0 = s.regionOf c0 := rfl
theorem State.port_of_withHostmem (x : Memory) (p0 : Nat) : ({ s with hostMem := x } : State).port p0 = s.port p0 := rfl
theorem State.chan_of_withHostmem (x : Memory) (c0 : Nat) : ({ s with hostMem := x } : State).chan c0 = s.chan c0 := rfl

theorem State.time_withCogs (x : Tab Cog) : ({ s with arr := { s.arr with cogs := x } } : State).time = s.time := rfl
theorem State.work_withCogs (x : Tab Cog) : ({ s with arr := { s.arr with cogs := x } } : State).work = s.work := rfl
theorem State.aclk_withCogs (x : Tab Cog) : ({ s with arr := { s.arr with cogs := x } } : State).aclk = s.aclk := rfl
theorem State.clocks_withCogs (x : Tab Cog) : ({ s with arr := { s.arr with cogs := x } } : State).clocks = s.clocks := rfl
theorem State.regs_withCogs (x : Tab Cog) : ({ s with arr := { s.arr with cogs := x } } : State).regs = s.regs := rfl
theorem State.mem_withCogs (x : Tab Cog) : ({ s with arr := { s.arr with cogs := x } } : State).mem = s.mem := rfl
theorem State.ctl_withCogs (x : Tab Cog) : ({ s with arr := { s.arr with cogs := x } } : State).ctl = s.ctl := rfl
theorem State.blk_withCogs (x : Tab Cog) : ({ s with arr := { s.arr with cogs := x } } : State).blk = s.blk := rfl
theorem State.srv_withCogs (x : Tab Cog) : ({ s with arr := { s.arr with cogs := x } } : State).srv = s.srv := rfl
theorem State.intc_withCogs (x : Tab Cog) : ({ s with arr := { s.arr with cogs := x } } : State).intc = s.intc := rfl
theorem State.obs_withCogs (x : Tab Cog) : ({ s with arr := { s.arr with cogs := x } } : State).obs = s.obs := rfl
theorem State.lpx_withCogs (x : Tab Cog) : ({ s with arr := { s.arr with cogs := x } } : State).lpx = s.lpx := rfl
theorem State.rlt_withCogs (x : Tab Cog) : ({ s with arr := { s.arr with cogs := x } } : State).rlt = s.rlt := rfl
theorem State.pci_withCogs (x : Tab Cog) : ({ s with arr := { s.arr with cogs := x } } : State).pci = s.pci := rfl
theorem State.pwr_withCogs (x : Tab Cog) : ({ s with arr := { s.arr with cogs := x } } : State).pwr = s.pwr := rfl
theorem State.sec_withCogs (x : Tab Cog) : ({ s with arr := { s.arr with cogs := x } } : State).sec = s.sec := rfl
theorem State.pins_withCogs (x : Tab Cog) : ({ s with arr := { s.arr with cogs := x } } : State).pins = s.pins := rfl
theorem State.board_withCogs (x : Tab Cog) : ({ s with arr := { s.arr with cogs := x } } : State).board = s.board := rfl
theorem State.saved_withCogs (x : Tab Cog) : ({ s with arr := { s.arr with cogs := x } } : State).saved = s.saved := rfl
theorem State.fresh_withCogs (x : Tab Cog) : ({ s with arr := { s.arr with cogs := x } } : State).fresh = s.fresh := rfl
theorem State.beats_withCogs (x : Tab Cog) : ({ s with arr := { s.arr with cogs := x } } : State).beats = s.beats := rfl
theorem State.msix_withCogs (x : Tab Cog) : ({ s with arr := { s.arr with cogs := x } } : State).msix = s.msix := rfl
theorem State.out_withCogs (x : Tab Cog) : ({ s with arr := { s.arr with cogs := x } } : State).out = s.out := rfl
theorem State.hostMem_withCogs (x : Tab Cog) : ({ s with arr := { s.arr with cogs := x } } : State).hostMem = s.hostMem := rfl
theorem State.pending_withCogs (x : Tab Cog) : ({ s with arr := { s.arr with cogs := x } } : State).pending = s.pending := rfl
theorem State.arr_edges_withCogs (x : Tab Cog) : ({ s with arr := { s.arr with cogs := x } } : State).arr.edges = s.arr.edges := rfl
theorem State.arr_sinks_withCogs (x : Tab Cog) : ({ s with arr := { s.arr with cogs := x } } : State).arr.sinks = s.arr.sinks := rfl
theorem State.arr_planes_withCogs (x : Tab Cog) : ({ s with arr := { s.arr with cogs := x } } : State).arr.planes = s.arr.planes := rfl
theorem State.arr_regions_withCogs (x : Tab Cog) : ({ s with arr := { s.arr with cogs := x } } : State).arr.regions = s.arr.regions := rfl
theorem State.arr_east_withCogs (x : Tab Cog) : ({ s with arr := { s.arr with cogs := x } } : State).arr.east = s.arr.east := rfl
theorem State.reg_of_withCogs (x : Tab Cog) (k0 : RegKind) (i0 : Nat) : ({ s with arr := { s.arr with cogs := x } } : State).reg k0 i0 = s.reg k0 i0 := rfl
theorem State.rd_of_withCogs (x : Tab Cog) (f0 : Fld) (i0 : Nat) : ({ s with arr := { s.arr with cogs := x } } : State).rd f0 i0 = s.rd f0 i0 := rfl
theorem State.live_of_withCogs (x : Tab Cog) : ({ s with arr := { s.arr with cogs := x } } : State).live = s.live := rfl
theorem State.hub_of_withCogs (x : Tab Cog) (h0 : Nat) : ({ s with arr := { s.arr with cogs := x } } : State).hub h0 = s.hub h0 := rfl
theorem State.queue_of_withCogs (x : Tab Cog) (q0 : Nat) : ({ s with arr := { s.arr with cogs := x } } : State).queue q0 = s.queue q0 := rfl
theorem State.cmd_of_withCogs (x : Tab Cog) (n0 : Nat) : ({ s with arr := { s.arr with cogs := x } } : State).cmd n0 = s.cmd n0 := rfl
theorem State.task_of_withCogs (x : Tab Cog) (k0 : Nat) : ({ s with arr := { s.arr with cogs := x } } : State).task k0 = s.task k0 := rfl
theorem State.aop_of_withCogs (x : Tab Cog) (n0 d0 : Nat) : ({ s with arr := { s.arr with cogs := x } } : State).aop n0 d0 = s.aop n0 d0 := rfl
theorem State.tensor_of_withCogs (x : Tab Cog) (p0 t0 : Nat) : ({ s with arr := { s.arr with cogs := x } } : State).tensor p0 t0 = s.tensor p0 t0 := rfl
theorem State.regionOf_of_withCogs (x : Tab Cog) (c0 : Nat) : ({ s with arr := { s.arr with cogs := x } } : State).regionOf c0 = s.regionOf c0 := rfl
theorem State.port_of_withCogs (x : Tab Cog) (p0 : Nat) : ({ s with arr := { s.arr with cogs := x } } : State).port p0 = s.port p0 := rfl
theorem State.chan_of_withCogs (x : Tab Cog) (c0 : Nat) : ({ s with arr := { s.arr with cogs := x } } : State).chan c0 = s.chan c0 := rfl

theorem State.time_withEdges (x : Tab EdgeIn) : ({ s with arr := { s.arr with edges := x } } : State).time = s.time := rfl
theorem State.work_withEdges (x : Tab EdgeIn) : ({ s with arr := { s.arr with edges := x } } : State).work = s.work := rfl
theorem State.aclk_withEdges (x : Tab EdgeIn) : ({ s with arr := { s.arr with edges := x } } : State).aclk = s.aclk := rfl
theorem State.clocks_withEdges (x : Tab EdgeIn) : ({ s with arr := { s.arr with edges := x } } : State).clocks = s.clocks := rfl
theorem State.regs_withEdges (x : Tab EdgeIn) : ({ s with arr := { s.arr with edges := x } } : State).regs = s.regs := rfl
theorem State.mem_withEdges (x : Tab EdgeIn) : ({ s with arr := { s.arr with edges := x } } : State).mem = s.mem := rfl
theorem State.ctl_withEdges (x : Tab EdgeIn) : ({ s with arr := { s.arr with edges := x } } : State).ctl = s.ctl := rfl
theorem State.blk_withEdges (x : Tab EdgeIn) : ({ s with arr := { s.arr with edges := x } } : State).blk = s.blk := rfl
theorem State.srv_withEdges (x : Tab EdgeIn) : ({ s with arr := { s.arr with edges := x } } : State).srv = s.srv := rfl
theorem State.intc_withEdges (x : Tab EdgeIn) : ({ s with arr := { s.arr with edges := x } } : State).intc = s.intc := rfl
theorem State.obs_withEdges (x : Tab EdgeIn) : ({ s with arr := { s.arr with edges := x } } : State).obs = s.obs := rfl
theorem State.lpx_withEdges (x : Tab EdgeIn) : ({ s with arr := { s.arr with edges := x } } : State).lpx = s.lpx := rfl
theorem State.rlt_withEdges (x : Tab EdgeIn) : ({ s with arr := { s.arr with edges := x } } : State).rlt = s.rlt := rfl
theorem State.pci_withEdges (x : Tab EdgeIn) : ({ s with arr := { s.arr with edges := x } } : State).pci = s.pci := rfl
theorem State.pwr_withEdges (x : Tab EdgeIn) : ({ s with arr := { s.arr with edges := x } } : State).pwr = s.pwr := rfl
theorem State.sec_withEdges (x : Tab EdgeIn) : ({ s with arr := { s.arr with edges := x } } : State).sec = s.sec := rfl
theorem State.pins_withEdges (x : Tab EdgeIn) : ({ s with arr := { s.arr with edges := x } } : State).pins = s.pins := rfl
theorem State.board_withEdges (x : Tab EdgeIn) : ({ s with arr := { s.arr with edges := x } } : State).board = s.board := rfl
theorem State.saved_withEdges (x : Tab EdgeIn) : ({ s with arr := { s.arr with edges := x } } : State).saved = s.saved := rfl
theorem State.fresh_withEdges (x : Tab EdgeIn) : ({ s with arr := { s.arr with edges := x } } : State).fresh = s.fresh := rfl
theorem State.beats_withEdges (x : Tab EdgeIn) : ({ s with arr := { s.arr with edges := x } } : State).beats = s.beats := rfl
theorem State.msix_withEdges (x : Tab EdgeIn) : ({ s with arr := { s.arr with edges := x } } : State).msix = s.msix := rfl
theorem State.out_withEdges (x : Tab EdgeIn) : ({ s with arr := { s.arr with edges := x } } : State).out = s.out := rfl
theorem State.hostMem_withEdges (x : Tab EdgeIn) : ({ s with arr := { s.arr with edges := x } } : State).hostMem = s.hostMem := rfl
theorem State.pending_withEdges (x : Tab EdgeIn) : ({ s with arr := { s.arr with edges := x } } : State).pending = s.pending := rfl
theorem State.arr_cogs_withEdges (x : Tab EdgeIn) : ({ s with arr := { s.arr with edges := x } } : State).arr.cogs = s.arr.cogs := rfl
theorem State.arr_sinks_withEdges (x : Tab EdgeIn) : ({ s with arr := { s.arr with edges := x } } : State).arr.sinks = s.arr.sinks := rfl
theorem State.arr_planes_withEdges (x : Tab EdgeIn) : ({ s with arr := { s.arr with edges := x } } : State).arr.planes = s.arr.planes := rfl
theorem State.arr_regions_withEdges (x : Tab EdgeIn) : ({ s with arr := { s.arr with edges := x } } : State).arr.regions = s.arr.regions := rfl
theorem State.arr_east_withEdges (x : Tab EdgeIn) : ({ s with arr := { s.arr with edges := x } } : State).arr.east = s.arr.east := rfl
theorem State.reg_of_withEdges (x : Tab EdgeIn) (k0 : RegKind) (i0 : Nat) : ({ s with arr := { s.arr with edges := x } } : State).reg k0 i0 = s.reg k0 i0 := rfl
theorem State.rd_of_withEdges (x : Tab EdgeIn) (f0 : Fld) (i0 : Nat) : ({ s with arr := { s.arr with edges := x } } : State).rd f0 i0 = s.rd f0 i0 := rfl
theorem State.live_of_withEdges (x : Tab EdgeIn) : ({ s with arr := { s.arr with edges := x } } : State).live = s.live := rfl
theorem State.cog_of_withEdges (x : Tab EdgeIn) (c0 : Nat) : ({ s with arr := { s.arr with edges := x } } : State).cog c0 = s.cog c0 := rfl
theorem State.hub_of_withEdges (x : Tab EdgeIn) (h0 : Nat) : ({ s with arr := { s.arr with edges := x } } : State).hub h0 = s.hub h0 := rfl
theorem State.queue_of_withEdges (x : Tab EdgeIn) (q0 : Nat) : ({ s with arr := { s.arr with edges := x } } : State).queue q0 = s.queue q0 := rfl
theorem State.cmd_of_withEdges (x : Tab EdgeIn) (n0 : Nat) : ({ s with arr := { s.arr with edges := x } } : State).cmd n0 = s.cmd n0 := rfl
theorem State.task_of_withEdges (x : Tab EdgeIn) (k0 : Nat) : ({ s with arr := { s.arr with edges := x } } : State).task k0 = s.task k0 := rfl
theorem State.aop_of_withEdges (x : Tab EdgeIn) (n0 d0 : Nat) : ({ s with arr := { s.arr with edges := x } } : State).aop n0 d0 = s.aop n0 d0 := rfl
theorem State.tensor_of_withEdges (x : Tab EdgeIn) (p0 t0 : Nat) : ({ s with arr := { s.arr with edges := x } } : State).tensor p0 t0 = s.tensor p0 t0 := rfl
theorem State.regionOf_of_withEdges (x : Tab EdgeIn) (c0 : Nat) : ({ s with arr := { s.arr with edges := x } } : State).regionOf c0 = s.regionOf c0 := rfl
theorem State.port_of_withEdges (x : Tab EdgeIn) (p0 : Nat) : ({ s with arr := { s.arr with edges := x } } : State).port p0 = s.port p0 := rfl
theorem State.chan_of_withEdges (x : Tab EdgeIn) (c0 : Nat) : ({ s with arr := { s.arr with edges := x } } : State).chan c0 = s.chan c0 := rfl

theorem State.time_withSinks (x : Tab (List Flit)) : ({ s with arr := { s.arr with sinks := x } } : State).time = s.time := rfl
theorem State.work_withSinks (x : Tab (List Flit)) : ({ s with arr := { s.arr with sinks := x } } : State).work = s.work := rfl
theorem State.aclk_withSinks (x : Tab (List Flit)) : ({ s with arr := { s.arr with sinks := x } } : State).aclk = s.aclk := rfl
theorem State.clocks_withSinks (x : Tab (List Flit)) : ({ s with arr := { s.arr with sinks := x } } : State).clocks = s.clocks := rfl
theorem State.regs_withSinks (x : Tab (List Flit)) : ({ s with arr := { s.arr with sinks := x } } : State).regs = s.regs := rfl
theorem State.mem_withSinks (x : Tab (List Flit)) : ({ s with arr := { s.arr with sinks := x } } : State).mem = s.mem := rfl
theorem State.ctl_withSinks (x : Tab (List Flit)) : ({ s with arr := { s.arr with sinks := x } } : State).ctl = s.ctl := rfl
theorem State.blk_withSinks (x : Tab (List Flit)) : ({ s with arr := { s.arr with sinks := x } } : State).blk = s.blk := rfl
theorem State.srv_withSinks (x : Tab (List Flit)) : ({ s with arr := { s.arr with sinks := x } } : State).srv = s.srv := rfl
theorem State.intc_withSinks (x : Tab (List Flit)) : ({ s with arr := { s.arr with sinks := x } } : State).intc = s.intc := rfl
theorem State.obs_withSinks (x : Tab (List Flit)) : ({ s with arr := { s.arr with sinks := x } } : State).obs = s.obs := rfl
theorem State.lpx_withSinks (x : Tab (List Flit)) : ({ s with arr := { s.arr with sinks := x } } : State).lpx = s.lpx := rfl
theorem State.rlt_withSinks (x : Tab (List Flit)) : ({ s with arr := { s.arr with sinks := x } } : State).rlt = s.rlt := rfl
theorem State.pci_withSinks (x : Tab (List Flit)) : ({ s with arr := { s.arr with sinks := x } } : State).pci = s.pci := rfl
theorem State.pwr_withSinks (x : Tab (List Flit)) : ({ s with arr := { s.arr with sinks := x } } : State).pwr = s.pwr := rfl
theorem State.sec_withSinks (x : Tab (List Flit)) : ({ s with arr := { s.arr with sinks := x } } : State).sec = s.sec := rfl
theorem State.pins_withSinks (x : Tab (List Flit)) : ({ s with arr := { s.arr with sinks := x } } : State).pins = s.pins := rfl
theorem State.board_withSinks (x : Tab (List Flit)) : ({ s with arr := { s.arr with sinks := x } } : State).board = s.board := rfl
theorem State.saved_withSinks (x : Tab (List Flit)) : ({ s with arr := { s.arr with sinks := x } } : State).saved = s.saved := rfl
theorem State.fresh_withSinks (x : Tab (List Flit)) : ({ s with arr := { s.arr with sinks := x } } : State).fresh = s.fresh := rfl
theorem State.beats_withSinks (x : Tab (List Flit)) : ({ s with arr := { s.arr with sinks := x } } : State).beats = s.beats := rfl
theorem State.msix_withSinks (x : Tab (List Flit)) : ({ s with arr := { s.arr with sinks := x } } : State).msix = s.msix := rfl
theorem State.out_withSinks (x : Tab (List Flit)) : ({ s with arr := { s.arr with sinks := x } } : State).out = s.out := rfl
theorem State.hostMem_withSinks (x : Tab (List Flit)) : ({ s with arr := { s.arr with sinks := x } } : State).hostMem = s.hostMem := rfl
theorem State.pending_withSinks (x : Tab (List Flit)) : ({ s with arr := { s.arr with sinks := x } } : State).pending = s.pending := rfl
theorem State.arr_cogs_withSinks (x : Tab (List Flit)) : ({ s with arr := { s.arr with sinks := x } } : State).arr.cogs = s.arr.cogs := rfl
theorem State.arr_edges_withSinks (x : Tab (List Flit)) : ({ s with arr := { s.arr with sinks := x } } : State).arr.edges = s.arr.edges := rfl
theorem State.arr_planes_withSinks (x : Tab (List Flit)) : ({ s with arr := { s.arr with sinks := x } } : State).arr.planes = s.arr.planes := rfl
theorem State.arr_regions_withSinks (x : Tab (List Flit)) : ({ s with arr := { s.arr with sinks := x } } : State).arr.regions = s.arr.regions := rfl
theorem State.arr_east_withSinks (x : Tab (List Flit)) : ({ s with arr := { s.arr with sinks := x } } : State).arr.east = s.arr.east := rfl
theorem State.reg_of_withSinks (x : Tab (List Flit)) (k0 : RegKind) (i0 : Nat) : ({ s with arr := { s.arr with sinks := x } } : State).reg k0 i0 = s.reg k0 i0 := rfl
theorem State.rd_of_withSinks (x : Tab (List Flit)) (f0 : Fld) (i0 : Nat) : ({ s with arr := { s.arr with sinks := x } } : State).rd f0 i0 = s.rd f0 i0 := rfl
theorem State.live_of_withSinks (x : Tab (List Flit)) : ({ s with arr := { s.arr with sinks := x } } : State).live = s.live := rfl
theorem State.cog_of_withSinks (x : Tab (List Flit)) (c0 : Nat) : ({ s with arr := { s.arr with sinks := x } } : State).cog c0 = s.cog c0 := rfl
theorem State.hub_of_withSinks (x : Tab (List Flit)) (h0 : Nat) : ({ s with arr := { s.arr with sinks := x } } : State).hub h0 = s.hub h0 := rfl
theorem State.queue_of_withSinks (x : Tab (List Flit)) (q0 : Nat) : ({ s with arr := { s.arr with sinks := x } } : State).queue q0 = s.queue q0 := rfl
theorem State.cmd_of_withSinks (x : Tab (List Flit)) (n0 : Nat) : ({ s with arr := { s.arr with sinks := x } } : State).cmd n0 = s.cmd n0 := rfl
theorem State.task_of_withSinks (x : Tab (List Flit)) (k0 : Nat) : ({ s with arr := { s.arr with sinks := x } } : State).task k0 = s.task k0 := rfl
theorem State.aop_of_withSinks (x : Tab (List Flit)) (n0 d0 : Nat) : ({ s with arr := { s.arr with sinks := x } } : State).aop n0 d0 = s.aop n0 d0 := rfl
theorem State.tensor_of_withSinks (x : Tab (List Flit)) (p0 t0 : Nat) : ({ s with arr := { s.arr with sinks := x } } : State).tensor p0 t0 = s.tensor p0 t0 := rfl
theorem State.regionOf_of_withSinks (x : Tab (List Flit)) (c0 : Nat) : ({ s with arr := { s.arr with sinks := x } } : State).regionOf c0 = s.regionOf c0 := rfl
theorem State.port_of_withSinks (x : Tab (List Flit)) (p0 : Nat) : ({ s with arr := { s.arr with sinks := x } } : State).port p0 = s.port p0 := rfl
theorem State.chan_of_withSinks (x : Tab (List Flit)) (c0 : Nat) : ({ s with arr := { s.arr with sinks := x } } : State).chan c0 = s.chan c0 := rfl

theorem State.time_withPlanes (x : Tab BlockPlane) : ({ s with arr := { s.arr with planes := x } } : State).time = s.time := rfl
theorem State.work_withPlanes (x : Tab BlockPlane) : ({ s with arr := { s.arr with planes := x } } : State).work = s.work := rfl
theorem State.aclk_withPlanes (x : Tab BlockPlane) : ({ s with arr := { s.arr with planes := x } } : State).aclk = s.aclk := rfl
theorem State.clocks_withPlanes (x : Tab BlockPlane) : ({ s with arr := { s.arr with planes := x } } : State).clocks = s.clocks := rfl
theorem State.regs_withPlanes (x : Tab BlockPlane) : ({ s with arr := { s.arr with planes := x } } : State).regs = s.regs := rfl
theorem State.mem_withPlanes (x : Tab BlockPlane) : ({ s with arr := { s.arr with planes := x } } : State).mem = s.mem := rfl
theorem State.ctl_withPlanes (x : Tab BlockPlane) : ({ s with arr := { s.arr with planes := x } } : State).ctl = s.ctl := rfl
theorem State.blk_withPlanes (x : Tab BlockPlane) : ({ s with arr := { s.arr with planes := x } } : State).blk = s.blk := rfl
theorem State.srv_withPlanes (x : Tab BlockPlane) : ({ s with arr := { s.arr with planes := x } } : State).srv = s.srv := rfl
theorem State.intc_withPlanes (x : Tab BlockPlane) : ({ s with arr := { s.arr with planes := x } } : State).intc = s.intc := rfl
theorem State.obs_withPlanes (x : Tab BlockPlane) : ({ s with arr := { s.arr with planes := x } } : State).obs = s.obs := rfl
theorem State.lpx_withPlanes (x : Tab BlockPlane) : ({ s with arr := { s.arr with planes := x } } : State).lpx = s.lpx := rfl
theorem State.rlt_withPlanes (x : Tab BlockPlane) : ({ s with arr := { s.arr with planes := x } } : State).rlt = s.rlt := rfl
theorem State.pci_withPlanes (x : Tab BlockPlane) : ({ s with arr := { s.arr with planes := x } } : State).pci = s.pci := rfl
theorem State.pwr_withPlanes (x : Tab BlockPlane) : ({ s with arr := { s.arr with planes := x } } : State).pwr = s.pwr := rfl
theorem State.sec_withPlanes (x : Tab BlockPlane) : ({ s with arr := { s.arr with planes := x } } : State).sec = s.sec := rfl
theorem State.pins_withPlanes (x : Tab BlockPlane) : ({ s with arr := { s.arr with planes := x } } : State).pins = s.pins := rfl
theorem State.board_withPlanes (x : Tab BlockPlane) : ({ s with arr := { s.arr with planes := x } } : State).board = s.board := rfl
theorem State.saved_withPlanes (x : Tab BlockPlane) : ({ s with arr := { s.arr with planes := x } } : State).saved = s.saved := rfl
theorem State.fresh_withPlanes (x : Tab BlockPlane) : ({ s with arr := { s.arr with planes := x } } : State).fresh = s.fresh := rfl
theorem State.beats_withPlanes (x : Tab BlockPlane) : ({ s with arr := { s.arr with planes := x } } : State).beats = s.beats := rfl
theorem State.msix_withPlanes (x : Tab BlockPlane) : ({ s with arr := { s.arr with planes := x } } : State).msix = s.msix := rfl
theorem State.out_withPlanes (x : Tab BlockPlane) : ({ s with arr := { s.arr with planes := x } } : State).out = s.out := rfl
theorem State.hostMem_withPlanes (x : Tab BlockPlane) : ({ s with arr := { s.arr with planes := x } } : State).hostMem = s.hostMem := rfl
theorem State.pending_withPlanes (x : Tab BlockPlane) : ({ s with arr := { s.arr with planes := x } } : State).pending = s.pending := rfl
theorem State.arr_cogs_withPlanes (x : Tab BlockPlane) : ({ s with arr := { s.arr with planes := x } } : State).arr.cogs = s.arr.cogs := rfl
theorem State.arr_edges_withPlanes (x : Tab BlockPlane) : ({ s with arr := { s.arr with planes := x } } : State).arr.edges = s.arr.edges := rfl
theorem State.arr_sinks_withPlanes (x : Tab BlockPlane) : ({ s with arr := { s.arr with planes := x } } : State).arr.sinks = s.arr.sinks := rfl
theorem State.arr_regions_withPlanes (x : Tab BlockPlane) : ({ s with arr := { s.arr with planes := x } } : State).arr.regions = s.arr.regions := rfl
theorem State.arr_east_withPlanes (x : Tab BlockPlane) : ({ s with arr := { s.arr with planes := x } } : State).arr.east = s.arr.east := rfl
theorem State.reg_of_withPlanes (x : Tab BlockPlane) (k0 : RegKind) (i0 : Nat) : ({ s with arr := { s.arr with planes := x } } : State).reg k0 i0 = s.reg k0 i0 := rfl
theorem State.rd_of_withPlanes (x : Tab BlockPlane) (f0 : Fld) (i0 : Nat) : ({ s with arr := { s.arr with planes := x } } : State).rd f0 i0 = s.rd f0 i0 := rfl
theorem State.live_of_withPlanes (x : Tab BlockPlane) : ({ s with arr := { s.arr with planes := x } } : State).live = s.live := rfl
theorem State.cog_of_withPlanes (x : Tab BlockPlane) (c0 : Nat) : ({ s with arr := { s.arr with planes := x } } : State).cog c0 = s.cog c0 := rfl
theorem State.hub_of_withPlanes (x : Tab BlockPlane) (h0 : Nat) : ({ s with arr := { s.arr with planes := x } } : State).hub h0 = s.hub h0 := rfl
theorem State.queue_of_withPlanes (x : Tab BlockPlane) (q0 : Nat) : ({ s with arr := { s.arr with planes := x } } : State).queue q0 = s.queue q0 := rfl
theorem State.cmd_of_withPlanes (x : Tab BlockPlane) (n0 : Nat) : ({ s with arr := { s.arr with planes := x } } : State).cmd n0 = s.cmd n0 := rfl
theorem State.task_of_withPlanes (x : Tab BlockPlane) (k0 : Nat) : ({ s with arr := { s.arr with planes := x } } : State).task k0 = s.task k0 := rfl
theorem State.aop_of_withPlanes (x : Tab BlockPlane) (n0 d0 : Nat) : ({ s with arr := { s.arr with planes := x } } : State).aop n0 d0 = s.aop n0 d0 := rfl
theorem State.tensor_of_withPlanes (x : Tab BlockPlane) (p0 t0 : Nat) : ({ s with arr := { s.arr with planes := x } } : State).tensor p0 t0 = s.tensor p0 t0 := rfl
theorem State.regionOf_of_withPlanes (x : Tab BlockPlane) (c0 : Nat) : ({ s with arr := { s.arr with planes := x } } : State).regionOf c0 = s.regionOf c0 := rfl
theorem State.port_of_withPlanes (x : Tab BlockPlane) (p0 : Nat) : ({ s with arr := { s.arr with planes := x } } : State).port p0 = s.port p0 := rfl
theorem State.chan_of_withPlanes (x : Tab BlockPlane) (c0 : Nat) : ({ s with arr := { s.arr with planes := x } } : State).chan c0 = s.chan c0 := rfl

theorem State.time_withRegions (x : Tab Region) : ({ s with arr := { s.arr with regions := x } } : State).time = s.time := rfl
theorem State.work_withRegions (x : Tab Region) : ({ s with arr := { s.arr with regions := x } } : State).work = s.work := rfl
theorem State.aclk_withRegions (x : Tab Region) : ({ s with arr := { s.arr with regions := x } } : State).aclk = s.aclk := rfl
theorem State.clocks_withRegions (x : Tab Region) : ({ s with arr := { s.arr with regions := x } } : State).clocks = s.clocks := rfl
theorem State.regs_withRegions (x : Tab Region) : ({ s with arr := { s.arr with regions := x } } : State).regs = s.regs := rfl
theorem State.mem_withRegions (x : Tab Region) : ({ s with arr := { s.arr with regions := x } } : State).mem = s.mem := rfl
theorem State.ctl_withRegions (x : Tab Region) : ({ s with arr := { s.arr with regions := x } } : State).ctl = s.ctl := rfl
theorem State.blk_withRegions (x : Tab Region) : ({ s with arr := { s.arr with regions := x } } : State).blk = s.blk := rfl
theorem State.srv_withRegions (x : Tab Region) : ({ s with arr := { s.arr with regions := x } } : State).srv = s.srv := rfl
theorem State.intc_withRegions (x : Tab Region) : ({ s with arr := { s.arr with regions := x } } : State).intc = s.intc := rfl
theorem State.obs_withRegions (x : Tab Region) : ({ s with arr := { s.arr with regions := x } } : State).obs = s.obs := rfl
theorem State.lpx_withRegions (x : Tab Region) : ({ s with arr := { s.arr with regions := x } } : State).lpx = s.lpx := rfl
theorem State.rlt_withRegions (x : Tab Region) : ({ s with arr := { s.arr with regions := x } } : State).rlt = s.rlt := rfl
theorem State.pci_withRegions (x : Tab Region) : ({ s with arr := { s.arr with regions := x } } : State).pci = s.pci := rfl
theorem State.pwr_withRegions (x : Tab Region) : ({ s with arr := { s.arr with regions := x } } : State).pwr = s.pwr := rfl
theorem State.sec_withRegions (x : Tab Region) : ({ s with arr := { s.arr with regions := x } } : State).sec = s.sec := rfl
theorem State.pins_withRegions (x : Tab Region) : ({ s with arr := { s.arr with regions := x } } : State).pins = s.pins := rfl
theorem State.board_withRegions (x : Tab Region) : ({ s with arr := { s.arr with regions := x } } : State).board = s.board := rfl
theorem State.saved_withRegions (x : Tab Region) : ({ s with arr := { s.arr with regions := x } } : State).saved = s.saved := rfl
theorem State.fresh_withRegions (x : Tab Region) : ({ s with arr := { s.arr with regions := x } } : State).fresh = s.fresh := rfl
theorem State.beats_withRegions (x : Tab Region) : ({ s with arr := { s.arr with regions := x } } : State).beats = s.beats := rfl
theorem State.msix_withRegions (x : Tab Region) : ({ s with arr := { s.arr with regions := x } } : State).msix = s.msix := rfl
theorem State.out_withRegions (x : Tab Region) : ({ s with arr := { s.arr with regions := x } } : State).out = s.out := rfl
theorem State.hostMem_withRegions (x : Tab Region) : ({ s with arr := { s.arr with regions := x } } : State).hostMem = s.hostMem := rfl
theorem State.pending_withRegions (x : Tab Region) : ({ s with arr := { s.arr with regions := x } } : State).pending = s.pending := rfl
theorem State.arr_cogs_withRegions (x : Tab Region) : ({ s with arr := { s.arr with regions := x } } : State).arr.cogs = s.arr.cogs := rfl
theorem State.arr_edges_withRegions (x : Tab Region) : ({ s with arr := { s.arr with regions := x } } : State).arr.edges = s.arr.edges := rfl
theorem State.arr_sinks_withRegions (x : Tab Region) : ({ s with arr := { s.arr with regions := x } } : State).arr.sinks = s.arr.sinks := rfl
theorem State.arr_planes_withRegions (x : Tab Region) : ({ s with arr := { s.arr with regions := x } } : State).arr.planes = s.arr.planes := rfl
theorem State.arr_east_withRegions (x : Tab Region) : ({ s with arr := { s.arr with regions := x } } : State).arr.east = s.arr.east := rfl
theorem State.reg_of_withRegions (x : Tab Region) (k0 : RegKind) (i0 : Nat) : ({ s with arr := { s.arr with regions := x } } : State).reg k0 i0 = s.reg k0 i0 := rfl
theorem State.rd_of_withRegions (x : Tab Region) (f0 : Fld) (i0 : Nat) : ({ s with arr := { s.arr with regions := x } } : State).rd f0 i0 = s.rd f0 i0 := rfl
theorem State.live_of_withRegions (x : Tab Region) : ({ s with arr := { s.arr with regions := x } } : State).live = s.live := rfl
theorem State.cog_of_withRegions (x : Tab Region) (c0 : Nat) : ({ s with arr := { s.arr with regions := x } } : State).cog c0 = s.cog c0 := rfl
theorem State.hub_of_withRegions (x : Tab Region) (h0 : Nat) : ({ s with arr := { s.arr with regions := x } } : State).hub h0 = s.hub h0 := rfl
theorem State.queue_of_withRegions (x : Tab Region) (q0 : Nat) : ({ s with arr := { s.arr with regions := x } } : State).queue q0 = s.queue q0 := rfl
theorem State.cmd_of_withRegions (x : Tab Region) (n0 : Nat) : ({ s with arr := { s.arr with regions := x } } : State).cmd n0 = s.cmd n0 := rfl
theorem State.task_of_withRegions (x : Tab Region) (k0 : Nat) : ({ s with arr := { s.arr with regions := x } } : State).task k0 = s.task k0 := rfl
theorem State.aop_of_withRegions (x : Tab Region) (n0 d0 : Nat) : ({ s with arr := { s.arr with regions := x } } : State).aop n0 d0 = s.aop n0 d0 := rfl
theorem State.tensor_of_withRegions (x : Tab Region) (p0 t0 : Nat) : ({ s with arr := { s.arr with regions := x } } : State).tensor p0 t0 = s.tensor p0 t0 := rfl
theorem State.port_of_withRegions (x : Tab Region) (p0 : Nat) : ({ s with arr := { s.arr with regions := x } } : State).port p0 = s.port p0 := rfl
theorem State.chan_of_withRegions (x : Tab Region) (c0 : Nat) : ({ s with arr := { s.arr with regions := x } } : State).chan c0 = s.chan c0 := rfl

theorem State.time_withEast (x : Tab EastIn) : ({ s with arr := { s.arr with east := x } } : State).time = s.time := rfl
theorem State.work_withEast (x : Tab EastIn) : ({ s with arr := { s.arr with east := x } } : State).work = s.work := rfl
theorem State.aclk_withEast (x : Tab EastIn) : ({ s with arr := { s.arr with east := x } } : State).aclk = s.aclk := rfl
theorem State.clocks_withEast (x : Tab EastIn) : ({ s with arr := { s.arr with east := x } } : State).clocks = s.clocks := rfl
theorem State.regs_withEast (x : Tab EastIn) : ({ s with arr := { s.arr with east := x } } : State).regs = s.regs := rfl
theorem State.mem_withEast (x : Tab EastIn) : ({ s with arr := { s.arr with east := x } } : State).mem = s.mem := rfl
theorem State.ctl_withEast (x : Tab EastIn) : ({ s with arr := { s.arr with east := x } } : State).ctl = s.ctl := rfl
theorem State.blk_withEast (x : Tab EastIn) : ({ s with arr := { s.arr with east := x } } : State).blk = s.blk := rfl
theorem State.srv_withEast (x : Tab EastIn) : ({ s with arr := { s.arr with east := x } } : State).srv = s.srv := rfl
theorem State.intc_withEast (x : Tab EastIn) : ({ s with arr := { s.arr with east := x } } : State).intc = s.intc := rfl
theorem State.obs_withEast (x : Tab EastIn) : ({ s with arr := { s.arr with east := x } } : State).obs = s.obs := rfl
theorem State.lpx_withEast (x : Tab EastIn) : ({ s with arr := { s.arr with east := x } } : State).lpx = s.lpx := rfl
theorem State.rlt_withEast (x : Tab EastIn) : ({ s with arr := { s.arr with east := x } } : State).rlt = s.rlt := rfl
theorem State.pci_withEast (x : Tab EastIn) : ({ s with arr := { s.arr with east := x } } : State).pci = s.pci := rfl
theorem State.pwr_withEast (x : Tab EastIn) : ({ s with arr := { s.arr with east := x } } : State).pwr = s.pwr := rfl
theorem State.sec_withEast (x : Tab EastIn) : ({ s with arr := { s.arr with east := x } } : State).sec = s.sec := rfl
theorem State.pins_withEast (x : Tab EastIn) : ({ s with arr := { s.arr with east := x } } : State).pins = s.pins := rfl
theorem State.board_withEast (x : Tab EastIn) : ({ s with arr := { s.arr with east := x } } : State).board = s.board := rfl
theorem State.saved_withEast (x : Tab EastIn) : ({ s with arr := { s.arr with east := x } } : State).saved = s.saved := rfl
theorem State.fresh_withEast (x : Tab EastIn) : ({ s with arr := { s.arr with east := x } } : State).fresh = s.fresh := rfl
theorem State.beats_withEast (x : Tab EastIn) : ({ s with arr := { s.arr with east := x } } : State).beats = s.beats := rfl
theorem State.msix_withEast (x : Tab EastIn) : ({ s with arr := { s.arr with east := x } } : State).msix = s.msix := rfl
theorem State.out_withEast (x : Tab EastIn) : ({ s with arr := { s.arr with east := x } } : State).out = s.out := rfl
theorem State.hostMem_withEast (x : Tab EastIn) : ({ s with arr := { s.arr with east := x } } : State).hostMem = s.hostMem := rfl
theorem State.pending_withEast (x : Tab EastIn) : ({ s with arr := { s.arr with east := x } } : State).pending = s.pending := rfl
theorem State.arr_cogs_withEast (x : Tab EastIn) : ({ s with arr := { s.arr with east := x } } : State).arr.cogs = s.arr.cogs := rfl
theorem State.arr_edges_withEast (x : Tab EastIn) : ({ s with arr := { s.arr with east := x } } : State).arr.edges = s.arr.edges := rfl
theorem State.arr_sinks_withEast (x : Tab EastIn) : ({ s with arr := { s.arr with east := x } } : State).arr.sinks = s.arr.sinks := rfl
theorem State.arr_planes_withEast (x : Tab EastIn) : ({ s with arr := { s.arr with east := x } } : State).arr.planes = s.arr.planes := rfl
theorem State.arr_regions_withEast (x : Tab EastIn) : ({ s with arr := { s.arr with east := x } } : State).arr.regions = s.arr.regions := rfl
theorem State.reg_of_withEast (x : Tab EastIn) (k0 : RegKind) (i0 : Nat) : ({ s with arr := { s.arr with east := x } } : State).reg k0 i0 = s.reg k0 i0 := rfl
theorem State.rd_of_withEast (x : Tab EastIn) (f0 : Fld) (i0 : Nat) : ({ s with arr := { s.arr with east := x } } : State).rd f0 i0 = s.rd f0 i0 := rfl
theorem State.live_of_withEast (x : Tab EastIn) : ({ s with arr := { s.arr with east := x } } : State).live = s.live := rfl
theorem State.cog_of_withEast (x : Tab EastIn) (c0 : Nat) : ({ s with arr := { s.arr with east := x } } : State).cog c0 = s.cog c0 := rfl
theorem State.hub_of_withEast (x : Tab EastIn) (h0 : Nat) : ({ s with arr := { s.arr with east := x } } : State).hub h0 = s.hub h0 := rfl
theorem State.queue_of_withEast (x : Tab EastIn) (q0 : Nat) : ({ s with arr := { s.arr with east := x } } : State).queue q0 = s.queue q0 := rfl
theorem State.cmd_of_withEast (x : Tab EastIn) (n0 : Nat) : ({ s with arr := { s.arr with east := x } } : State).cmd n0 = s.cmd n0 := rfl
theorem State.task_of_withEast (x : Tab EastIn) (k0 : Nat) : ({ s with arr := { s.arr with east := x } } : State).task k0 = s.task k0 := rfl
theorem State.aop_of_withEast (x : Tab EastIn) (n0 d0 : Nat) : ({ s with arr := { s.arr with east := x } } : State).aop n0 d0 = s.aop n0 d0 := rfl
theorem State.tensor_of_withEast (x : Tab EastIn) (p0 t0 : Nat) : ({ s with arr := { s.arr with east := x } } : State).tensor p0 t0 = s.tensor p0 t0 := rfl
theorem State.regionOf_of_withEast (x : Tab EastIn) (c0 : Nat) : ({ s with arr := { s.arr with east := x } } : State).regionOf c0 = s.regionOf c0 := rfl
theorem State.port_of_withEast (x : Tab EastIn) (p0 : Nat) : ({ s with arr := { s.arr with east := x } } : State).port p0 = s.port p0 := rfl
theorem State.chan_of_withEast (x : Tab EastIn) (c0 : Nat) : ({ s with arr := { s.arr with east := x } } : State).chan c0 = s.chan c0 := rfl

theorem State.time_withTensorsMem (x : Tab Tensor) : ({ s with mem := { s.mem with tensors := x } } : State).time = s.time := rfl
theorem State.work_withTensorsMem (x : Tab Tensor) : ({ s with mem := { s.mem with tensors := x } } : State).work = s.work := rfl
theorem State.aclk_withTensorsMem (x : Tab Tensor) : ({ s with mem := { s.mem with tensors := x } } : State).aclk = s.aclk := rfl
theorem State.clocks_withTensorsMem (x : Tab Tensor) : ({ s with mem := { s.mem with tensors := x } } : State).clocks = s.clocks := rfl
theorem State.regs_withTensorsMem (x : Tab Tensor) : ({ s with mem := { s.mem with tensors := x } } : State).regs = s.regs := rfl
theorem State.arr_withTensorsMem (x : Tab Tensor) : ({ s with mem := { s.mem with tensors := x } } : State).arr = s.arr := rfl
theorem State.ctl_withTensorsMem (x : Tab Tensor) : ({ s with mem := { s.mem with tensors := x } } : State).ctl = s.ctl := rfl
theorem State.blk_withTensorsMem (x : Tab Tensor) : ({ s with mem := { s.mem with tensors := x } } : State).blk = s.blk := rfl
theorem State.srv_withTensorsMem (x : Tab Tensor) : ({ s with mem := { s.mem with tensors := x } } : State).srv = s.srv := rfl
theorem State.intc_withTensorsMem (x : Tab Tensor) : ({ s with mem := { s.mem with tensors := x } } : State).intc = s.intc := rfl
theorem State.obs_withTensorsMem (x : Tab Tensor) : ({ s with mem := { s.mem with tensors := x } } : State).obs = s.obs := rfl
theorem State.lpx_withTensorsMem (x : Tab Tensor) : ({ s with mem := { s.mem with tensors := x } } : State).lpx = s.lpx := rfl
theorem State.rlt_withTensorsMem (x : Tab Tensor) : ({ s with mem := { s.mem with tensors := x } } : State).rlt = s.rlt := rfl
theorem State.pci_withTensorsMem (x : Tab Tensor) : ({ s with mem := { s.mem with tensors := x } } : State).pci = s.pci := rfl
theorem State.pwr_withTensorsMem (x : Tab Tensor) : ({ s with mem := { s.mem with tensors := x } } : State).pwr = s.pwr := rfl
theorem State.sec_withTensorsMem (x : Tab Tensor) : ({ s with mem := { s.mem with tensors := x } } : State).sec = s.sec := rfl
theorem State.pins_withTensorsMem (x : Tab Tensor) : ({ s with mem := { s.mem with tensors := x } } : State).pins = s.pins := rfl
theorem State.board_withTensorsMem (x : Tab Tensor) : ({ s with mem := { s.mem with tensors := x } } : State).board = s.board := rfl
theorem State.saved_withTensorsMem (x : Tab Tensor) : ({ s with mem := { s.mem with tensors := x } } : State).saved = s.saved := rfl
theorem State.fresh_withTensorsMem (x : Tab Tensor) : ({ s with mem := { s.mem with tensors := x } } : State).fresh = s.fresh := rfl
theorem State.beats_withTensorsMem (x : Tab Tensor) : ({ s with mem := { s.mem with tensors := x } } : State).beats = s.beats := rfl
theorem State.msix_withTensorsMem (x : Tab Tensor) : ({ s with mem := { s.mem with tensors := x } } : State).msix = s.msix := rfl
theorem State.out_withTensorsMem (x : Tab Tensor) : ({ s with mem := { s.mem with tensors := x } } : State).out = s.out := rfl
theorem State.hostMem_withTensorsMem (x : Tab Tensor) : ({ s with mem := { s.mem with tensors := x } } : State).hostMem = s.hostMem := rfl
theorem State.pending_withTensorsMem (x : Tab Tensor) : ({ s with mem := { s.mem with tensors := x } } : State).pending = s.pending := rfl
theorem State.mem_evicts_withTensorsMem (x : Tab Tensor) : ({ s with mem := { s.mem with tensors := x } } : State).mem.evicts = s.mem.evicts := rfl
theorem State.mem_admits_withTensorsMem (x : Tab Tensor) : ({ s with mem := { s.mem with tensors := x } } : State).mem.admits = s.mem.admits := rfl
theorem State.mem_kvShadows_withTensorsMem (x : Tab Tensor) : ({ s with mem := { s.mem with tensors := x } } : State).mem.kvShadows = s.mem.kvShadows := rfl
theorem State.mem_wbCount_withTensorsMem (x : Tab Tensor) : ({ s with mem := { s.mem with tensors := x } } : State).mem.wbCount = s.mem.wbCount := rfl
theorem State.reg_of_withTensorsMem (x : Tab Tensor) (k0 : RegKind) (i0 : Nat) : ({ s with mem := { s.mem with tensors := x } } : State).reg k0 i0 = s.reg k0 i0 := rfl
theorem State.rd_of_withTensorsMem (x : Tab Tensor) (f0 : Fld) (i0 : Nat) : ({ s with mem := { s.mem with tensors := x } } : State).rd f0 i0 = s.rd f0 i0 := rfl
theorem State.live_of_withTensorsMem (x : Tab Tensor) : ({ s with mem := { s.mem with tensors := x } } : State).live = s.live := rfl
theorem State.cog_of_withTensorsMem (x : Tab Tensor) (c0 : Nat) : ({ s with mem := { s.mem with tensors := x } } : State).cog c0 = s.cog c0 := rfl
theorem State.hub_of_withTensorsMem (x : Tab Tensor) (h0 : Nat) : ({ s with mem := { s.mem with tensors := x } } : State).hub h0 = s.hub h0 := rfl
theorem State.queue_of_withTensorsMem (x : Tab Tensor) (q0 : Nat) : ({ s with mem := { s.mem with tensors := x } } : State).queue q0 = s.queue q0 := rfl
theorem State.cmd_of_withTensorsMem (x : Tab Tensor) (n0 : Nat) : ({ s with mem := { s.mem with tensors := x } } : State).cmd n0 = s.cmd n0 := rfl
theorem State.task_of_withTensorsMem (x : Tab Tensor) (k0 : Nat) : ({ s with mem := { s.mem with tensors := x } } : State).task k0 = s.task k0 := rfl
theorem State.aop_of_withTensorsMem (x : Tab Tensor) (n0 d0 : Nat) : ({ s with mem := { s.mem with tensors := x } } : State).aop n0 d0 = s.aop n0 d0 := rfl
theorem State.regionOf_of_withTensorsMem (x : Tab Tensor) (c0 : Nat) : ({ s with mem := { s.mem with tensors := x } } : State).regionOf c0 = s.regionOf c0 := rfl
theorem State.port_of_withTensorsMem (x : Tab Tensor) (p0 : Nat) : ({ s with mem := { s.mem with tensors := x } } : State).port p0 = s.port p0 := rfl
theorem State.chan_of_withTensorsMem (x : Tab Tensor) (c0 : Nat) : ({ s with mem := { s.mem with tensors := x } } : State).chan c0 = s.chan c0 := rfl

theorem State.time_withQueuesCtl (x : Tab Queue) : ({ s with ctl := { s.ctl with queues := x } } : State).time = s.time := rfl
theorem State.work_withQueuesCtl (x : Tab Queue) : ({ s with ctl := { s.ctl with queues := x } } : State).work = s.work := rfl
theorem State.aclk_withQueuesCtl (x : Tab Queue) : ({ s with ctl := { s.ctl with queues := x } } : State).aclk = s.aclk := rfl
theorem State.clocks_withQueuesCtl (x : Tab Queue) : ({ s with ctl := { s.ctl with queues := x } } : State).clocks = s.clocks := rfl
theorem State.regs_withQueuesCtl (x : Tab Queue) : ({ s with ctl := { s.ctl with queues := x } } : State).regs = s.regs := rfl
theorem State.arr_withQueuesCtl (x : Tab Queue) : ({ s with ctl := { s.ctl with queues := x } } : State).arr = s.arr := rfl
theorem State.mem_withQueuesCtl (x : Tab Queue) : ({ s with ctl := { s.ctl with queues := x } } : State).mem = s.mem := rfl
theorem State.blk_withQueuesCtl (x : Tab Queue) : ({ s with ctl := { s.ctl with queues := x } } : State).blk = s.blk := rfl
theorem State.srv_withQueuesCtl (x : Tab Queue) : ({ s with ctl := { s.ctl with queues := x } } : State).srv = s.srv := rfl
theorem State.intc_withQueuesCtl (x : Tab Queue) : ({ s with ctl := { s.ctl with queues := x } } : State).intc = s.intc := rfl
theorem State.obs_withQueuesCtl (x : Tab Queue) : ({ s with ctl := { s.ctl with queues := x } } : State).obs = s.obs := rfl
theorem State.lpx_withQueuesCtl (x : Tab Queue) : ({ s with ctl := { s.ctl with queues := x } } : State).lpx = s.lpx := rfl
theorem State.rlt_withQueuesCtl (x : Tab Queue) : ({ s with ctl := { s.ctl with queues := x } } : State).rlt = s.rlt := rfl
theorem State.pci_withQueuesCtl (x : Tab Queue) : ({ s with ctl := { s.ctl with queues := x } } : State).pci = s.pci := rfl
theorem State.pwr_withQueuesCtl (x : Tab Queue) : ({ s with ctl := { s.ctl with queues := x } } : State).pwr = s.pwr := rfl
theorem State.sec_withQueuesCtl (x : Tab Queue) : ({ s with ctl := { s.ctl with queues := x } } : State).sec = s.sec := rfl
theorem State.pins_withQueuesCtl (x : Tab Queue) : ({ s with ctl := { s.ctl with queues := x } } : State).pins = s.pins := rfl
theorem State.board_withQueuesCtl (x : Tab Queue) : ({ s with ctl := { s.ctl with queues := x } } : State).board = s.board := rfl
theorem State.saved_withQueuesCtl (x : Tab Queue) : ({ s with ctl := { s.ctl with queues := x } } : State).saved = s.saved := rfl
theorem State.fresh_withQueuesCtl (x : Tab Queue) : ({ s with ctl := { s.ctl with queues := x } } : State).fresh = s.fresh := rfl
theorem State.beats_withQueuesCtl (x : Tab Queue) : ({ s with ctl := { s.ctl with queues := x } } : State).beats = s.beats := rfl
theorem State.msix_withQueuesCtl (x : Tab Queue) : ({ s with ctl := { s.ctl with queues := x } } : State).msix = s.msix := rfl
theorem State.out_withQueuesCtl (x : Tab Queue) : ({ s with ctl := { s.ctl with queues := x } } : State).out = s.out := rfl
theorem State.hostMem_withQueuesCtl (x : Tab Queue) : ({ s with ctl := { s.ctl with queues := x } } : State).hostMem = s.hostMem := rfl
theorem State.pending_withQueuesCtl (x : Tab Queue) : ({ s with ctl := { s.ctl with queues := x } } : State).pending = s.pending := rfl
theorem State.ctl_cmds_withQueuesCtl (x : Tab Queue) : ({ s with ctl := { s.ctl with queues := x } } : State).ctl.cmds = s.ctl.cmds := rfl
theorem State.ctl_tasks_withQueuesCtl (x : Tab Queue) : ({ s with ctl := { s.ctl with queues := x } } : State).ctl.tasks = s.ctl.tasks := rfl
theorem State.ctl_ops_withQueuesCtl (x : Tab Queue) : ({ s with ctl := { s.ctl with queues := x } } : State).ctl.ops = s.ctl.ops := rfl
theorem State.ctl_jnlA_withQueuesCtl (x : Tab Queue) : ({ s with ctl := { s.ctl with queues := x } } : State).ctl.jnlA = s.ctl.jnlA := rfl
theorem State.ctl_jnlB_withQueuesCtl (x : Tab Queue) : ({ s with ctl := { s.ctl with queues := x } } : State).ctl.jnlB = s.ctl.jnlB := rfl
theorem State.ctl_nextSeq_withQueuesCtl (x : Tab Queue) : ({ s with ctl := { s.ctl with queues := x } } : State).ctl.nextSeq = s.ctl.nextSeq := rfl
theorem State.ctl_hubs_withQueuesCtl (x : Tab Queue) : ({ s with ctl := { s.ctl with queues := x } } : State).ctl.hubs = s.ctl.hubs := rfl
theorem State.ctl_table_withQueuesCtl (x : Tab Queue) : ({ s with ctl := { s.ctl with queues := x } } : State).ctl.table = s.ctl.table := rfl
theorem State.ctl_slot_withQueuesCtl (x : Tab Queue) : ({ s with ctl := { s.ctl with queues := x } } : State).ctl.slot = s.ctl.slot := rfl
theorem State.ctl_partPend_withQueuesCtl (x : Tab Queue) : ({ s with ctl := { s.ctl with queues := x } } : State).ctl.partPend = s.ctl.partPend := rfl
theorem State.ctl_turns_withQueuesCtl (x : Tab Queue) : ({ s with ctl := { s.ctl with queues := x } } : State).ctl.turns = s.ctl.turns := rfl
theorem State.reg_of_withQueuesCtl (x : Tab Queue) (k0 : RegKind) (i0 : Nat) : ({ s with ctl := { s.ctl with queues := x } } : State).reg k0 i0 = s.reg k0 i0 := rfl
theorem State.rd_of_withQueuesCtl (x : Tab Queue) (f0 : Fld) (i0 : Nat) : ({ s with ctl := { s.ctl with queues := x } } : State).rd f0 i0 = s.rd f0 i0 := rfl
theorem State.live_of_withQueuesCtl (x : Tab Queue) : ({ s with ctl := { s.ctl with queues := x } } : State).live = s.live := rfl
theorem State.cog_of_withQueuesCtl (x : Tab Queue) (c0 : Nat) : ({ s with ctl := { s.ctl with queues := x } } : State).cog c0 = s.cog c0 := rfl
theorem State.hub_of_withQueuesCtl (x : Tab Queue) (h0 : Nat) : ({ s with ctl := { s.ctl with queues := x } } : State).hub h0 = s.hub h0 := rfl
theorem State.cmd_of_withQueuesCtl (x : Tab Queue) (n0 : Nat) : ({ s with ctl := { s.ctl with queues := x } } : State).cmd n0 = s.cmd n0 := rfl
theorem State.task_of_withQueuesCtl (x : Tab Queue) (k0 : Nat) : ({ s with ctl := { s.ctl with queues := x } } : State).task k0 = s.task k0 := rfl
theorem State.aop_of_withQueuesCtl (x : Tab Queue) (n0 d0 : Nat) : ({ s with ctl := { s.ctl with queues := x } } : State).aop n0 d0 = s.aop n0 d0 := rfl
theorem State.tensor_of_withQueuesCtl (x : Tab Queue) (p0 t0 : Nat) : ({ s with ctl := { s.ctl with queues := x } } : State).tensor p0 t0 = s.tensor p0 t0 := rfl
theorem State.regionOf_of_withQueuesCtl (x : Tab Queue) (c0 : Nat) : ({ s with ctl := { s.ctl with queues := x } } : State).regionOf c0 = s.regionOf c0 := rfl
theorem State.port_of_withQueuesCtl (x : Tab Queue) (p0 : Nat) : ({ s with ctl := { s.ctl with queues := x } } : State).port p0 = s.port p0 := rfl
theorem State.chan_of_withQueuesCtl (x : Tab Queue) (c0 : Nat) : ({ s with ctl := { s.ctl with queues := x } } : State).chan c0 = s.chan c0 := rfl

theorem State.time_withHubsCtl (x : Tab Hub) : ({ s with ctl := { s.ctl with hubs := x } } : State).time = s.time := rfl
theorem State.work_withHubsCtl (x : Tab Hub) : ({ s with ctl := { s.ctl with hubs := x } } : State).work = s.work := rfl
theorem State.aclk_withHubsCtl (x : Tab Hub) : ({ s with ctl := { s.ctl with hubs := x } } : State).aclk = s.aclk := rfl
theorem State.clocks_withHubsCtl (x : Tab Hub) : ({ s with ctl := { s.ctl with hubs := x } } : State).clocks = s.clocks := rfl
theorem State.regs_withHubsCtl (x : Tab Hub) : ({ s with ctl := { s.ctl with hubs := x } } : State).regs = s.regs := rfl
theorem State.arr_withHubsCtl (x : Tab Hub) : ({ s with ctl := { s.ctl with hubs := x } } : State).arr = s.arr := rfl
theorem State.mem_withHubsCtl (x : Tab Hub) : ({ s with ctl := { s.ctl with hubs := x } } : State).mem = s.mem := rfl
theorem State.blk_withHubsCtl (x : Tab Hub) : ({ s with ctl := { s.ctl with hubs := x } } : State).blk = s.blk := rfl
theorem State.srv_withHubsCtl (x : Tab Hub) : ({ s with ctl := { s.ctl with hubs := x } } : State).srv = s.srv := rfl
theorem State.intc_withHubsCtl (x : Tab Hub) : ({ s with ctl := { s.ctl with hubs := x } } : State).intc = s.intc := rfl
theorem State.obs_withHubsCtl (x : Tab Hub) : ({ s with ctl := { s.ctl with hubs := x } } : State).obs = s.obs := rfl
theorem State.lpx_withHubsCtl (x : Tab Hub) : ({ s with ctl := { s.ctl with hubs := x } } : State).lpx = s.lpx := rfl
theorem State.rlt_withHubsCtl (x : Tab Hub) : ({ s with ctl := { s.ctl with hubs := x } } : State).rlt = s.rlt := rfl
theorem State.pci_withHubsCtl (x : Tab Hub) : ({ s with ctl := { s.ctl with hubs := x } } : State).pci = s.pci := rfl
theorem State.pwr_withHubsCtl (x : Tab Hub) : ({ s with ctl := { s.ctl with hubs := x } } : State).pwr = s.pwr := rfl
theorem State.sec_withHubsCtl (x : Tab Hub) : ({ s with ctl := { s.ctl with hubs := x } } : State).sec = s.sec := rfl
theorem State.pins_withHubsCtl (x : Tab Hub) : ({ s with ctl := { s.ctl with hubs := x } } : State).pins = s.pins := rfl
theorem State.board_withHubsCtl (x : Tab Hub) : ({ s with ctl := { s.ctl with hubs := x } } : State).board = s.board := rfl
theorem State.saved_withHubsCtl (x : Tab Hub) : ({ s with ctl := { s.ctl with hubs := x } } : State).saved = s.saved := rfl
theorem State.fresh_withHubsCtl (x : Tab Hub) : ({ s with ctl := { s.ctl with hubs := x } } : State).fresh = s.fresh := rfl
theorem State.beats_withHubsCtl (x : Tab Hub) : ({ s with ctl := { s.ctl with hubs := x } } : State).beats = s.beats := rfl
theorem State.msix_withHubsCtl (x : Tab Hub) : ({ s with ctl := { s.ctl with hubs := x } } : State).msix = s.msix := rfl
theorem State.out_withHubsCtl (x : Tab Hub) : ({ s with ctl := { s.ctl with hubs := x } } : State).out = s.out := rfl
theorem State.hostMem_withHubsCtl (x : Tab Hub) : ({ s with ctl := { s.ctl with hubs := x } } : State).hostMem = s.hostMem := rfl
theorem State.pending_withHubsCtl (x : Tab Hub) : ({ s with ctl := { s.ctl with hubs := x } } : State).pending = s.pending := rfl
theorem State.ctl_queues_withHubsCtl (x : Tab Hub) : ({ s with ctl := { s.ctl with hubs := x } } : State).ctl.queues = s.ctl.queues := rfl
theorem State.ctl_cmds_withHubsCtl (x : Tab Hub) : ({ s with ctl := { s.ctl with hubs := x } } : State).ctl.cmds = s.ctl.cmds := rfl
theorem State.ctl_tasks_withHubsCtl (x : Tab Hub) : ({ s with ctl := { s.ctl with hubs := x } } : State).ctl.tasks = s.ctl.tasks := rfl
theorem State.ctl_ops_withHubsCtl (x : Tab Hub) : ({ s with ctl := { s.ctl with hubs := x } } : State).ctl.ops = s.ctl.ops := rfl
theorem State.ctl_jnlA_withHubsCtl (x : Tab Hub) : ({ s with ctl := { s.ctl with hubs := x } } : State).ctl.jnlA = s.ctl.jnlA := rfl
theorem State.ctl_jnlB_withHubsCtl (x : Tab Hub) : ({ s with ctl := { s.ctl with hubs := x } } : State).ctl.jnlB = s.ctl.jnlB := rfl
theorem State.ctl_nextSeq_withHubsCtl (x : Tab Hub) : ({ s with ctl := { s.ctl with hubs := x } } : State).ctl.nextSeq = s.ctl.nextSeq := rfl
theorem State.ctl_table_withHubsCtl (x : Tab Hub) : ({ s with ctl := { s.ctl with hubs := x } } : State).ctl.table = s.ctl.table := rfl
theorem State.ctl_slot_withHubsCtl (x : Tab Hub) : ({ s with ctl := { s.ctl with hubs := x } } : State).ctl.slot = s.ctl.slot := rfl
theorem State.ctl_partPend_withHubsCtl (x : Tab Hub) : ({ s with ctl := { s.ctl with hubs := x } } : State).ctl.partPend = s.ctl.partPend := rfl
theorem State.ctl_turns_withHubsCtl (x : Tab Hub) : ({ s with ctl := { s.ctl with hubs := x } } : State).ctl.turns = s.ctl.turns := rfl
theorem State.reg_of_withHubsCtl (x : Tab Hub) (k0 : RegKind) (i0 : Nat) : ({ s with ctl := { s.ctl with hubs := x } } : State).reg k0 i0 = s.reg k0 i0 := rfl
theorem State.rd_of_withHubsCtl (x : Tab Hub) (f0 : Fld) (i0 : Nat) : ({ s with ctl := { s.ctl with hubs := x } } : State).rd f0 i0 = s.rd f0 i0 := rfl
theorem State.live_of_withHubsCtl (x : Tab Hub) : ({ s with ctl := { s.ctl with hubs := x } } : State).live = s.live := rfl
theorem State.cog_of_withHubsCtl (x : Tab Hub) (c0 : Nat) : ({ s with ctl := { s.ctl with hubs := x } } : State).cog c0 = s.cog c0 := rfl
theorem State.queue_of_withHubsCtl (x : Tab Hub) (q0 : Nat) : ({ s with ctl := { s.ctl with hubs := x } } : State).queue q0 = s.queue q0 := rfl
theorem State.cmd_of_withHubsCtl (x : Tab Hub) (n0 : Nat) : ({ s with ctl := { s.ctl with hubs := x } } : State).cmd n0 = s.cmd n0 := rfl
theorem State.task_of_withHubsCtl (x : Tab Hub) (k0 : Nat) : ({ s with ctl := { s.ctl with hubs := x } } : State).task k0 = s.task k0 := rfl
theorem State.aop_of_withHubsCtl (x : Tab Hub) (n0 d0 : Nat) : ({ s with ctl := { s.ctl with hubs := x } } : State).aop n0 d0 = s.aop n0 d0 := rfl
theorem State.tensor_of_withHubsCtl (x : Tab Hub) (p0 t0 : Nat) : ({ s with ctl := { s.ctl with hubs := x } } : State).tensor p0 t0 = s.tensor p0 t0 := rfl
theorem State.regionOf_of_withHubsCtl (x : Tab Hub) (c0 : Nat) : ({ s with ctl := { s.ctl with hubs := x } } : State).regionOf c0 = s.regionOf c0 := rfl
theorem State.port_of_withHubsCtl (x : Tab Hub) (p0 : Nat) : ({ s with ctl := { s.ctl with hubs := x } } : State).port p0 = s.port p0 := rfl
theorem State.chan_of_withHubsCtl (x : Tab Hub) (c0 : Nat) : ({ s with ctl := { s.ctl with hubs := x } } : State).chan c0 = s.chan c0 := rfl

theorem State.time_withCmdsCtl (x : Tab Cmd) : ({ s with ctl := { s.ctl with cmds := x } } : State).time = s.time := rfl
theorem State.work_withCmdsCtl (x : Tab Cmd) : ({ s with ctl := { s.ctl with cmds := x } } : State).work = s.work := rfl
theorem State.aclk_withCmdsCtl (x : Tab Cmd) : ({ s with ctl := { s.ctl with cmds := x } } : State).aclk = s.aclk := rfl
theorem State.clocks_withCmdsCtl (x : Tab Cmd) : ({ s with ctl := { s.ctl with cmds := x } } : State).clocks = s.clocks := rfl
theorem State.regs_withCmdsCtl (x : Tab Cmd) : ({ s with ctl := { s.ctl with cmds := x } } : State).regs = s.regs := rfl
theorem State.arr_withCmdsCtl (x : Tab Cmd) : ({ s with ctl := { s.ctl with cmds := x } } : State).arr = s.arr := rfl
theorem State.mem_withCmdsCtl (x : Tab Cmd) : ({ s with ctl := { s.ctl with cmds := x } } : State).mem = s.mem := rfl
theorem State.blk_withCmdsCtl (x : Tab Cmd) : ({ s with ctl := { s.ctl with cmds := x } } : State).blk = s.blk := rfl
theorem State.srv_withCmdsCtl (x : Tab Cmd) : ({ s with ctl := { s.ctl with cmds := x } } : State).srv = s.srv := rfl
theorem State.intc_withCmdsCtl (x : Tab Cmd) : ({ s with ctl := { s.ctl with cmds := x } } : State).intc = s.intc := rfl
theorem State.obs_withCmdsCtl (x : Tab Cmd) : ({ s with ctl := { s.ctl with cmds := x } } : State).obs = s.obs := rfl
theorem State.lpx_withCmdsCtl (x : Tab Cmd) : ({ s with ctl := { s.ctl with cmds := x } } : State).lpx = s.lpx := rfl
theorem State.rlt_withCmdsCtl (x : Tab Cmd) : ({ s with ctl := { s.ctl with cmds := x } } : State).rlt = s.rlt := rfl
theorem State.pci_withCmdsCtl (x : Tab Cmd) : ({ s with ctl := { s.ctl with cmds := x } } : State).pci = s.pci := rfl
theorem State.pwr_withCmdsCtl (x : Tab Cmd) : ({ s with ctl := { s.ctl with cmds := x } } : State).pwr = s.pwr := rfl
theorem State.sec_withCmdsCtl (x : Tab Cmd) : ({ s with ctl := { s.ctl with cmds := x } } : State).sec = s.sec := rfl
theorem State.pins_withCmdsCtl (x : Tab Cmd) : ({ s with ctl := { s.ctl with cmds := x } } : State).pins = s.pins := rfl
theorem State.board_withCmdsCtl (x : Tab Cmd) : ({ s with ctl := { s.ctl with cmds := x } } : State).board = s.board := rfl
theorem State.saved_withCmdsCtl (x : Tab Cmd) : ({ s with ctl := { s.ctl with cmds := x } } : State).saved = s.saved := rfl
theorem State.fresh_withCmdsCtl (x : Tab Cmd) : ({ s with ctl := { s.ctl with cmds := x } } : State).fresh = s.fresh := rfl
theorem State.beats_withCmdsCtl (x : Tab Cmd) : ({ s with ctl := { s.ctl with cmds := x } } : State).beats = s.beats := rfl
theorem State.msix_withCmdsCtl (x : Tab Cmd) : ({ s with ctl := { s.ctl with cmds := x } } : State).msix = s.msix := rfl
theorem State.out_withCmdsCtl (x : Tab Cmd) : ({ s with ctl := { s.ctl with cmds := x } } : State).out = s.out := rfl
theorem State.hostMem_withCmdsCtl (x : Tab Cmd) : ({ s with ctl := { s.ctl with cmds := x } } : State).hostMem = s.hostMem := rfl
theorem State.pending_withCmdsCtl (x : Tab Cmd) : ({ s with ctl := { s.ctl with cmds := x } } : State).pending = s.pending := rfl
theorem State.ctl_queues_withCmdsCtl (x : Tab Cmd) : ({ s with ctl := { s.ctl with cmds := x } } : State).ctl.queues = s.ctl.queues := rfl
theorem State.ctl_tasks_withCmdsCtl (x : Tab Cmd) : ({ s with ctl := { s.ctl with cmds := x } } : State).ctl.tasks = s.ctl.tasks := rfl
theorem State.ctl_ops_withCmdsCtl (x : Tab Cmd) : ({ s with ctl := { s.ctl with cmds := x } } : State).ctl.ops = s.ctl.ops := rfl
theorem State.ctl_jnlA_withCmdsCtl (x : Tab Cmd) : ({ s with ctl := { s.ctl with cmds := x } } : State).ctl.jnlA = s.ctl.jnlA := rfl
theorem State.ctl_jnlB_withCmdsCtl (x : Tab Cmd) : ({ s with ctl := { s.ctl with cmds := x } } : State).ctl.jnlB = s.ctl.jnlB := rfl
theorem State.ctl_nextSeq_withCmdsCtl (x : Tab Cmd) : ({ s with ctl := { s.ctl with cmds := x } } : State).ctl.nextSeq = s.ctl.nextSeq := rfl
theorem State.ctl_hubs_withCmdsCtl (x : Tab Cmd) : ({ s with ctl := { s.ctl with cmds := x } } : State).ctl.hubs = s.ctl.hubs := rfl
theorem State.ctl_table_withCmdsCtl (x : Tab Cmd) : ({ s with ctl := { s.ctl with cmds := x } } : State).ctl.table = s.ctl.table := rfl
theorem State.ctl_slot_withCmdsCtl (x : Tab Cmd) : ({ s with ctl := { s.ctl with cmds := x } } : State).ctl.slot = s.ctl.slot := rfl
theorem State.ctl_partPend_withCmdsCtl (x : Tab Cmd) : ({ s with ctl := { s.ctl with cmds := x } } : State).ctl.partPend = s.ctl.partPend := rfl
theorem State.ctl_turns_withCmdsCtl (x : Tab Cmd) : ({ s with ctl := { s.ctl with cmds := x } } : State).ctl.turns = s.ctl.turns := rfl
theorem State.reg_of_withCmdsCtl (x : Tab Cmd) (k0 : RegKind) (i0 : Nat) : ({ s with ctl := { s.ctl with cmds := x } } : State).reg k0 i0 = s.reg k0 i0 := rfl
theorem State.rd_of_withCmdsCtl (x : Tab Cmd) (f0 : Fld) (i0 : Nat) : ({ s with ctl := { s.ctl with cmds := x } } : State).rd f0 i0 = s.rd f0 i0 := rfl
theorem State.live_of_withCmdsCtl (x : Tab Cmd) : ({ s with ctl := { s.ctl with cmds := x } } : State).live = s.live := rfl
theorem State.cog_of_withCmdsCtl (x : Tab Cmd) (c0 : Nat) : ({ s with ctl := { s.ctl with cmds := x } } : State).cog c0 = s.cog c0 := rfl
theorem State.hub_of_withCmdsCtl (x : Tab Cmd) (h0 : Nat) : ({ s with ctl := { s.ctl with cmds := x } } : State).hub h0 = s.hub h0 := rfl
theorem State.queue_of_withCmdsCtl (x : Tab Cmd) (q0 : Nat) : ({ s with ctl := { s.ctl with cmds := x } } : State).queue q0 = s.queue q0 := rfl
theorem State.task_of_withCmdsCtl (x : Tab Cmd) (k0 : Nat) : ({ s with ctl := { s.ctl with cmds := x } } : State).task k0 = s.task k0 := rfl
theorem State.aop_of_withCmdsCtl (x : Tab Cmd) (n0 d0 : Nat) : ({ s with ctl := { s.ctl with cmds := x } } : State).aop n0 d0 = s.aop n0 d0 := rfl
theorem State.tensor_of_withCmdsCtl (x : Tab Cmd) (p0 t0 : Nat) : ({ s with ctl := { s.ctl with cmds := x } } : State).tensor p0 t0 = s.tensor p0 t0 := rfl
theorem State.regionOf_of_withCmdsCtl (x : Tab Cmd) (c0 : Nat) : ({ s with ctl := { s.ctl with cmds := x } } : State).regionOf c0 = s.regionOf c0 := rfl
theorem State.port_of_withCmdsCtl (x : Tab Cmd) (p0 : Nat) : ({ s with ctl := { s.ctl with cmds := x } } : State).port p0 = s.port p0 := rfl
theorem State.chan_of_withCmdsCtl (x : Tab Cmd) (c0 : Nat) : ({ s with ctl := { s.ctl with cmds := x } } : State).chan c0 = s.chan c0 := rfl

theorem State.time_withTasksCtl (x : Tab Task) : ({ s with ctl := { s.ctl with tasks := x } } : State).time = s.time := rfl
theorem State.work_withTasksCtl (x : Tab Task) : ({ s with ctl := { s.ctl with tasks := x } } : State).work = s.work := rfl
theorem State.aclk_withTasksCtl (x : Tab Task) : ({ s with ctl := { s.ctl with tasks := x } } : State).aclk = s.aclk := rfl
theorem State.clocks_withTasksCtl (x : Tab Task) : ({ s with ctl := { s.ctl with tasks := x } } : State).clocks = s.clocks := rfl
theorem State.regs_withTasksCtl (x : Tab Task) : ({ s with ctl := { s.ctl with tasks := x } } : State).regs = s.regs := rfl
theorem State.arr_withTasksCtl (x : Tab Task) : ({ s with ctl := { s.ctl with tasks := x } } : State).arr = s.arr := rfl
theorem State.mem_withTasksCtl (x : Tab Task) : ({ s with ctl := { s.ctl with tasks := x } } : State).mem = s.mem := rfl
theorem State.blk_withTasksCtl (x : Tab Task) : ({ s with ctl := { s.ctl with tasks := x } } : State).blk = s.blk := rfl
theorem State.srv_withTasksCtl (x : Tab Task) : ({ s with ctl := { s.ctl with tasks := x } } : State).srv = s.srv := rfl
theorem State.intc_withTasksCtl (x : Tab Task) : ({ s with ctl := { s.ctl with tasks := x } } : State).intc = s.intc := rfl
theorem State.obs_withTasksCtl (x : Tab Task) : ({ s with ctl := { s.ctl with tasks := x } } : State).obs = s.obs := rfl
theorem State.lpx_withTasksCtl (x : Tab Task) : ({ s with ctl := { s.ctl with tasks := x } } : State).lpx = s.lpx := rfl
theorem State.rlt_withTasksCtl (x : Tab Task) : ({ s with ctl := { s.ctl with tasks := x } } : State).rlt = s.rlt := rfl
theorem State.pci_withTasksCtl (x : Tab Task) : ({ s with ctl := { s.ctl with tasks := x } } : State).pci = s.pci := rfl
theorem State.pwr_withTasksCtl (x : Tab Task) : ({ s with ctl := { s.ctl with tasks := x } } : State).pwr = s.pwr := rfl
theorem State.sec_withTasksCtl (x : Tab Task) : ({ s with ctl := { s.ctl with tasks := x } } : State).sec = s.sec := rfl
theorem State.pins_withTasksCtl (x : Tab Task) : ({ s with ctl := { s.ctl with tasks := x } } : State).pins = s.pins := rfl
theorem State.board_withTasksCtl (x : Tab Task) : ({ s with ctl := { s.ctl with tasks := x } } : State).board = s.board := rfl
theorem State.saved_withTasksCtl (x : Tab Task) : ({ s with ctl := { s.ctl with tasks := x } } : State).saved = s.saved := rfl
theorem State.fresh_withTasksCtl (x : Tab Task) : ({ s with ctl := { s.ctl with tasks := x } } : State).fresh = s.fresh := rfl
theorem State.beats_withTasksCtl (x : Tab Task) : ({ s with ctl := { s.ctl with tasks := x } } : State).beats = s.beats := rfl
theorem State.msix_withTasksCtl (x : Tab Task) : ({ s with ctl := { s.ctl with tasks := x } } : State).msix = s.msix := rfl
theorem State.out_withTasksCtl (x : Tab Task) : ({ s with ctl := { s.ctl with tasks := x } } : State).out = s.out := rfl
theorem State.hostMem_withTasksCtl (x : Tab Task) : ({ s with ctl := { s.ctl with tasks := x } } : State).hostMem = s.hostMem := rfl
theorem State.pending_withTasksCtl (x : Tab Task) : ({ s with ctl := { s.ctl with tasks := x } } : State).pending = s.pending := rfl
theorem State.ctl_queues_withTasksCtl (x : Tab Task) : ({ s with ctl := { s.ctl with tasks := x } } : State).ctl.queues = s.ctl.queues := rfl
theorem State.ctl_cmds_withTasksCtl (x : Tab Task) : ({ s with ctl := { s.ctl with tasks := x } } : State).ctl.cmds = s.ctl.cmds := rfl
theorem State.ctl_ops_withTasksCtl (x : Tab Task) : ({ s with ctl := { s.ctl with tasks := x } } : State).ctl.ops = s.ctl.ops := rfl
theorem State.ctl_jnlA_withTasksCtl (x : Tab Task) : ({ s with ctl := { s.ctl with tasks := x } } : State).ctl.jnlA = s.ctl.jnlA := rfl
theorem State.ctl_jnlB_withTasksCtl (x : Tab Task) : ({ s with ctl := { s.ctl with tasks := x } } : State).ctl.jnlB = s.ctl.jnlB := rfl
theorem State.ctl_nextSeq_withTasksCtl (x : Tab Task) : ({ s with ctl := { s.ctl with tasks := x } } : State).ctl.nextSeq = s.ctl.nextSeq := rfl
theorem State.ctl_hubs_withTasksCtl (x : Tab Task) : ({ s with ctl := { s.ctl with tasks := x } } : State).ctl.hubs = s.ctl.hubs := rfl
theorem State.ctl_table_withTasksCtl (x : Tab Task) : ({ s with ctl := { s.ctl with tasks := x } } : State).ctl.table = s.ctl.table := rfl
theorem State.ctl_slot_withTasksCtl (x : Tab Task) : ({ s with ctl := { s.ctl with tasks := x } } : State).ctl.slot = s.ctl.slot := rfl
theorem State.ctl_partPend_withTasksCtl (x : Tab Task) : ({ s with ctl := { s.ctl with tasks := x } } : State).ctl.partPend = s.ctl.partPend := rfl
theorem State.ctl_turns_withTasksCtl (x : Tab Task) : ({ s with ctl := { s.ctl with tasks := x } } : State).ctl.turns = s.ctl.turns := rfl
theorem State.reg_of_withTasksCtl (x : Tab Task) (k0 : RegKind) (i0 : Nat) : ({ s with ctl := { s.ctl with tasks := x } } : State).reg k0 i0 = s.reg k0 i0 := rfl
theorem State.rd_of_withTasksCtl (x : Tab Task) (f0 : Fld) (i0 : Nat) : ({ s with ctl := { s.ctl with tasks := x } } : State).rd f0 i0 = s.rd f0 i0 := rfl
theorem State.live_of_withTasksCtl (x : Tab Task) : ({ s with ctl := { s.ctl with tasks := x } } : State).live = s.live := rfl
theorem State.cog_of_withTasksCtl (x : Tab Task) (c0 : Nat) : ({ s with ctl := { s.ctl with tasks := x } } : State).cog c0 = s.cog c0 := rfl
theorem State.hub_of_withTasksCtl (x : Tab Task) (h0 : Nat) : ({ s with ctl := { s.ctl with tasks := x } } : State).hub h0 = s.hub h0 := rfl
theorem State.queue_of_withTasksCtl (x : Tab Task) (q0 : Nat) : ({ s with ctl := { s.ctl with tasks := x } } : State).queue q0 = s.queue q0 := rfl
theorem State.cmd_of_withTasksCtl (x : Tab Task) (n0 : Nat) : ({ s with ctl := { s.ctl with tasks := x } } : State).cmd n0 = s.cmd n0 := rfl
theorem State.aop_of_withTasksCtl (x : Tab Task) (n0 d0 : Nat) : ({ s with ctl := { s.ctl with tasks := x } } : State).aop n0 d0 = s.aop n0 d0 := rfl
theorem State.tensor_of_withTasksCtl (x : Tab Task) (p0 t0 : Nat) : ({ s with ctl := { s.ctl with tasks := x } } : State).tensor p0 t0 = s.tensor p0 t0 := rfl
theorem State.regionOf_of_withTasksCtl (x : Tab Task) (c0 : Nat) : ({ s with ctl := { s.ctl with tasks := x } } : State).regionOf c0 = s.regionOf c0 := rfl
theorem State.port_of_withTasksCtl (x : Tab Task) (p0 : Nat) : ({ s with ctl := { s.ctl with tasks := x } } : State).port p0 = s.port p0 := rfl
theorem State.chan_of_withTasksCtl (x : Tab Task) (c0 : Nat) : ({ s with ctl := { s.ctl with tasks := x } } : State).chan c0 = s.chan c0 := rfl

theorem State.time_withOpsCtl (x : Tab AOp) : ({ s with ctl := { s.ctl with ops := x } } : State).time = s.time := rfl
theorem State.work_withOpsCtl (x : Tab AOp) : ({ s with ctl := { s.ctl with ops := x } } : State).work = s.work := rfl
theorem State.aclk_withOpsCtl (x : Tab AOp) : ({ s with ctl := { s.ctl with ops := x } } : State).aclk = s.aclk := rfl
theorem State.clocks_withOpsCtl (x : Tab AOp) : ({ s with ctl := { s.ctl with ops := x } } : State).clocks = s.clocks := rfl
theorem State.regs_withOpsCtl (x : Tab AOp) : ({ s with ctl := { s.ctl with ops := x } } : State).regs = s.regs := rfl
theorem State.arr_withOpsCtl (x : Tab AOp) : ({ s with ctl := { s.ctl with ops := x } } : State).arr = s.arr := rfl
theorem State.mem_withOpsCtl (x : Tab AOp) : ({ s with ctl := { s.ctl with ops := x } } : State).mem = s.mem := rfl
theorem State.blk_withOpsCtl (x : Tab AOp) : ({ s with ctl := { s.ctl with ops := x } } : State).blk = s.blk := rfl
theorem State.srv_withOpsCtl (x : Tab AOp) : ({ s with ctl := { s.ctl with ops := x } } : State).srv = s.srv := rfl
theorem State.intc_withOpsCtl (x : Tab AOp) : ({ s with ctl := { s.ctl with ops := x } } : State).intc = s.intc := rfl
theorem State.obs_withOpsCtl (x : Tab AOp) : ({ s with ctl := { s.ctl with ops := x } } : State).obs = s.obs := rfl
theorem State.lpx_withOpsCtl (x : Tab AOp) : ({ s with ctl := { s.ctl with ops := x } } : State).lpx = s.lpx := rfl
theorem State.rlt_withOpsCtl (x : Tab AOp) : ({ s with ctl := { s.ctl with ops := x } } : State).rlt = s.rlt := rfl
theorem State.pci_withOpsCtl (x : Tab AOp) : ({ s with ctl := { s.ctl with ops := x } } : State).pci = s.pci := rfl
theorem State.pwr_withOpsCtl (x : Tab AOp) : ({ s with ctl := { s.ctl with ops := x } } : State).pwr = s.pwr := rfl
theorem State.sec_withOpsCtl (x : Tab AOp) : ({ s with ctl := { s.ctl with ops := x } } : State).sec = s.sec := rfl
theorem State.pins_withOpsCtl (x : Tab AOp) : ({ s with ctl := { s.ctl with ops := x } } : State).pins = s.pins := rfl
theorem State.board_withOpsCtl (x : Tab AOp) : ({ s with ctl := { s.ctl with ops := x } } : State).board = s.board := rfl
theorem State.saved_withOpsCtl (x : Tab AOp) : ({ s with ctl := { s.ctl with ops := x } } : State).saved = s.saved := rfl
theorem State.fresh_withOpsCtl (x : Tab AOp) : ({ s with ctl := { s.ctl with ops := x } } : State).fresh = s.fresh := rfl
theorem State.beats_withOpsCtl (x : Tab AOp) : ({ s with ctl := { s.ctl with ops := x } } : State).beats = s.beats := rfl
theorem State.msix_withOpsCtl (x : Tab AOp) : ({ s with ctl := { s.ctl with ops := x } } : State).msix = s.msix := rfl
theorem State.out_withOpsCtl (x : Tab AOp) : ({ s with ctl := { s.ctl with ops := x } } : State).out = s.out := rfl
theorem State.hostMem_withOpsCtl (x : Tab AOp) : ({ s with ctl := { s.ctl with ops := x } } : State).hostMem = s.hostMem := rfl
theorem State.pending_withOpsCtl (x : Tab AOp) : ({ s with ctl := { s.ctl with ops := x } } : State).pending = s.pending := rfl
theorem State.ctl_queues_withOpsCtl (x : Tab AOp) : ({ s with ctl := { s.ctl with ops := x } } : State).ctl.queues = s.ctl.queues := rfl
theorem State.ctl_cmds_withOpsCtl (x : Tab AOp) : ({ s with ctl := { s.ctl with ops := x } } : State).ctl.cmds = s.ctl.cmds := rfl
theorem State.ctl_tasks_withOpsCtl (x : Tab AOp) : ({ s with ctl := { s.ctl with ops := x } } : State).ctl.tasks = s.ctl.tasks := rfl
theorem State.ctl_jnlA_withOpsCtl (x : Tab AOp) : ({ s with ctl := { s.ctl with ops := x } } : State).ctl.jnlA = s.ctl.jnlA := rfl
theorem State.ctl_jnlB_withOpsCtl (x : Tab AOp) : ({ s with ctl := { s.ctl with ops := x } } : State).ctl.jnlB = s.ctl.jnlB := rfl
theorem State.ctl_nextSeq_withOpsCtl (x : Tab AOp) : ({ s with ctl := { s.ctl with ops := x } } : State).ctl.nextSeq = s.ctl.nextSeq := rfl
theorem State.ctl_hubs_withOpsCtl (x : Tab AOp) : ({ s with ctl := { s.ctl with ops := x } } : State).ctl.hubs = s.ctl.hubs := rfl
theorem State.ctl_table_withOpsCtl (x : Tab AOp) : ({ s with ctl := { s.ctl with ops := x } } : State).ctl.table = s.ctl.table := rfl
theorem State.ctl_slot_withOpsCtl (x : Tab AOp) : ({ s with ctl := { s.ctl with ops := x } } : State).ctl.slot = s.ctl.slot := rfl
theorem State.ctl_partPend_withOpsCtl (x : Tab AOp) : ({ s with ctl := { s.ctl with ops := x } } : State).ctl.partPend = s.ctl.partPend := rfl
theorem State.ctl_turns_withOpsCtl (x : Tab AOp) : ({ s with ctl := { s.ctl with ops := x } } : State).ctl.turns = s.ctl.turns := rfl
theorem State.reg_of_withOpsCtl (x : Tab AOp) (k0 : RegKind) (i0 : Nat) : ({ s with ctl := { s.ctl with ops := x } } : State).reg k0 i0 = s.reg k0 i0 := rfl
theorem State.rd_of_withOpsCtl (x : Tab AOp) (f0 : Fld) (i0 : Nat) : ({ s with ctl := { s.ctl with ops := x } } : State).rd f0 i0 = s.rd f0 i0 := rfl
theorem State.live_of_withOpsCtl (x : Tab AOp) : ({ s with ctl := { s.ctl with ops := x } } : State).live = s.live := rfl
theorem State.cog_of_withOpsCtl (x : Tab AOp) (c0 : Nat) : ({ s with ctl := { s.ctl with ops := x } } : State).cog c0 = s.cog c0 := rfl
theorem State.hub_of_withOpsCtl (x : Tab AOp) (h0 : Nat) : ({ s with ctl := { s.ctl with ops := x } } : State).hub h0 = s.hub h0 := rfl
theorem State.queue_of_withOpsCtl (x : Tab AOp) (q0 : Nat) : ({ s with ctl := { s.ctl with ops := x } } : State).queue q0 = s.queue q0 := rfl
theorem State.cmd_of_withOpsCtl (x : Tab AOp) (n0 : Nat) : ({ s with ctl := { s.ctl with ops := x } } : State).cmd n0 = s.cmd n0 := rfl
theorem State.task_of_withOpsCtl (x : Tab AOp) (k0 : Nat) : ({ s with ctl := { s.ctl with ops := x } } : State).task k0 = s.task k0 := rfl
theorem State.tensor_of_withOpsCtl (x : Tab AOp) (p0 t0 : Nat) : ({ s with ctl := { s.ctl with ops := x } } : State).tensor p0 t0 = s.tensor p0 t0 := rfl
theorem State.regionOf_of_withOpsCtl (x : Tab AOp) (c0 : Nat) : ({ s with ctl := { s.ctl with ops := x } } : State).regionOf c0 = s.regionOf c0 := rfl
theorem State.port_of_withOpsCtl (x : Tab AOp) (p0 : Nat) : ({ s with ctl := { s.ctl with ops := x } } : State).port p0 = s.port p0 := rfl
theorem State.chan_of_withOpsCtl (x : Tab AOp) (c0 : Nat) : ({ s with ctl := { s.ctl with ops := x } } : State).chan c0 = s.chan c0 := rfl

theorem State.time_withJnlaJnlbCtl (x : Tab JEntry) (y : Tab JEntry) : ({ s with ctl := { s.ctl with jnlA := x, jnlB := y } } : State).time = s.time := rfl
theorem State.work_withJnlaJnlbCtl (x : Tab JEntry) (y : Tab JEntry) : ({ s with ctl := { s.ctl with jnlA := x, jnlB := y } } : State).work = s.work := rfl
theorem State.aclk_withJnlaJnlbCtl (x : Tab JEntry) (y : Tab JEntry) : ({ s with ctl := { s.ctl with jnlA := x, jnlB := y } } : State).aclk = s.aclk := rfl
theorem State.clocks_withJnlaJnlbCtl (x : Tab JEntry) (y : Tab JEntry) : ({ s with ctl := { s.ctl with jnlA := x, jnlB := y } } : State).clocks = s.clocks := rfl
theorem State.regs_withJnlaJnlbCtl (x : Tab JEntry) (y : Tab JEntry) : ({ s with ctl := { s.ctl with jnlA := x, jnlB := y } } : State).regs = s.regs := rfl
theorem State.arr_withJnlaJnlbCtl (x : Tab JEntry) (y : Tab JEntry) : ({ s with ctl := { s.ctl with jnlA := x, jnlB := y } } : State).arr = s.arr := rfl
theorem State.mem_withJnlaJnlbCtl (x : Tab JEntry) (y : Tab JEntry) : ({ s with ctl := { s.ctl with jnlA := x, jnlB := y } } : State).mem = s.mem := rfl
theorem State.blk_withJnlaJnlbCtl (x : Tab JEntry) (y : Tab JEntry) : ({ s with ctl := { s.ctl with jnlA := x, jnlB := y } } : State).blk = s.blk := rfl
theorem State.srv_withJnlaJnlbCtl (x : Tab JEntry) (y : Tab JEntry) : ({ s with ctl := { s.ctl with jnlA := x, jnlB := y } } : State).srv = s.srv := rfl
theorem State.intc_withJnlaJnlbCtl (x : Tab JEntry) (y : Tab JEntry) : ({ s with ctl := { s.ctl with jnlA := x, jnlB := y } } : State).intc = s.intc := rfl
theorem State.obs_withJnlaJnlbCtl (x : Tab JEntry) (y : Tab JEntry) : ({ s with ctl := { s.ctl with jnlA := x, jnlB := y } } : State).obs = s.obs := rfl
theorem State.lpx_withJnlaJnlbCtl (x : Tab JEntry) (y : Tab JEntry) : ({ s with ctl := { s.ctl with jnlA := x, jnlB := y } } : State).lpx = s.lpx := rfl
theorem State.rlt_withJnlaJnlbCtl (x : Tab JEntry) (y : Tab JEntry) : ({ s with ctl := { s.ctl with jnlA := x, jnlB := y } } : State).rlt = s.rlt := rfl
theorem State.pci_withJnlaJnlbCtl (x : Tab JEntry) (y : Tab JEntry) : ({ s with ctl := { s.ctl with jnlA := x, jnlB := y } } : State).pci = s.pci := rfl
theorem State.pwr_withJnlaJnlbCtl (x : Tab JEntry) (y : Tab JEntry) : ({ s with ctl := { s.ctl with jnlA := x, jnlB := y } } : State).pwr = s.pwr := rfl
theorem State.sec_withJnlaJnlbCtl (x : Tab JEntry) (y : Tab JEntry) : ({ s with ctl := { s.ctl with jnlA := x, jnlB := y } } : State).sec = s.sec := rfl
theorem State.pins_withJnlaJnlbCtl (x : Tab JEntry) (y : Tab JEntry) : ({ s with ctl := { s.ctl with jnlA := x, jnlB := y } } : State).pins = s.pins := rfl
theorem State.board_withJnlaJnlbCtl (x : Tab JEntry) (y : Tab JEntry) : ({ s with ctl := { s.ctl with jnlA := x, jnlB := y } } : State).board = s.board := rfl
theorem State.saved_withJnlaJnlbCtl (x : Tab JEntry) (y : Tab JEntry) : ({ s with ctl := { s.ctl with jnlA := x, jnlB := y } } : State).saved = s.saved := rfl
theorem State.fresh_withJnlaJnlbCtl (x : Tab JEntry) (y : Tab JEntry) : ({ s with ctl := { s.ctl with jnlA := x, jnlB := y } } : State).fresh = s.fresh := rfl
theorem State.beats_withJnlaJnlbCtl (x : Tab JEntry) (y : Tab JEntry) : ({ s with ctl := { s.ctl with jnlA := x, jnlB := y } } : State).beats = s.beats := rfl
theorem State.msix_withJnlaJnlbCtl (x : Tab JEntry) (y : Tab JEntry) : ({ s with ctl := { s.ctl with jnlA := x, jnlB := y } } : State).msix = s.msix := rfl
theorem State.out_withJnlaJnlbCtl (x : Tab JEntry) (y : Tab JEntry) : ({ s with ctl := { s.ctl with jnlA := x, jnlB := y } } : State).out = s.out := rfl
theorem State.hostMem_withJnlaJnlbCtl (x : Tab JEntry) (y : Tab JEntry) : ({ s with ctl := { s.ctl with jnlA := x, jnlB := y } } : State).hostMem = s.hostMem := rfl
theorem State.pending_withJnlaJnlbCtl (x : Tab JEntry) (y : Tab JEntry) : ({ s with ctl := { s.ctl with jnlA := x, jnlB := y } } : State).pending = s.pending := rfl
theorem State.ctl_queues_withJnlaJnlbCtl (x : Tab JEntry) (y : Tab JEntry) : ({ s with ctl := { s.ctl with jnlA := x, jnlB := y } } : State).ctl.queues = s.ctl.queues := rfl
theorem State.ctl_cmds_withJnlaJnlbCtl (x : Tab JEntry) (y : Tab JEntry) : ({ s with ctl := { s.ctl with jnlA := x, jnlB := y } } : State).ctl.cmds = s.ctl.cmds := rfl
theorem State.ctl_tasks_withJnlaJnlbCtl (x : Tab JEntry) (y : Tab JEntry) : ({ s with ctl := { s.ctl with jnlA := x, jnlB := y } } : State).ctl.tasks = s.ctl.tasks := rfl
theorem State.ctl_ops_withJnlaJnlbCtl (x : Tab JEntry) (y : Tab JEntry) : ({ s with ctl := { s.ctl with jnlA := x, jnlB := y } } : State).ctl.ops = s.ctl.ops := rfl
theorem State.ctl_nextSeq_withJnlaJnlbCtl (x : Tab JEntry) (y : Tab JEntry) : ({ s with ctl := { s.ctl with jnlA := x, jnlB := y } } : State).ctl.nextSeq = s.ctl.nextSeq := rfl
theorem State.ctl_hubs_withJnlaJnlbCtl (x : Tab JEntry) (y : Tab JEntry) : ({ s with ctl := { s.ctl with jnlA := x, jnlB := y } } : State).ctl.hubs = s.ctl.hubs := rfl
theorem State.ctl_table_withJnlaJnlbCtl (x : Tab JEntry) (y : Tab JEntry) : ({ s with ctl := { s.ctl with jnlA := x, jnlB := y } } : State).ctl.table = s.ctl.table := rfl
theorem State.ctl_slot_withJnlaJnlbCtl (x : Tab JEntry) (y : Tab JEntry) : ({ s with ctl := { s.ctl with jnlA := x, jnlB := y } } : State).ctl.slot = s.ctl.slot := rfl
theorem State.ctl_partPend_withJnlaJnlbCtl (x : Tab JEntry) (y : Tab JEntry) : ({ s with ctl := { s.ctl with jnlA := x, jnlB := y } } : State).ctl.partPend = s.ctl.partPend := rfl
theorem State.ctl_turns_withJnlaJnlbCtl (x : Tab JEntry) (y : Tab JEntry) : ({ s with ctl := { s.ctl with jnlA := x, jnlB := y } } : State).ctl.turns = s.ctl.turns := rfl
theorem State.reg_of_withJnlaJnlbCtl (x : Tab JEntry) (y : Tab JEntry) (k0 : RegKind) (i0 : Nat) : ({ s with ctl := { s.ctl with jnlA := x, jnlB := y } } : State).reg k0 i0 = s.reg k0 i0 := rfl
theorem State.rd_of_withJnlaJnlbCtl (x : Tab JEntry) (y : Tab JEntry) (f0 : Fld) (i0 : Nat) : ({ s with ctl := { s.ctl with jnlA := x, jnlB := y } } : State).rd f0 i0 = s.rd f0 i0 := rfl
theorem State.live_of_withJnlaJnlbCtl (x : Tab JEntry) (y : Tab JEntry) : ({ s with ctl := { s.ctl with jnlA := x, jnlB := y } } : State).live = s.live := rfl
theorem State.cog_of_withJnlaJnlbCtl (x : Tab JEntry) (y : Tab JEntry) (c0 : Nat) : ({ s with ctl := { s.ctl with jnlA := x, jnlB := y } } : State).cog c0 = s.cog c0 := rfl
theorem State.hub_of_withJnlaJnlbCtl (x : Tab JEntry) (y : Tab JEntry) (h0 : Nat) : ({ s with ctl := { s.ctl with jnlA := x, jnlB := y } } : State).hub h0 = s.hub h0 := rfl
theorem State.queue_of_withJnlaJnlbCtl (x : Tab JEntry) (y : Tab JEntry) (q0 : Nat) : ({ s with ctl := { s.ctl with jnlA := x, jnlB := y } } : State).queue q0 = s.queue q0 := rfl
theorem State.cmd_of_withJnlaJnlbCtl (x : Tab JEntry) (y : Tab JEntry) (n0 : Nat) : ({ s with ctl := { s.ctl with jnlA := x, jnlB := y } } : State).cmd n0 = s.cmd n0 := rfl
theorem State.task_of_withJnlaJnlbCtl (x : Tab JEntry) (y : Tab JEntry) (k0 : Nat) : ({ s with ctl := { s.ctl with jnlA := x, jnlB := y } } : State).task k0 = s.task k0 := rfl
theorem State.aop_of_withJnlaJnlbCtl (x : Tab JEntry) (y : Tab JEntry) (n0 d0 : Nat) : ({ s with ctl := { s.ctl with jnlA := x, jnlB := y } } : State).aop n0 d0 = s.aop n0 d0 := rfl
theorem State.tensor_of_withJnlaJnlbCtl (x : Tab JEntry) (y : Tab JEntry) (p0 t0 : Nat) : ({ s with ctl := { s.ctl with jnlA := x, jnlB := y } } : State).tensor p0 t0 = s.tensor p0 t0 := rfl
theorem State.regionOf_of_withJnlaJnlbCtl (x : Tab JEntry) (y : Tab JEntry) (c0 : Nat) : ({ s with ctl := { s.ctl with jnlA := x, jnlB := y } } : State).regionOf c0 = s.regionOf c0 := rfl
theorem State.port_of_withJnlaJnlbCtl (x : Tab JEntry) (y : Tab JEntry) (p0 : Nat) : ({ s with ctl := { s.ctl with jnlA := x, jnlB := y } } : State).port p0 = s.port p0 := rfl
theorem State.chan_of_withJnlaJnlbCtl (x : Tab JEntry) (y : Tab JEntry) (c0 : Nat) : ({ s with ctl := { s.ctl with jnlA := x, jnlB := y } } : State).chan c0 = s.chan c0 := rfl

theorem State.time_withBlocksBlk (x : Tab FlashBlock) : ({ s with blk := { s.blk with blocks := x } } : State).time = s.time := rfl
theorem State.work_withBlocksBlk (x : Tab FlashBlock) : ({ s with blk := { s.blk with blocks := x } } : State).work = s.work := rfl
theorem State.aclk_withBlocksBlk (x : Tab FlashBlock) : ({ s with blk := { s.blk with blocks := x } } : State).aclk = s.aclk := rfl
theorem State.clocks_withBlocksBlk (x : Tab FlashBlock) : ({ s with blk := { s.blk with blocks := x } } : State).clocks = s.clocks := rfl
theorem State.regs_withBlocksBlk (x : Tab FlashBlock) : ({ s with blk := { s.blk with blocks := x } } : State).regs = s.regs := rfl
theorem State.arr_withBlocksBlk (x : Tab FlashBlock) : ({ s with blk := { s.blk with blocks := x } } : State).arr = s.arr := rfl
theorem State.mem_withBlocksBlk (x : Tab FlashBlock) : ({ s with blk := { s.blk with blocks := x } } : State).mem = s.mem := rfl
theorem State.ctl_withBlocksBlk (x : Tab FlashBlock) : ({ s with blk := { s.blk with blocks := x } } : State).ctl = s.ctl := rfl
theorem State.srv_withBlocksBlk (x : Tab FlashBlock) : ({ s with blk := { s.blk with blocks := x } } : State).srv = s.srv := rfl
theorem State.intc_withBlocksBlk (x : Tab FlashBlock) : ({ s with blk := { s.blk with blocks := x } } : State).intc = s.intc := rfl
theorem State.obs_withBlocksBlk (x : Tab FlashBlock) : ({ s with blk := { s.blk with blocks := x } } : State).obs = s.obs := rfl
theorem State.lpx_withBlocksBlk (x : Tab FlashBlock) : ({ s with blk := { s.blk with blocks := x } } : State).lpx = s.lpx := rfl
theorem State.rlt_withBlocksBlk (x : Tab FlashBlock) : ({ s with blk := { s.blk with blocks := x } } : State).rlt = s.rlt := rfl
theorem State.pci_withBlocksBlk (x : Tab FlashBlock) : ({ s with blk := { s.blk with blocks := x } } : State).pci = s.pci := rfl
theorem State.pwr_withBlocksBlk (x : Tab FlashBlock) : ({ s with blk := { s.blk with blocks := x } } : State).pwr = s.pwr := rfl
theorem State.sec_withBlocksBlk (x : Tab FlashBlock) : ({ s with blk := { s.blk with blocks := x } } : State).sec = s.sec := rfl
theorem State.pins_withBlocksBlk (x : Tab FlashBlock) : ({ s with blk := { s.blk with blocks := x } } : State).pins = s.pins := rfl
theorem State.board_withBlocksBlk (x : Tab FlashBlock) : ({ s with blk := { s.blk with blocks := x } } : State).board = s.board := rfl
theorem State.saved_withBlocksBlk (x : Tab FlashBlock) : ({ s with blk := { s.blk with blocks := x } } : State).saved = s.saved := rfl
theorem State.fresh_withBlocksBlk (x : Tab FlashBlock) : ({ s with blk := { s.blk with blocks := x } } : State).fresh = s.fresh := rfl
theorem State.beats_withBlocksBlk (x : Tab FlashBlock) : ({ s with blk := { s.blk with blocks := x } } : State).beats = s.beats := rfl
theorem State.msix_withBlocksBlk (x : Tab FlashBlock) : ({ s with blk := { s.blk with blocks := x } } : State).msix = s.msix := rfl
theorem State.out_withBlocksBlk (x : Tab FlashBlock) : ({ s with blk := { s.blk with blocks := x } } : State).out = s.out := rfl
theorem State.hostMem_withBlocksBlk (x : Tab FlashBlock) : ({ s with blk := { s.blk with blocks := x } } : State).hostMem = s.hostMem := rfl
theorem State.pending_withBlocksBlk (x : Tab FlashBlock) : ({ s with blk := { s.blk with blocks := x } } : State).pending = s.pending := rfl
theorem State.blk_data_withBlocksBlk (x : Tab FlashBlock) : ({ s with blk := { s.blk with blocks := x } } : State).blk.data = s.blk.data := rfl
theorem State.blk_cat_withBlocksBlk (x : Tab FlashBlock) : ({ s with blk := { s.blk with blocks := x } } : State).blk.cat = s.blk.cat := rfl
theorem State.blk_map_withBlocksBlk (x : Tab FlashBlock) : ({ s with blk := { s.blk with blocks := x } } : State).blk.map = s.blk.map := rfl
theorem State.blk_copies_withBlocksBlk (x : Tab FlashBlock) : ({ s with blk := { s.blk with blocks := x } } : State).blk.copies = s.blk.copies := rfl
theorem State.blk_parity_withBlocksBlk (x : Tab FlashBlock) : ({ s with blk := { s.blk with blocks := x } } : State).blk.parity = s.blk.parity := rfl
theorem State.blk_bad_withBlocksBlk (x : Tab FlashBlock) : ({ s with blk := { s.blk with blocks := x } } : State).blk.bad = s.blk.bad := rfl
theorem State.blk_formats_withBlocksBlk (x : Tab FlashBlock) : ({ s with blk := { s.blk with blocks := x } } : State).blk.formats = s.blk.formats := rfl
theorem State.blk_op_withBlocksBlk (x : Tab FlashBlock) : ({ s with blk := { s.blk with blocks := x } } : State).blk.op = s.blk.op := rfl
theorem State.blk_retired_withBlocksBlk (x : Tab FlashBlock) : ({ s with blk := { s.blk with blocks := x } } : State).blk.retired = s.blk.retired := rfl
theorem State.reg_of_withBlocksBlk (x : Tab FlashBlock) (k0 : RegKind) (i0 : Nat) : ({ s with blk := { s.blk with blocks := x } } : State).reg k0 i0 = s.reg k0 i0 := rfl
theorem State.rd_of_withBlocksBlk (x : Tab FlashBlock) (f0 : Fld) (i0 : Nat) : ({ s with blk := { s.blk with blocks := x } } : State).rd f0 i0 = s.rd f0 i0 := rfl
theorem State.live_of_withBlocksBlk (x : Tab FlashBlock) : ({ s with blk := { s.blk with blocks := x } } : State).live = s.live := rfl
theorem State.cog_of_withBlocksBlk (x : Tab FlashBlock) (c0 : Nat) : ({ s with blk := { s.blk with blocks := x } } : State).cog c0 = s.cog c0 := rfl
theorem State.hub_of_withBlocksBlk (x : Tab FlashBlock) (h0 : Nat) : ({ s with blk := { s.blk with blocks := x } } : State).hub h0 = s.hub h0 := rfl
theorem State.queue_of_withBlocksBlk (x : Tab FlashBlock) (q0 : Nat) : ({ s with blk := { s.blk with blocks := x } } : State).queue q0 = s.queue q0 := rfl
theorem State.cmd_of_withBlocksBlk (x : Tab FlashBlock) (n0 : Nat) : ({ s with blk := { s.blk with blocks := x } } : State).cmd n0 = s.cmd n0 := rfl
theorem State.task_of_withBlocksBlk (x : Tab FlashBlock) (k0 : Nat) : ({ s with blk := { s.blk with blocks := x } } : State).task k0 = s.task k0 := rfl
theorem State.aop_of_withBlocksBlk (x : Tab FlashBlock) (n0 d0 : Nat) : ({ s with blk := { s.blk with blocks := x } } : State).aop n0 d0 = s.aop n0 d0 := rfl
theorem State.tensor_of_withBlocksBlk (x : Tab FlashBlock) (p0 t0 : Nat) : ({ s with blk := { s.blk with blocks := x } } : State).tensor p0 t0 = s.tensor p0 t0 := rfl
theorem State.regionOf_of_withBlocksBlk (x : Tab FlashBlock) (c0 : Nat) : ({ s with blk := { s.blk with blocks := x } } : State).regionOf c0 = s.regionOf c0 := rfl
theorem State.port_of_withBlocksBlk (x : Tab FlashBlock) (p0 : Nat) : ({ s with blk := { s.blk with blocks := x } } : State).port p0 = s.port p0 := rfl
theorem State.chan_of_withBlocksBlk (x : Tab FlashBlock) (c0 : Nat) : ({ s with blk := { s.blk with blocks := x } } : State).chan c0 = s.chan c0 := rfl

theorem State.time_withSeqsSrv (x : Tab Seq) : ({ s with srv := { s.srv with seqs := x } } : State).time = s.time := rfl
theorem State.work_withSeqsSrv (x : Tab Seq) : ({ s with srv := { s.srv with seqs := x } } : State).work = s.work := rfl
theorem State.aclk_withSeqsSrv (x : Tab Seq) : ({ s with srv := { s.srv with seqs := x } } : State).aclk = s.aclk := rfl
theorem State.clocks_withSeqsSrv (x : Tab Seq) : ({ s with srv := { s.srv with seqs := x } } : State).clocks = s.clocks := rfl
theorem State.regs_withSeqsSrv (x : Tab Seq) : ({ s with srv := { s.srv with seqs := x } } : State).regs = s.regs := rfl
theorem State.arr_withSeqsSrv (x : Tab Seq) : ({ s with srv := { s.srv with seqs := x } } : State).arr = s.arr := rfl
theorem State.mem_withSeqsSrv (x : Tab Seq) : ({ s with srv := { s.srv with seqs := x } } : State).mem = s.mem := rfl
theorem State.ctl_withSeqsSrv (x : Tab Seq) : ({ s with srv := { s.srv with seqs := x } } : State).ctl = s.ctl := rfl
theorem State.blk_withSeqsSrv (x : Tab Seq) : ({ s with srv := { s.srv with seqs := x } } : State).blk = s.blk := rfl
theorem State.intc_withSeqsSrv (x : Tab Seq) : ({ s with srv := { s.srv with seqs := x } } : State).intc = s.intc := rfl
theorem State.obs_withSeqsSrv (x : Tab Seq) : ({ s with srv := { s.srv with seqs := x } } : State).obs = s.obs := rfl
theorem State.lpx_withSeqsSrv (x : Tab Seq) : ({ s with srv := { s.srv with seqs := x } } : State).lpx = s.lpx := rfl
theorem State.rlt_withSeqsSrv (x : Tab Seq) : ({ s with srv := { s.srv with seqs := x } } : State).rlt = s.rlt := rfl
theorem State.pci_withSeqsSrv (x : Tab Seq) : ({ s with srv := { s.srv with seqs := x } } : State).pci = s.pci := rfl
theorem State.pwr_withSeqsSrv (x : Tab Seq) : ({ s with srv := { s.srv with seqs := x } } : State).pwr = s.pwr := rfl
theorem State.sec_withSeqsSrv (x : Tab Seq) : ({ s with srv := { s.srv with seqs := x } } : State).sec = s.sec := rfl
theorem State.pins_withSeqsSrv (x : Tab Seq) : ({ s with srv := { s.srv with seqs := x } } : State).pins = s.pins := rfl
theorem State.board_withSeqsSrv (x : Tab Seq) : ({ s with srv := { s.srv with seqs := x } } : State).board = s.board := rfl
theorem State.saved_withSeqsSrv (x : Tab Seq) : ({ s with srv := { s.srv with seqs := x } } : State).saved = s.saved := rfl
theorem State.fresh_withSeqsSrv (x : Tab Seq) : ({ s with srv := { s.srv with seqs := x } } : State).fresh = s.fresh := rfl
theorem State.beats_withSeqsSrv (x : Tab Seq) : ({ s with srv := { s.srv with seqs := x } } : State).beats = s.beats := rfl
theorem State.msix_withSeqsSrv (x : Tab Seq) : ({ s with srv := { s.srv with seqs := x } } : State).msix = s.msix := rfl
theorem State.out_withSeqsSrv (x : Tab Seq) : ({ s with srv := { s.srv with seqs := x } } : State).out = s.out := rfl
theorem State.hostMem_withSeqsSrv (x : Tab Seq) : ({ s with srv := { s.srv with seqs := x } } : State).hostMem = s.hostMem := rfl
theorem State.pending_withSeqsSrv (x : Tab Seq) : ({ s with srv := { s.srv with seqs := x } } : State).pending = s.pending := rfl
theorem State.srv_steps_withSeqsSrv (x : Tab Seq) : ({ s with srv := { s.srv with seqs := x } } : State).srv.steps = s.srv.steps := rfl
theorem State.srv_groups_withSeqsSrv (x : Tab Seq) : ({ s with srv := { s.srv with seqs := x } } : State).srv.groups = s.srv.groups := rfl
theorem State.srv_mem_withSeqsSrv (x : Tab Seq) : ({ s with srv := { s.srv with seqs := x } } : State).srv.mem = s.srv.mem := rfl
theorem State.reg_of_withSeqsSrv (x : Tab Seq) (k0 : RegKind) (i0 : Nat) : ({ s with srv := { s.srv with seqs := x } } : State).reg k0 i0 = s.reg k0 i0 := rfl
theorem State.rd_of_withSeqsSrv (x : Tab Seq) (f0 : Fld) (i0 : Nat) : ({ s with srv := { s.srv with seqs := x } } : State).rd f0 i0 = s.rd f0 i0 := rfl
theorem State.live_of_withSeqsSrv (x : Tab Seq) : ({ s with srv := { s.srv with seqs := x } } : State).live = s.live := rfl
theorem State.cog_of_withSeqsSrv (x : Tab Seq) (c0 : Nat) : ({ s with srv := { s.srv with seqs := x } } : State).cog c0 = s.cog c0 := rfl
theorem State.hub_of_withSeqsSrv (x : Tab Seq) (h0 : Nat) : ({ s with srv := { s.srv with seqs := x } } : State).hub h0 = s.hub h0 := rfl
theorem State.queue_of_withSeqsSrv (x : Tab Seq) (q0 : Nat) : ({ s with srv := { s.srv with seqs := x } } : State).queue q0 = s.queue q0 := rfl
theorem State.cmd_of_withSeqsSrv (x : Tab Seq) (n0 : Nat) : ({ s with srv := { s.srv with seqs := x } } : State).cmd n0 = s.cmd n0 := rfl
theorem State.task_of_withSeqsSrv (x : Tab Seq) (k0 : Nat) : ({ s with srv := { s.srv with seqs := x } } : State).task k0 = s.task k0 := rfl
theorem State.aop_of_withSeqsSrv (x : Tab Seq) (n0 d0 : Nat) : ({ s with srv := { s.srv with seqs := x } } : State).aop n0 d0 = s.aop n0 d0 := rfl
theorem State.tensor_of_withSeqsSrv (x : Tab Seq) (p0 t0 : Nat) : ({ s with srv := { s.srv with seqs := x } } : State).tensor p0 t0 = s.tensor p0 t0 := rfl
theorem State.regionOf_of_withSeqsSrv (x : Tab Seq) (c0 : Nat) : ({ s with srv := { s.srv with seqs := x } } : State).regionOf c0 = s.regionOf c0 := rfl
theorem State.port_of_withSeqsSrv (x : Tab Seq) (p0 : Nat) : ({ s with srv := { s.srv with seqs := x } } : State).port p0 = s.port p0 := rfl
theorem State.chan_of_withSeqsSrv (x : Tab Seq) (c0 : Nat) : ({ s with srv := { s.srv with seqs := x } } : State).chan c0 = s.chan c0 := rfl

theorem State.time_withMemSrv (x : Tab BatchMem) : ({ s with srv := { s.srv with mem := x } } : State).time = s.time := rfl
theorem State.work_withMemSrv (x : Tab BatchMem) : ({ s with srv := { s.srv with mem := x } } : State).work = s.work := rfl
theorem State.aclk_withMemSrv (x : Tab BatchMem) : ({ s with srv := { s.srv with mem := x } } : State).aclk = s.aclk := rfl
theorem State.clocks_withMemSrv (x : Tab BatchMem) : ({ s with srv := { s.srv with mem := x } } : State).clocks = s.clocks := rfl
theorem State.regs_withMemSrv (x : Tab BatchMem) : ({ s with srv := { s.srv with mem := x } } : State).regs = s.regs := rfl
theorem State.arr_withMemSrv (x : Tab BatchMem) : ({ s with srv := { s.srv with mem := x } } : State).arr = s.arr := rfl
theorem State.mem_withMemSrv (x : Tab BatchMem) : ({ s with srv := { s.srv with mem := x } } : State).mem = s.mem := rfl
theorem State.ctl_withMemSrv (x : Tab BatchMem) : ({ s with srv := { s.srv with mem := x } } : State).ctl = s.ctl := rfl
theorem State.blk_withMemSrv (x : Tab BatchMem) : ({ s with srv := { s.srv with mem := x } } : State).blk = s.blk := rfl
theorem State.intc_withMemSrv (x : Tab BatchMem) : ({ s with srv := { s.srv with mem := x } } : State).intc = s.intc := rfl
theorem State.obs_withMemSrv (x : Tab BatchMem) : ({ s with srv := { s.srv with mem := x } } : State).obs = s.obs := rfl
theorem State.lpx_withMemSrv (x : Tab BatchMem) : ({ s with srv := { s.srv with mem := x } } : State).lpx = s.lpx := rfl
theorem State.rlt_withMemSrv (x : Tab BatchMem) : ({ s with srv := { s.srv with mem := x } } : State).rlt = s.rlt := rfl
theorem State.pci_withMemSrv (x : Tab BatchMem) : ({ s with srv := { s.srv with mem := x } } : State).pci = s.pci := rfl
theorem State.pwr_withMemSrv (x : Tab BatchMem) : ({ s with srv := { s.srv with mem := x } } : State).pwr = s.pwr := rfl
theorem State.sec_withMemSrv (x : Tab BatchMem) : ({ s with srv := { s.srv with mem := x } } : State).sec = s.sec := rfl
theorem State.pins_withMemSrv (x : Tab BatchMem) : ({ s with srv := { s.srv with mem := x } } : State).pins = s.pins := rfl
theorem State.board_withMemSrv (x : Tab BatchMem) : ({ s with srv := { s.srv with mem := x } } : State).board = s.board := rfl
theorem State.saved_withMemSrv (x : Tab BatchMem) : ({ s with srv := { s.srv with mem := x } } : State).saved = s.saved := rfl
theorem State.fresh_withMemSrv (x : Tab BatchMem) : ({ s with srv := { s.srv with mem := x } } : State).fresh = s.fresh := rfl
theorem State.beats_withMemSrv (x : Tab BatchMem) : ({ s with srv := { s.srv with mem := x } } : State).beats = s.beats := rfl
theorem State.msix_withMemSrv (x : Tab BatchMem) : ({ s with srv := { s.srv with mem := x } } : State).msix = s.msix := rfl
theorem State.out_withMemSrv (x : Tab BatchMem) : ({ s with srv := { s.srv with mem := x } } : State).out = s.out := rfl
theorem State.hostMem_withMemSrv (x : Tab BatchMem) : ({ s with srv := { s.srv with mem := x } } : State).hostMem = s.hostMem := rfl
theorem State.pending_withMemSrv (x : Tab BatchMem) : ({ s with srv := { s.srv with mem := x } } : State).pending = s.pending := rfl
theorem State.srv_seqs_withMemSrv (x : Tab BatchMem) : ({ s with srv := { s.srv with mem := x } } : State).srv.seqs = s.srv.seqs := rfl
theorem State.srv_steps_withMemSrv (x : Tab BatchMem) : ({ s with srv := { s.srv with mem := x } } : State).srv.steps = s.srv.steps := rfl
theorem State.srv_groups_withMemSrv (x : Tab BatchMem) : ({ s with srv := { s.srv with mem := x } } : State).srv.groups = s.srv.groups := rfl
theorem State.reg_of_withMemSrv (x : Tab BatchMem) (k0 : RegKind) (i0 : Nat) : ({ s with srv := { s.srv with mem := x } } : State).reg k0 i0 = s.reg k0 i0 := rfl
theorem State.rd_of_withMemSrv (x : Tab BatchMem) (f0 : Fld) (i0 : Nat) : ({ s with srv := { s.srv with mem := x } } : State).rd f0 i0 = s.rd f0 i0 := rfl
theorem State.live_of_withMemSrv (x : Tab BatchMem) : ({ s with srv := { s.srv with mem := x } } : State).live = s.live := rfl
theorem State.cog_of_withMemSrv (x : Tab BatchMem) (c0 : Nat) : ({ s with srv := { s.srv with mem := x } } : State).cog c0 = s.cog c0 := rfl
theorem State.hub_of_withMemSrv (x : Tab BatchMem) (h0 : Nat) : ({ s with srv := { s.srv with mem := x } } : State).hub h0 = s.hub h0 := rfl
theorem State.queue_of_withMemSrv (x : Tab BatchMem) (q0 : Nat) : ({ s with srv := { s.srv with mem := x } } : State).queue q0 = s.queue q0 := rfl
theorem State.cmd_of_withMemSrv (x : Tab BatchMem) (n0 : Nat) : ({ s with srv := { s.srv with mem := x } } : State).cmd n0 = s.cmd n0 := rfl
theorem State.task_of_withMemSrv (x : Tab BatchMem) (k0 : Nat) : ({ s with srv := { s.srv with mem := x } } : State).task k0 = s.task k0 := rfl
theorem State.aop_of_withMemSrv (x : Tab BatchMem) (n0 d0 : Nat) : ({ s with srv := { s.srv with mem := x } } : State).aop n0 d0 = s.aop n0 d0 := rfl
theorem State.tensor_of_withMemSrv (x : Tab BatchMem) (p0 t0 : Nat) : ({ s with srv := { s.srv with mem := x } } : State).tensor p0 t0 = s.tensor p0 t0 := rfl
theorem State.regionOf_of_withMemSrv (x : Tab BatchMem) (c0 : Nat) : ({ s with srv := { s.srv with mem := x } } : State).regionOf c0 = s.regionOf c0 := rfl
theorem State.port_of_withMemSrv (x : Tab BatchMem) (p0 : Nat) : ({ s with srv := { s.srv with mem := x } } : State).port p0 = s.port p0 := rfl
theorem State.chan_of_withMemSrv (x : Tab BatchMem) (c0 : Nat) : ({ s with srv := { s.srv with mem := x } } : State).chan c0 = s.chan c0 := rfl

theorem State.time_withStepsSrv (x : Tab Step) : ({ s with srv := { s.srv with steps := x } } : State).time = s.time := rfl
theorem State.work_withStepsSrv (x : Tab Step) : ({ s with srv := { s.srv with steps := x } } : State).work = s.work := rfl
theorem State.aclk_withStepsSrv (x : Tab Step) : ({ s with srv := { s.srv with steps := x } } : State).aclk = s.aclk := rfl
theorem State.clocks_withStepsSrv (x : Tab Step) : ({ s with srv := { s.srv with steps := x } } : State).clocks = s.clocks := rfl
theorem State.regs_withStepsSrv (x : Tab Step) : ({ s with srv := { s.srv with steps := x } } : State).regs = s.regs := rfl
theorem State.arr_withStepsSrv (x : Tab Step) : ({ s with srv := { s.srv with steps := x } } : State).arr = s.arr := rfl
theorem State.mem_withStepsSrv (x : Tab Step) : ({ s with srv := { s.srv with steps := x } } : State).mem = s.mem := rfl
theorem State.ctl_withStepsSrv (x : Tab Step) : ({ s with srv := { s.srv with steps := x } } : State).ctl = s.ctl := rfl
theorem State.blk_withStepsSrv (x : Tab Step) : ({ s with srv := { s.srv with steps := x } } : State).blk = s.blk := rfl
theorem State.intc_withStepsSrv (x : Tab Step) : ({ s with srv := { s.srv with steps := x } } : State).intc = s.intc := rfl
theorem State.obs_withStepsSrv (x : Tab Step) : ({ s with srv := { s.srv with steps := x } } : State).obs = s.obs := rfl
theorem State.lpx_withStepsSrv (x : Tab Step) : ({ s with srv := { s.srv with steps := x } } : State).lpx = s.lpx := rfl
theorem State.rlt_withStepsSrv (x : Tab Step) : ({ s with srv := { s.srv with steps := x } } : State).rlt = s.rlt := rfl
theorem State.pci_withStepsSrv (x : Tab Step) : ({ s with srv := { s.srv with steps := x } } : State).pci = s.pci := rfl
theorem State.pwr_withStepsSrv (x : Tab Step) : ({ s with srv := { s.srv with steps := x } } : State).pwr = s.pwr := rfl
theorem State.sec_withStepsSrv (x : Tab Step) : ({ s with srv := { s.srv with steps := x } } : State).sec = s.sec := rfl
theorem State.pins_withStepsSrv (x : Tab Step) : ({ s with srv := { s.srv with steps := x } } : State).pins = s.pins := rfl
theorem State.board_withStepsSrv (x : Tab Step) : ({ s with srv := { s.srv with steps := x } } : State).board = s.board := rfl
theorem State.saved_withStepsSrv (x : Tab Step) : ({ s with srv := { s.srv with steps := x } } : State).saved = s.saved := rfl
theorem State.fresh_withStepsSrv (x : Tab Step) : ({ s with srv := { s.srv with steps := x } } : State).fresh = s.fresh := rfl
theorem State.beats_withStepsSrv (x : Tab Step) : ({ s with srv := { s.srv with steps := x } } : State).beats = s.beats := rfl
theorem State.msix_withStepsSrv (x : Tab Step) : ({ s with srv := { s.srv with steps := x } } : State).msix = s.msix := rfl
theorem State.out_withStepsSrv (x : Tab Step) : ({ s with srv := { s.srv with steps := x } } : State).out = s.out := rfl
theorem State.hostMem_withStepsSrv (x : Tab Step) : ({ s with srv := { s.srv with steps := x } } : State).hostMem = s.hostMem := rfl
theorem State.pending_withStepsSrv (x : Tab Step) : ({ s with srv := { s.srv with steps := x } } : State).pending = s.pending := rfl
theorem State.srv_seqs_withStepsSrv (x : Tab Step) : ({ s with srv := { s.srv with steps := x } } : State).srv.seqs = s.srv.seqs := rfl
theorem State.srv_groups_withStepsSrv (x : Tab Step) : ({ s with srv := { s.srv with steps := x } } : State).srv.groups = s.srv.groups := rfl
theorem State.srv_mem_withStepsSrv (x : Tab Step) : ({ s with srv := { s.srv with steps := x } } : State).srv.mem = s.srv.mem := rfl
theorem State.reg_of_withStepsSrv (x : Tab Step) (k0 : RegKind) (i0 : Nat) : ({ s with srv := { s.srv with steps := x } } : State).reg k0 i0 = s.reg k0 i0 := rfl
theorem State.rd_of_withStepsSrv (x : Tab Step) (f0 : Fld) (i0 : Nat) : ({ s with srv := { s.srv with steps := x } } : State).rd f0 i0 = s.rd f0 i0 := rfl
theorem State.live_of_withStepsSrv (x : Tab Step) : ({ s with srv := { s.srv with steps := x } } : State).live = s.live := rfl
theorem State.cog_of_withStepsSrv (x : Tab Step) (c0 : Nat) : ({ s with srv := { s.srv with steps := x } } : State).cog c0 = s.cog c0 := rfl
theorem State.hub_of_withStepsSrv (x : Tab Step) (h0 : Nat) : ({ s with srv := { s.srv with steps := x } } : State).hub h0 = s.hub h0 := rfl
theorem State.queue_of_withStepsSrv (x : Tab Step) (q0 : Nat) : ({ s with srv := { s.srv with steps := x } } : State).queue q0 = s.queue q0 := rfl
theorem State.cmd_of_withStepsSrv (x : Tab Step) (n0 : Nat) : ({ s with srv := { s.srv with steps := x } } : State).cmd n0 = s.cmd n0 := rfl
theorem State.task_of_withStepsSrv (x : Tab Step) (k0 : Nat) : ({ s with srv := { s.srv with steps := x } } : State).task k0 = s.task k0 := rfl
theorem State.aop_of_withStepsSrv (x : Tab Step) (n0 d0 : Nat) : ({ s with srv := { s.srv with steps := x } } : State).aop n0 d0 = s.aop n0 d0 := rfl
theorem State.tensor_of_withStepsSrv (x : Tab Step) (p0 t0 : Nat) : ({ s with srv := { s.srv with steps := x } } : State).tensor p0 t0 = s.tensor p0 t0 := rfl
theorem State.regionOf_of_withStepsSrv (x : Tab Step) (c0 : Nat) : ({ s with srv := { s.srv with steps := x } } : State).regionOf c0 = s.regionOf c0 := rfl
theorem State.port_of_withStepsSrv (x : Tab Step) (p0 : Nat) : ({ s with srv := { s.srv with steps := x } } : State).port p0 = s.port p0 := rfl
theorem State.chan_of_withStepsSrv (x : Tab Step) (c0 : Nat) : ({ s with srv := { s.srv with steps := x } } : State).chan c0 = s.chan c0 := rfl

theorem State.time_withChansLpx (x : Tab LpxChan) : ({ s with lpx := { s.lpx with chans := x } } : State).time = s.time := rfl
theorem State.work_withChansLpx (x : Tab LpxChan) : ({ s with lpx := { s.lpx with chans := x } } : State).work = s.work := rfl
theorem State.aclk_withChansLpx (x : Tab LpxChan) : ({ s with lpx := { s.lpx with chans := x } } : State).aclk = s.aclk := rfl
theorem State.clocks_withChansLpx (x : Tab LpxChan) : ({ s with lpx := { s.lpx with chans := x } } : State).clocks = s.clocks := rfl
theorem State.regs_withChansLpx (x : Tab LpxChan) : ({ s with lpx := { s.lpx with chans := x } } : State).regs = s.regs := rfl
theorem State.arr_withChansLpx (x : Tab LpxChan) : ({ s with lpx := { s.lpx with chans := x } } : State).arr = s.arr := rfl
theorem State.mem_withChansLpx (x : Tab LpxChan) : ({ s with lpx := { s.lpx with chans := x } } : State).mem = s.mem := rfl
theorem State.ctl_withChansLpx (x : Tab LpxChan) : ({ s with lpx := { s.lpx with chans := x } } : State).ctl = s.ctl := rfl
theorem State.blk_withChansLpx (x : Tab LpxChan) : ({ s with lpx := { s.lpx with chans := x } } : State).blk = s.blk := rfl
theorem State.srv_withChansLpx (x : Tab LpxChan) : ({ s with lpx := { s.lpx with chans := x } } : State).srv = s.srv := rfl
theorem State.intc_withChansLpx (x : Tab LpxChan) : ({ s with lpx := { s.lpx with chans := x } } : State).intc = s.intc := rfl
theorem State.obs_withChansLpx (x : Tab LpxChan) : ({ s with lpx := { s.lpx with chans := x } } : State).obs = s.obs := rfl
theorem State.rlt_withChansLpx (x : Tab LpxChan) : ({ s with lpx := { s.lpx with chans := x } } : State).rlt = s.rlt := rfl
theorem State.pci_withChansLpx (x : Tab LpxChan) : ({ s with lpx := { s.lpx with chans := x } } : State).pci = s.pci := rfl
theorem State.pwr_withChansLpx (x : Tab LpxChan) : ({ s with lpx := { s.lpx with chans := x } } : State).pwr = s.pwr := rfl
theorem State.sec_withChansLpx (x : Tab LpxChan) : ({ s with lpx := { s.lpx with chans := x } } : State).sec = s.sec := rfl
theorem State.pins_withChansLpx (x : Tab LpxChan) : ({ s with lpx := { s.lpx with chans := x } } : State).pins = s.pins := rfl
theorem State.board_withChansLpx (x : Tab LpxChan) : ({ s with lpx := { s.lpx with chans := x } } : State).board = s.board := rfl
theorem State.saved_withChansLpx (x : Tab LpxChan) : ({ s with lpx := { s.lpx with chans := x } } : State).saved = s.saved := rfl
theorem State.fresh_withChansLpx (x : Tab LpxChan) : ({ s with lpx := { s.lpx with chans := x } } : State).fresh = s.fresh := rfl
theorem State.beats_withChansLpx (x : Tab LpxChan) : ({ s with lpx := { s.lpx with chans := x } } : State).beats = s.beats := rfl
theorem State.msix_withChansLpx (x : Tab LpxChan) : ({ s with lpx := { s.lpx with chans := x } } : State).msix = s.msix := rfl
theorem State.out_withChansLpx (x : Tab LpxChan) : ({ s with lpx := { s.lpx with chans := x } } : State).out = s.out := rfl
theorem State.hostMem_withChansLpx (x : Tab LpxChan) : ({ s with lpx := { s.lpx with chans := x } } : State).hostMem = s.hostMem := rfl
theorem State.pending_withChansLpx (x : Tab LpxChan) : ({ s with lpx := { s.lpx with chans := x } } : State).pending = s.pending := rfl
theorem State.lpx_failed_withChansLpx (x : Tab LpxChan) : ({ s with lpx := { s.lpx with chans := x } } : State).lpx.failed = s.lpx.failed := rfl
theorem State.lpx_retired_withChansLpx (x : Tab LpxChan) : ({ s with lpx := { s.lpx with chans := x } } : State).lpx.retired = s.lpx.retired := rfl
theorem State.lpx_top_withChansLpx (x : Tab LpxChan) : ({ s with lpx := { s.lpx with chans := x } } : State).lpx.top = s.lpx.top := rfl
theorem State.lpx_remaps_withChansLpx (x : Tab LpxChan) : ({ s with lpx := { s.lpx with chans := x } } : State).lpx.remaps = s.lpx.remaps := rfl
theorem State.lpx_held_withChansLpx (x : Tab LpxChan) : ({ s with lpx := { s.lpx with chans := x } } : State).lpx.held = s.lpx.held := rfl
theorem State.lpx_heldNo_withChansLpx (x : Tab LpxChan) : ({ s with lpx := { s.lpx with chans := x } } : State).lpx.heldNo = s.lpx.heldNo := rfl
theorem State.reg_of_withChansLpx (x : Tab LpxChan) (k0 : RegKind) (i0 : Nat) : ({ s with lpx := { s.lpx with chans := x } } : State).reg k0 i0 = s.reg k0 i0 := rfl
theorem State.rd_of_withChansLpx (x : Tab LpxChan) (f0 : Fld) (i0 : Nat) : ({ s with lpx := { s.lpx with chans := x } } : State).rd f0 i0 = s.rd f0 i0 := rfl
theorem State.live_of_withChansLpx (x : Tab LpxChan) : ({ s with lpx := { s.lpx with chans := x } } : State).live = s.live := rfl
theorem State.cog_of_withChansLpx (x : Tab LpxChan) (c0 : Nat) : ({ s with lpx := { s.lpx with chans := x } } : State).cog c0 = s.cog c0 := rfl
theorem State.hub_of_withChansLpx (x : Tab LpxChan) (h0 : Nat) : ({ s with lpx := { s.lpx with chans := x } } : State).hub h0 = s.hub h0 := rfl
theorem State.queue_of_withChansLpx (x : Tab LpxChan) (q0 : Nat) : ({ s with lpx := { s.lpx with chans := x } } : State).queue q0 = s.queue q0 := rfl
theorem State.cmd_of_withChansLpx (x : Tab LpxChan) (n0 : Nat) : ({ s with lpx := { s.lpx with chans := x } } : State).cmd n0 = s.cmd n0 := rfl
theorem State.task_of_withChansLpx (x : Tab LpxChan) (k0 : Nat) : ({ s with lpx := { s.lpx with chans := x } } : State).task k0 = s.task k0 := rfl
theorem State.aop_of_withChansLpx (x : Tab LpxChan) (n0 d0 : Nat) : ({ s with lpx := { s.lpx with chans := x } } : State).aop n0 d0 = s.aop n0 d0 := rfl
theorem State.tensor_of_withChansLpx (x : Tab LpxChan) (p0 t0 : Nat) : ({ s with lpx := { s.lpx with chans := x } } : State).tensor p0 t0 = s.tensor p0 t0 := rfl
theorem State.regionOf_of_withChansLpx (x : Tab LpxChan) (c0 : Nat) : ({ s with lpx := { s.lpx with chans := x } } : State).regionOf c0 = s.regionOf c0 := rfl
theorem State.port_of_withChansLpx (x : Tab LpxChan) (p0 : Nat) : ({ s with lpx := { s.lpx with chans := x } } : State).port p0 = s.port p0 := rfl

theorem State.time_withPortsRlt (x : Tab Port) : ({ s with rlt := { s.rlt with ports := x } } : State).time = s.time := rfl
theorem State.work_withPortsRlt (x : Tab Port) : ({ s with rlt := { s.rlt with ports := x } } : State).work = s.work := rfl
theorem State.aclk_withPortsRlt (x : Tab Port) : ({ s with rlt := { s.rlt with ports := x } } : State).aclk = s.aclk := rfl
theorem State.clocks_withPortsRlt (x : Tab Port) : ({ s with rlt := { s.rlt with ports := x } } : State).clocks = s.clocks := rfl
theorem State.regs_withPortsRlt (x : Tab Port) : ({ s with rlt := { s.rlt with ports := x } } : State).regs = s.regs := rfl
theorem State.arr_withPortsRlt (x : Tab Port) : ({ s with rlt := { s.rlt with ports := x } } : State).arr = s.arr := rfl
theorem State.mem_withPortsRlt (x : Tab Port) : ({ s with rlt := { s.rlt with ports := x } } : State).mem = s.mem := rfl
theorem State.ctl_withPortsRlt (x : Tab Port) : ({ s with rlt := { s.rlt with ports := x } } : State).ctl = s.ctl := rfl
theorem State.blk_withPortsRlt (x : Tab Port) : ({ s with rlt := { s.rlt with ports := x } } : State).blk = s.blk := rfl
theorem State.srv_withPortsRlt (x : Tab Port) : ({ s with rlt := { s.rlt with ports := x } } : State).srv = s.srv := rfl
theorem State.intc_withPortsRlt (x : Tab Port) : ({ s with rlt := { s.rlt with ports := x } } : State).intc = s.intc := rfl
theorem State.obs_withPortsRlt (x : Tab Port) : ({ s with rlt := { s.rlt with ports := x } } : State).obs = s.obs := rfl
theorem State.lpx_withPortsRlt (x : Tab Port) : ({ s with rlt := { s.rlt with ports := x } } : State).lpx = s.lpx := rfl
theorem State.pci_withPortsRlt (x : Tab Port) : ({ s with rlt := { s.rlt with ports := x } } : State).pci = s.pci := rfl
theorem State.pwr_withPortsRlt (x : Tab Port) : ({ s with rlt := { s.rlt with ports := x } } : State).pwr = s.pwr := rfl
theorem State.sec_withPortsRlt (x : Tab Port) : ({ s with rlt := { s.rlt with ports := x } } : State).sec = s.sec := rfl
theorem State.pins_withPortsRlt (x : Tab Port) : ({ s with rlt := { s.rlt with ports := x } } : State).pins = s.pins := rfl
theorem State.board_withPortsRlt (x : Tab Port) : ({ s with rlt := { s.rlt with ports := x } } : State).board = s.board := rfl
theorem State.saved_withPortsRlt (x : Tab Port) : ({ s with rlt := { s.rlt with ports := x } } : State).saved = s.saved := rfl
theorem State.fresh_withPortsRlt (x : Tab Port) : ({ s with rlt := { s.rlt with ports := x } } : State).fresh = s.fresh := rfl
theorem State.beats_withPortsRlt (x : Tab Port) : ({ s with rlt := { s.rlt with ports := x } } : State).beats = s.beats := rfl
theorem State.msix_withPortsRlt (x : Tab Port) : ({ s with rlt := { s.rlt with ports := x } } : State).msix = s.msix := rfl
theorem State.out_withPortsRlt (x : Tab Port) : ({ s with rlt := { s.rlt with ports := x } } : State).out = s.out := rfl
theorem State.hostMem_withPortsRlt (x : Tab Port) : ({ s with rlt := { s.rlt with ports := x } } : State).hostMem = s.hostMem := rfl
theorem State.pending_withPortsRlt (x : Tab Port) : ({ s with rlt := { s.rlt with ports := x } } : State).pending = s.pending := rfl
theorem State.rlt_entries_withPortsRlt (x : Tab Port) : ({ s with rlt := { s.rlt with ports := x } } : State).rlt.entries = s.rlt.entries := rfl
theorem State.rlt_nextEntry_withPortsRlt (x : Tab Port) : ({ s with rlt := { s.rlt with ports := x } } : State).rlt.nextEntry = s.rlt.nextEntry := rfl
theorem State.rlt_cut_withPortsRlt (x : Tab Port) : ({ s with rlt := { s.rlt with ports := x } } : State).rlt.cut = s.rlt.cut := rfl
theorem State.rlt_msgs_withPortsRlt (x : Tab Port) : ({ s with rlt := { s.rlt with ports := x } } : State).rlt.msgs = s.rlt.msgs := rfl
theorem State.rlt_xfers_withPortsRlt (x : Tab Port) : ({ s with rlt := { s.rlt with ports := x } } : State).rlt.xfers = s.rlt.xfers := rfl
theorem State.rlt_xpos_withPortsRlt (x : Tab Port) : ({ s with rlt := { s.rlt with ports := x } } : State).rlt.xpos = s.rlt.xpos := rfl
theorem State.reg_of_withPortsRlt (x : Tab Port) (k0 : RegKind) (i0 : Nat) : ({ s with rlt := { s.rlt with ports := x } } : State).reg k0 i0 = s.reg k0 i0 := rfl
theorem State.rd_of_withPortsRlt (x : Tab Port) (f0 : Fld) (i0 : Nat) : ({ s with rlt := { s.rlt with ports := x } } : State).rd f0 i0 = s.rd f0 i0 := rfl
theorem State.live_of_withPortsRlt (x : Tab Port) : ({ s with rlt := { s.rlt with ports := x } } : State).live = s.live := rfl
theorem State.cog_of_withPortsRlt (x : Tab Port) (c0 : Nat) : ({ s with rlt := { s.rlt with ports := x } } : State).cog c0 = s.cog c0 := rfl
theorem State.hub_of_withPortsRlt (x : Tab Port) (h0 : Nat) : ({ s with rlt := { s.rlt with ports := x } } : State).hub h0 = s.hub h0 := rfl
theorem State.queue_of_withPortsRlt (x : Tab Port) (q0 : Nat) : ({ s with rlt := { s.rlt with ports := x } } : State).queue q0 = s.queue q0 := rfl
theorem State.cmd_of_withPortsRlt (x : Tab Port) (n0 : Nat) : ({ s with rlt := { s.rlt with ports := x } } : State).cmd n0 = s.cmd n0 := rfl
theorem State.task_of_withPortsRlt (x : Tab Port) (k0 : Nat) : ({ s with rlt := { s.rlt with ports := x } } : State).task k0 = s.task k0 := rfl
theorem State.aop_of_withPortsRlt (x : Tab Port) (n0 d0 : Nat) : ({ s with rlt := { s.rlt with ports := x } } : State).aop n0 d0 = s.aop n0 d0 := rfl
theorem State.tensor_of_withPortsRlt (x : Tab Port) (p0 t0 : Nat) : ({ s with rlt := { s.rlt with ports := x } } : State).tensor p0 t0 = s.tensor p0 t0 := rfl
theorem State.regionOf_of_withPortsRlt (x : Tab Port) (c0 : Nat) : ({ s with rlt := { s.rlt with ports := x } } : State).regionOf c0 = s.regionOf c0 := rfl
theorem State.chan_of_withPortsRlt (x : Tab Port) (c0 : Nat) : ({ s with rlt := { s.rlt with ports := x } } : State).chan c0 = s.chan c0 := rfl

theorem State.time_withMsgsRlt (x : List Msg) : ({ s with rlt := { s.rlt with msgs := x } } : State).time = s.time := rfl
theorem State.work_withMsgsRlt (x : List Msg) : ({ s with rlt := { s.rlt with msgs := x } } : State).work = s.work := rfl
theorem State.aclk_withMsgsRlt (x : List Msg) : ({ s with rlt := { s.rlt with msgs := x } } : State).aclk = s.aclk := rfl
theorem State.clocks_withMsgsRlt (x : List Msg) : ({ s with rlt := { s.rlt with msgs := x } } : State).clocks = s.clocks := rfl
theorem State.regs_withMsgsRlt (x : List Msg) : ({ s with rlt := { s.rlt with msgs := x } } : State).regs = s.regs := rfl
theorem State.arr_withMsgsRlt (x : List Msg) : ({ s with rlt := { s.rlt with msgs := x } } : State).arr = s.arr := rfl
theorem State.mem_withMsgsRlt (x : List Msg) : ({ s with rlt := { s.rlt with msgs := x } } : State).mem = s.mem := rfl
theorem State.ctl_withMsgsRlt (x : List Msg) : ({ s with rlt := { s.rlt with msgs := x } } : State).ctl = s.ctl := rfl
theorem State.blk_withMsgsRlt (x : List Msg) : ({ s with rlt := { s.rlt with msgs := x } } : State).blk = s.blk := rfl
theorem State.srv_withMsgsRlt (x : List Msg) : ({ s with rlt := { s.rlt with msgs := x } } : State).srv = s.srv := rfl
theorem State.intc_withMsgsRlt (x : List Msg) : ({ s with rlt := { s.rlt with msgs := x } } : State).intc = s.intc := rfl
theorem State.obs_withMsgsRlt (x : List Msg) : ({ s with rlt := { s.rlt with msgs := x } } : State).obs = s.obs := rfl
theorem State.lpx_withMsgsRlt (x : List Msg) : ({ s with rlt := { s.rlt with msgs := x } } : State).lpx = s.lpx := rfl
theorem State.pci_withMsgsRlt (x : List Msg) : ({ s with rlt := { s.rlt with msgs := x } } : State).pci = s.pci := rfl
theorem State.pwr_withMsgsRlt (x : List Msg) : ({ s with rlt := { s.rlt with msgs := x } } : State).pwr = s.pwr := rfl
theorem State.sec_withMsgsRlt (x : List Msg) : ({ s with rlt := { s.rlt with msgs := x } } : State).sec = s.sec := rfl
theorem State.pins_withMsgsRlt (x : List Msg) : ({ s with rlt := { s.rlt with msgs := x } } : State).pins = s.pins := rfl
theorem State.board_withMsgsRlt (x : List Msg) : ({ s with rlt := { s.rlt with msgs := x } } : State).board = s.board := rfl
theorem State.saved_withMsgsRlt (x : List Msg) : ({ s with rlt := { s.rlt with msgs := x } } : State).saved = s.saved := rfl
theorem State.fresh_withMsgsRlt (x : List Msg) : ({ s with rlt := { s.rlt with msgs := x } } : State).fresh = s.fresh := rfl
theorem State.beats_withMsgsRlt (x : List Msg) : ({ s with rlt := { s.rlt with msgs := x } } : State).beats = s.beats := rfl
theorem State.msix_withMsgsRlt (x : List Msg) : ({ s with rlt := { s.rlt with msgs := x } } : State).msix = s.msix := rfl
theorem State.out_withMsgsRlt (x : List Msg) : ({ s with rlt := { s.rlt with msgs := x } } : State).out = s.out := rfl
theorem State.hostMem_withMsgsRlt (x : List Msg) : ({ s with rlt := { s.rlt with msgs := x } } : State).hostMem = s.hostMem := rfl
theorem State.pending_withMsgsRlt (x : List Msg) : ({ s with rlt := { s.rlt with msgs := x } } : State).pending = s.pending := rfl
theorem State.rlt_ports_withMsgsRlt (x : List Msg) : ({ s with rlt := { s.rlt with msgs := x } } : State).rlt.ports = s.rlt.ports := rfl
theorem State.rlt_entries_withMsgsRlt (x : List Msg) : ({ s with rlt := { s.rlt with msgs := x } } : State).rlt.entries = s.rlt.entries := rfl
theorem State.rlt_nextEntry_withMsgsRlt (x : List Msg) : ({ s with rlt := { s.rlt with msgs := x } } : State).rlt.nextEntry = s.rlt.nextEntry := rfl
theorem State.rlt_cut_withMsgsRlt (x : List Msg) : ({ s with rlt := { s.rlt with msgs := x } } : State).rlt.cut = s.rlt.cut := rfl
theorem State.rlt_xfers_withMsgsRlt (x : List Msg) : ({ s with rlt := { s.rlt with msgs := x } } : State).rlt.xfers = s.rlt.xfers := rfl
theorem State.rlt_xpos_withMsgsRlt (x : List Msg) : ({ s with rlt := { s.rlt with msgs := x } } : State).rlt.xpos = s.rlt.xpos := rfl
theorem State.reg_of_withMsgsRlt (x : List Msg) (k0 : RegKind) (i0 : Nat) : ({ s with rlt := { s.rlt with msgs := x } } : State).reg k0 i0 = s.reg k0 i0 := rfl
theorem State.rd_of_withMsgsRlt (x : List Msg) (f0 : Fld) (i0 : Nat) : ({ s with rlt := { s.rlt with msgs := x } } : State).rd f0 i0 = s.rd f0 i0 := rfl
theorem State.live_of_withMsgsRlt (x : List Msg) : ({ s with rlt := { s.rlt with msgs := x } } : State).live = s.live := rfl
theorem State.cog_of_withMsgsRlt (x : List Msg) (c0 : Nat) : ({ s with rlt := { s.rlt with msgs := x } } : State).cog c0 = s.cog c0 := rfl
theorem State.hub_of_withMsgsRlt (x : List Msg) (h0 : Nat) : ({ s with rlt := { s.rlt with msgs := x } } : State).hub h0 = s.hub h0 := rfl
theorem State.queue_of_withMsgsRlt (x : List Msg) (q0 : Nat) : ({ s with rlt := { s.rlt with msgs := x } } : State).queue q0 = s.queue q0 := rfl
theorem State.cmd_of_withMsgsRlt (x : List Msg) (n0 : Nat) : ({ s with rlt := { s.rlt with msgs := x } } : State).cmd n0 = s.cmd n0 := rfl
theorem State.task_of_withMsgsRlt (x : List Msg) (k0 : Nat) : ({ s with rlt := { s.rlt with msgs := x } } : State).task k0 = s.task k0 := rfl
theorem State.aop_of_withMsgsRlt (x : List Msg) (n0 d0 : Nat) : ({ s with rlt := { s.rlt with msgs := x } } : State).aop n0 d0 = s.aop n0 d0 := rfl
theorem State.tensor_of_withMsgsRlt (x : List Msg) (p0 t0 : Nat) : ({ s with rlt := { s.rlt with msgs := x } } : State).tensor p0 t0 = s.tensor p0 t0 := rfl
theorem State.regionOf_of_withMsgsRlt (x : List Msg) (c0 : Nat) : ({ s with rlt := { s.rlt with msgs := x } } : State).regionOf c0 = s.regionOf c0 := rfl
theorem State.port_of_withMsgsRlt (x : List Msg) (p0 : Nat) : ({ s with rlt := { s.rlt with msgs := x } } : State).port p0 = s.port p0 := rfl
theorem State.chan_of_withMsgsRlt (x : List Msg) (c0 : Nat) : ({ s with rlt := { s.rlt with msgs := x } } : State).chan c0 = s.chan c0 := rfl

/-! ### `setReg` -/

@[simp] theorem State.time_setReg (k : RegKind) (i v : Nat) : (s.setReg k i v).time = s.time := State.time_withRegs s _
@[simp] theorem State.work_setReg (k : RegKind) (i v : Nat) : (s.setReg k i v).work = s.work := State.work_withRegs s _
@[simp] theorem State.aclk_setReg (k : RegKind) (i v : Nat) : (s.setReg k i v).aclk = s.aclk := State.aclk_withRegs s _
@[simp] theorem State.clocks_setReg (k : RegKind) (i v : Nat) : (s.setReg k i v).clocks = s.clocks := State.clocks_withRegs s _
@[simp] theorem State.arr_setReg (k : RegKind) (i v : Nat) : (s.setReg k i v).arr = s.arr := State.arr_withRegs s _
@[simp] theorem State.mem_setReg (k : RegKind) (i v : Nat) : (s.setReg k i v).mem = s.mem := State.mem_withRegs s _
@[simp] theorem State.ctl_setReg (k : RegKind) (i v : Nat) : (s.setReg k i v).ctl = s.ctl := State.ctl_withRegs s _
@[simp] theorem State.blk_setReg (k : RegKind) (i v : Nat) : (s.setReg k i v).blk = s.blk := State.blk_withRegs s _
@[simp] theorem State.srv_setReg (k : RegKind) (i v : Nat) : (s.setReg k i v).srv = s.srv := State.srv_withRegs s _
@[simp] theorem State.intc_setReg (k : RegKind) (i v : Nat) : (s.setReg k i v).intc = s.intc := State.intc_withRegs s _
@[simp] theorem State.obs_setReg (k : RegKind) (i v : Nat) : (s.setReg k i v).obs = s.obs := State.obs_withRegs s _
@[simp] theorem State.lpx_setReg (k : RegKind) (i v : Nat) : (s.setReg k i v).lpx = s.lpx := State.lpx_withRegs s _
@[simp] theorem State.rlt_setReg (k : RegKind) (i v : Nat) : (s.setReg k i v).rlt = s.rlt := State.rlt_withRegs s _
@[simp] theorem State.pci_setReg (k : RegKind) (i v : Nat) : (s.setReg k i v).pci = s.pci := State.pci_withRegs s _
@[simp] theorem State.pwr_setReg (k : RegKind) (i v : Nat) : (s.setReg k i v).pwr = s.pwr := State.pwr_withRegs s _
@[simp] theorem State.sec_setReg (k : RegKind) (i v : Nat) : (s.setReg k i v).sec = s.sec := State.sec_withRegs s _
@[simp] theorem State.pins_setReg (k : RegKind) (i v : Nat) : (s.setReg k i v).pins = s.pins := State.pins_withRegs s _
@[simp] theorem State.board_setReg (k : RegKind) (i v : Nat) : (s.setReg k i v).board = s.board := State.board_withRegs s _
@[simp] theorem State.saved_setReg (k : RegKind) (i v : Nat) : (s.setReg k i v).saved = s.saved := State.saved_withRegs s _
@[simp] theorem State.fresh_setReg (k : RegKind) (i v : Nat) : (s.setReg k i v).fresh = s.fresh := State.fresh_withRegs s _
@[simp] theorem State.beats_setReg (k : RegKind) (i v : Nat) : (s.setReg k i v).beats = s.beats := State.beats_withRegs s _
@[simp] theorem State.msix_setReg (k : RegKind) (i v : Nat) : (s.setReg k i v).msix = s.msix := State.msix_withRegs s _
@[simp] theorem State.out_setReg (k : RegKind) (i v : Nat) : (s.setReg k i v).out = s.out := State.out_withRegs s _
@[simp] theorem State.hostMem_setReg (k : RegKind) (i v : Nat) : (s.setReg k i v).hostMem = s.hostMem := State.hostMem_withRegs s _
@[simp] theorem State.pending_setReg (k : RegKind) (i v : Nat) : (s.setReg k i v).pending = s.pending := State.pending_withRegs s _
@[simp] theorem State.cog_of_setReg (k : RegKind) (i v : Nat) (c0 : Nat) : (s.setReg k i v).cog c0 = s.cog c0 := State.cog_of_withRegs s _ _
@[simp] theorem State.hub_of_setReg (k : RegKind) (i v : Nat) (h0 : Nat) : (s.setReg k i v).hub h0 = s.hub h0 := State.hub_of_withRegs s _ _
@[simp] theorem State.queue_of_setReg (k : RegKind) (i v : Nat) (q0 : Nat) : (s.setReg k i v).queue q0 = s.queue q0 := State.queue_of_withRegs s _ _
@[simp] theorem State.cmd_of_setReg (k : RegKind) (i v : Nat) (n0 : Nat) : (s.setReg k i v).cmd n0 = s.cmd n0 := State.cmd_of_withRegs s _ _
@[simp] theorem State.task_of_setReg (k : RegKind) (i v : Nat) (k0 : Nat) : (s.setReg k i v).task k0 = s.task k0 := State.task_of_withRegs s _ _
@[simp] theorem State.aop_of_setReg (k : RegKind) (i v : Nat) (n0 d0 : Nat) : (s.setReg k i v).aop n0 d0 = s.aop n0 d0 := State.aop_of_withRegs s _ _ _
@[simp] theorem State.tensor_of_setReg (k : RegKind) (i v : Nat) (p0 t0 : Nat) : (s.setReg k i v).tensor p0 t0 = s.tensor p0 t0 := State.tensor_of_withRegs s _ _ _
@[simp] theorem State.regionOf_of_setReg (k : RegKind) (i v : Nat) (c0 : Nat) : (s.setReg k i v).regionOf c0 = s.regionOf c0 := State.regionOf_of_withRegs s _ _
@[simp] theorem State.port_of_setReg (k : RegKind) (i v : Nat) (p0 : Nat) : (s.setReg k i v).port p0 = s.port p0 := State.port_of_withRegs s _ _
@[simp] theorem State.chan_of_setReg (k : RegKind) (i v : Nat) (c0 : Nat) : (s.setReg k i v).chan c0 = s.chan c0 := State.chan_of_withRegs s _ _

/-! ### `wr` -/

@[simp] theorem State.time_wr (f : Fld) (i v : Nat) : (s.wr f i v).time = s.time := State.time_withRegs s _
@[simp] theorem State.work_wr (f : Fld) (i v : Nat) : (s.wr f i v).work = s.work := State.work_withRegs s _
@[simp] theorem State.aclk_wr (f : Fld) (i v : Nat) : (s.wr f i v).aclk = s.aclk := State.aclk_withRegs s _
@[simp] theorem State.clocks_wr (f : Fld) (i v : Nat) : (s.wr f i v).clocks = s.clocks := State.clocks_withRegs s _
@[simp] theorem State.arr_wr (f : Fld) (i v : Nat) : (s.wr f i v).arr = s.arr := State.arr_withRegs s _
@[simp] theorem State.mem_wr (f : Fld) (i v : Nat) : (s.wr f i v).mem = s.mem := State.mem_withRegs s _
@[simp] theorem State.ctl_wr (f : Fld) (i v : Nat) : (s.wr f i v).ctl = s.ctl := State.ctl_withRegs s _
@[simp] theorem State.blk_wr (f : Fld) (i v : Nat) : (s.wr f i v).blk = s.blk := State.blk_withRegs s _
@[simp] theorem State.srv_wr (f : Fld) (i v : Nat) : (s.wr f i v).srv = s.srv := State.srv_withRegs s _
@[simp] theorem State.intc_wr (f : Fld) (i v : Nat) : (s.wr f i v).intc = s.intc := State.intc_withRegs s _
@[simp] theorem State.obs_wr (f : Fld) (i v : Nat) : (s.wr f i v).obs = s.obs := State.obs_withRegs s _
@[simp] theorem State.lpx_wr (f : Fld) (i v : Nat) : (s.wr f i v).lpx = s.lpx := State.lpx_withRegs s _
@[simp] theorem State.rlt_wr (f : Fld) (i v : Nat) : (s.wr f i v).rlt = s.rlt := State.rlt_withRegs s _
@[simp] theorem State.pci_wr (f : Fld) (i v : Nat) : (s.wr f i v).pci = s.pci := State.pci_withRegs s _
@[simp] theorem State.pwr_wr (f : Fld) (i v : Nat) : (s.wr f i v).pwr = s.pwr := State.pwr_withRegs s _
@[simp] theorem State.sec_wr (f : Fld) (i v : Nat) : (s.wr f i v).sec = s.sec := State.sec_withRegs s _
@[simp] theorem State.pins_wr (f : Fld) (i v : Nat) : (s.wr f i v).pins = s.pins := State.pins_withRegs s _
@[simp] theorem State.board_wr (f : Fld) (i v : Nat) : (s.wr f i v).board = s.board := State.board_withRegs s _
@[simp] theorem State.saved_wr (f : Fld) (i v : Nat) : (s.wr f i v).saved = s.saved := State.saved_withRegs s _
@[simp] theorem State.fresh_wr (f : Fld) (i v : Nat) : (s.wr f i v).fresh = s.fresh := State.fresh_withRegs s _
@[simp] theorem State.beats_wr (f : Fld) (i v : Nat) : (s.wr f i v).beats = s.beats := State.beats_withRegs s _
@[simp] theorem State.msix_wr (f : Fld) (i v : Nat) : (s.wr f i v).msix = s.msix := State.msix_withRegs s _
@[simp] theorem State.out_wr (f : Fld) (i v : Nat) : (s.wr f i v).out = s.out := State.out_withRegs s _
@[simp] theorem State.hostMem_wr (f : Fld) (i v : Nat) : (s.wr f i v).hostMem = s.hostMem := State.hostMem_withRegs s _
@[simp] theorem State.pending_wr (f : Fld) (i v : Nat) : (s.wr f i v).pending = s.pending := State.pending_withRegs s _
@[simp] theorem State.cog_of_wr (f : Fld) (i v : Nat) (c0 : Nat) : (s.wr f i v).cog c0 = s.cog c0 := State.cog_of_withRegs s _ _
@[simp] theorem State.hub_of_wr (f : Fld) (i v : Nat) (h0 : Nat) : (s.wr f i v).hub h0 = s.hub h0 := State.hub_of_withRegs s _ _
@[simp] theorem State.queue_of_wr (f : Fld) (i v : Nat) (q0 : Nat) : (s.wr f i v).queue q0 = s.queue q0 := State.queue_of_withRegs s _ _
@[simp] theorem State.cmd_of_wr (f : Fld) (i v : Nat) (n0 : Nat) : (s.wr f i v).cmd n0 = s.cmd n0 := State.cmd_of_withRegs s _ _
@[simp] theorem State.task_of_wr (f : Fld) (i v : Nat) (k0 : Nat) : (s.wr f i v).task k0 = s.task k0 := State.task_of_withRegs s _ _
@[simp] theorem State.aop_of_wr (f : Fld) (i v : Nat) (n0 d0 : Nat) : (s.wr f i v).aop n0 d0 = s.aop n0 d0 := State.aop_of_withRegs s _ _ _
@[simp] theorem State.tensor_of_wr (f : Fld) (i v : Nat) (p0 t0 : Nat) : (s.wr f i v).tensor p0 t0 = s.tensor p0 t0 := State.tensor_of_withRegs s _ _ _
@[simp] theorem State.regionOf_of_wr (f : Fld) (i v : Nat) (c0 : Nat) : (s.wr f i v).regionOf c0 = s.regionOf c0 := State.regionOf_of_withRegs s _ _
@[simp] theorem State.port_of_wr (f : Fld) (i v : Nat) (p0 : Nat) : (s.wr f i v).port p0 = s.port p0 := State.port_of_withRegs s _ _
@[simp] theorem State.chan_of_wr (f : Fld) (i v : Nat) (c0 : Nat) : (s.wr f i v).chan c0 = s.chan c0 := State.chan_of_withRegs s _ _

/-! ### `put` -/

@[simp] theorem State.time_put (f : Fld) (i : Nat) (b : Bool) : (s.put f i b).time = s.time := State.time_withRegs s _
@[simp] theorem State.work_put (f : Fld) (i : Nat) (b : Bool) : (s.put f i b).work = s.work := State.work_withRegs s _
@[simp] theorem State.aclk_put (f : Fld) (i : Nat) (b : Bool) : (s.put f i b).aclk = s.aclk := State.aclk_withRegs s _
@[simp] theorem State.clocks_put (f : Fld) (i : Nat) (b : Bool) : (s.put f i b).clocks = s.clocks := State.clocks_withRegs s _
@[simp] theorem State.arr_put (f : Fld) (i : Nat) (b : Bool) : (s.put f i b).arr = s.arr := State.arr_withRegs s _
@[simp] theorem State.mem_put (f : Fld) (i : Nat) (b : Bool) : (s.put f i b).mem = s.mem := State.mem_withRegs s _
@[simp] theorem State.ctl_put (f : Fld) (i : Nat) (b : Bool) : (s.put f i b).ctl = s.ctl := State.ctl_withRegs s _
@[simp] theorem State.blk_put (f : Fld) (i : Nat) (b : Bool) : (s.put f i b).blk = s.blk := State.blk_withRegs s _
@[simp] theorem State.srv_put (f : Fld) (i : Nat) (b : Bool) : (s.put f i b).srv = s.srv := State.srv_withRegs s _
@[simp] theorem State.intc_put (f : Fld) (i : Nat) (b : Bool) : (s.put f i b).intc = s.intc := State.intc_withRegs s _
@[simp] theorem State.obs_put (f : Fld) (i : Nat) (b : Bool) : (s.put f i b).obs = s.obs := State.obs_withRegs s _
@[simp] theorem State.lpx_put (f : Fld) (i : Nat) (b : Bool) : (s.put f i b).lpx = s.lpx := State.lpx_withRegs s _
@[simp] theorem State.rlt_put (f : Fld) (i : Nat) (b : Bool) : (s.put f i b).rlt = s.rlt := State.rlt_withRegs s _
@[simp] theorem State.pci_put (f : Fld) (i : Nat) (b : Bool) : (s.put f i b).pci = s.pci := State.pci_withRegs s _
@[simp] theorem State.pwr_put (f : Fld) (i : Nat) (b : Bool) : (s.put f i b).pwr = s.pwr := State.pwr_withRegs s _
@[simp] theorem State.sec_put (f : Fld) (i : Nat) (b : Bool) : (s.put f i b).sec = s.sec := State.sec_withRegs s _
@[simp] theorem State.pins_put (f : Fld) (i : Nat) (b : Bool) : (s.put f i b).pins = s.pins := State.pins_withRegs s _
@[simp] theorem State.board_put (f : Fld) (i : Nat) (b : Bool) : (s.put f i b).board = s.board := State.board_withRegs s _
@[simp] theorem State.saved_put (f : Fld) (i : Nat) (b : Bool) : (s.put f i b).saved = s.saved := State.saved_withRegs s _
@[simp] theorem State.fresh_put (f : Fld) (i : Nat) (b : Bool) : (s.put f i b).fresh = s.fresh := State.fresh_withRegs s _
@[simp] theorem State.beats_put (f : Fld) (i : Nat) (b : Bool) : (s.put f i b).beats = s.beats := State.beats_withRegs s _
@[simp] theorem State.msix_put (f : Fld) (i : Nat) (b : Bool) : (s.put f i b).msix = s.msix := State.msix_withRegs s _
@[simp] theorem State.out_put (f : Fld) (i : Nat) (b : Bool) : (s.put f i b).out = s.out := State.out_withRegs s _
@[simp] theorem State.hostMem_put (f : Fld) (i : Nat) (b : Bool) : (s.put f i b).hostMem = s.hostMem := State.hostMem_withRegs s _
@[simp] theorem State.pending_put (f : Fld) (i : Nat) (b : Bool) : (s.put f i b).pending = s.pending := State.pending_withRegs s _
@[simp] theorem State.cog_of_put (f : Fld) (i : Nat) (b : Bool) (c0 : Nat) : (s.put f i b).cog c0 = s.cog c0 := State.cog_of_withRegs s _ _
@[simp] theorem State.hub_of_put (f : Fld) (i : Nat) (b : Bool) (h0 : Nat) : (s.put f i b).hub h0 = s.hub h0 := State.hub_of_withRegs s _ _
@[simp] theorem State.queue_of_put (f : Fld) (i : Nat) (b : Bool) (q0 : Nat) : (s.put f i b).queue q0 = s.queue q0 := State.queue_of_withRegs s _ _
@[simp] theorem State.cmd_of_put (f : Fld) (i : Nat) (b : Bool) (n0 : Nat) : (s.put f i b).cmd n0 = s.cmd n0 := State.cmd_of_withRegs s _ _
@[simp] theorem State.task_of_put (f : Fld) (i : Nat) (b : Bool) (k0 : Nat) : (s.put f i b).task k0 = s.task k0 := State.task_of_withRegs s _ _
@[simp] theorem State.aop_of_put (f : Fld) (i : Nat) (b : Bool) (n0 d0 : Nat) : (s.put f i b).aop n0 d0 = s.aop n0 d0 := State.aop_of_withRegs s _ _ _
@[simp] theorem State.tensor_of_put (f : Fld) (i : Nat) (b : Bool) (p0 t0 : Nat) : (s.put f i b).tensor p0 t0 = s.tensor p0 t0 := State.tensor_of_withRegs s _ _ _
@[simp] theorem State.regionOf_of_put (f : Fld) (i : Nat) (b : Bool) (c0 : Nat) : (s.put f i b).regionOf c0 = s.regionOf c0 := State.regionOf_of_withRegs s _ _
@[simp] theorem State.port_of_put (f : Fld) (i : Nat) (b : Bool) (p0 : Nat) : (s.put f i b).port p0 = s.port p0 := State.port_of_withRegs s _ _
@[simp] theorem State.chan_of_put (f : Fld) (i : Nat) (b : Bool) (c0 : Nat) : (s.put f i b).chan c0 = s.chan c0 := State.chan_of_withRegs s _ _

/-! ### `count` -/

@[simp] theorem State.time_count (f : Fld) (i n : Nat) : (s.count f i n).time = s.time := State.time_withRegs s _
@[simp] theorem State.work_count (f : Fld) (i n : Nat) : (s.count f i n).work = s.work := State.work_withRegs s _
@[simp] theorem State.aclk_count (f : Fld) (i n : Nat) : (s.count f i n).aclk = s.aclk := State.aclk_withRegs s _
@[simp] theorem State.clocks_count (f : Fld) (i n : Nat) : (s.count f i n).clocks = s.clocks := State.clocks_withRegs s _
@[simp] theorem State.arr_count (f : Fld) (i n : Nat) : (s.count f i n).arr = s.arr := State.arr_withRegs s _
@[simp] theorem State.mem_count (f : Fld) (i n : Nat) : (s.count f i n).mem = s.mem := State.mem_withRegs s _
@[simp] theorem State.ctl_count (f : Fld) (i n : Nat) : (s.count f i n).ctl = s.ctl := State.ctl_withRegs s _
@[simp] theorem State.blk_count (f : Fld) (i n : Nat) : (s.count f i n).blk = s.blk := State.blk_withRegs s _
@[simp] theorem State.srv_count (f : Fld) (i n : Nat) : (s.count f i n).srv = s.srv := State.srv_withRegs s _
@[simp] theorem State.intc_count (f : Fld) (i n : Nat) : (s.count f i n).intc = s.intc := State.intc_withRegs s _
@[simp] theorem State.obs_count (f : Fld) (i n : Nat) : (s.count f i n).obs = s.obs := State.obs_withRegs s _
@[simp] theorem State.lpx_count (f : Fld) (i n : Nat) : (s.count f i n).lpx = s.lpx := State.lpx_withRegs s _
@[simp] theorem State.rlt_count (f : Fld) (i n : Nat) : (s.count f i n).rlt = s.rlt := State.rlt_withRegs s _
@[simp] theorem State.pci_count (f : Fld) (i n : Nat) : (s.count f i n).pci = s.pci := State.pci_withRegs s _
@[simp] theorem State.pwr_count (f : Fld) (i n : Nat) : (s.count f i n).pwr = s.pwr := State.pwr_withRegs s _
@[simp] theorem State.sec_count (f : Fld) (i n : Nat) : (s.count f i n).sec = s.sec := State.sec_withRegs s _
@[simp] theorem State.pins_count (f : Fld) (i n : Nat) : (s.count f i n).pins = s.pins := State.pins_withRegs s _
@[simp] theorem State.board_count (f : Fld) (i n : Nat) : (s.count f i n).board = s.board := State.board_withRegs s _
@[simp] theorem State.saved_count (f : Fld) (i n : Nat) : (s.count f i n).saved = s.saved := State.saved_withRegs s _
@[simp] theorem State.fresh_count (f : Fld) (i n : Nat) : (s.count f i n).fresh = s.fresh := State.fresh_withRegs s _
@[simp] theorem State.beats_count (f : Fld) (i n : Nat) : (s.count f i n).beats = s.beats := State.beats_withRegs s _
@[simp] theorem State.msix_count (f : Fld) (i n : Nat) : (s.count f i n).msix = s.msix := State.msix_withRegs s _
@[simp] theorem State.out_count (f : Fld) (i n : Nat) : (s.count f i n).out = s.out := State.out_withRegs s _
@[simp] theorem State.hostMem_count (f : Fld) (i n : Nat) : (s.count f i n).hostMem = s.hostMem := State.hostMem_withRegs s _
@[simp] theorem State.pending_count (f : Fld) (i n : Nat) : (s.count f i n).pending = s.pending := State.pending_withRegs s _
@[simp] theorem State.cog_of_count (f : Fld) (i n : Nat) (c0 : Nat) : (s.count f i n).cog c0 = s.cog c0 := State.cog_of_withRegs s _ _
@[simp] theorem State.hub_of_count (f : Fld) (i n : Nat) (h0 : Nat) : (s.count f i n).hub h0 = s.hub h0 := State.hub_of_withRegs s _ _
@[simp] theorem State.queue_of_count (f : Fld) (i n : Nat) (q0 : Nat) : (s.count f i n).queue q0 = s.queue q0 := State.queue_of_withRegs s _ _
@[simp] theorem State.cmd_of_count (f : Fld) (i n : Nat) (n0 : Nat) : (s.count f i n).cmd n0 = s.cmd n0 := State.cmd_of_withRegs s _ _
@[simp] theorem State.task_of_count (f : Fld) (i n : Nat) (k0 : Nat) : (s.count f i n).task k0 = s.task k0 := State.task_of_withRegs s _ _
@[simp] theorem State.aop_of_count (f : Fld) (i n : Nat) (n0 d0 : Nat) : (s.count f i n).aop n0 d0 = s.aop n0 d0 := State.aop_of_withRegs s _ _ _
@[simp] theorem State.tensor_of_count (f : Fld) (i n : Nat) (p0 t0 : Nat) : (s.count f i n).tensor p0 t0 = s.tensor p0 t0 := State.tensor_of_withRegs s _ _ _
@[simp] theorem State.regionOf_of_count (f : Fld) (i n : Nat) (c0 : Nat) : (s.count f i n).regionOf c0 = s.regionOf c0 := State.regionOf_of_withRegs s _ _
@[simp] theorem State.port_of_count (f : Fld) (i n : Nat) (p0 : Nat) : (s.count f i n).port p0 = s.port p0 := State.port_of_withRegs s _ _
@[simp] theorem State.chan_of_count (f : Fld) (i n : Nat) (c0 : Nat) : (s.count f i n).chan c0 = s.chan c0 := State.chan_of_withRegs s _ _

/-! ### `wrSat` -/

@[simp] theorem State.time_wrSat (f : Fld) (i v : Nat) : (s.wrSat f i v).time = s.time := State.time_withRegs s _
@[simp] theorem State.work_wrSat (f : Fld) (i v : Nat) : (s.wrSat f i v).work = s.work := State.work_withRegs s _
@[simp] theorem State.aclk_wrSat (f : Fld) (i v : Nat) : (s.wrSat f i v).aclk = s.aclk := State.aclk_withRegs s _
@[simp] theorem State.clocks_wrSat (f : Fld) (i v : Nat) : (s.wrSat f i v).clocks = s.clocks := State.clocks_withRegs s _
@[simp] theorem State.arr_wrSat (f : Fld) (i v : Nat) : (s.wrSat f i v).arr = s.arr := State.arr_withRegs s _
@[simp] theorem State.mem_wrSat (f : Fld) (i v : Nat) : (s.wrSat f i v).mem = s.mem := State.mem_withRegs s _
@[simp] theorem State.ctl_wrSat (f : Fld) (i v : Nat) : (s.wrSat f i v).ctl = s.ctl := State.ctl_withRegs s _
@[simp] theorem State.blk_wrSat (f : Fld) (i v : Nat) : (s.wrSat f i v).blk = s.blk := State.blk_withRegs s _
@[simp] theorem State.srv_wrSat (f : Fld) (i v : Nat) : (s.wrSat f i v).srv = s.srv := State.srv_withRegs s _
@[simp] theorem State.intc_wrSat (f : Fld) (i v : Nat) : (s.wrSat f i v).intc = s.intc := State.intc_withRegs s _
@[simp] theorem State.obs_wrSat (f : Fld) (i v : Nat) : (s.wrSat f i v).obs = s.obs := State.obs_withRegs s _
@[simp] theorem State.lpx_wrSat (f : Fld) (i v : Nat) : (s.wrSat f i v).lpx = s.lpx := State.lpx_withRegs s _
@[simp] theorem State.rlt_wrSat (f : Fld) (i v : Nat) : (s.wrSat f i v).rlt = s.rlt := State.rlt_withRegs s _
@[simp] theorem State.pci_wrSat (f : Fld) (i v : Nat) : (s.wrSat f i v).pci = s.pci := State.pci_withRegs s _
@[simp] theorem State.pwr_wrSat (f : Fld) (i v : Nat) : (s.wrSat f i v).pwr = s.pwr := State.pwr_withRegs s _
@[simp] theorem State.sec_wrSat (f : Fld) (i v : Nat) : (s.wrSat f i v).sec = s.sec := State.sec_withRegs s _
@[simp] theorem State.pins_wrSat (f : Fld) (i v : Nat) : (s.wrSat f i v).pins = s.pins := State.pins_withRegs s _
@[simp] theorem State.board_wrSat (f : Fld) (i v : Nat) : (s.wrSat f i v).board = s.board := State.board_withRegs s _
@[simp] theorem State.saved_wrSat (f : Fld) (i v : Nat) : (s.wrSat f i v).saved = s.saved := State.saved_withRegs s _
@[simp] theorem State.fresh_wrSat (f : Fld) (i v : Nat) : (s.wrSat f i v).fresh = s.fresh := State.fresh_withRegs s _
@[simp] theorem State.beats_wrSat (f : Fld) (i v : Nat) : (s.wrSat f i v).beats = s.beats := State.beats_withRegs s _
@[simp] theorem State.msix_wrSat (f : Fld) (i v : Nat) : (s.wrSat f i v).msix = s.msix := State.msix_withRegs s _
@[simp] theorem State.out_wrSat (f : Fld) (i v : Nat) : (s.wrSat f i v).out = s.out := State.out_withRegs s _
@[simp] theorem State.hostMem_wrSat (f : Fld) (i v : Nat) : (s.wrSat f i v).hostMem = s.hostMem := State.hostMem_withRegs s _
@[simp] theorem State.pending_wrSat (f : Fld) (i v : Nat) : (s.wrSat f i v).pending = s.pending := State.pending_withRegs s _
@[simp] theorem State.cog_of_wrSat (f : Fld) (i v : Nat) (c0 : Nat) : (s.wrSat f i v).cog c0 = s.cog c0 := State.cog_of_withRegs s _ _
@[simp] theorem State.hub_of_wrSat (f : Fld) (i v : Nat) (h0 : Nat) : (s.wrSat f i v).hub h0 = s.hub h0 := State.hub_of_withRegs s _ _
@[simp] theorem State.queue_of_wrSat (f : Fld) (i v : Nat) (q0 : Nat) : (s.wrSat f i v).queue q0 = s.queue q0 := State.queue_of_withRegs s _ _
@[simp] theorem State.cmd_of_wrSat (f : Fld) (i v : Nat) (n0 : Nat) : (s.wrSat f i v).cmd n0 = s.cmd n0 := State.cmd_of_withRegs s _ _
@[simp] theorem State.task_of_wrSat (f : Fld) (i v : Nat) (k0 : Nat) : (s.wrSat f i v).task k0 = s.task k0 := State.task_of_withRegs s _ _
@[simp] theorem State.aop_of_wrSat (f : Fld) (i v : Nat) (n0 d0 : Nat) : (s.wrSat f i v).aop n0 d0 = s.aop n0 d0 := State.aop_of_withRegs s _ _ _
@[simp] theorem State.tensor_of_wrSat (f : Fld) (i v : Nat) (p0 t0 : Nat) : (s.wrSat f i v).tensor p0 t0 = s.tensor p0 t0 := State.tensor_of_withRegs s _ _ _
@[simp] theorem State.regionOf_of_wrSat (f : Fld) (i v : Nat) (c0 : Nat) : (s.wrSat f i v).regionOf c0 = s.regionOf c0 := State.regionOf_of_withRegs s _ _
@[simp] theorem State.port_of_wrSat (f : Fld) (i v : Nat) (p0 : Nat) : (s.wrSat f i v).port p0 = s.port p0 := State.port_of_withRegs s _ _
@[simp] theorem State.chan_of_wrSat (f : Fld) (i v : Nat) (c0 : Nat) : (s.wrSat f i v).chan c0 = s.chan c0 := State.chan_of_withRegs s _ _

/-! ### `putBit` -/

@[simp] theorem State.time_putBit (f : Fld) (n : Nat) (b : Bool) : (s.putBit f n b).time = s.time := State.time_withRegs s _
@[simp] theorem State.work_putBit (f : Fld) (n : Nat) (b : Bool) : (s.putBit f n b).work = s.work := State.work_withRegs s _
@[simp] theorem State.aclk_putBit (f : Fld) (n : Nat) (b : Bool) : (s.putBit f n b).aclk = s.aclk := State.aclk_withRegs s _
@[simp] theorem State.clocks_putBit (f : Fld) (n : Nat) (b : Bool) : (s.putBit f n b).clocks = s.clocks := State.clocks_withRegs s _
@[simp] theorem State.arr_putBit (f : Fld) (n : Nat) (b : Bool) : (s.putBit f n b).arr = s.arr := State.arr_withRegs s _
@[simp] theorem State.mem_putBit (f : Fld) (n : Nat) (b : Bool) : (s.putBit f n b).mem = s.mem := State.mem_withRegs s _
@[simp] theorem State.ctl_putBit (f : Fld) (n : Nat) (b : Bool) : (s.putBit f n b).ctl = s.ctl := State.ctl_withRegs s _
@[simp] theorem State.blk_putBit (f : Fld) (n : Nat) (b : Bool) : (s.putBit f n b).blk = s.blk := State.blk_withRegs s _
@[simp] theorem State.srv_putBit (f : Fld) (n : Nat) (b : Bool) : (s.putBit f n b).srv = s.srv := State.srv_withRegs s _
@[simp] theorem State.intc_putBit (f : Fld) (n : Nat) (b : Bool) : (s.putBit f n b).intc = s.intc := State.intc_withRegs s _
@[simp] theorem State.obs_putBit (f : Fld) (n : Nat) (b : Bool) : (s.putBit f n b).obs = s.obs := State.obs_withRegs s _
@[simp] theorem State.lpx_putBit (f : Fld) (n : Nat) (b : Bool) : (s.putBit f n b).lpx = s.lpx := State.lpx_withRegs s _
@[simp] theorem State.rlt_putBit (f : Fld) (n : Nat) (b : Bool) : (s.putBit f n b).rlt = s.rlt := State.rlt_withRegs s _
@[simp] theorem State.pci_putBit (f : Fld) (n : Nat) (b : Bool) : (s.putBit f n b).pci = s.pci := State.pci_withRegs s _
@[simp] theorem State.pwr_putBit (f : Fld) (n : Nat) (b : Bool) : (s.putBit f n b).pwr = s.pwr := State.pwr_withRegs s _
@[simp] theorem State.sec_putBit (f : Fld) (n : Nat) (b : Bool) : (s.putBit f n b).sec = s.sec := State.sec_withRegs s _
@[simp] theorem State.pins_putBit (f : Fld) (n : Nat) (b : Bool) : (s.putBit f n b).pins = s.pins := State.pins_withRegs s _
@[simp] theorem State.board_putBit (f : Fld) (n : Nat) (b : Bool) : (s.putBit f n b).board = s.board := State.board_withRegs s _
@[simp] theorem State.saved_putBit (f : Fld) (n : Nat) (b : Bool) : (s.putBit f n b).saved = s.saved := State.saved_withRegs s _
@[simp] theorem State.fresh_putBit (f : Fld) (n : Nat) (b : Bool) : (s.putBit f n b).fresh = s.fresh := State.fresh_withRegs s _
@[simp] theorem State.beats_putBit (f : Fld) (n : Nat) (b : Bool) : (s.putBit f n b).beats = s.beats := State.beats_withRegs s _
@[simp] theorem State.msix_putBit (f : Fld) (n : Nat) (b : Bool) : (s.putBit f n b).msix = s.msix := State.msix_withRegs s _
@[simp] theorem State.out_putBit (f : Fld) (n : Nat) (b : Bool) : (s.putBit f n b).out = s.out := State.out_withRegs s _
@[simp] theorem State.hostMem_putBit (f : Fld) (n : Nat) (b : Bool) : (s.putBit f n b).hostMem = s.hostMem := State.hostMem_withRegs s _
@[simp] theorem State.pending_putBit (f : Fld) (n : Nat) (b : Bool) : (s.putBit f n b).pending = s.pending := State.pending_withRegs s _
@[simp] theorem State.cog_of_putBit (f : Fld) (n : Nat) (b : Bool) (c0 : Nat) : (s.putBit f n b).cog c0 = s.cog c0 := State.cog_of_withRegs s _ _
@[simp] theorem State.hub_of_putBit (f : Fld) (n : Nat) (b : Bool) (h0 : Nat) : (s.putBit f n b).hub h0 = s.hub h0 := State.hub_of_withRegs s _ _
@[simp] theorem State.queue_of_putBit (f : Fld) (n : Nat) (b : Bool) (q0 : Nat) : (s.putBit f n b).queue q0 = s.queue q0 := State.queue_of_withRegs s _ _
@[simp] theorem State.cmd_of_putBit (f : Fld) (n : Nat) (b : Bool) (n0 : Nat) : (s.putBit f n b).cmd n0 = s.cmd n0 := State.cmd_of_withRegs s _ _
@[simp] theorem State.task_of_putBit (f : Fld) (n : Nat) (b : Bool) (k0 : Nat) : (s.putBit f n b).task k0 = s.task k0 := State.task_of_withRegs s _ _
@[simp] theorem State.aop_of_putBit (f : Fld) (n : Nat) (b : Bool) (n0 d0 : Nat) : (s.putBit f n b).aop n0 d0 = s.aop n0 d0 := State.aop_of_withRegs s _ _ _
@[simp] theorem State.tensor_of_putBit (f : Fld) (n : Nat) (b : Bool) (p0 t0 : Nat) : (s.putBit f n b).tensor p0 t0 = s.tensor p0 t0 := State.tensor_of_withRegs s _ _ _
@[simp] theorem State.regionOf_of_putBit (f : Fld) (n : Nat) (b : Bool) (c0 : Nat) : (s.putBit f n b).regionOf c0 = s.regionOf c0 := State.regionOf_of_withRegs s _ _
@[simp] theorem State.port_of_putBit (f : Fld) (n : Nat) (b : Bool) (p0 : Nat) : (s.putBit f n b).port p0 = s.port p0 := State.port_of_withRegs s _ _
@[simp] theorem State.chan_of_putBit (f : Fld) (n : Nat) (b : Bool) (c0 : Nat) : (s.putBit f n b).chan c0 = s.chan c0 := State.chan_of_withRegs s _ _

/-! ### `fault` -/

@[simp] theorem State.time_fault (k : Nat) : (s.fault k).time = s.time := State.time_withRegs s _
@[simp] theorem State.work_fault (k : Nat) : (s.fault k).work = s.work := State.work_withRegs s _
@[simp] theorem State.aclk_fault (k : Nat) : (s.fault k).aclk = s.aclk := State.aclk_withRegs s _
@[simp] theorem State.clocks_fault (k : Nat) : (s.fault k).clocks = s.clocks := State.clocks_withRegs s _
@[simp] theorem State.arr_fault (k : Nat) : (s.fault k).arr = s.arr := State.arr_withRegs s _
@[simp] theorem State.mem_fault (k : Nat) : (s.fault k).mem = s.mem := State.mem_withRegs s _
@[simp] theorem State.ctl_fault (k : Nat) : (s.fault k).ctl = s.ctl := State.ctl_withRegs s _
@[simp] theorem State.blk_fault (k : Nat) : (s.fault k).blk = s.blk := State.blk_withRegs s _
@[simp] theorem State.srv_fault (k : Nat) : (s.fault k).srv = s.srv := State.srv_withRegs s _
@[simp] theorem State.intc_fault (k : Nat) : (s.fault k).intc = s.intc := State.intc_withRegs s _
@[simp] theorem State.obs_fault (k : Nat) : (s.fault k).obs = s.obs := State.obs_withRegs s _
@[simp] theorem State.lpx_fault (k : Nat) : (s.fault k).lpx = s.lpx := State.lpx_withRegs s _
@[simp] theorem State.rlt_fault (k : Nat) : (s.fault k).rlt = s.rlt := State.rlt_withRegs s _
@[simp] theorem State.pci_fault (k : Nat) : (s.fault k).pci = s.pci := State.pci_withRegs s _
@[simp] theorem State.pwr_fault (k : Nat) : (s.fault k).pwr = s.pwr := State.pwr_withRegs s _
@[simp] theorem State.sec_fault (k : Nat) : (s.fault k).sec = s.sec := State.sec_withRegs s _
@[simp] theorem State.pins_fault (k : Nat) : (s.fault k).pins = s.pins := State.pins_withRegs s _
@[simp] theorem State.board_fault (k : Nat) : (s.fault k).board = s.board := State.board_withRegs s _
@[simp] theorem State.saved_fault (k : Nat) : (s.fault k).saved = s.saved := State.saved_withRegs s _
@[simp] theorem State.fresh_fault (k : Nat) : (s.fault k).fresh = s.fresh := State.fresh_withRegs s _
@[simp] theorem State.beats_fault (k : Nat) : (s.fault k).beats = s.beats := State.beats_withRegs s _
@[simp] theorem State.msix_fault (k : Nat) : (s.fault k).msix = s.msix := State.msix_withRegs s _
@[simp] theorem State.out_fault (k : Nat) : (s.fault k).out = s.out := State.out_withRegs s _
@[simp] theorem State.hostMem_fault (k : Nat) : (s.fault k).hostMem = s.hostMem := State.hostMem_withRegs s _
@[simp] theorem State.pending_fault (k : Nat) : (s.fault k).pending = s.pending := State.pending_withRegs s _
@[simp] theorem State.cog_of_fault (k : Nat) (c0 : Nat) : (s.fault k).cog c0 = s.cog c0 := State.cog_of_withRegs s _ _
@[simp] theorem State.hub_of_fault (k : Nat) (h0 : Nat) : (s.fault k).hub h0 = s.hub h0 := State.hub_of_withRegs s _ _
@[simp] theorem State.queue_of_fault (k : Nat) (q0 : Nat) : (s.fault k).queue q0 = s.queue q0 := State.queue_of_withRegs s _ _
@[simp] theorem State.cmd_of_fault (k : Nat) (n0 : Nat) : (s.fault k).cmd n0 = s.cmd n0 := State.cmd_of_withRegs s _ _
@[simp] theorem State.task_of_fault (k : Nat) (k0 : Nat) : (s.fault k).task k0 = s.task k0 := State.task_of_withRegs s _ _
@[simp] theorem State.aop_of_fault (k : Nat) (n0 d0 : Nat) : (s.fault k).aop n0 d0 = s.aop n0 d0 := State.aop_of_withRegs s _ _ _
@[simp] theorem State.tensor_of_fault (k : Nat) (p0 t0 : Nat) : (s.fault k).tensor p0 t0 = s.tensor p0 t0 := State.tensor_of_withRegs s _ _ _
@[simp] theorem State.regionOf_of_fault (k : Nat) (c0 : Nat) : (s.fault k).regionOf c0 = s.regionOf c0 := State.regionOf_of_withRegs s _ _
@[simp] theorem State.port_of_fault (k : Nat) (p0 : Nat) : (s.fault k).port p0 = s.port p0 := State.port_of_withRegs s _ _
@[simp] theorem State.chan_of_fault (k : Nat) (c0 : Nat) : (s.fault k).chan c0 = s.chan c0 := State.chan_of_withRegs s _ _

/-! ### `deny` -/

@[simp] theorem State.time_deny (f : Nat) : (s.deny f).time = s.time := State.time_withRegs s _
@[simp] theorem State.work_deny (f : Nat) : (s.deny f).work = s.work := State.work_withRegs s _
@[simp] theorem State.aclk_deny (f : Nat) : (s.deny f).aclk = s.aclk := State.aclk_withRegs s _
@[simp] theorem State.clocks_deny (f : Nat) : (s.deny f).clocks = s.clocks := State.clocks_withRegs s _
@[simp] theorem State.arr_deny (f : Nat) : (s.deny f).arr = s.arr := State.arr_withRegs s _
@[simp] theorem State.mem_deny (f : Nat) : (s.deny f).mem = s.mem := State.mem_withRegs s _
@[simp] theorem State.ctl_deny (f : Nat) : (s.deny f).ctl = s.ctl := State.ctl_withRegs s _
@[simp] theorem State.blk_deny (f : Nat) : (s.deny f).blk = s.blk := State.blk_withRegs s _
@[simp] theorem State.srv_deny (f : Nat) : (s.deny f).srv = s.srv := State.srv_withRegs s _
@[simp] theorem State.intc_deny (f : Nat) : (s.deny f).intc = s.intc := State.intc_withRegs s _
@[simp] theorem State.obs_deny (f : Nat) : (s.deny f).obs = s.obs := State.obs_withRegs s _
@[simp] theorem State.lpx_deny (f : Nat) : (s.deny f).lpx = s.lpx := State.lpx_withRegs s _
@[simp] theorem State.rlt_deny (f : Nat) : (s.deny f).rlt = s.rlt := State.rlt_withRegs s _
@[simp] theorem State.pci_deny (f : Nat) : (s.deny f).pci = s.pci := State.pci_withRegs s _
@[simp] theorem State.pwr_deny (f : Nat) : (s.deny f).pwr = s.pwr := State.pwr_withRegs s _
@[simp] theorem State.sec_deny (f : Nat) : (s.deny f).sec = s.sec := State.sec_withRegs s _
@[simp] theorem State.pins_deny (f : Nat) : (s.deny f).pins = s.pins := State.pins_withRegs s _
@[simp] theorem State.board_deny (f : Nat) : (s.deny f).board = s.board := State.board_withRegs s _
@[simp] theorem State.saved_deny (f : Nat) : (s.deny f).saved = s.saved := State.saved_withRegs s _
@[simp] theorem State.fresh_deny (f : Nat) : (s.deny f).fresh = s.fresh := State.fresh_withRegs s _
@[simp] theorem State.beats_deny (f : Nat) : (s.deny f).beats = s.beats := State.beats_withRegs s _
@[simp] theorem State.msix_deny (f : Nat) : (s.deny f).msix = s.msix := State.msix_withRegs s _
@[simp] theorem State.out_deny (f : Nat) : (s.deny f).out = s.out := State.out_withRegs s _
@[simp] theorem State.hostMem_deny (f : Nat) : (s.deny f).hostMem = s.hostMem := State.hostMem_withRegs s _
@[simp] theorem State.pending_deny (f : Nat) : (s.deny f).pending = s.pending := State.pending_withRegs s _
@[simp] theorem State.cog_of_deny (f : Nat) (c0 : Nat) : (s.deny f).cog c0 = s.cog c0 := State.cog_of_withRegs s _ _
@[simp] theorem State.hub_of_deny (f : Nat) (h0 : Nat) : (s.deny f).hub h0 = s.hub h0 := State.hub_of_withRegs s _ _
@[simp] theorem State.queue_of_deny (f : Nat) (q0 : Nat) : (s.deny f).queue q0 = s.queue q0 := State.queue_of_withRegs s _ _
@[simp] theorem State.cmd_of_deny (f : Nat) (n0 : Nat) : (s.deny f).cmd n0 = s.cmd n0 := State.cmd_of_withRegs s _ _
@[simp] theorem State.task_of_deny (f : Nat) (k0 : Nat) : (s.deny f).task k0 = s.task k0 := State.task_of_withRegs s _ _
@[simp] theorem State.aop_of_deny (f : Nat) (n0 d0 : Nat) : (s.deny f).aop n0 d0 = s.aop n0 d0 := State.aop_of_withRegs s _ _ _
@[simp] theorem State.tensor_of_deny (f : Nat) (p0 t0 : Nat) : (s.deny f).tensor p0 t0 = s.tensor p0 t0 := State.tensor_of_withRegs s _ _ _
@[simp] theorem State.regionOf_of_deny (f : Nat) (c0 : Nat) : (s.deny f).regionOf c0 = s.regionOf c0 := State.regionOf_of_withRegs s _ _
@[simp] theorem State.port_of_deny (f : Nat) (p0 : Nat) : (s.deny f).port p0 = s.port p0 := State.port_of_withRegs s _ _
@[simp] theorem State.chan_of_deny (f : Nat) (c0 : Nat) : (s.deny f).chan c0 = s.chan c0 := State.chan_of_withRegs s _ _

/-! ### `send` -/

@[simp] theorem State.time_send (m : Sent) : (s.send m).time = s.time := State.time_withOut s _
@[simp] theorem State.work_send (m : Sent) : (s.send m).work = s.work := State.work_withOut s _
@[simp] theorem State.aclk_send (m : Sent) : (s.send m).aclk = s.aclk := State.aclk_withOut s _
@[simp] theorem State.clocks_send (m : Sent) : (s.send m).clocks = s.clocks := State.clocks_withOut s _
@[simp] theorem State.regs_send (m : Sent) : (s.send m).regs = s.regs := State.regs_withOut s _
@[simp] theorem State.arr_send (m : Sent) : (s.send m).arr = s.arr := State.arr_withOut s _
@[simp] theorem State.mem_send (m : Sent) : (s.send m).mem = s.mem := State.mem_withOut s _
@[simp] theorem State.ctl_send (m : Sent) : (s.send m).ctl = s.ctl := State.ctl_withOut s _
@[simp] theorem State.blk_send (m : Sent) : (s.send m).blk = s.blk := State.blk_withOut s _
@[simp] theorem State.srv_send (m : Sent) : (s.send m).srv = s.srv := State.srv_withOut s _
@[simp] theorem State.intc_send (m : Sent) : (s.send m).intc = s.intc := State.intc_withOut s _
@[simp] theorem State.obs_send (m : Sent) : (s.send m).obs = s.obs := State.obs_withOut s _
@[simp] theorem State.lpx_send (m : Sent) : (s.send m).lpx = s.lpx := State.lpx_withOut s _
@[simp] theorem State.rlt_send (m : Sent) : (s.send m).rlt = s.rlt := State.rlt_withOut s _
@[simp] theorem State.pci_send (m : Sent) : (s.send m).pci = s.pci := State.pci_withOut s _
@[simp] theorem State.pwr_send (m : Sent) : (s.send m).pwr = s.pwr := State.pwr_withOut s _
@[simp] theorem State.sec_send (m : Sent) : (s.send m).sec = s.sec := State.sec_withOut s _
@[simp] theorem State.pins_send (m : Sent) : (s.send m).pins = s.pins := State.pins_withOut s _
@[simp] theorem State.board_send (m : Sent) : (s.send m).board = s.board := State.board_withOut s _
@[simp] theorem State.saved_send (m : Sent) : (s.send m).saved = s.saved := State.saved_withOut s _
@[simp] theorem State.fresh_send (m : Sent) : (s.send m).fresh = s.fresh := State.fresh_withOut s _
@[simp] theorem State.beats_send (m : Sent) : (s.send m).beats = s.beats := State.beats_withOut s _
@[simp] theorem State.msix_send (m : Sent) : (s.send m).msix = s.msix := State.msix_withOut s _
@[simp] theorem State.hostMem_send (m : Sent) : (s.send m).hostMem = s.hostMem := State.hostMem_withOut s _
@[simp] theorem State.pending_send (m : Sent) : (s.send m).pending = s.pending := State.pending_withOut s _
@[simp] theorem State.reg_of_send (m : Sent) (k0 : RegKind) (i0 : Nat) : (s.send m).reg k0 i0 = s.reg k0 i0 := State.reg_of_withOut s _ _ _
@[simp] theorem State.rd_of_send (m : Sent) (f0 : Fld) (i0 : Nat) : (s.send m).rd f0 i0 = s.rd f0 i0 := State.rd_of_withOut s _ _ _
@[simp] theorem State.live_of_send (m : Sent) : (s.send m).live = s.live := State.live_of_withOut s _
@[simp] theorem State.cog_of_send (m : Sent) (c0 : Nat) : (s.send m).cog c0 = s.cog c0 := State.cog_of_withOut s _ _
@[simp] theorem State.hub_of_send (m : Sent) (h0 : Nat) : (s.send m).hub h0 = s.hub h0 := State.hub_of_withOut s _ _
@[simp] theorem State.queue_of_send (m : Sent) (q0 : Nat) : (s.send m).queue q0 = s.queue q0 := State.queue_of_withOut s _ _
@[simp] theorem State.cmd_of_send (m : Sent) (n0 : Nat) : (s.send m).cmd n0 = s.cmd n0 := State.cmd_of_withOut s _ _
@[simp] theorem State.task_of_send (m : Sent) (k0 : Nat) : (s.send m).task k0 = s.task k0 := State.task_of_withOut s _ _
@[simp] theorem State.aop_of_send (m : Sent) (n0 d0 : Nat) : (s.send m).aop n0 d0 = s.aop n0 d0 := State.aop_of_withOut s _ _ _
@[simp] theorem State.tensor_of_send (m : Sent) (p0 t0 : Nat) : (s.send m).tensor p0 t0 = s.tensor p0 t0 := State.tensor_of_withOut s _ _ _
@[simp] theorem State.regionOf_of_send (m : Sent) (c0 : Nat) : (s.send m).regionOf c0 = s.regionOf c0 := State.regionOf_of_withOut s _ _
@[simp] theorem State.port_of_send (m : Sent) (p0 : Nat) : (s.send m).port p0 = s.port p0 := State.port_of_withOut s _ _
@[simp] theorem State.chan_of_send (m : Sent) (c0 : Nat) : (s.send m).chan c0 = s.chan c0 := State.chan_of_withOut s _ _

/-! ### `hostWrite` -/

@[simp] theorem State.time_hostWrite (a : Nat) (bs : List Byte) : (s.hostWrite a bs).time = s.time := State.time_withHostmem s _
@[simp] theorem State.work_hostWrite (a : Nat) (bs : List Byte) : (s.hostWrite a bs).work = s.work := State.work_withHostmem s _
@[simp] theorem State.aclk_hostWrite (a : Nat) (bs : List Byte) : (s.hostWrite a bs).aclk = s.aclk := State.aclk_withHostmem s _
@[simp] theorem State.clocks_hostWrite (a : Nat) (bs : List Byte) : (s.hostWrite a bs).clocks = s.clocks := State.clocks_withHostmem s _
@[simp] theorem State.regs_hostWrite (a : Nat) (bs : List Byte) : (s.hostWrite a bs).regs = s.regs := State.regs_withHostmem s _
@[simp] theorem State.arr_hostWrite (a : Nat) (bs : List Byte) : (s.hostWrite a bs).arr = s.arr := State.arr_withHostmem s _
@[simp] theorem State.mem_hostWrite (a : Nat) (bs : List Byte) : (s.hostWrite a bs).mem = s.mem := State.mem_withHostmem s _
@[simp] theorem State.ctl_hostWrite (a : Nat) (bs : List Byte) : (s.hostWrite a bs).ctl = s.ctl := State.ctl_withHostmem s _
@[simp] theorem State.blk_hostWrite (a : Nat) (bs : List Byte) : (s.hostWrite a bs).blk = s.blk := State.blk_withHostmem s _
@[simp] theorem State.srv_hostWrite (a : Nat) (bs : List Byte) : (s.hostWrite a bs).srv = s.srv := State.srv_withHostmem s _
@[simp] theorem State.intc_hostWrite (a : Nat) (bs : List Byte) : (s.hostWrite a bs).intc = s.intc := State.intc_withHostmem s _
@[simp] theorem State.obs_hostWrite (a : Nat) (bs : List Byte) : (s.hostWrite a bs).obs = s.obs := State.obs_withHostmem s _
@[simp] theorem State.lpx_hostWrite (a : Nat) (bs : List Byte) : (s.hostWrite a bs).lpx = s.lpx := State.lpx_withHostmem s _
@[simp] theorem State.rlt_hostWrite (a : Nat) (bs : List Byte) : (s.hostWrite a bs).rlt = s.rlt := State.rlt_withHostmem s _
@[simp] theorem State.pci_hostWrite (a : Nat) (bs : List Byte) : (s.hostWrite a bs).pci = s.pci := State.pci_withHostmem s _
@[simp] theorem State.pwr_hostWrite (a : Nat) (bs : List Byte) : (s.hostWrite a bs).pwr = s.pwr := State.pwr_withHostmem s _
@[simp] theorem State.sec_hostWrite (a : Nat) (bs : List Byte) : (s.hostWrite a bs).sec = s.sec := State.sec_withHostmem s _
@[simp] theorem State.pins_hostWrite (a : Nat) (bs : List Byte) : (s.hostWrite a bs).pins = s.pins := State.pins_withHostmem s _
@[simp] theorem State.board_hostWrite (a : Nat) (bs : List Byte) : (s.hostWrite a bs).board = s.board := State.board_withHostmem s _
@[simp] theorem State.saved_hostWrite (a : Nat) (bs : List Byte) : (s.hostWrite a bs).saved = s.saved := State.saved_withHostmem s _
@[simp] theorem State.fresh_hostWrite (a : Nat) (bs : List Byte) : (s.hostWrite a bs).fresh = s.fresh := State.fresh_withHostmem s _
@[simp] theorem State.beats_hostWrite (a : Nat) (bs : List Byte) : (s.hostWrite a bs).beats = s.beats := State.beats_withHostmem s _
@[simp] theorem State.msix_hostWrite (a : Nat) (bs : List Byte) : (s.hostWrite a bs).msix = s.msix := State.msix_withHostmem s _
@[simp] theorem State.out_hostWrite (a : Nat) (bs : List Byte) : (s.hostWrite a bs).out = s.out := State.out_withHostmem s _
@[simp] theorem State.pending_hostWrite (a : Nat) (bs : List Byte) : (s.hostWrite a bs).pending = s.pending := State.pending_withHostmem s _
@[simp] theorem State.reg_of_hostWrite (a : Nat) (bs : List Byte) (k0 : RegKind) (i0 : Nat) : (s.hostWrite a bs).reg k0 i0 = s.reg k0 i0 := State.reg_of_withHostmem s _ _ _
@[simp] theorem State.rd_of_hostWrite (a : Nat) (bs : List Byte) (f0 : Fld) (i0 : Nat) : (s.hostWrite a bs).rd f0 i0 = s.rd f0 i0 := State.rd_of_withHostmem s _ _ _
@[simp] theorem State.live_of_hostWrite (a : Nat) (bs : List Byte) : (s.hostWrite a bs).live = s.live := State.live_of_withHostmem s _
@[simp] theorem State.cog_of_hostWrite (a : Nat) (bs : List Byte) (c0 : Nat) : (s.hostWrite a bs).cog c0 = s.cog c0 := State.cog_of_withHostmem s _ _
@[simp] theorem State.hub_of_hostWrite (a : Nat) (bs : List Byte) (h0 : Nat) : (s.hostWrite a bs).hub h0 = s.hub h0 := State.hub_of_withHostmem s _ _
@[simp] theorem State.queue_of_hostWrite (a : Nat) (bs : List Byte) (q0 : Nat) : (s.hostWrite a bs).queue q0 = s.queue q0 := State.queue_of_withHostmem s _ _
@[simp] theorem State.cmd_of_hostWrite (a : Nat) (bs : List Byte) (n0 : Nat) : (s.hostWrite a bs).cmd n0 = s.cmd n0 := State.cmd_of_withHostmem s _ _
@[simp] theorem State.task_of_hostWrite (a : Nat) (bs : List Byte) (k0 : Nat) : (s.hostWrite a bs).task k0 = s.task k0 := State.task_of_withHostmem s _ _
@[simp] theorem State.aop_of_hostWrite (a : Nat) (bs : List Byte) (n0 d0 : Nat) : (s.hostWrite a bs).aop n0 d0 = s.aop n0 d0 := State.aop_of_withHostmem s _ _ _
@[simp] theorem State.tensor_of_hostWrite (a : Nat) (bs : List Byte) (p0 t0 : Nat) : (s.hostWrite a bs).tensor p0 t0 = s.tensor p0 t0 := State.tensor_of_withHostmem s _ _ _
@[simp] theorem State.regionOf_of_hostWrite (a : Nat) (bs : List Byte) (c0 : Nat) : (s.hostWrite a bs).regionOf c0 = s.regionOf c0 := State.regionOf_of_withHostmem s _ _
@[simp] theorem State.port_of_hostWrite (a : Nat) (bs : List Byte) (p0 : Nat) : (s.hostWrite a bs).port p0 = s.port p0 := State.port_of_withHostmem s _ _
@[simp] theorem State.chan_of_hostWrite (a : Nat) (bs : List Byte) (c0 : Nat) : (s.hostWrite a bs).chan c0 = s.chan c0 := State.chan_of_withHostmem s _ _

/-! ### `setCog` -/

@[simp] theorem State.time_setCog (c : Nat) (x : Cog) : (s.setCog c x).time = s.time := State.time_withCogs s _
@[simp] theorem State.work_setCog (c : Nat) (x : Cog) : (s.setCog c x).work = s.work := State.work_withCogs s _
@[simp] theorem State.aclk_setCog (c : Nat) (x : Cog) : (s.setCog c x).aclk = s.aclk := State.aclk_withCogs s _
@[simp] theorem State.clocks_setCog (c : Nat) (x : Cog) : (s.setCog c x).clocks = s.clocks := State.clocks_withCogs s _
@[simp] theorem State.regs_setCog (c : Nat) (x : Cog) : (s.setCog c x).regs = s.regs := State.regs_withCogs s _
@[simp] theorem State.mem_setCog (c : Nat) (x : Cog) : (s.setCog c x).mem = s.mem := State.mem_withCogs s _
@[simp] theorem State.ctl_setCog (c : Nat) (x : Cog) : (s.setCog c x).ctl = s.ctl := State.ctl_withCogs s _
@[simp] theorem State.blk_setCog (c : Nat) (x : Cog) : (s.setCog c x).blk = s.blk := State.blk_withCogs s _
@[simp] theorem State.srv_setCog (c : Nat) (x : Cog) : (s.setCog c x).srv = s.srv := State.srv_withCogs s _
@[simp] theorem State.intc_setCog (c : Nat) (x : Cog) : (s.setCog c x).intc = s.intc := State.intc_withCogs s _
@[simp] theorem State.obs_setCog (c : Nat) (x : Cog) : (s.setCog c x).obs = s.obs := State.obs_withCogs s _
@[simp] theorem State.lpx_setCog (c : Nat) (x : Cog) : (s.setCog c x).lpx = s.lpx := State.lpx_withCogs s _
@[simp] theorem State.rlt_setCog (c : Nat) (x : Cog) : (s.setCog c x).rlt = s.rlt := State.rlt_withCogs s _
@[simp] theorem State.pci_setCog (c : Nat) (x : Cog) : (s.setCog c x).pci = s.pci := State.pci_withCogs s _
@[simp] theorem State.pwr_setCog (c : Nat) (x : Cog) : (s.setCog c x).pwr = s.pwr := State.pwr_withCogs s _
@[simp] theorem State.sec_setCog (c : Nat) (x : Cog) : (s.setCog c x).sec = s.sec := State.sec_withCogs s _
@[simp] theorem State.pins_setCog (c : Nat) (x : Cog) : (s.setCog c x).pins = s.pins := State.pins_withCogs s _
@[simp] theorem State.board_setCog (c : Nat) (x : Cog) : (s.setCog c x).board = s.board := State.board_withCogs s _
@[simp] theorem State.saved_setCog (c : Nat) (x : Cog) : (s.setCog c x).saved = s.saved := State.saved_withCogs s _
@[simp] theorem State.fresh_setCog (c : Nat) (x : Cog) : (s.setCog c x).fresh = s.fresh := State.fresh_withCogs s _
@[simp] theorem State.beats_setCog (c : Nat) (x : Cog) : (s.setCog c x).beats = s.beats := State.beats_withCogs s _
@[simp] theorem State.msix_setCog (c : Nat) (x : Cog) : (s.setCog c x).msix = s.msix := State.msix_withCogs s _
@[simp] theorem State.out_setCog (c : Nat) (x : Cog) : (s.setCog c x).out = s.out := State.out_withCogs s _
@[simp] theorem State.hostMem_setCog (c : Nat) (x : Cog) : (s.setCog c x).hostMem = s.hostMem := State.hostMem_withCogs s _
@[simp] theorem State.pending_setCog (c : Nat) (x : Cog) : (s.setCog c x).pending = s.pending := State.pending_withCogs s _
@[simp] theorem State.arr_edges_setCog (c : Nat) (x : Cog) : (s.setCog c x).arr.edges = s.arr.edges := State.arr_edges_withCogs s _
@[simp] theorem State.arr_sinks_setCog (c : Nat) (x : Cog) : (s.setCog c x).arr.sinks = s.arr.sinks := State.arr_sinks_withCogs s _
@[simp] theorem State.arr_planes_setCog (c : Nat) (x : Cog) : (s.setCog c x).arr.planes = s.arr.planes := State.arr_planes_withCogs s _
@[simp] theorem State.arr_regions_setCog (c : Nat) (x : Cog) : (s.setCog c x).arr.regions = s.arr.regions := State.arr_regions_withCogs s _
@[simp] theorem State.arr_east_setCog (c : Nat) (x : Cog) : (s.setCog c x).arr.east = s.arr.east := State.arr_east_withCogs s _
@[simp] theorem State.reg_of_setCog (c : Nat) (x : Cog) (k0 : RegKind) (i0 : Nat) : (s.setCog c x).reg k0 i0 = s.reg k0 i0 := State.reg_of_withCogs s _ _ _
@[simp] theorem State.rd_of_setCog (c : Nat) (x : Cog) (f0 : Fld) (i0 : Nat) : (s.setCog c x).rd f0 i0 = s.rd f0 i0 := State.rd_of_withCogs s _ _ _
@[simp] theorem State.live_of_setCog (c : Nat) (x : Cog) : (s.setCog c x).live = s.live := State.live_of_withCogs s _
@[simp] theorem State.hub_of_setCog (c : Nat) (x : Cog) (h0 : Nat) : (s.setCog c x).hub h0 = s.hub h0 := State.hub_of_withCogs s _ _
@[simp] theorem State.queue_of_setCog (c : Nat) (x : Cog) (q0 : Nat) : (s.setCog c x).queue q0 = s.queue q0 := State.queue_of_withCogs s _ _
@[simp] theorem State.cmd_of_setCog (c : Nat) (x : Cog) (n0 : Nat) : (s.setCog c x).cmd n0 = s.cmd n0 := State.cmd_of_withCogs s _ _
@[simp] theorem State.task_of_setCog (c : Nat) (x : Cog) (k0 : Nat) : (s.setCog c x).task k0 = s.task k0 := State.task_of_withCogs s _ _
@[simp] theorem State.aop_of_setCog (c : Nat) (x : Cog) (n0 d0 : Nat) : (s.setCog c x).aop n0 d0 = s.aop n0 d0 := State.aop_of_withCogs s _ _ _
@[simp] theorem State.tensor_of_setCog (c : Nat) (x : Cog) (p0 t0 : Nat) : (s.setCog c x).tensor p0 t0 = s.tensor p0 t0 := State.tensor_of_withCogs s _ _ _
@[simp] theorem State.regionOf_of_setCog (c : Nat) (x : Cog) (c0 : Nat) : (s.setCog c x).regionOf c0 = s.regionOf c0 := State.regionOf_of_withCogs s _ _
@[simp] theorem State.port_of_setCog (c : Nat) (x : Cog) (p0 : Nat) : (s.setCog c x).port p0 = s.port p0 := State.port_of_withCogs s _ _
@[simp] theorem State.chan_of_setCog (c : Nat) (x : Cog) (c0 : Nat) : (s.setCog c x).chan c0 = s.chan c0 := State.chan_of_withCogs s _ _

/-! ### `setEdgeIn` -/

@[simp] theorem State.time_setEdgeIn (c : Nat) (d : Side) (e : EdgeIn) : (s.setEdgeIn c d e).time = s.time := State.time_withEdges s _
@[simp] theorem State.work_setEdgeIn (c : Nat) (d : Side) (e : EdgeIn) : (s.setEdgeIn c d e).work = s.work := State.work_withEdges s _
@[simp] theorem State.aclk_setEdgeIn (c : Nat) (d : Side) (e : EdgeIn) : (s.setEdgeIn c d e).aclk = s.aclk := State.aclk_withEdges s _
@[simp] theorem State.clocks_setEdgeIn (c : Nat) (d : Side) (e : EdgeIn) : (s.setEdgeIn c d e).clocks = s.clocks := State.clocks_withEdges s _
@[simp] theorem State.regs_setEdgeIn (c : Nat) (d : Side) (e : EdgeIn) : (s.setEdgeIn c d e).regs = s.regs := State.regs_withEdges s _
@[simp] theorem State.mem_setEdgeIn (c : Nat) (d : Side) (e : EdgeIn) : (s.setEdgeIn c d e).mem = s.mem := State.mem_withEdges s _
@[simp] theorem State.ctl_setEdgeIn (c : Nat) (d : Side) (e : EdgeIn) : (s.setEdgeIn c d e).ctl = s.ctl := State.ctl_withEdges s _
@[simp] theorem State.blk_setEdgeIn (c : Nat) (d : Side) (e : EdgeIn) : (s.setEdgeIn c d e).blk = s.blk := State.blk_withEdges s _
@[simp] theorem State.srv_setEdgeIn (c : Nat) (d : Side) (e : EdgeIn) : (s.setEdgeIn c d e).srv = s.srv := State.srv_withEdges s _
@[simp] theorem State.intc_setEdgeIn (c : Nat) (d : Side) (e : EdgeIn) : (s.setEdgeIn c d e).intc = s.intc := State.intc_withEdges s _
@[simp] theorem State.obs_setEdgeIn (c : Nat) (d : Side) (e : EdgeIn) : (s.setEdgeIn c d e).obs = s.obs := State.obs_withEdges s _
@[simp] theorem State.lpx_setEdgeIn (c : Nat) (d : Side) (e : EdgeIn) : (s.setEdgeIn c d e).lpx = s.lpx := State.lpx_withEdges s _
@[simp] theorem State.rlt_setEdgeIn (c : Nat) (d : Side) (e : EdgeIn) : (s.setEdgeIn c d e).rlt = s.rlt := State.rlt_withEdges s _
@[simp] theorem State.pci_setEdgeIn (c : Nat) (d : Side) (e : EdgeIn) : (s.setEdgeIn c d e).pci = s.pci := State.pci_withEdges s _
@[simp] theorem State.pwr_setEdgeIn (c : Nat) (d : Side) (e : EdgeIn) : (s.setEdgeIn c d e).pwr = s.pwr := State.pwr_withEdges s _
@[simp] theorem State.sec_setEdgeIn (c : Nat) (d : Side) (e : EdgeIn) : (s.setEdgeIn c d e).sec = s.sec := State.sec_withEdges s _
@[simp] theorem State.pins_setEdgeIn (c : Nat) (d : Side) (e : EdgeIn) : (s.setEdgeIn c d e).pins = s.pins := State.pins_withEdges s _
@[simp] theorem State.board_setEdgeIn (c : Nat) (d : Side) (e : EdgeIn) : (s.setEdgeIn c d e).board = s.board := State.board_withEdges s _
@[simp] theorem State.saved_setEdgeIn (c : Nat) (d : Side) (e : EdgeIn) : (s.setEdgeIn c d e).saved = s.saved := State.saved_withEdges s _
@[simp] theorem State.fresh_setEdgeIn (c : Nat) (d : Side) (e : EdgeIn) : (s.setEdgeIn c d e).fresh = s.fresh := State.fresh_withEdges s _
@[simp] theorem State.beats_setEdgeIn (c : Nat) (d : Side) (e : EdgeIn) : (s.setEdgeIn c d e).beats = s.beats := State.beats_withEdges s _
@[simp] theorem State.msix_setEdgeIn (c : Nat) (d : Side) (e : EdgeIn) : (s.setEdgeIn c d e).msix = s.msix := State.msix_withEdges s _
@[simp] theorem State.out_setEdgeIn (c : Nat) (d : Side) (e : EdgeIn) : (s.setEdgeIn c d e).out = s.out := State.out_withEdges s _
@[simp] theorem State.hostMem_setEdgeIn (c : Nat) (d : Side) (e : EdgeIn) : (s.setEdgeIn c d e).hostMem = s.hostMem := State.hostMem_withEdges s _
@[simp] theorem State.pending_setEdgeIn (c : Nat) (d : Side) (e : EdgeIn) : (s.setEdgeIn c d e).pending = s.pending := State.pending_withEdges s _
@[simp] theorem State.arr_cogs_setEdgeIn (c : Nat) (d : Side) (e : EdgeIn) : (s.setEdgeIn c d e).arr.cogs = s.arr.cogs := State.arr_cogs_withEdges s _
@[simp] theorem State.arr_sinks_setEdgeIn (c : Nat) (d : Side) (e : EdgeIn) : (s.setEdgeIn c d e).arr.sinks = s.arr.sinks := State.arr_sinks_withEdges s _
@[simp] theorem State.arr_planes_setEdgeIn (c : Nat) (d : Side) (e : EdgeIn) : (s.setEdgeIn c d e).arr.planes = s.arr.planes := State.arr_planes_withEdges s _
@[simp] theorem State.arr_regions_setEdgeIn (c : Nat) (d : Side) (e : EdgeIn) : (s.setEdgeIn c d e).arr.regions = s.arr.regions := State.arr_regions_withEdges s _
@[simp] theorem State.arr_east_setEdgeIn (c : Nat) (d : Side) (e : EdgeIn) : (s.setEdgeIn c d e).arr.east = s.arr.east := State.arr_east_withEdges s _
@[simp] theorem State.reg_of_setEdgeIn (c : Nat) (d : Side) (e : EdgeIn) (k0 : RegKind) (i0 : Nat) : (s.setEdgeIn c d e).reg k0 i0 = s.reg k0 i0 := State.reg_of_withEdges s _ _ _
@[simp] theorem State.rd_of_setEdgeIn (c : Nat) (d : Side) (e : EdgeIn) (f0 : Fld) (i0 : Nat) : (s.setEdgeIn c d e).rd f0 i0 = s.rd f0 i0 := State.rd_of_withEdges s _ _ _
@[simp] theorem State.live_of_setEdgeIn (c : Nat) (d : Side) (e : EdgeIn) : (s.setEdgeIn c d e).live = s.live := State.live_of_withEdges s _
@[simp] theorem State.cog_of_setEdgeIn (c : Nat) (d : Side) (e : EdgeIn) (c0 : Nat) : (s.setEdgeIn c d e).cog c0 = s.cog c0 := State.cog_of_withEdges s _ _
@[simp] theorem State.hub_of_setEdgeIn (c : Nat) (d : Side) (e : EdgeIn) (h0 : Nat) : (s.setEdgeIn c d e).hub h0 = s.hub h0 := State.hub_of_withEdges s _ _
@[simp] theorem State.queue_of_setEdgeIn (c : Nat) (d : Side) (e : EdgeIn) (q0 : Nat) : (s.setEdgeIn c d e).queue q0 = s.queue q0 := State.queue_of_withEdges s _ _
@[simp] theorem State.cmd_of_setEdgeIn (c : Nat) (d : Side) (e : EdgeIn) (n0 : Nat) : (s.setEdgeIn c d e).cmd n0 = s.cmd n0 := State.cmd_of_withEdges s _ _
@[simp] theorem State.task_of_setEdgeIn (c : Nat) (d : Side) (e : EdgeIn) (k0 : Nat) : (s.setEdgeIn c d e).task k0 = s.task k0 := State.task_of_withEdges s _ _
@[simp] theorem State.aop_of_setEdgeIn (c : Nat) (d : Side) (e : EdgeIn) (n0 d0 : Nat) : (s.setEdgeIn c d e).aop n0 d0 = s.aop n0 d0 := State.aop_of_withEdges s _ _ _
@[simp] theorem State.tensor_of_setEdgeIn (c : Nat) (d : Side) (e : EdgeIn) (p0 t0 : Nat) : (s.setEdgeIn c d e).tensor p0 t0 = s.tensor p0 t0 := State.tensor_of_withEdges s _ _ _
@[simp] theorem State.regionOf_of_setEdgeIn (c : Nat) (d : Side) (e : EdgeIn) (c0 : Nat) : (s.setEdgeIn c d e).regionOf c0 = s.regionOf c0 := State.regionOf_of_withEdges s _ _
@[simp] theorem State.port_of_setEdgeIn (c : Nat) (d : Side) (e : EdgeIn) (p0 : Nat) : (s.setEdgeIn c d e).port p0 = s.port p0 := State.port_of_withEdges s _ _
@[simp] theorem State.chan_of_setEdgeIn (c : Nat) (d : Side) (e : EdgeIn) (c0 : Nat) : (s.setEdgeIn c d e).chan c0 = s.chan c0 := State.chan_of_withEdges s _ _

/-! ### `setSinkAt` -/

@[simp] theorem State.time_setSinkAt (c : Nat) (d : Side) (fs : List Flit) : (s.setSinkAt c d fs).time = s.time := State.time_withSinks s _
@[simp] theorem State.work_setSinkAt (c : Nat) (d : Side) (fs : List Flit) : (s.setSinkAt c d fs).work = s.work := State.work_withSinks s _
@[simp] theorem State.aclk_setSinkAt (c : Nat) (d : Side) (fs : List Flit) : (s.setSinkAt c d fs).aclk = s.aclk := State.aclk_withSinks s _
@[simp] theorem State.clocks_setSinkAt (c : Nat) (d : Side) (fs : List Flit) : (s.setSinkAt c d fs).clocks = s.clocks := State.clocks_withSinks s _
@[simp] theorem State.regs_setSinkAt (c : Nat) (d : Side) (fs : List Flit) : (s.setSinkAt c d fs).regs = s.regs := State.regs_withSinks s _
@[simp] theorem State.mem_setSinkAt (c : Nat) (d : Side) (fs : List Flit) : (s.setSinkAt c d fs).mem = s.mem := State.mem_withSinks s _
@[simp] theorem State.ctl_setSinkAt (c : Nat) (d : Side) (fs : List Flit) : (s.setSinkAt c d fs).ctl = s.ctl := State.ctl_withSinks s _
@[simp] theorem State.blk_setSinkAt (c : Nat) (d : Side) (fs : List Flit) : (s.setSinkAt c d fs).blk = s.blk := State.blk_withSinks s _
@[simp] theorem State.srv_setSinkAt (c : Nat) (d : Side) (fs : List Flit) : (s.setSinkAt c d fs).srv = s.srv := State.srv_withSinks s _
@[simp] theorem State.intc_setSinkAt (c : Nat) (d : Side) (fs : List Flit) : (s.setSinkAt c d fs).intc = s.intc := State.intc_withSinks s _
@[simp] theorem State.obs_setSinkAt (c : Nat) (d : Side) (fs : List Flit) : (s.setSinkAt c d fs).obs = s.obs := State.obs_withSinks s _
@[simp] theorem State.lpx_setSinkAt (c : Nat) (d : Side) (fs : List Flit) : (s.setSinkAt c d fs).lpx = s.lpx := State.lpx_withSinks s _
@[simp] theorem State.rlt_setSinkAt (c : Nat) (d : Side) (fs : List Flit) : (s.setSinkAt c d fs).rlt = s.rlt := State.rlt_withSinks s _
@[simp] theorem State.pci_setSinkAt (c : Nat) (d : Side) (fs : List Flit) : (s.setSinkAt c d fs).pci = s.pci := State.pci_withSinks s _
@[simp] theorem State.pwr_setSinkAt (c : Nat) (d : Side) (fs : List Flit) : (s.setSinkAt c d fs).pwr = s.pwr := State.pwr_withSinks s _
@[simp] theorem State.sec_setSinkAt (c : Nat) (d : Side) (fs : List Flit) : (s.setSinkAt c d fs).sec = s.sec := State.sec_withSinks s _
@[simp] theorem State.pins_setSinkAt (c : Nat) (d : Side) (fs : List Flit) : (s.setSinkAt c d fs).pins = s.pins := State.pins_withSinks s _
@[simp] theorem State.board_setSinkAt (c : Nat) (d : Side) (fs : List Flit) : (s.setSinkAt c d fs).board = s.board := State.board_withSinks s _
@[simp] theorem State.saved_setSinkAt (c : Nat) (d : Side) (fs : List Flit) : (s.setSinkAt c d fs).saved = s.saved := State.saved_withSinks s _
@[simp] theorem State.fresh_setSinkAt (c : Nat) (d : Side) (fs : List Flit) : (s.setSinkAt c d fs).fresh = s.fresh := State.fresh_withSinks s _
@[simp] theorem State.beats_setSinkAt (c : Nat) (d : Side) (fs : List Flit) : (s.setSinkAt c d fs).beats = s.beats := State.beats_withSinks s _
@[simp] theorem State.msix_setSinkAt (c : Nat) (d : Side) (fs : List Flit) : (s.setSinkAt c d fs).msix = s.msix := State.msix_withSinks s _
@[simp] theorem State.out_setSinkAt (c : Nat) (d : Side) (fs : List Flit) : (s.setSinkAt c d fs).out = s.out := State.out_withSinks s _
@[simp] theorem State.hostMem_setSinkAt (c : Nat) (d : Side) (fs : List Flit) : (s.setSinkAt c d fs).hostMem = s.hostMem := State.hostMem_withSinks s _
@[simp] theorem State.pending_setSinkAt (c : Nat) (d : Side) (fs : List Flit) : (s.setSinkAt c d fs).pending = s.pending := State.pending_withSinks s _
@[simp] theorem State.arr_cogs_setSinkAt (c : Nat) (d : Side) (fs : List Flit) : (s.setSinkAt c d fs).arr.cogs = s.arr.cogs := State.arr_cogs_withSinks s _
@[simp] theorem State.arr_edges_setSinkAt (c : Nat) (d : Side) (fs : List Flit) : (s.setSinkAt c d fs).arr.edges = s.arr.edges := State.arr_edges_withSinks s _
@[simp] theorem State.arr_planes_setSinkAt (c : Nat) (d : Side) (fs : List Flit) : (s.setSinkAt c d fs).arr.planes = s.arr.planes := State.arr_planes_withSinks s _
@[simp] theorem State.arr_regions_setSinkAt (c : Nat) (d : Side) (fs : List Flit) : (s.setSinkAt c d fs).arr.regions = s.arr.regions := State.arr_regions_withSinks s _
@[simp] theorem State.arr_east_setSinkAt (c : Nat) (d : Side) (fs : List Flit) : (s.setSinkAt c d fs).arr.east = s.arr.east := State.arr_east_withSinks s _
@[simp] theorem State.reg_of_setSinkAt (c : Nat) (d : Side) (fs : List Flit) (k0 : RegKind) (i0 : Nat) : (s.setSinkAt c d fs).reg k0 i0 = s.reg k0 i0 := State.reg_of_withSinks s _ _ _
@[simp] theorem State.rd_of_setSinkAt (c : Nat) (d : Side) (fs : List Flit) (f0 : Fld) (i0 : Nat) : (s.setSinkAt c d fs).rd f0 i0 = s.rd f0 i0 := State.rd_of_withSinks s _ _ _
@[simp] theorem State.live_of_setSinkAt (c : Nat) (d : Side) (fs : List Flit) : (s.setSinkAt c d fs).live = s.live := State.live_of_withSinks s _
@[simp] theorem State.cog_of_setSinkAt (c : Nat) (d : Side) (fs : List Flit) (c0 : Nat) : (s.setSinkAt c d fs).cog c0 = s.cog c0 := State.cog_of_withSinks s _ _
@[simp] theorem State.hub_of_setSinkAt (c : Nat) (d : Side) (fs : List Flit) (h0 : Nat) : (s.setSinkAt c d fs).hub h0 = s.hub h0 := State.hub_of_withSinks s _ _
@[simp] theorem State.queue_of_setSinkAt (c : Nat) (d : Side) (fs : List Flit) (q0 : Nat) : (s.setSinkAt c d fs).queue q0 = s.queue q0 := State.queue_of_withSinks s _ _
@[simp] theorem State.cmd_of_setSinkAt (c : Nat) (d : Side) (fs : List Flit) (n0 : Nat) : (s.setSinkAt c d fs).cmd n0 = s.cmd n0 := State.cmd_of_withSinks s _ _
@[simp] theorem State.task_of_setSinkAt (c : Nat) (d : Side) (fs : List Flit) (k0 : Nat) : (s.setSinkAt c d fs).task k0 = s.task k0 := State.task_of_withSinks s _ _
@[simp] theorem State.aop_of_setSinkAt (c : Nat) (d : Side) (fs : List Flit) (n0 d0 : Nat) : (s.setSinkAt c d fs).aop n0 d0 = s.aop n0 d0 := State.aop_of_withSinks s _ _ _
@[simp] theorem State.tensor_of_setSinkAt (c : Nat) (d : Side) (fs : List Flit) (p0 t0 : Nat) : (s.setSinkAt c d fs).tensor p0 t0 = s.tensor p0 t0 := State.tensor_of_withSinks s _ _ _
@[simp] theorem State.regionOf_of_setSinkAt (c : Nat) (d : Side) (fs : List Flit) (c0 : Nat) : (s.setSinkAt c d fs).regionOf c0 = s.regionOf c0 := State.regionOf_of_withSinks s _ _
@[simp] theorem State.port_of_setSinkAt (c : Nat) (d : Side) (fs : List Flit) (p0 : Nat) : (s.setSinkAt c d fs).port p0 = s.port p0 := State.port_of_withSinks s _ _
@[simp] theorem State.chan_of_setSinkAt (c : Nat) (d : Side) (fs : List Flit) (c0 : Nat) : (s.setSinkAt c d fs).chan c0 = s.chan c0 := State.chan_of_withSinks s _ _

/-! ### `setBplane` -/

@[simp] theorem State.time_setBplane (b : Nat) (pl : Bool) (x : BlockPlane) : (s.setBplane b pl x).time = s.time := State.time_withPlanes s _
@[simp] theorem State.work_setBplane (b : Nat) (pl : Bool) (x : BlockPlane) : (s.setBplane b pl x).work = s.work := State.work_withPlanes s _
@[simp] theorem State.aclk_setBplane (b : Nat) (pl : Bool) (x : BlockPlane) : (s.setBplane b pl x).aclk = s.aclk := State.aclk_withPlanes s _
@[simp] theorem State.clocks_setBplane (b : Nat) (pl : Bool) (x : BlockPlane) : (s.setBplane b pl x).clocks = s.clocks := State.clocks_withPlanes s _
@[simp] theorem State.regs_setBplane (b : Nat) (pl : Bool) (x : BlockPlane) : (s.setBplane b pl x).regs = s.regs := State.regs_withPlanes s _
@[simp] theorem State.mem_setBplane (b : Nat) (pl : Bool) (x : BlockPlane) : (s.setBplane b pl x).mem = s.mem := State.mem_withPlanes s _
@[simp] theorem State.ctl_setBplane (b : Nat) (pl : Bool) (x : BlockPlane) : (s.setBplane b pl x).ctl = s.ctl := State.ctl_withPlanes s _
@[simp] theorem State.blk_setBplane (b : Nat) (pl : Bool) (x : BlockPlane) : (s.setBplane b pl x).blk = s.blk := State.blk_withPlanes s _
@[simp] theorem State.srv_setBplane (b : Nat) (pl : Bool) (x : BlockPlane) : (s.setBplane b pl x).srv = s.srv := State.srv_withPlanes s _
@[simp] theorem State.intc_setBplane (b : Nat) (pl : Bool) (x : BlockPlane) : (s.setBplane b pl x).intc = s.intc := State.intc_withPlanes s _
@[simp] theorem State.obs_setBplane (b : Nat) (pl : Bool) (x : BlockPlane) : (s.setBplane b pl x).obs = s.obs := State.obs_withPlanes s _
@[simp] theorem State.lpx_setBplane (b : Nat) (pl : Bool) (x : BlockPlane) : (s.setBplane b pl x).lpx = s.lpx := State.lpx_withPlanes s _
@[simp] theorem State.rlt_setBplane (b : Nat) (pl : Bool) (x : BlockPlane) : (s.setBplane b pl x).rlt = s.rlt := State.rlt_withPlanes s _
@[simp] theorem State.pci_setBplane (b : Nat) (pl : Bool) (x : BlockPlane) : (s.setBplane b pl x).pci = s.pci := State.pci_withPlanes s _
@[simp] theorem State.pwr_setBplane (b : Nat) (pl : Bool) (x : BlockPlane) : (s.setBplane b pl x).pwr = s.pwr := State.pwr_withPlanes s _
@[simp] theorem State.sec_setBplane (b : Nat) (pl : Bool) (x : BlockPlane) : (s.setBplane b pl x).sec = s.sec := State.sec_withPlanes s _
@[simp] theorem State.pins_setBplane (b : Nat) (pl : Bool) (x : BlockPlane) : (s.setBplane b pl x).pins = s.pins := State.pins_withPlanes s _
@[simp] theorem State.board_setBplane (b : Nat) (pl : Bool) (x : BlockPlane) : (s.setBplane b pl x).board = s.board := State.board_withPlanes s _
@[simp] theorem State.saved_setBplane (b : Nat) (pl : Bool) (x : BlockPlane) : (s.setBplane b pl x).saved = s.saved := State.saved_withPlanes s _
@[simp] theorem State.fresh_setBplane (b : Nat) (pl : Bool) (x : BlockPlane) : (s.setBplane b pl x).fresh = s.fresh := State.fresh_withPlanes s _
@[simp] theorem State.beats_setBplane (b : Nat) (pl : Bool) (x : BlockPlane) : (s.setBplane b pl x).beats = s.beats := State.beats_withPlanes s _
@[simp] theorem State.msix_setBplane (b : Nat) (pl : Bool) (x : BlockPlane) : (s.setBplane b pl x).msix = s.msix := State.msix_withPlanes s _
@[simp] theorem State.out_setBplane (b : Nat) (pl : Bool) (x : BlockPlane) : (s.setBplane b pl x).out = s.out := State.out_withPlanes s _
@[simp] theorem State.hostMem_setBplane (b : Nat) (pl : Bool) (x : BlockPlane) : (s.setBplane b pl x).hostMem = s.hostMem := State.hostMem_withPlanes s _
@[simp] theorem State.pending_setBplane (b : Nat) (pl : Bool) (x : BlockPlane) : (s.setBplane b pl x).pending = s.pending := State.pending_withPlanes s _
@[simp] theorem State.arr_cogs_setBplane (b : Nat) (pl : Bool) (x : BlockPlane) : (s.setBplane b pl x).arr.cogs = s.arr.cogs := State.arr_cogs_withPlanes s _
@[simp] theorem State.arr_edges_setBplane (b : Nat) (pl : Bool) (x : BlockPlane) : (s.setBplane b pl x).arr.edges = s.arr.edges := State.arr_edges_withPlanes s _
@[simp] theorem State.arr_sinks_setBplane (b : Nat) (pl : Bool) (x : BlockPlane) : (s.setBplane b pl x).arr.sinks = s.arr.sinks := State.arr_sinks_withPlanes s _
@[simp] theorem State.arr_regions_setBplane (b : Nat) (pl : Bool) (x : BlockPlane) : (s.setBplane b pl x).arr.regions = s.arr.regions := State.arr_regions_withPlanes s _
@[simp] theorem State.arr_east_setBplane (b : Nat) (pl : Bool) (x : BlockPlane) : (s.setBplane b pl x).arr.east = s.arr.east := State.arr_east_withPlanes s _
@[simp] theorem State.reg_of_setBplane (b : Nat) (pl : Bool) (x : BlockPlane) (k0 : RegKind) (i0 : Nat) : (s.setBplane b pl x).reg k0 i0 = s.reg k0 i0 := State.reg_of_withPlanes s _ _ _
@[simp] theorem State.rd_of_setBplane (b : Nat) (pl : Bool) (x : BlockPlane) (f0 : Fld) (i0 : Nat) : (s.setBplane b pl x).rd f0 i0 = s.rd f0 i0 := State.rd_of_withPlanes s _ _ _
@[simp] theorem State.live_of_setBplane (b : Nat) (pl : Bool) (x : BlockPlane) : (s.setBplane b pl x).live = s.live := State.live_of_withPlanes s _
@[simp] theorem State.cog_of_setBplane (b : Nat) (pl : Bool) (x : BlockPlane) (c0 : Nat) : (s.setBplane b pl x).cog c0 = s.cog c0 := State.cog_of_withPlanes s _ _
@[simp] theorem State.hub_of_setBplane (b : Nat) (pl : Bool) (x : BlockPlane) (h0 : Nat) : (s.setBplane b pl x).hub h0 = s.hub h0 := State.hub_of_withPlanes s _ _
@[simp] theorem State.queue_of_setBplane (b : Nat) (pl : Bool) (x : BlockPlane) (q0 : Nat) : (s.setBplane b pl x).queue q0 = s.queue q0 := State.queue_of_withPlanes s _ _
@[simp] theorem State.cmd_of_setBplane (b : Nat) (pl : Bool) (x : BlockPlane) (n0 : Nat) : (s.setBplane b pl x).cmd n0 = s.cmd n0 := State.cmd_of_withPlanes s _ _
@[simp] theorem State.task_of_setBplane (b : Nat) (pl : Bool) (x : BlockPlane) (k0 : Nat) : (s.setBplane b pl x).task k0 = s.task k0 := State.task_of_withPlanes s _ _
@[simp] theorem State.aop_of_setBplane (b : Nat) (pl : Bool) (x : BlockPlane) (n0 d0 : Nat) : (s.setBplane b pl x).aop n0 d0 = s.aop n0 d0 := State.aop_of_withPlanes s _ _ _
@[simp] theorem State.tensor_of_setBplane (b : Nat) (pl : Bool) (x : BlockPlane) (p0 t0 : Nat) : (s.setBplane b pl x).tensor p0 t0 = s.tensor p0 t0 := State.tensor_of_withPlanes s _ _ _
@[simp] theorem State.regionOf_of_setBplane (b : Nat) (pl : Bool) (x : BlockPlane) (c0 : Nat) : (s.setBplane b pl x).regionOf c0 = s.regionOf c0 := State.regionOf_of_withPlanes s _ _
@[simp] theorem State.port_of_setBplane (b : Nat) (pl : Bool) (x : BlockPlane) (p0 : Nat) : (s.setBplane b pl x).port p0 = s.port p0 := State.port_of_withPlanes s _ _
@[simp] theorem State.chan_of_setBplane (b : Nat) (pl : Bool) (x : BlockPlane) (c0 : Nat) : (s.setBplane b pl x).chan c0 = s.chan c0 := State.chan_of_withPlanes s _ _

/-! ### `setRegion` -/

@[simp] theorem State.time_setRegion (k : Nat) (r : Region) : (s.setRegion k r).time = s.time := State.time_withRegions s _
@[simp] theorem State.work_setRegion (k : Nat) (r : Region) : (s.setRegion k r).work = s.work := State.work_withRegions s _
@[simp] theorem State.aclk_setRegion (k : Nat) (r : Region) : (s.setRegion k r).aclk = s.aclk := State.aclk_withRegions s _
@[simp] theorem State.clocks_setRegion (k : Nat) (r : Region) : (s.setRegion k r).clocks = s.clocks := State.clocks_withRegions s _
@[simp] theorem State.regs_setRegion (k : Nat) (r : Region) : (s.setRegion k r).regs = s.regs := State.regs_withRegions s _
@[simp] theorem State.mem_setRegion (k : Nat) (r : Region) : (s.setRegion k r).mem = s.mem := State.mem_withRegions s _
@[simp] theorem State.ctl_setRegion (k : Nat) (r : Region) : (s.setRegion k r).ctl = s.ctl := State.ctl_withRegions s _
@[simp] theorem State.blk_setRegion (k : Nat) (r : Region) : (s.setRegion k r).blk = s.blk := State.blk_withRegions s _
@[simp] theorem State.srv_setRegion (k : Nat) (r : Region) : (s.setRegion k r).srv = s.srv := State.srv_withRegions s _
@[simp] theorem State.intc_setRegion (k : Nat) (r : Region) : (s.setRegion k r).intc = s.intc := State.intc_withRegions s _
@[simp] theorem State.obs_setRegion (k : Nat) (r : Region) : (s.setRegion k r).obs = s.obs := State.obs_withRegions s _
@[simp] theorem State.lpx_setRegion (k : Nat) (r : Region) : (s.setRegion k r).lpx = s.lpx := State.lpx_withRegions s _
@[simp] theorem State.rlt_setRegion (k : Nat) (r : Region) : (s.setRegion k r).rlt = s.rlt := State.rlt_withRegions s _
@[simp] theorem State.pci_setRegion (k : Nat) (r : Region) : (s.setRegion k r).pci = s.pci := State.pci_withRegions s _
@[simp] theorem State.pwr_setRegion (k : Nat) (r : Region) : (s.setRegion k r).pwr = s.pwr := State.pwr_withRegions s _
@[simp] theorem State.sec_setRegion (k : Nat) (r : Region) : (s.setRegion k r).sec = s.sec := State.sec_withRegions s _
@[simp] theorem State.pins_setRegion (k : Nat) (r : Region) : (s.setRegion k r).pins = s.pins := State.pins_withRegions s _
@[simp] theorem State.board_setRegion (k : Nat) (r : Region) : (s.setRegion k r).board = s.board := State.board_withRegions s _
@[simp] theorem State.saved_setRegion (k : Nat) (r : Region) : (s.setRegion k r).saved = s.saved := State.saved_withRegions s _
@[simp] theorem State.fresh_setRegion (k : Nat) (r : Region) : (s.setRegion k r).fresh = s.fresh := State.fresh_withRegions s _
@[simp] theorem State.beats_setRegion (k : Nat) (r : Region) : (s.setRegion k r).beats = s.beats := State.beats_withRegions s _
@[simp] theorem State.msix_setRegion (k : Nat) (r : Region) : (s.setRegion k r).msix = s.msix := State.msix_withRegions s _
@[simp] theorem State.out_setRegion (k : Nat) (r : Region) : (s.setRegion k r).out = s.out := State.out_withRegions s _
@[simp] theorem State.hostMem_setRegion (k : Nat) (r : Region) : (s.setRegion k r).hostMem = s.hostMem := State.hostMem_withRegions s _
@[simp] theorem State.pending_setRegion (k : Nat) (r : Region) : (s.setRegion k r).pending = s.pending := State.pending_withRegions s _
@[simp] theorem State.arr_cogs_setRegion (k : Nat) (r : Region) : (s.setRegion k r).arr.cogs = s.arr.cogs := State.arr_cogs_withRegions s _
@[simp] theorem State.arr_edges_setRegion (k : Nat) (r : Region) : (s.setRegion k r).arr.edges = s.arr.edges := State.arr_edges_withRegions s _
@[simp] theorem State.arr_sinks_setRegion (k : Nat) (r : Region) : (s.setRegion k r).arr.sinks = s.arr.sinks := State.arr_sinks_withRegions s _
@[simp] theorem State.arr_planes_setRegion (k : Nat) (r : Region) : (s.setRegion k r).arr.planes = s.arr.planes := State.arr_planes_withRegions s _
@[simp] theorem State.arr_east_setRegion (k : Nat) (r : Region) : (s.setRegion k r).arr.east = s.arr.east := State.arr_east_withRegions s _
@[simp] theorem State.reg_of_setRegion (k : Nat) (r : Region) (k0 : RegKind) (i0 : Nat) : (s.setRegion k r).reg k0 i0 = s.reg k0 i0 := State.reg_of_withRegions s _ _ _
@[simp] theorem State.rd_of_setRegion (k : Nat) (r : Region) (f0 : Fld) (i0 : Nat) : (s.setRegion k r).rd f0 i0 = s.rd f0 i0 := State.rd_of_withRegions s _ _ _
@[simp] theorem State.live_of_setRegion (k : Nat) (r : Region) : (s.setRegion k r).live = s.live := State.live_of_withRegions s _
@[simp] theorem State.cog_of_setRegion (k : Nat) (r : Region) (c0 : Nat) : (s.setRegion k r).cog c0 = s.cog c0 := State.cog_of_withRegions s _ _
@[simp] theorem State.hub_of_setRegion (k : Nat) (r : Region) (h0 : Nat) : (s.setRegion k r).hub h0 = s.hub h0 := State.hub_of_withRegions s _ _
@[simp] theorem State.queue_of_setRegion (k : Nat) (r : Region) (q0 : Nat) : (s.setRegion k r).queue q0 = s.queue q0 := State.queue_of_withRegions s _ _
@[simp] theorem State.cmd_of_setRegion (k : Nat) (r : Region) (n0 : Nat) : (s.setRegion k r).cmd n0 = s.cmd n0 := State.cmd_of_withRegions s _ _
@[simp] theorem State.task_of_setRegion (k : Nat) (r : Region) (k0 : Nat) : (s.setRegion k r).task k0 = s.task k0 := State.task_of_withRegions s _ _
@[simp] theorem State.aop_of_setRegion (k : Nat) (r : Region) (n0 d0 : Nat) : (s.setRegion k r).aop n0 d0 = s.aop n0 d0 := State.aop_of_withRegions s _ _ _
@[simp] theorem State.tensor_of_setRegion (k : Nat) (r : Region) (p0 t0 : Nat) : (s.setRegion k r).tensor p0 t0 = s.tensor p0 t0 := State.tensor_of_withRegions s _ _ _
@[simp] theorem State.port_of_setRegion (k : Nat) (r : Region) (p0 : Nat) : (s.setRegion k r).port p0 = s.port p0 := State.port_of_withRegions s _ _
@[simp] theorem State.chan_of_setRegion (k : Nat) (r : Region) (c0 : Nat) : (s.setRegion k r).chan c0 = s.chan c0 := State.chan_of_withRegions s _ _

/-! ### `setEast` -/

@[simp] theorem State.time_setEast (l : Nat) (x : EastIn) : (s.setEast l x).time = s.time := State.time_withEast s _
@[simp] theorem State.work_setEast (l : Nat) (x : EastIn) : (s.setEast l x).work = s.work := State.work_withEast s _
@[simp] theorem State.aclk_setEast (l : Nat) (x : EastIn) : (s.setEast l x).aclk = s.aclk := State.aclk_withEast s _
@[simp] theorem State.clocks_setEast (l : Nat) (x : EastIn) : (s.setEast l x).clocks = s.clocks := State.clocks_withEast s _
@[simp] theorem State.regs_setEast (l : Nat) (x : EastIn) : (s.setEast l x).regs = s.regs := State.regs_withEast s _
@[simp] theorem State.mem_setEast (l : Nat) (x : EastIn) : (s.setEast l x).mem = s.mem := State.mem_withEast s _
@[simp] theorem State.ctl_setEast (l : Nat) (x : EastIn) : (s.setEast l x).ctl = s.ctl := State.ctl_withEast s _
@[simp] theorem State.blk_setEast (l : Nat) (x : EastIn) : (s.setEast l x).blk = s.blk := State.blk_withEast s _
@[simp] theorem State.srv_setEast (l : Nat) (x : EastIn) : (s.setEast l x).srv = s.srv := State.srv_withEast s _
@[simp] theorem State.intc_setEast (l : Nat) (x : EastIn) : (s.setEast l x).intc = s.intc := State.intc_withEast s _
@[simp] theorem State.obs_setEast (l : Nat) (x : EastIn) : (s.setEast l x).obs = s.obs := State.obs_withEast s _
@[simp] theorem State.lpx_setEast (l : Nat) (x : EastIn) : (s.setEast l x).lpx = s.lpx := State.lpx_withEast s _
@[simp] theorem State.rlt_setEast (l : Nat) (x : EastIn) : (s.setEast l x).rlt = s.rlt := State.rlt_withEast s _
@[simp] theorem State.pci_setEast (l : Nat) (x : EastIn) : (s.setEast l x).pci = s.pci := State.pci_withEast s _
@[simp] theorem State.pwr_setEast (l : Nat) (x : EastIn) : (s.setEast l x).pwr = s.pwr := State.pwr_withEast s _
@[simp] theorem State.sec_setEast (l : Nat) (x : EastIn) : (s.setEast l x).sec = s.sec := State.sec_withEast s _
@[simp] theorem State.pins_setEast (l : Nat) (x : EastIn) : (s.setEast l x).pins = s.pins := State.pins_withEast s _
@[simp] theorem State.board_setEast (l : Nat) (x : EastIn) : (s.setEast l x).board = s.board := State.board_withEast s _
@[simp] theorem State.saved_setEast (l : Nat) (x : EastIn) : (s.setEast l x).saved = s.saved := State.saved_withEast s _
@[simp] theorem State.fresh_setEast (l : Nat) (x : EastIn) : (s.setEast l x).fresh = s.fresh := State.fresh_withEast s _
@[simp] theorem State.beats_setEast (l : Nat) (x : EastIn) : (s.setEast l x).beats = s.beats := State.beats_withEast s _
@[simp] theorem State.msix_setEast (l : Nat) (x : EastIn) : (s.setEast l x).msix = s.msix := State.msix_withEast s _
@[simp] theorem State.out_setEast (l : Nat) (x : EastIn) : (s.setEast l x).out = s.out := State.out_withEast s _
@[simp] theorem State.hostMem_setEast (l : Nat) (x : EastIn) : (s.setEast l x).hostMem = s.hostMem := State.hostMem_withEast s _
@[simp] theorem State.pending_setEast (l : Nat) (x : EastIn) : (s.setEast l x).pending = s.pending := State.pending_withEast s _
@[simp] theorem State.arr_cogs_setEast (l : Nat) (x : EastIn) : (s.setEast l x).arr.cogs = s.arr.cogs := State.arr_cogs_withEast s _
@[simp] theorem State.arr_edges_setEast (l : Nat) (x : EastIn) : (s.setEast l x).arr.edges = s.arr.edges := State.arr_edges_withEast s _
@[simp] theorem State.arr_sinks_setEast (l : Nat) (x : EastIn) : (s.setEast l x).arr.sinks = s.arr.sinks := State.arr_sinks_withEast s _
@[simp] theorem State.arr_planes_setEast (l : Nat) (x : EastIn) : (s.setEast l x).arr.planes = s.arr.planes := State.arr_planes_withEast s _
@[simp] theorem State.arr_regions_setEast (l : Nat) (x : EastIn) : (s.setEast l x).arr.regions = s.arr.regions := State.arr_regions_withEast s _
@[simp] theorem State.reg_of_setEast (l : Nat) (x : EastIn) (k0 : RegKind) (i0 : Nat) : (s.setEast l x).reg k0 i0 = s.reg k0 i0 := State.reg_of_withEast s _ _ _
@[simp] theorem State.rd_of_setEast (l : Nat) (x : EastIn) (f0 : Fld) (i0 : Nat) : (s.setEast l x).rd f0 i0 = s.rd f0 i0 := State.rd_of_withEast s _ _ _
@[simp] theorem State.live_of_setEast (l : Nat) (x : EastIn) : (s.setEast l x).live = s.live := State.live_of_withEast s _
@[simp] theorem State.cog_of_setEast (l : Nat) (x : EastIn) (c0 : Nat) : (s.setEast l x).cog c0 = s.cog c0 := State.cog_of_withEast s _ _
@[simp] theorem State.hub_of_setEast (l : Nat) (x : EastIn) (h0 : Nat) : (s.setEast l x).hub h0 = s.hub h0 := State.hub_of_withEast s _ _
@[simp] theorem State.queue_of_setEast (l : Nat) (x : EastIn) (q0 : Nat) : (s.setEast l x).queue q0 = s.queue q0 := State.queue_of_withEast s _ _
@[simp] theorem State.cmd_of_setEast (l : Nat) (x : EastIn) (n0 : Nat) : (s.setEast l x).cmd n0 = s.cmd n0 := State.cmd_of_withEast s _ _
@[simp] theorem State.task_of_setEast (l : Nat) (x : EastIn) (k0 : Nat) : (s.setEast l x).task k0 = s.task k0 := State.task_of_withEast s _ _
@[simp] theorem State.aop_of_setEast (l : Nat) (x : EastIn) (n0 d0 : Nat) : (s.setEast l x).aop n0 d0 = s.aop n0 d0 := State.aop_of_withEast s _ _ _
@[simp] theorem State.tensor_of_setEast (l : Nat) (x : EastIn) (p0 t0 : Nat) : (s.setEast l x).tensor p0 t0 = s.tensor p0 t0 := State.tensor_of_withEast s _ _ _
@[simp] theorem State.regionOf_of_setEast (l : Nat) (x : EastIn) (c0 : Nat) : (s.setEast l x).regionOf c0 = s.regionOf c0 := State.regionOf_of_withEast s _ _
@[simp] theorem State.port_of_setEast (l : Nat) (x : EastIn) (p0 : Nat) : (s.setEast l x).port p0 = s.port p0 := State.port_of_withEast s _ _
@[simp] theorem State.chan_of_setEast (l : Nat) (x : EastIn) (c0 : Nat) : (s.setEast l x).chan c0 = s.chan c0 := State.chan_of_withEast s _ _

/-! ### `setTensor` -/

@[simp] theorem State.time_setTensor (p tid : Nat) (t : Tensor) : (s.setTensor p tid t).time = s.time := State.time_withTensorsMem s _
@[simp] theorem State.work_setTensor (p tid : Nat) (t : Tensor) : (s.setTensor p tid t).work = s.work := State.work_withTensorsMem s _
@[simp] theorem State.aclk_setTensor (p tid : Nat) (t : Tensor) : (s.setTensor p tid t).aclk = s.aclk := State.aclk_withTensorsMem s _
@[simp] theorem State.clocks_setTensor (p tid : Nat) (t : Tensor) : (s.setTensor p tid t).clocks = s.clocks := State.clocks_withTensorsMem s _
@[simp] theorem State.regs_setTensor (p tid : Nat) (t : Tensor) : (s.setTensor p tid t).regs = s.regs := State.regs_withTensorsMem s _
@[simp] theorem State.arr_setTensor (p tid : Nat) (t : Tensor) : (s.setTensor p tid t).arr = s.arr := State.arr_withTensorsMem s _
@[simp] theorem State.ctl_setTensor (p tid : Nat) (t : Tensor) : (s.setTensor p tid t).ctl = s.ctl := State.ctl_withTensorsMem s _
@[simp] theorem State.blk_setTensor (p tid : Nat) (t : Tensor) : (s.setTensor p tid t).blk = s.blk := State.blk_withTensorsMem s _
@[simp] theorem State.srv_setTensor (p tid : Nat) (t : Tensor) : (s.setTensor p tid t).srv = s.srv := State.srv_withTensorsMem s _
@[simp] theorem State.intc_setTensor (p tid : Nat) (t : Tensor) : (s.setTensor p tid t).intc = s.intc := State.intc_withTensorsMem s _
@[simp] theorem State.obs_setTensor (p tid : Nat) (t : Tensor) : (s.setTensor p tid t).obs = s.obs := State.obs_withTensorsMem s _
@[simp] theorem State.lpx_setTensor (p tid : Nat) (t : Tensor) : (s.setTensor p tid t).lpx = s.lpx := State.lpx_withTensorsMem s _
@[simp] theorem State.rlt_setTensor (p tid : Nat) (t : Tensor) : (s.setTensor p tid t).rlt = s.rlt := State.rlt_withTensorsMem s _
@[simp] theorem State.pci_setTensor (p tid : Nat) (t : Tensor) : (s.setTensor p tid t).pci = s.pci := State.pci_withTensorsMem s _
@[simp] theorem State.pwr_setTensor (p tid : Nat) (t : Tensor) : (s.setTensor p tid t).pwr = s.pwr := State.pwr_withTensorsMem s _
@[simp] theorem State.sec_setTensor (p tid : Nat) (t : Tensor) : (s.setTensor p tid t).sec = s.sec := State.sec_withTensorsMem s _
@[simp] theorem State.pins_setTensor (p tid : Nat) (t : Tensor) : (s.setTensor p tid t).pins = s.pins := State.pins_withTensorsMem s _
@[simp] theorem State.board_setTensor (p tid : Nat) (t : Tensor) : (s.setTensor p tid t).board = s.board := State.board_withTensorsMem s _
@[simp] theorem State.saved_setTensor (p tid : Nat) (t : Tensor) : (s.setTensor p tid t).saved = s.saved := State.saved_withTensorsMem s _
@[simp] theorem State.fresh_setTensor (p tid : Nat) (t : Tensor) : (s.setTensor p tid t).fresh = s.fresh := State.fresh_withTensorsMem s _
@[simp] theorem State.beats_setTensor (p tid : Nat) (t : Tensor) : (s.setTensor p tid t).beats = s.beats := State.beats_withTensorsMem s _
@[simp] theorem State.msix_setTensor (p tid : Nat) (t : Tensor) : (s.setTensor p tid t).msix = s.msix := State.msix_withTensorsMem s _
@[simp] theorem State.out_setTensor (p tid : Nat) (t : Tensor) : (s.setTensor p tid t).out = s.out := State.out_withTensorsMem s _
@[simp] theorem State.hostMem_setTensor (p tid : Nat) (t : Tensor) : (s.setTensor p tid t).hostMem = s.hostMem := State.hostMem_withTensorsMem s _
@[simp] theorem State.pending_setTensor (p tid : Nat) (t : Tensor) : (s.setTensor p tid t).pending = s.pending := State.pending_withTensorsMem s _
@[simp] theorem State.mem_evicts_setTensor (p tid : Nat) (t : Tensor) : (s.setTensor p tid t).mem.evicts = s.mem.evicts := State.mem_evicts_withTensorsMem s _
@[simp] theorem State.mem_admits_setTensor (p tid : Nat) (t : Tensor) : (s.setTensor p tid t).mem.admits = s.mem.admits := State.mem_admits_withTensorsMem s _
@[simp] theorem State.mem_kvShadows_setTensor (p tid : Nat) (t : Tensor) : (s.setTensor p tid t).mem.kvShadows = s.mem.kvShadows := State.mem_kvShadows_withTensorsMem s _
@[simp] theorem State.mem_wbCount_setTensor (p tid : Nat) (t : Tensor) : (s.setTensor p tid t).mem.wbCount = s.mem.wbCount := State.mem_wbCount_withTensorsMem s _
@[simp] theorem State.reg_of_setTensor (p tid : Nat) (t : Tensor) (k0 : RegKind) (i0 : Nat) : (s.setTensor p tid t).reg k0 i0 = s.reg k0 i0 := State.reg_of_withTensorsMem s _ _ _
@[simp] theorem State.rd_of_setTensor (p tid : Nat) (t : Tensor) (f0 : Fld) (i0 : Nat) : (s.setTensor p tid t).rd f0 i0 = s.rd f0 i0 := State.rd_of_withTensorsMem s _ _ _
@[simp] theorem State.live_of_setTensor (p tid : Nat) (t : Tensor) : (s.setTensor p tid t).live = s.live := State.live_of_withTensorsMem s _
@[simp] theorem State.cog_of_setTensor (p tid : Nat) (t : Tensor) (c0 : Nat) : (s.setTensor p tid t).cog c0 = s.cog c0 := State.cog_of_withTensorsMem s _ _
@[simp] theorem State.hub_of_setTensor (p tid : Nat) (t : Tensor) (h0 : Nat) : (s.setTensor p tid t).hub h0 = s.hub h0 := State.hub_of_withTensorsMem s _ _
@[simp] theorem State.queue_of_setTensor (p tid : Nat) (t : Tensor) (q0 : Nat) : (s.setTensor p tid t).queue q0 = s.queue q0 := State.queue_of_withTensorsMem s _ _
@[simp] theorem State.cmd_of_setTensor (p tid : Nat) (t : Tensor) (n0 : Nat) : (s.setTensor p tid t).cmd n0 = s.cmd n0 := State.cmd_of_withTensorsMem s _ _
@[simp] theorem State.task_of_setTensor (p tid : Nat) (t : Tensor) (k0 : Nat) : (s.setTensor p tid t).task k0 = s.task k0 := State.task_of_withTensorsMem s _ _
@[simp] theorem State.aop_of_setTensor (p tid : Nat) (t : Tensor) (n0 d0 : Nat) : (s.setTensor p tid t).aop n0 d0 = s.aop n0 d0 := State.aop_of_withTensorsMem s _ _ _
@[simp] theorem State.regionOf_of_setTensor (p tid : Nat) (t : Tensor) (c0 : Nat) : (s.setTensor p tid t).regionOf c0 = s.regionOf c0 := State.regionOf_of_withTensorsMem s _ _
@[simp] theorem State.port_of_setTensor (p tid : Nat) (t : Tensor) (p0 : Nat) : (s.setTensor p tid t).port p0 = s.port p0 := State.port_of_withTensorsMem s _ _
@[simp] theorem State.chan_of_setTensor (p tid : Nat) (t : Tensor) (c0 : Nat) : (s.setTensor p tid t).chan c0 = s.chan c0 := State.chan_of_withTensorsMem s _ _

/-! ### `setQueue` -/

@[simp] theorem State.time_setQueue (q : Nat) (x : Queue) : (s.setQueue q x).time = s.time := State.time_withQueuesCtl s _
@[simp] theorem State.work_setQueue (q : Nat) (x : Queue) : (s.setQueue q x).work = s.work := State.work_withQueuesCtl s _
@[simp] theorem State.aclk_setQueue (q : Nat) (x : Queue) : (s.setQueue q x).aclk = s.aclk := State.aclk_withQueuesCtl s _
@[simp] theorem State.clocks_setQueue (q : Nat) (x : Queue) : (s.setQueue q x).clocks = s.clocks := State.clocks_withQueuesCtl s _
@[simp] theorem State.regs_setQueue (q : Nat) (x : Queue) : (s.setQueue q x).regs = s.regs := State.regs_withQueuesCtl s _
@[simp] theorem State.arr_setQueue (q : Nat) (x : Queue) : (s.setQueue q x).arr = s.arr := State.arr_withQueuesCtl s _
@[simp] theorem State.mem_setQueue (q : Nat) (x : Queue) : (s.setQueue q x).mem = s.mem := State.mem_withQueuesCtl s _
@[simp] theorem State.blk_setQueue (q : Nat) (x : Queue) : (s.setQueue q x).blk = s.blk := State.blk_withQueuesCtl s _
@[simp] theorem State.srv_setQueue (q : Nat) (x : Queue) : (s.setQueue q x).srv = s.srv := State.srv_withQueuesCtl s _
@[simp] theorem State.intc_setQueue (q : Nat) (x : Queue) : (s.setQueue q x).intc = s.intc := State.intc_withQueuesCtl s _
@[simp] theorem State.obs_setQueue (q : Nat) (x : Queue) : (s.setQueue q x).obs = s.obs := State.obs_withQueuesCtl s _
@[simp] theorem State.lpx_setQueue (q : Nat) (x : Queue) : (s.setQueue q x).lpx = s.lpx := State.lpx_withQueuesCtl s _
@[simp] theorem State.rlt_setQueue (q : Nat) (x : Queue) : (s.setQueue q x).rlt = s.rlt := State.rlt_withQueuesCtl s _
@[simp] theorem State.pci_setQueue (q : Nat) (x : Queue) : (s.setQueue q x).pci = s.pci := State.pci_withQueuesCtl s _
@[simp] theorem State.pwr_setQueue (q : Nat) (x : Queue) : (s.setQueue q x).pwr = s.pwr := State.pwr_withQueuesCtl s _
@[simp] theorem State.sec_setQueue (q : Nat) (x : Queue) : (s.setQueue q x).sec = s.sec := State.sec_withQueuesCtl s _
@[simp] theorem State.pins_setQueue (q : Nat) (x : Queue) : (s.setQueue q x).pins = s.pins := State.pins_withQueuesCtl s _
@[simp] theorem State.board_setQueue (q : Nat) (x : Queue) : (s.setQueue q x).board = s.board := State.board_withQueuesCtl s _
@[simp] theorem State.saved_setQueue (q : Nat) (x : Queue) : (s.setQueue q x).saved = s.saved := State.saved_withQueuesCtl s _
@[simp] theorem State.fresh_setQueue (q : Nat) (x : Queue) : (s.setQueue q x).fresh = s.fresh := State.fresh_withQueuesCtl s _
@[simp] theorem State.beats_setQueue (q : Nat) (x : Queue) : (s.setQueue q x).beats = s.beats := State.beats_withQueuesCtl s _
@[simp] theorem State.msix_setQueue (q : Nat) (x : Queue) : (s.setQueue q x).msix = s.msix := State.msix_withQueuesCtl s _
@[simp] theorem State.out_setQueue (q : Nat) (x : Queue) : (s.setQueue q x).out = s.out := State.out_withQueuesCtl s _
@[simp] theorem State.hostMem_setQueue (q : Nat) (x : Queue) : (s.setQueue q x).hostMem = s.hostMem := State.hostMem_withQueuesCtl s _
@[simp] theorem State.pending_setQueue (q : Nat) (x : Queue) : (s.setQueue q x).pending = s.pending := State.pending_withQueuesCtl s _
@[simp] theorem State.ctl_cmds_setQueue (q : Nat) (x : Queue) : (s.setQueue q x).ctl.cmds = s.ctl.cmds := State.ctl_cmds_withQueuesCtl s _
@[simp] theorem State.ctl_tasks_setQueue (q : Nat) (x : Queue) : (s.setQueue q x).ctl.tasks = s.ctl.tasks := State.ctl_tasks_withQueuesCtl s _
@[simp] theorem State.ctl_ops_setQueue (q : Nat) (x : Queue) : (s.setQueue q x).ctl.ops = s.ctl.ops := State.ctl_ops_withQueuesCtl s _
@[simp] theorem State.ctl_jnlA_setQueue (q : Nat) (x : Queue) : (s.setQueue q x).ctl.jnlA = s.ctl.jnlA := State.ctl_jnlA_withQueuesCtl s _
@[simp] theorem State.ctl_jnlB_setQueue (q : Nat) (x : Queue) : (s.setQueue q x).ctl.jnlB = s.ctl.jnlB := State.ctl_jnlB_withQueuesCtl s _
@[simp] theorem State.ctl_nextSeq_setQueue (q : Nat) (x : Queue) : (s.setQueue q x).ctl.nextSeq = s.ctl.nextSeq := State.ctl_nextSeq_withQueuesCtl s _
@[simp] theorem State.ctl_hubs_setQueue (q : Nat) (x : Queue) : (s.setQueue q x).ctl.hubs = s.ctl.hubs := State.ctl_hubs_withQueuesCtl s _
@[simp] theorem State.ctl_table_setQueue (q : Nat) (x : Queue) : (s.setQueue q x).ctl.table = s.ctl.table := State.ctl_table_withQueuesCtl s _
@[simp] theorem State.ctl_slot_setQueue (q : Nat) (x : Queue) : (s.setQueue q x).ctl.slot = s.ctl.slot := State.ctl_slot_withQueuesCtl s _
@[simp] theorem State.ctl_partPend_setQueue (q : Nat) (x : Queue) : (s.setQueue q x).ctl.partPend = s.ctl.partPend := State.ctl_partPend_withQueuesCtl s _
@[simp] theorem State.ctl_turns_setQueue (q : Nat) (x : Queue) : (s.setQueue q x).ctl.turns = s.ctl.turns := State.ctl_turns_withQueuesCtl s _
@[simp] theorem State.reg_of_setQueue (q : Nat) (x : Queue) (k0 : RegKind) (i0 : Nat) : (s.setQueue q x).reg k0 i0 = s.reg k0 i0 := State.reg_of_withQueuesCtl s _ _ _
@[simp] theorem State.rd_of_setQueue (q : Nat) (x : Queue) (f0 : Fld) (i0 : Nat) : (s.setQueue q x).rd f0 i0 = s.rd f0 i0 := State.rd_of_withQueuesCtl s _ _ _
@[simp] theorem State.live_of_setQueue (q : Nat) (x : Queue) : (s.setQueue q x).live = s.live := State.live_of_withQueuesCtl s _
@[simp] theorem State.cog_of_setQueue (q : Nat) (x : Queue) (c0 : Nat) : (s.setQueue q x).cog c0 = s.cog c0 := State.cog_of_withQueuesCtl s _ _
@[simp] theorem State.hub_of_setQueue (q : Nat) (x : Queue) (h0 : Nat) : (s.setQueue q x).hub h0 = s.hub h0 := State.hub_of_withQueuesCtl s _ _
@[simp] theorem State.cmd_of_setQueue (q : Nat) (x : Queue) (n0 : Nat) : (s.setQueue q x).cmd n0 = s.cmd n0 := State.cmd_of_withQueuesCtl s _ _
@[simp] theorem State.task_of_setQueue (q : Nat) (x : Queue) (k0 : Nat) : (s.setQueue q x).task k0 = s.task k0 := State.task_of_withQueuesCtl s _ _
@[simp] theorem State.aop_of_setQueue (q : Nat) (x : Queue) (n0 d0 : Nat) : (s.setQueue q x).aop n0 d0 = s.aop n0 d0 := State.aop_of_withQueuesCtl s _ _ _
@[simp] theorem State.tensor_of_setQueue (q : Nat) (x : Queue) (p0 t0 : Nat) : (s.setQueue q x).tensor p0 t0 = s.tensor p0 t0 := State.tensor_of_withQueuesCtl s _ _ _
@[simp] theorem State.regionOf_of_setQueue (q : Nat) (x : Queue) (c0 : Nat) : (s.setQueue q x).regionOf c0 = s.regionOf c0 := State.regionOf_of_withQueuesCtl s _ _
@[simp] theorem State.port_of_setQueue (q : Nat) (x : Queue) (p0 : Nat) : (s.setQueue q x).port p0 = s.port p0 := State.port_of_withQueuesCtl s _ _
@[simp] theorem State.chan_of_setQueue (q : Nat) (x : Queue) (c0 : Nat) : (s.setQueue q x).chan c0 = s.chan c0 := State.chan_of_withQueuesCtl s _ _

/-! ### `setHub` -/

@[simp] theorem State.time_setHub (h : Nat) (x : Hub) : (s.setHub h x).time = s.time := State.time_withHubsCtl s _
@[simp] theorem State.work_setHub (h : Nat) (x : Hub) : (s.setHub h x).work = s.work := State.work_withHubsCtl s _
@[simp] theorem State.aclk_setHub (h : Nat) (x : Hub) : (s.setHub h x).aclk = s.aclk := State.aclk_withHubsCtl s _
@[simp] theorem State.clocks_setHub (h : Nat) (x : Hub) : (s.setHub h x).clocks = s.clocks := State.clocks_withHubsCtl s _
@[simp] theorem State.regs_setHub (h : Nat) (x : Hub) : (s.setHub h x).regs = s.regs := State.regs_withHubsCtl s _
@[simp] theorem State.arr_setHub (h : Nat) (x : Hub) : (s.setHub h x).arr = s.arr := State.arr_withHubsCtl s _
@[simp] theorem State.mem_setHub (h : Nat) (x : Hub) : (s.setHub h x).mem = s.mem := State.mem_withHubsCtl s _
@[simp] theorem State.blk_setHub (h : Nat) (x : Hub) : (s.setHub h x).blk = s.blk := State.blk_withHubsCtl s _
@[simp] theorem State.srv_setHub (h : Nat) (x : Hub) : (s.setHub h x).srv = s.srv := State.srv_withHubsCtl s _
@[simp] theorem State.intc_setHub (h : Nat) (x : Hub) : (s.setHub h x).intc = s.intc := State.intc_withHubsCtl s _
@[simp] theorem State.obs_setHub (h : Nat) (x : Hub) : (s.setHub h x).obs = s.obs := State.obs_withHubsCtl s _
@[simp] theorem State.lpx_setHub (h : Nat) (x : Hub) : (s.setHub h x).lpx = s.lpx := State.lpx_withHubsCtl s _
@[simp] theorem State.rlt_setHub (h : Nat) (x : Hub) : (s.setHub h x).rlt = s.rlt := State.rlt_withHubsCtl s _
@[simp] theorem State.pci_setHub (h : Nat) (x : Hub) : (s.setHub h x).pci = s.pci := State.pci_withHubsCtl s _
@[simp] theorem State.pwr_setHub (h : Nat) (x : Hub) : (s.setHub h x).pwr = s.pwr := State.pwr_withHubsCtl s _
@[simp] theorem State.sec_setHub (h : Nat) (x : Hub) : (s.setHub h x).sec = s.sec := State.sec_withHubsCtl s _
@[simp] theorem State.pins_setHub (h : Nat) (x : Hub) : (s.setHub h x).pins = s.pins := State.pins_withHubsCtl s _
@[simp] theorem State.board_setHub (h : Nat) (x : Hub) : (s.setHub h x).board = s.board := State.board_withHubsCtl s _
@[simp] theorem State.saved_setHub (h : Nat) (x : Hub) : (s.setHub h x).saved = s.saved := State.saved_withHubsCtl s _
@[simp] theorem State.fresh_setHub (h : Nat) (x : Hub) : (s.setHub h x).fresh = s.fresh := State.fresh_withHubsCtl s _
@[simp] theorem State.beats_setHub (h : Nat) (x : Hub) : (s.setHub h x).beats = s.beats := State.beats_withHubsCtl s _
@[simp] theorem State.msix_setHub (h : Nat) (x : Hub) : (s.setHub h x).msix = s.msix := State.msix_withHubsCtl s _
@[simp] theorem State.out_setHub (h : Nat) (x : Hub) : (s.setHub h x).out = s.out := State.out_withHubsCtl s _
@[simp] theorem State.hostMem_setHub (h : Nat) (x : Hub) : (s.setHub h x).hostMem = s.hostMem := State.hostMem_withHubsCtl s _
@[simp] theorem State.pending_setHub (h : Nat) (x : Hub) : (s.setHub h x).pending = s.pending := State.pending_withHubsCtl s _
@[simp] theorem State.ctl_queues_setHub (h : Nat) (x : Hub) : (s.setHub h x).ctl.queues = s.ctl.queues := State.ctl_queues_withHubsCtl s _
@[simp] theorem State.ctl_cmds_setHub (h : Nat) (x : Hub) : (s.setHub h x).ctl.cmds = s.ctl.cmds := State.ctl_cmds_withHubsCtl s _
@[simp] theorem State.ctl_tasks_setHub (h : Nat) (x : Hub) : (s.setHub h x).ctl.tasks = s.ctl.tasks := State.ctl_tasks_withHubsCtl s _
@[simp] theorem State.ctl_ops_setHub (h : Nat) (x : Hub) : (s.setHub h x).ctl.ops = s.ctl.ops := State.ctl_ops_withHubsCtl s _
@[simp] theorem State.ctl_jnlA_setHub (h : Nat) (x : Hub) : (s.setHub h x).ctl.jnlA = s.ctl.jnlA := State.ctl_jnlA_withHubsCtl s _
@[simp] theorem State.ctl_jnlB_setHub (h : Nat) (x : Hub) : (s.setHub h x).ctl.jnlB = s.ctl.jnlB := State.ctl_jnlB_withHubsCtl s _
@[simp] theorem State.ctl_nextSeq_setHub (h : Nat) (x : Hub) : (s.setHub h x).ctl.nextSeq = s.ctl.nextSeq := State.ctl_nextSeq_withHubsCtl s _
@[simp] theorem State.ctl_table_setHub (h : Nat) (x : Hub) : (s.setHub h x).ctl.table = s.ctl.table := State.ctl_table_withHubsCtl s _
@[simp] theorem State.ctl_slot_setHub (h : Nat) (x : Hub) : (s.setHub h x).ctl.slot = s.ctl.slot := State.ctl_slot_withHubsCtl s _
@[simp] theorem State.ctl_partPend_setHub (h : Nat) (x : Hub) : (s.setHub h x).ctl.partPend = s.ctl.partPend := State.ctl_partPend_withHubsCtl s _
@[simp] theorem State.ctl_turns_setHub (h : Nat) (x : Hub) : (s.setHub h x).ctl.turns = s.ctl.turns := State.ctl_turns_withHubsCtl s _
@[simp] theorem State.reg_of_setHub (h : Nat) (x : Hub) (k0 : RegKind) (i0 : Nat) : (s.setHub h x).reg k0 i0 = s.reg k0 i0 := State.reg_of_withHubsCtl s _ _ _
@[simp] theorem State.rd_of_setHub (h : Nat) (x : Hub) (f0 : Fld) (i0 : Nat) : (s.setHub h x).rd f0 i0 = s.rd f0 i0 := State.rd_of_withHubsCtl s _ _ _
@[simp] theorem State.live_of_setHub (h : Nat) (x : Hub) : (s.setHub h x).live = s.live := State.live_of_withHubsCtl s _
@[simp] theorem State.cog_of_setHub (h : Nat) (x : Hub) (c0 : Nat) : (s.setHub h x).cog c0 = s.cog c0 := State.cog_of_withHubsCtl s _ _
@[simp] theorem State.queue_of_setHub (h : Nat) (x : Hub) (q0 : Nat) : (s.setHub h x).queue q0 = s.queue q0 := State.queue_of_withHubsCtl s _ _
@[simp] theorem State.cmd_of_setHub (h : Nat) (x : Hub) (n0 : Nat) : (s.setHub h x).cmd n0 = s.cmd n0 := State.cmd_of_withHubsCtl s _ _
@[simp] theorem State.task_of_setHub (h : Nat) (x : Hub) (k0 : Nat) : (s.setHub h x).task k0 = s.task k0 := State.task_of_withHubsCtl s _ _
@[simp] theorem State.aop_of_setHub (h : Nat) (x : Hub) (n0 d0 : Nat) : (s.setHub h x).aop n0 d0 = s.aop n0 d0 := State.aop_of_withHubsCtl s _ _ _
@[simp] theorem State.tensor_of_setHub (h : Nat) (x : Hub) (p0 t0 : Nat) : (s.setHub h x).tensor p0 t0 = s.tensor p0 t0 := State.tensor_of_withHubsCtl s _ _ _
@[simp] theorem State.regionOf_of_setHub (h : Nat) (x : Hub) (c0 : Nat) : (s.setHub h x).regionOf c0 = s.regionOf c0 := State.regionOf_of_withHubsCtl s _ _
@[simp] theorem State.port_of_setHub (h : Nat) (x : Hub) (p0 : Nat) : (s.setHub h x).port p0 = s.port p0 := State.port_of_withHubsCtl s _ _
@[simp] theorem State.chan_of_setHub (h : Nat) (x : Hub) (c0 : Nat) : (s.setHub h x).chan c0 = s.chan c0 := State.chan_of_withHubsCtl s _ _

/-! ### `setCmd` -/

@[simp] theorem State.time_setCmd (n : Nat) (c : Cmd) : (s.setCmd n c).time = s.time := State.time_withCmdsCtl s _
@[simp] theorem State.work_setCmd (n : Nat) (c : Cmd) : (s.setCmd n c).work = s.work := State.work_withCmdsCtl s _
@[simp] theorem State.aclk_setCmd (n : Nat) (c : Cmd) : (s.setCmd n c).aclk = s.aclk := State.aclk_withCmdsCtl s _
@[simp] theorem State.clocks_setCmd (n : Nat) (c : Cmd) : (s.setCmd n c).clocks = s.clocks := State.clocks_withCmdsCtl s _
@[simp] theorem State.regs_setCmd (n : Nat) (c : Cmd) : (s.setCmd n c).regs = s.regs := State.regs_withCmdsCtl s _
@[simp] theorem State.arr_setCmd (n : Nat) (c : Cmd) : (s.setCmd n c).arr = s.arr := State.arr_withCmdsCtl s _
@[simp] theorem State.mem_setCmd (n : Nat) (c : Cmd) : (s.setCmd n c).mem = s.mem := State.mem_withCmdsCtl s _
@[simp] theorem State.blk_setCmd (n : Nat) (c : Cmd) : (s.setCmd n c).blk = s.blk := State.blk_withCmdsCtl s _
@[simp] theorem State.srv_setCmd (n : Nat) (c : Cmd) : (s.setCmd n c).srv = s.srv := State.srv_withCmdsCtl s _
@[simp] theorem State.intc_setCmd (n : Nat) (c : Cmd) : (s.setCmd n c).intc = s.intc := State.intc_withCmdsCtl s _
@[simp] theorem State.obs_setCmd (n : Nat) (c : Cmd) : (s.setCmd n c).obs = s.obs := State.obs_withCmdsCtl s _
@[simp] theorem State.lpx_setCmd (n : Nat) (c : Cmd) : (s.setCmd n c).lpx = s.lpx := State.lpx_withCmdsCtl s _
@[simp] theorem State.rlt_setCmd (n : Nat) (c : Cmd) : (s.setCmd n c).rlt = s.rlt := State.rlt_withCmdsCtl s _
@[simp] theorem State.pci_setCmd (n : Nat) (c : Cmd) : (s.setCmd n c).pci = s.pci := State.pci_withCmdsCtl s _
@[simp] theorem State.pwr_setCmd (n : Nat) (c : Cmd) : (s.setCmd n c).pwr = s.pwr := State.pwr_withCmdsCtl s _
@[simp] theorem State.sec_setCmd (n : Nat) (c : Cmd) : (s.setCmd n c).sec = s.sec := State.sec_withCmdsCtl s _
@[simp] theorem State.pins_setCmd (n : Nat) (c : Cmd) : (s.setCmd n c).pins = s.pins := State.pins_withCmdsCtl s _
@[simp] theorem State.board_setCmd (n : Nat) (c : Cmd) : (s.setCmd n c).board = s.board := State.board_withCmdsCtl s _
@[simp] theorem State.saved_setCmd (n : Nat) (c : Cmd) : (s.setCmd n c).saved = s.saved := State.saved_withCmdsCtl s _
@[simp] theorem State.fresh_setCmd (n : Nat) (c : Cmd) : (s.setCmd n c).fresh = s.fresh := State.fresh_withCmdsCtl s _
@[simp] theorem State.beats_setCmd (n : Nat) (c : Cmd) : (s.setCmd n c).beats = s.beats := State.beats_withCmdsCtl s _
@[simp] theorem State.msix_setCmd (n : Nat) (c : Cmd) : (s.setCmd n c).msix = s.msix := State.msix_withCmdsCtl s _
@[simp] theorem State.out_setCmd (n : Nat) (c : Cmd) : (s.setCmd n c).out = s.out := State.out_withCmdsCtl s _
@[simp] theorem State.hostMem_setCmd (n : Nat) (c : Cmd) : (s.setCmd n c).hostMem = s.hostMem := State.hostMem_withCmdsCtl s _
@[simp] theorem State.pending_setCmd (n : Nat) (c : Cmd) : (s.setCmd n c).pending = s.pending := State.pending_withCmdsCtl s _
@[simp] theorem State.ctl_queues_setCmd (n : Nat) (c : Cmd) : (s.setCmd n c).ctl.queues = s.ctl.queues := State.ctl_queues_withCmdsCtl s _
@[simp] theorem State.ctl_tasks_setCmd (n : Nat) (c : Cmd) : (s.setCmd n c).ctl.tasks = s.ctl.tasks := State.ctl_tasks_withCmdsCtl s _
@[simp] theorem State.ctl_ops_setCmd (n : Nat) (c : Cmd) : (s.setCmd n c).ctl.ops = s.ctl.ops := State.ctl_ops_withCmdsCtl s _
@[simp] theorem State.ctl_jnlA_setCmd (n : Nat) (c : Cmd) : (s.setCmd n c).ctl.jnlA = s.ctl.jnlA := State.ctl_jnlA_withCmdsCtl s _
@[simp] theorem State.ctl_jnlB_setCmd (n : Nat) (c : Cmd) : (s.setCmd n c).ctl.jnlB = s.ctl.jnlB := State.ctl_jnlB_withCmdsCtl s _
@[simp] theorem State.ctl_nextSeq_setCmd (n : Nat) (c : Cmd) : (s.setCmd n c).ctl.nextSeq = s.ctl.nextSeq := State.ctl_nextSeq_withCmdsCtl s _
@[simp] theorem State.ctl_hubs_setCmd (n : Nat) (c : Cmd) : (s.setCmd n c).ctl.hubs = s.ctl.hubs := State.ctl_hubs_withCmdsCtl s _
@[simp] theorem State.ctl_table_setCmd (n : Nat) (c : Cmd) : (s.setCmd n c).ctl.table = s.ctl.table := State.ctl_table_withCmdsCtl s _
@[simp] theorem State.ctl_slot_setCmd (n : Nat) (c : Cmd) : (s.setCmd n c).ctl.slot = s.ctl.slot := State.ctl_slot_withCmdsCtl s _
@[simp] theorem State.ctl_partPend_setCmd (n : Nat) (c : Cmd) : (s.setCmd n c).ctl.partPend = s.ctl.partPend := State.ctl_partPend_withCmdsCtl s _
@[simp] theorem State.ctl_turns_setCmd (n : Nat) (c : Cmd) : (s.setCmd n c).ctl.turns = s.ctl.turns := State.ctl_turns_withCmdsCtl s _
@[simp] theorem State.reg_of_setCmd (n : Nat) (c : Cmd) (k0 : RegKind) (i0 : Nat) : (s.setCmd n c).reg k0 i0 = s.reg k0 i0 := State.reg_of_withCmdsCtl s _ _ _
@[simp] theorem State.rd_of_setCmd (n : Nat) (c : Cmd) (f0 : Fld) (i0 : Nat) : (s.setCmd n c).rd f0 i0 = s.rd f0 i0 := State.rd_of_withCmdsCtl s _ _ _
@[simp] theorem State.live_of_setCmd (n : Nat) (c : Cmd) : (s.setCmd n c).live = s.live := State.live_of_withCmdsCtl s _
@[simp] theorem State.cog_of_setCmd (n : Nat) (c : Cmd) (c0 : Nat) : (s.setCmd n c).cog c0 = s.cog c0 := State.cog_of_withCmdsCtl s _ _
@[simp] theorem State.hub_of_setCmd (n : Nat) (c : Cmd) (h0 : Nat) : (s.setCmd n c).hub h0 = s.hub h0 := State.hub_of_withCmdsCtl s _ _
@[simp] theorem State.queue_of_setCmd (n : Nat) (c : Cmd) (q0 : Nat) : (s.setCmd n c).queue q0 = s.queue q0 := State.queue_of_withCmdsCtl s _ _
@[simp] theorem State.task_of_setCmd (n : Nat) (c : Cmd) (k0 : Nat) : (s.setCmd n c).task k0 = s.task k0 := State.task_of_withCmdsCtl s _ _
@[simp] theorem State.aop_of_setCmd (n : Nat) (c : Cmd) (n0 d0 : Nat) : (s.setCmd n c).aop n0 d0 = s.aop n0 d0 := State.aop_of_withCmdsCtl s _ _ _
@[simp] theorem State.tensor_of_setCmd (n : Nat) (c : Cmd) (p0 t0 : Nat) : (s.setCmd n c).tensor p0 t0 = s.tensor p0 t0 := State.tensor_of_withCmdsCtl s _ _ _
@[simp] theorem State.regionOf_of_setCmd (n : Nat) (c : Cmd) (c0 : Nat) : (s.setCmd n c).regionOf c0 = s.regionOf c0 := State.regionOf_of_withCmdsCtl s _ _
@[simp] theorem State.port_of_setCmd (n : Nat) (c : Cmd) (p0 : Nat) : (s.setCmd n c).port p0 = s.port p0 := State.port_of_withCmdsCtl s _ _
@[simp] theorem State.chan_of_setCmd (n : Nat) (c : Cmd) (c0 : Nat) : (s.setCmd n c).chan c0 = s.chan c0 := State.chan_of_withCmdsCtl s _ _

/-! ### `dropCmd` -/

@[simp] theorem State.time_dropCmd (n : Nat) : (s.dropCmd n).time = s.time := State.time_withCmdsCtl s _
@[simp] theorem State.work_dropCmd (n : Nat) : (s.dropCmd n).work = s.work := State.work_withCmdsCtl s _
@[simp] theorem State.aclk_dropCmd (n : Nat) : (s.dropCmd n).aclk = s.aclk := State.aclk_withCmdsCtl s _
@[simp] theorem State.clocks_dropCmd (n : Nat) : (s.dropCmd n).clocks = s.clocks := State.clocks_withCmdsCtl s _
@[simp] theorem State.regs_dropCmd (n : Nat) : (s.dropCmd n).regs = s.regs := State.regs_withCmdsCtl s _
@[simp] theorem State.arr_dropCmd (n : Nat) : (s.dropCmd n).arr = s.arr := State.arr_withCmdsCtl s _
@[simp] theorem State.mem_dropCmd (n : Nat) : (s.dropCmd n).mem = s.mem := State.mem_withCmdsCtl s _
@[simp] theorem State.blk_dropCmd (n : Nat) : (s.dropCmd n).blk = s.blk := State.blk_withCmdsCtl s _
@[simp] theorem State.srv_dropCmd (n : Nat) : (s.dropCmd n).srv = s.srv := State.srv_withCmdsCtl s _
@[simp] theorem State.intc_dropCmd (n : Nat) : (s.dropCmd n).intc = s.intc := State.intc_withCmdsCtl s _
@[simp] theorem State.obs_dropCmd (n : Nat) : (s.dropCmd n).obs = s.obs := State.obs_withCmdsCtl s _
@[simp] theorem State.lpx_dropCmd (n : Nat) : (s.dropCmd n).lpx = s.lpx := State.lpx_withCmdsCtl s _
@[simp] theorem State.rlt_dropCmd (n : Nat) : (s.dropCmd n).rlt = s.rlt := State.rlt_withCmdsCtl s _
@[simp] theorem State.pci_dropCmd (n : Nat) : (s.dropCmd n).pci = s.pci := State.pci_withCmdsCtl s _
@[simp] theorem State.pwr_dropCmd (n : Nat) : (s.dropCmd n).pwr = s.pwr := State.pwr_withCmdsCtl s _
@[simp] theorem State.sec_dropCmd (n : Nat) : (s.dropCmd n).sec = s.sec := State.sec_withCmdsCtl s _
@[simp] theorem State.pins_dropCmd (n : Nat) : (s.dropCmd n).pins = s.pins := State.pins_withCmdsCtl s _
@[simp] theorem State.board_dropCmd (n : Nat) : (s.dropCmd n).board = s.board := State.board_withCmdsCtl s _
@[simp] theorem State.saved_dropCmd (n : Nat) : (s.dropCmd n).saved = s.saved := State.saved_withCmdsCtl s _
@[simp] theorem State.fresh_dropCmd (n : Nat) : (s.dropCmd n).fresh = s.fresh := State.fresh_withCmdsCtl s _
@[simp] theorem State.beats_dropCmd (n : Nat) : (s.dropCmd n).beats = s.beats := State.beats_withCmdsCtl s _
@[simp] theorem State.msix_dropCmd (n : Nat) : (s.dropCmd n).msix = s.msix := State.msix_withCmdsCtl s _
@[simp] theorem State.out_dropCmd (n : Nat) : (s.dropCmd n).out = s.out := State.out_withCmdsCtl s _
@[simp] theorem State.hostMem_dropCmd (n : Nat) : (s.dropCmd n).hostMem = s.hostMem := State.hostMem_withCmdsCtl s _
@[simp] theorem State.pending_dropCmd (n : Nat) : (s.dropCmd n).pending = s.pending := State.pending_withCmdsCtl s _
@[simp] theorem State.ctl_queues_dropCmd (n : Nat) : (s.dropCmd n).ctl.queues = s.ctl.queues := State.ctl_queues_withCmdsCtl s _
@[simp] theorem State.ctl_tasks_dropCmd (n : Nat) : (s.dropCmd n).ctl.tasks = s.ctl.tasks := State.ctl_tasks_withCmdsCtl s _
@[simp] theorem State.ctl_ops_dropCmd (n : Nat) : (s.dropCmd n).ctl.ops = s.ctl.ops := State.ctl_ops_withCmdsCtl s _
@[simp] theorem State.ctl_jnlA_dropCmd (n : Nat) : (s.dropCmd n).ctl.jnlA = s.ctl.jnlA := State.ctl_jnlA_withCmdsCtl s _
@[simp] theorem State.ctl_jnlB_dropCmd (n : Nat) : (s.dropCmd n).ctl.jnlB = s.ctl.jnlB := State.ctl_jnlB_withCmdsCtl s _
@[simp] theorem State.ctl_nextSeq_dropCmd (n : Nat) : (s.dropCmd n).ctl.nextSeq = s.ctl.nextSeq := State.ctl_nextSeq_withCmdsCtl s _
@[simp] theorem State.ctl_hubs_dropCmd (n : Nat) : (s.dropCmd n).ctl.hubs = s.ctl.hubs := State.ctl_hubs_withCmdsCtl s _
@[simp] theorem State.ctl_table_dropCmd (n : Nat) : (s.dropCmd n).ctl.table = s.ctl.table := State.ctl_table_withCmdsCtl s _
@[simp] theorem State.ctl_slot_dropCmd (n : Nat) : (s.dropCmd n).ctl.slot = s.ctl.slot := State.ctl_slot_withCmdsCtl s _
@[simp] theorem State.ctl_partPend_dropCmd (n : Nat) : (s.dropCmd n).ctl.partPend = s.ctl.partPend := State.ctl_partPend_withCmdsCtl s _
@[simp] theorem State.ctl_turns_dropCmd (n : Nat) : (s.dropCmd n).ctl.turns = s.ctl.turns := State.ctl_turns_withCmdsCtl s _
@[simp] theorem State.reg_of_dropCmd (n : Nat) (k0 : RegKind) (i0 : Nat) : (s.dropCmd n).reg k0 i0 = s.reg k0 i0 := State.reg_of_withCmdsCtl s _ _ _
@[simp] theorem State.rd_of_dropCmd (n : Nat) (f0 : Fld) (i0 : Nat) : (s.dropCmd n).rd f0 i0 = s.rd f0 i0 := State.rd_of_withCmdsCtl s _ _ _
@[simp] theorem State.live_of_dropCmd (n : Nat) : (s.dropCmd n).live = s.live := State.live_of_withCmdsCtl s _
@[simp] theorem State.cog_of_dropCmd (n : Nat) (c0 : Nat) : (s.dropCmd n).cog c0 = s.cog c0 := State.cog_of_withCmdsCtl s _ _
@[simp] theorem State.hub_of_dropCmd (n : Nat) (h0 : Nat) : (s.dropCmd n).hub h0 = s.hub h0 := State.hub_of_withCmdsCtl s _ _
@[simp] theorem State.queue_of_dropCmd (n : Nat) (q0 : Nat) : (s.dropCmd n).queue q0 = s.queue q0 := State.queue_of_withCmdsCtl s _ _
@[simp] theorem State.task_of_dropCmd (n : Nat) (k0 : Nat) : (s.dropCmd n).task k0 = s.task k0 := State.task_of_withCmdsCtl s _ _
@[simp] theorem State.aop_of_dropCmd (n : Nat) (n0 d0 : Nat) : (s.dropCmd n).aop n0 d0 = s.aop n0 d0 := State.aop_of_withCmdsCtl s _ _ _
@[simp] theorem State.tensor_of_dropCmd (n : Nat) (p0 t0 : Nat) : (s.dropCmd n).tensor p0 t0 = s.tensor p0 t0 := State.tensor_of_withCmdsCtl s _ _ _
@[simp] theorem State.regionOf_of_dropCmd (n : Nat) (c0 : Nat) : (s.dropCmd n).regionOf c0 = s.regionOf c0 := State.regionOf_of_withCmdsCtl s _ _
@[simp] theorem State.port_of_dropCmd (n : Nat) (p0 : Nat) : (s.dropCmd n).port p0 = s.port p0 := State.port_of_withCmdsCtl s _ _
@[simp] theorem State.chan_of_dropCmd (n : Nat) (c0 : Nat) : (s.dropCmd n).chan c0 = s.chan c0 := State.chan_of_withCmdsCtl s _ _

/-! ### `setTask` -/

@[simp] theorem State.time_setTask (k : Nat) (t : Task) : (s.setTask k t).time = s.time := State.time_withTasksCtl s _
@[simp] theorem State.work_setTask (k : Nat) (t : Task) : (s.setTask k t).work = s.work := State.work_withTasksCtl s _
@[simp] theorem State.aclk_setTask (k : Nat) (t : Task) : (s.setTask k t).aclk = s.aclk := State.aclk_withTasksCtl s _
@[simp] theorem State.clocks_setTask (k : Nat) (t : Task) : (s.setTask k t).clocks = s.clocks := State.clocks_withTasksCtl s _
@[simp] theorem State.regs_setTask (k : Nat) (t : Task) : (s.setTask k t).regs = s.regs := State.regs_withTasksCtl s _
@[simp] theorem State.arr_setTask (k : Nat) (t : Task) : (s.setTask k t).arr = s.arr := State.arr_withTasksCtl s _
@[simp] theorem State.mem_setTask (k : Nat) (t : Task) : (s.setTask k t).mem = s.mem := State.mem_withTasksCtl s _
@[simp] theorem State.blk_setTask (k : Nat) (t : Task) : (s.setTask k t).blk = s.blk := State.blk_withTasksCtl s _
@[simp] theorem State.srv_setTask (k : Nat) (t : Task) : (s.setTask k t).srv = s.srv := State.srv_withTasksCtl s _
@[simp] theorem State.intc_setTask (k : Nat) (t : Task) : (s.setTask k t).intc = s.intc := State.intc_withTasksCtl s _
@[simp] theorem State.obs_setTask (k : Nat) (t : Task) : (s.setTask k t).obs = s.obs := State.obs_withTasksCtl s _
@[simp] theorem State.lpx_setTask (k : Nat) (t : Task) : (s.setTask k t).lpx = s.lpx := State.lpx_withTasksCtl s _
@[simp] theorem State.rlt_setTask (k : Nat) (t : Task) : (s.setTask k t).rlt = s.rlt := State.rlt_withTasksCtl s _
@[simp] theorem State.pci_setTask (k : Nat) (t : Task) : (s.setTask k t).pci = s.pci := State.pci_withTasksCtl s _
@[simp] theorem State.pwr_setTask (k : Nat) (t : Task) : (s.setTask k t).pwr = s.pwr := State.pwr_withTasksCtl s _
@[simp] theorem State.sec_setTask (k : Nat) (t : Task) : (s.setTask k t).sec = s.sec := State.sec_withTasksCtl s _
@[simp] theorem State.pins_setTask (k : Nat) (t : Task) : (s.setTask k t).pins = s.pins := State.pins_withTasksCtl s _
@[simp] theorem State.board_setTask (k : Nat) (t : Task) : (s.setTask k t).board = s.board := State.board_withTasksCtl s _
@[simp] theorem State.saved_setTask (k : Nat) (t : Task) : (s.setTask k t).saved = s.saved := State.saved_withTasksCtl s _
@[simp] theorem State.fresh_setTask (k : Nat) (t : Task) : (s.setTask k t).fresh = s.fresh := State.fresh_withTasksCtl s _
@[simp] theorem State.beats_setTask (k : Nat) (t : Task) : (s.setTask k t).beats = s.beats := State.beats_withTasksCtl s _
@[simp] theorem State.msix_setTask (k : Nat) (t : Task) : (s.setTask k t).msix = s.msix := State.msix_withTasksCtl s _
@[simp] theorem State.out_setTask (k : Nat) (t : Task) : (s.setTask k t).out = s.out := State.out_withTasksCtl s _
@[simp] theorem State.hostMem_setTask (k : Nat) (t : Task) : (s.setTask k t).hostMem = s.hostMem := State.hostMem_withTasksCtl s _
@[simp] theorem State.pending_setTask (k : Nat) (t : Task) : (s.setTask k t).pending = s.pending := State.pending_withTasksCtl s _
@[simp] theorem State.ctl_queues_setTask (k : Nat) (t : Task) : (s.setTask k t).ctl.queues = s.ctl.queues := State.ctl_queues_withTasksCtl s _
@[simp] theorem State.ctl_cmds_setTask (k : Nat) (t : Task) : (s.setTask k t).ctl.cmds = s.ctl.cmds := State.ctl_cmds_withTasksCtl s _
@[simp] theorem State.ctl_ops_setTask (k : Nat) (t : Task) : (s.setTask k t).ctl.ops = s.ctl.ops := State.ctl_ops_withTasksCtl s _
@[simp] theorem State.ctl_jnlA_setTask (k : Nat) (t : Task) : (s.setTask k t).ctl.jnlA = s.ctl.jnlA := State.ctl_jnlA_withTasksCtl s _
@[simp] theorem State.ctl_jnlB_setTask (k : Nat) (t : Task) : (s.setTask k t).ctl.jnlB = s.ctl.jnlB := State.ctl_jnlB_withTasksCtl s _
@[simp] theorem State.ctl_nextSeq_setTask (k : Nat) (t : Task) : (s.setTask k t).ctl.nextSeq = s.ctl.nextSeq := State.ctl_nextSeq_withTasksCtl s _
@[simp] theorem State.ctl_hubs_setTask (k : Nat) (t : Task) : (s.setTask k t).ctl.hubs = s.ctl.hubs := State.ctl_hubs_withTasksCtl s _
@[simp] theorem State.ctl_table_setTask (k : Nat) (t : Task) : (s.setTask k t).ctl.table = s.ctl.table := State.ctl_table_withTasksCtl s _
@[simp] theorem State.ctl_slot_setTask (k : Nat) (t : Task) : (s.setTask k t).ctl.slot = s.ctl.slot := State.ctl_slot_withTasksCtl s _
@[simp] theorem State.ctl_partPend_setTask (k : Nat) (t : Task) : (s.setTask k t).ctl.partPend = s.ctl.partPend := State.ctl_partPend_withTasksCtl s _
@[simp] theorem State.ctl_turns_setTask (k : Nat) (t : Task) : (s.setTask k t).ctl.turns = s.ctl.turns := State.ctl_turns_withTasksCtl s _
@[simp] theorem State.reg_of_setTask (k : Nat) (t : Task) (k0 : RegKind) (i0 : Nat) : (s.setTask k t).reg k0 i0 = s.reg k0 i0 := State.reg_of_withTasksCtl s _ _ _
@[simp] theorem State.rd_of_setTask (k : Nat) (t : Task) (f0 : Fld) (i0 : Nat) : (s.setTask k t).rd f0 i0 = s.rd f0 i0 := State.rd_of_withTasksCtl s _ _ _
@[simp] theorem State.live_of_setTask (k : Nat) (t : Task) : (s.setTask k t).live = s.live := State.live_of_withTasksCtl s _
@[simp] theorem State.cog_of_setTask (k : Nat) (t : Task) (c0 : Nat) : (s.setTask k t).cog c0 = s.cog c0 := State.cog_of_withTasksCtl s _ _
@[simp] theorem State.hub_of_setTask (k : Nat) (t : Task) (h0 : Nat) : (s.setTask k t).hub h0 = s.hub h0 := State.hub_of_withTasksCtl s _ _
@[simp] theorem State.queue_of_setTask (k : Nat) (t : Task) (q0 : Nat) : (s.setTask k t).queue q0 = s.queue q0 := State.queue_of_withTasksCtl s _ _
@[simp] theorem State.cmd_of_setTask (k : Nat) (t : Task) (n0 : Nat) : (s.setTask k t).cmd n0 = s.cmd n0 := State.cmd_of_withTasksCtl s _ _
@[simp] theorem State.aop_of_setTask (k : Nat) (t : Task) (n0 d0 : Nat) : (s.setTask k t).aop n0 d0 = s.aop n0 d0 := State.aop_of_withTasksCtl s _ _ _
@[simp] theorem State.tensor_of_setTask (k : Nat) (t : Task) (p0 t0 : Nat) : (s.setTask k t).tensor p0 t0 = s.tensor p0 t0 := State.tensor_of_withTasksCtl s _ _ _
@[simp] theorem State.regionOf_of_setTask (k : Nat) (t : Task) (c0 : Nat) : (s.setTask k t).regionOf c0 = s.regionOf c0 := State.regionOf_of_withTasksCtl s _ _
@[simp] theorem State.port_of_setTask (k : Nat) (t : Task) (p0 : Nat) : (s.setTask k t).port p0 = s.port p0 := State.port_of_withTasksCtl s _ _
@[simp] theorem State.chan_of_setTask (k : Nat) (t : Task) (c0 : Nat) : (s.setTask k t).chan c0 = s.chan c0 := State.chan_of_withTasksCtl s _ _

/-! ### `dropTask` -/

@[simp] theorem State.time_dropTask (k : Nat) : (s.dropTask k).time = s.time := State.time_withTasksCtl s _
@[simp] theorem State.work_dropTask (k : Nat) : (s.dropTask k).work = s.work := State.work_withTasksCtl s _
@[simp] theorem State.aclk_dropTask (k : Nat) : (s.dropTask k).aclk = s.aclk := State.aclk_withTasksCtl s _
@[simp] theorem State.clocks_dropTask (k : Nat) : (s.dropTask k).clocks = s.clocks := State.clocks_withTasksCtl s _
@[simp] theorem State.regs_dropTask (k : Nat) : (s.dropTask k).regs = s.regs := State.regs_withTasksCtl s _
@[simp] theorem State.arr_dropTask (k : Nat) : (s.dropTask k).arr = s.arr := State.arr_withTasksCtl s _
@[simp] theorem State.mem_dropTask (k : Nat) : (s.dropTask k).mem = s.mem := State.mem_withTasksCtl s _
@[simp] theorem State.blk_dropTask (k : Nat) : (s.dropTask k).blk = s.blk := State.blk_withTasksCtl s _
@[simp] theorem State.srv_dropTask (k : Nat) : (s.dropTask k).srv = s.srv := State.srv_withTasksCtl s _
@[simp] theorem State.intc_dropTask (k : Nat) : (s.dropTask k).intc = s.intc := State.intc_withTasksCtl s _
@[simp] theorem State.obs_dropTask (k : Nat) : (s.dropTask k).obs = s.obs := State.obs_withTasksCtl s _
@[simp] theorem State.lpx_dropTask (k : Nat) : (s.dropTask k).lpx = s.lpx := State.lpx_withTasksCtl s _
@[simp] theorem State.rlt_dropTask (k : Nat) : (s.dropTask k).rlt = s.rlt := State.rlt_withTasksCtl s _
@[simp] theorem State.pci_dropTask (k : Nat) : (s.dropTask k).pci = s.pci := State.pci_withTasksCtl s _
@[simp] theorem State.pwr_dropTask (k : Nat) : (s.dropTask k).pwr = s.pwr := State.pwr_withTasksCtl s _
@[simp] theorem State.sec_dropTask (k : Nat) : (s.dropTask k).sec = s.sec := State.sec_withTasksCtl s _
@[simp] theorem State.pins_dropTask (k : Nat) : (s.dropTask k).pins = s.pins := State.pins_withTasksCtl s _
@[simp] theorem State.board_dropTask (k : Nat) : (s.dropTask k).board = s.board := State.board_withTasksCtl s _
@[simp] theorem State.saved_dropTask (k : Nat) : (s.dropTask k).saved = s.saved := State.saved_withTasksCtl s _
@[simp] theorem State.fresh_dropTask (k : Nat) : (s.dropTask k).fresh = s.fresh := State.fresh_withTasksCtl s _
@[simp] theorem State.beats_dropTask (k : Nat) : (s.dropTask k).beats = s.beats := State.beats_withTasksCtl s _
@[simp] theorem State.msix_dropTask (k : Nat) : (s.dropTask k).msix = s.msix := State.msix_withTasksCtl s _
@[simp] theorem State.out_dropTask (k : Nat) : (s.dropTask k).out = s.out := State.out_withTasksCtl s _
@[simp] theorem State.hostMem_dropTask (k : Nat) : (s.dropTask k).hostMem = s.hostMem := State.hostMem_withTasksCtl s _
@[simp] theorem State.pending_dropTask (k : Nat) : (s.dropTask k).pending = s.pending := State.pending_withTasksCtl s _
@[simp] theorem State.ctl_queues_dropTask (k : Nat) : (s.dropTask k).ctl.queues = s.ctl.queues := State.ctl_queues_withTasksCtl s _
@[simp] theorem State.ctl_cmds_dropTask (k : Nat) : (s.dropTask k).ctl.cmds = s.ctl.cmds := State.ctl_cmds_withTasksCtl s _
@[simp] theorem State.ctl_ops_dropTask (k : Nat) : (s.dropTask k).ctl.ops = s.ctl.ops := State.ctl_ops_withTasksCtl s _
@[simp] theorem State.ctl_jnlA_dropTask (k : Nat) : (s.dropTask k).ctl.jnlA = s.ctl.jnlA := State.ctl_jnlA_withTasksCtl s _
@[simp] theorem State.ctl_jnlB_dropTask (k : Nat) : (s.dropTask k).ctl.jnlB = s.ctl.jnlB := State.ctl_jnlB_withTasksCtl s _
@[simp] theorem State.ctl_nextSeq_dropTask (k : Nat) : (s.dropTask k).ctl.nextSeq = s.ctl.nextSeq := State.ctl_nextSeq_withTasksCtl s _
@[simp] theorem State.ctl_hubs_dropTask (k : Nat) : (s.dropTask k).ctl.hubs = s.ctl.hubs := State.ctl_hubs_withTasksCtl s _
@[simp] theorem State.ctl_table_dropTask (k : Nat) : (s.dropTask k).ctl.table = s.ctl.table := State.ctl_table_withTasksCtl s _
@[simp] theorem State.ctl_slot_dropTask (k : Nat) : (s.dropTask k).ctl.slot = s.ctl.slot := State.ctl_slot_withTasksCtl s _
@[simp] theorem State.ctl_partPend_dropTask (k : Nat) : (s.dropTask k).ctl.partPend = s.ctl.partPend := State.ctl_partPend_withTasksCtl s _
@[simp] theorem State.ctl_turns_dropTask (k : Nat) : (s.dropTask k).ctl.turns = s.ctl.turns := State.ctl_turns_withTasksCtl s _
@[simp] theorem State.reg_of_dropTask (k : Nat) (k0 : RegKind) (i0 : Nat) : (s.dropTask k).reg k0 i0 = s.reg k0 i0 := State.reg_of_withTasksCtl s _ _ _
@[simp] theorem State.rd_of_dropTask (k : Nat) (f0 : Fld) (i0 : Nat) : (s.dropTask k).rd f0 i0 = s.rd f0 i0 := State.rd_of_withTasksCtl s _ _ _
@[simp] theorem State.live_of_dropTask (k : Nat) : (s.dropTask k).live = s.live := State.live_of_withTasksCtl s _
@[simp] theorem State.cog_of_dropTask (k : Nat) (c0 : Nat) : (s.dropTask k).cog c0 = s.cog c0 := State.cog_of_withTasksCtl s _ _
@[simp] theorem State.hub_of_dropTask (k : Nat) (h0 : Nat) : (s.dropTask k).hub h0 = s.hub h0 := State.hub_of_withTasksCtl s _ _
@[simp] theorem State.queue_of_dropTask (k : Nat) (q0 : Nat) : (s.dropTask k).queue q0 = s.queue q0 := State.queue_of_withTasksCtl s _ _
@[simp] theorem State.cmd_of_dropTask (k : Nat) (n0 : Nat) : (s.dropTask k).cmd n0 = s.cmd n0 := State.cmd_of_withTasksCtl s _ _
@[simp] theorem State.aop_of_dropTask (k : Nat) (n0 d0 : Nat) : (s.dropTask k).aop n0 d0 = s.aop n0 d0 := State.aop_of_withTasksCtl s _ _ _
@[simp] theorem State.tensor_of_dropTask (k : Nat) (p0 t0 : Nat) : (s.dropTask k).tensor p0 t0 = s.tensor p0 t0 := State.tensor_of_withTasksCtl s _ _ _
@[simp] theorem State.regionOf_of_dropTask (k : Nat) (c0 : Nat) : (s.dropTask k).regionOf c0 = s.regionOf c0 := State.regionOf_of_withTasksCtl s _ _
@[simp] theorem State.port_of_dropTask (k : Nat) (p0 : Nat) : (s.dropTask k).port p0 = s.port p0 := State.port_of_withTasksCtl s _ _
@[simp] theorem State.chan_of_dropTask (k : Nat) (c0 : Nat) : (s.dropTask k).chan c0 = s.chan c0 := State.chan_of_withTasksCtl s _ _

/-! ### `setAop` -/

@[simp] theorem State.time_setAop (n hd : Nat) (o : AOp) : (s.setAop n hd o).time = s.time := State.time_withOpsCtl s _
@[simp] theorem State.work_setAop (n hd : Nat) (o : AOp) : (s.setAop n hd o).work = s.work := State.work_withOpsCtl s _
@[simp] theorem State.aclk_setAop (n hd : Nat) (o : AOp) : (s.setAop n hd o).aclk = s.aclk := State.aclk_withOpsCtl s _
@[simp] theorem State.clocks_setAop (n hd : Nat) (o : AOp) : (s.setAop n hd o).clocks = s.clocks := State.clocks_withOpsCtl s _
@[simp] theorem State.regs_setAop (n hd : Nat) (o : AOp) : (s.setAop n hd o).regs = s.regs := State.regs_withOpsCtl s _
@[simp] theorem State.arr_setAop (n hd : Nat) (o : AOp) : (s.setAop n hd o).arr = s.arr := State.arr_withOpsCtl s _
@[simp] theorem State.mem_setAop (n hd : Nat) (o : AOp) : (s.setAop n hd o).mem = s.mem := State.mem_withOpsCtl s _
@[simp] theorem State.blk_setAop (n hd : Nat) (o : AOp) : (s.setAop n hd o).blk = s.blk := State.blk_withOpsCtl s _
@[simp] theorem State.srv_setAop (n hd : Nat) (o : AOp) : (s.setAop n hd o).srv = s.srv := State.srv_withOpsCtl s _
@[simp] theorem State.intc_setAop (n hd : Nat) (o : AOp) : (s.setAop n hd o).intc = s.intc := State.intc_withOpsCtl s _
@[simp] theorem State.obs_setAop (n hd : Nat) (o : AOp) : (s.setAop n hd o).obs = s.obs := State.obs_withOpsCtl s _
@[simp] theorem State.lpx_setAop (n hd : Nat) (o : AOp) : (s.setAop n hd o).lpx = s.lpx := State.lpx_withOpsCtl s _
@[simp] theorem State.rlt_setAop (n hd : Nat) (o : AOp) : (s.setAop n hd o).rlt = s.rlt := State.rlt_withOpsCtl s _
@[simp] theorem State.pci_setAop (n hd : Nat) (o : AOp) : (s.setAop n hd o).pci = s.pci := State.pci_withOpsCtl s _
@[simp] theorem State.pwr_setAop (n hd : Nat) (o : AOp) : (s.setAop n hd o).pwr = s.pwr := State.pwr_withOpsCtl s _
@[simp] theorem State.sec_setAop (n hd : Nat) (o : AOp) : (s.setAop n hd o).sec = s.sec := State.sec_withOpsCtl s _
@[simp] theorem State.pins_setAop (n hd : Nat) (o : AOp) : (s.setAop n hd o).pins = s.pins := State.pins_withOpsCtl s _
@[simp] theorem State.board_setAop (n hd : Nat) (o : AOp) : (s.setAop n hd o).board = s.board := State.board_withOpsCtl s _
@[simp] theorem State.saved_setAop (n hd : Nat) (o : AOp) : (s.setAop n hd o).saved = s.saved := State.saved_withOpsCtl s _
@[simp] theorem State.fresh_setAop (n hd : Nat) (o : AOp) : (s.setAop n hd o).fresh = s.fresh := State.fresh_withOpsCtl s _
@[simp] theorem State.beats_setAop (n hd : Nat) (o : AOp) : (s.setAop n hd o).beats = s.beats := State.beats_withOpsCtl s _
@[simp] theorem State.msix_setAop (n hd : Nat) (o : AOp) : (s.setAop n hd o).msix = s.msix := State.msix_withOpsCtl s _
@[simp] theorem State.out_setAop (n hd : Nat) (o : AOp) : (s.setAop n hd o).out = s.out := State.out_withOpsCtl s _
@[simp] theorem State.hostMem_setAop (n hd : Nat) (o : AOp) : (s.setAop n hd o).hostMem = s.hostMem := State.hostMem_withOpsCtl s _
@[simp] theorem State.pending_setAop (n hd : Nat) (o : AOp) : (s.setAop n hd o).pending = s.pending := State.pending_withOpsCtl s _
@[simp] theorem State.ctl_queues_setAop (n hd : Nat) (o : AOp) : (s.setAop n hd o).ctl.queues = s.ctl.queues := State.ctl_queues_withOpsCtl s _
@[simp] theorem State.ctl_cmds_setAop (n hd : Nat) (o : AOp) : (s.setAop n hd o).ctl.cmds = s.ctl.cmds := State.ctl_cmds_withOpsCtl s _
@[simp] theorem State.ctl_tasks_setAop (n hd : Nat) (o : AOp) : (s.setAop n hd o).ctl.tasks = s.ctl.tasks := State.ctl_tasks_withOpsCtl s _
@[simp] theorem State.ctl_jnlA_setAop (n hd : Nat) (o : AOp) : (s.setAop n hd o).ctl.jnlA = s.ctl.jnlA := State.ctl_jnlA_withOpsCtl s _
@[simp] theorem State.ctl_jnlB_setAop (n hd : Nat) (o : AOp) : (s.setAop n hd o).ctl.jnlB = s.ctl.jnlB := State.ctl_jnlB_withOpsCtl s _
@[simp] theorem State.ctl_nextSeq_setAop (n hd : Nat) (o : AOp) : (s.setAop n hd o).ctl.nextSeq = s.ctl.nextSeq := State.ctl_nextSeq_withOpsCtl s _
@[simp] theorem State.ctl_hubs_setAop (n hd : Nat) (o : AOp) : (s.setAop n hd o).ctl.hubs = s.ctl.hubs := State.ctl_hubs_withOpsCtl s _
@[simp] theorem State.ctl_table_setAop (n hd : Nat) (o : AOp) : (s.setAop n hd o).ctl.table = s.ctl.table := State.ctl_table_withOpsCtl s _
@[simp] theorem State.ctl_slot_setAop (n hd : Nat) (o : AOp) : (s.setAop n hd o).ctl.slot = s.ctl.slot := State.ctl_slot_withOpsCtl s _
@[simp] theorem State.ctl_partPend_setAop (n hd : Nat) (o : AOp) : (s.setAop n hd o).ctl.partPend = s.ctl.partPend := State.ctl_partPend_withOpsCtl s _
@[simp] theorem State.ctl_turns_setAop (n hd : Nat) (o : AOp) : (s.setAop n hd o).ctl.turns = s.ctl.turns := State.ctl_turns_withOpsCtl s _
@[simp] theorem State.reg_of_setAop (n hd : Nat) (o : AOp) (k0 : RegKind) (i0 : Nat) : (s.setAop n hd o).reg k0 i0 = s.reg k0 i0 := State.reg_of_withOpsCtl s _ _ _
@[simp] theorem State.rd_of_setAop (n hd : Nat) (o : AOp) (f0 : Fld) (i0 : Nat) : (s.setAop n hd o).rd f0 i0 = s.rd f0 i0 := State.rd_of_withOpsCtl s _ _ _
@[simp] theorem State.live_of_setAop (n hd : Nat) (o : AOp) : (s.setAop n hd o).live = s.live := State.live_of_withOpsCtl s _
@[simp] theorem State.cog_of_setAop (n hd : Nat) (o : AOp) (c0 : Nat) : (s.setAop n hd o).cog c0 = s.cog c0 := State.cog_of_withOpsCtl s _ _
@[simp] theorem State.hub_of_setAop (n hd : Nat) (o : AOp) (h0 : Nat) : (s.setAop n hd o).hub h0 = s.hub h0 := State.hub_of_withOpsCtl s _ _
@[simp] theorem State.queue_of_setAop (n hd : Nat) (o : AOp) (q0 : Nat) : (s.setAop n hd o).queue q0 = s.queue q0 := State.queue_of_withOpsCtl s _ _
@[simp] theorem State.cmd_of_setAop (n hd : Nat) (o : AOp) (n0 : Nat) : (s.setAop n hd o).cmd n0 = s.cmd n0 := State.cmd_of_withOpsCtl s _ _
@[simp] theorem State.task_of_setAop (n hd : Nat) (o : AOp) (k0 : Nat) : (s.setAop n hd o).task k0 = s.task k0 := State.task_of_withOpsCtl s _ _
@[simp] theorem State.tensor_of_setAop (n hd : Nat) (o : AOp) (p0 t0 : Nat) : (s.setAop n hd o).tensor p0 t0 = s.tensor p0 t0 := State.tensor_of_withOpsCtl s _ _ _
@[simp] theorem State.regionOf_of_setAop (n hd : Nat) (o : AOp) (c0 : Nat) : (s.setAop n hd o).regionOf c0 = s.regionOf c0 := State.regionOf_of_withOpsCtl s _ _
@[simp] theorem State.port_of_setAop (n hd : Nat) (o : AOp) (p0 : Nat) : (s.setAop n hd o).port p0 = s.port p0 := State.port_of_withOpsCtl s _ _
@[simp] theorem State.chan_of_setAop (n hd : Nat) (o : AOp) (c0 : Nat) : (s.setAop n hd o).chan c0 = s.chan c0 := State.chan_of_withOpsCtl s _ _

/-! ### `dropAop` -/

@[simp] theorem State.time_dropAop (n hd : Nat) : (s.dropAop n hd).time = s.time := State.time_withOpsCtl s _
@[simp] theorem State.work_dropAop (n hd : Nat) : (s.dropAop n hd).work = s.work := State.work_withOpsCtl s _
@[simp] theorem State.aclk_dropAop (n hd : Nat) : (s.dropAop n hd).aclk = s.aclk := State.aclk_withOpsCtl s _
@[simp] theorem State.clocks_dropAop (n hd : Nat) : (s.dropAop n hd).clocks = s.clocks := State.clocks_withOpsCtl s _
@[simp] theorem State.regs_dropAop (n hd : Nat) : (s.dropAop n hd).regs = s.regs := State.regs_withOpsCtl s _
@[simp] theorem State.arr_dropAop (n hd : Nat) : (s.dropAop n hd).arr = s.arr := State.arr_withOpsCtl s _
@[simp] theorem State.mem_dropAop (n hd : Nat) : (s.dropAop n hd).mem = s.mem := State.mem_withOpsCtl s _
@[simp] theorem State.blk_dropAop (n hd : Nat) : (s.dropAop n hd).blk = s.blk := State.blk_withOpsCtl s _
@[simp] theorem State.srv_dropAop (n hd : Nat) : (s.dropAop n hd).srv = s.srv := State.srv_withOpsCtl s _
@[simp] theorem State.intc_dropAop (n hd : Nat) : (s.dropAop n hd).intc = s.intc := State.intc_withOpsCtl s _
@[simp] theorem State.obs_dropAop (n hd : Nat) : (s.dropAop n hd).obs = s.obs := State.obs_withOpsCtl s _
@[simp] theorem State.lpx_dropAop (n hd : Nat) : (s.dropAop n hd).lpx = s.lpx := State.lpx_withOpsCtl s _
@[simp] theorem State.rlt_dropAop (n hd : Nat) : (s.dropAop n hd).rlt = s.rlt := State.rlt_withOpsCtl s _
@[simp] theorem State.pci_dropAop (n hd : Nat) : (s.dropAop n hd).pci = s.pci := State.pci_withOpsCtl s _
@[simp] theorem State.pwr_dropAop (n hd : Nat) : (s.dropAop n hd).pwr = s.pwr := State.pwr_withOpsCtl s _
@[simp] theorem State.sec_dropAop (n hd : Nat) : (s.dropAop n hd).sec = s.sec := State.sec_withOpsCtl s _
@[simp] theorem State.pins_dropAop (n hd : Nat) : (s.dropAop n hd).pins = s.pins := State.pins_withOpsCtl s _
@[simp] theorem State.board_dropAop (n hd : Nat) : (s.dropAop n hd).board = s.board := State.board_withOpsCtl s _
@[simp] theorem State.saved_dropAop (n hd : Nat) : (s.dropAop n hd).saved = s.saved := State.saved_withOpsCtl s _
@[simp] theorem State.fresh_dropAop (n hd : Nat) : (s.dropAop n hd).fresh = s.fresh := State.fresh_withOpsCtl s _
@[simp] theorem State.beats_dropAop (n hd : Nat) : (s.dropAop n hd).beats = s.beats := State.beats_withOpsCtl s _
@[simp] theorem State.msix_dropAop (n hd : Nat) : (s.dropAop n hd).msix = s.msix := State.msix_withOpsCtl s _
@[simp] theorem State.out_dropAop (n hd : Nat) : (s.dropAop n hd).out = s.out := State.out_withOpsCtl s _
@[simp] theorem State.hostMem_dropAop (n hd : Nat) : (s.dropAop n hd).hostMem = s.hostMem := State.hostMem_withOpsCtl s _
@[simp] theorem State.pending_dropAop (n hd : Nat) : (s.dropAop n hd).pending = s.pending := State.pending_withOpsCtl s _
@[simp] theorem State.ctl_queues_dropAop (n hd : Nat) : (s.dropAop n hd).ctl.queues = s.ctl.queues := State.ctl_queues_withOpsCtl s _
@[simp] theorem State.ctl_cmds_dropAop (n hd : Nat) : (s.dropAop n hd).ctl.cmds = s.ctl.cmds := State.ctl_cmds_withOpsCtl s _
@[simp] theorem State.ctl_tasks_dropAop (n hd : Nat) : (s.dropAop n hd).ctl.tasks = s.ctl.tasks := State.ctl_tasks_withOpsCtl s _
@[simp] theorem State.ctl_jnlA_dropAop (n hd : Nat) : (s.dropAop n hd).ctl.jnlA = s.ctl.jnlA := State.ctl_jnlA_withOpsCtl s _
@[simp] theorem State.ctl_jnlB_dropAop (n hd : Nat) : (s.dropAop n hd).ctl.jnlB = s.ctl.jnlB := State.ctl_jnlB_withOpsCtl s _
@[simp] theorem State.ctl_nextSeq_dropAop (n hd : Nat) : (s.dropAop n hd).ctl.nextSeq = s.ctl.nextSeq := State.ctl_nextSeq_withOpsCtl s _
@[simp] theorem State.ctl_hubs_dropAop (n hd : Nat) : (s.dropAop n hd).ctl.hubs = s.ctl.hubs := State.ctl_hubs_withOpsCtl s _
@[simp] theorem State.ctl_table_dropAop (n hd : Nat) : (s.dropAop n hd).ctl.table = s.ctl.table := State.ctl_table_withOpsCtl s _
@[simp] theorem State.ctl_slot_dropAop (n hd : Nat) : (s.dropAop n hd).ctl.slot = s.ctl.slot := State.ctl_slot_withOpsCtl s _
@[simp] theorem State.ctl_partPend_dropAop (n hd : Nat) : (s.dropAop n hd).ctl.partPend = s.ctl.partPend := State.ctl_partPend_withOpsCtl s _
@[simp] theorem State.ctl_turns_dropAop (n hd : Nat) : (s.dropAop n hd).ctl.turns = s.ctl.turns := State.ctl_turns_withOpsCtl s _
@[simp] theorem State.reg_of_dropAop (n hd : Nat) (k0 : RegKind) (i0 : Nat) : (s.dropAop n hd).reg k0 i0 = s.reg k0 i0 := State.reg_of_withOpsCtl s _ _ _
@[simp] theorem State.rd_of_dropAop (n hd : Nat) (f0 : Fld) (i0 : Nat) : (s.dropAop n hd).rd f0 i0 = s.rd f0 i0 := State.rd_of_withOpsCtl s _ _ _
@[simp] theorem State.live_of_dropAop (n hd : Nat) : (s.dropAop n hd).live = s.live := State.live_of_withOpsCtl s _
@[simp] theorem State.cog_of_dropAop (n hd : Nat) (c0 : Nat) : (s.dropAop n hd).cog c0 = s.cog c0 := State.cog_of_withOpsCtl s _ _
@[simp] theorem State.hub_of_dropAop (n hd : Nat) (h0 : Nat) : (s.dropAop n hd).hub h0 = s.hub h0 := State.hub_of_withOpsCtl s _ _
@[simp] theorem State.queue_of_dropAop (n hd : Nat) (q0 : Nat) : (s.dropAop n hd).queue q0 = s.queue q0 := State.queue_of_withOpsCtl s _ _
@[simp] theorem State.cmd_of_dropAop (n hd : Nat) (n0 : Nat) : (s.dropAop n hd).cmd n0 = s.cmd n0 := State.cmd_of_withOpsCtl s _ _
@[simp] theorem State.task_of_dropAop (n hd : Nat) (k0 : Nat) : (s.dropAop n hd).task k0 = s.task k0 := State.task_of_withOpsCtl s _ _
@[simp] theorem State.tensor_of_dropAop (n hd : Nat) (p0 t0 : Nat) : (s.dropAop n hd).tensor p0 t0 = s.tensor p0 t0 := State.tensor_of_withOpsCtl s _ _ _
@[simp] theorem State.regionOf_of_dropAop (n hd : Nat) (c0 : Nat) : (s.dropAop n hd).regionOf c0 = s.regionOf c0 := State.regionOf_of_withOpsCtl s _ _
@[simp] theorem State.port_of_dropAop (n hd : Nat) (p0 : Nat) : (s.dropAop n hd).port p0 = s.port p0 := State.port_of_withOpsCtl s _ _
@[simp] theorem State.chan_of_dropAop (n hd : Nat) (c0 : Nat) : (s.dropAop n hd).chan c0 = s.chan c0 := State.chan_of_withOpsCtl s _ _

/-! ### `jput` -/

@[simp] theorem State.time_jput (n : Nat) (e : JEntry) : (s.jput n e).time = s.time := State.time_withJnlaJnlbCtl s _ _
@[simp] theorem State.work_jput (n : Nat) (e : JEntry) : (s.jput n e).work = s.work := State.work_withJnlaJnlbCtl s _ _
@[simp] theorem State.aclk_jput (n : Nat) (e : JEntry) : (s.jput n e).aclk = s.aclk := State.aclk_withJnlaJnlbCtl s _ _
@[simp] theorem State.clocks_jput (n : Nat) (e : JEntry) : (s.jput n e).clocks = s.clocks := State.clocks_withJnlaJnlbCtl s _ _
@[simp] theorem State.regs_jput (n : Nat) (e : JEntry) : (s.jput n e).regs = s.regs := State.regs_withJnlaJnlbCtl s _ _
@[simp] theorem State.arr_jput (n : Nat) (e : JEntry) : (s.jput n e).arr = s.arr := State.arr_withJnlaJnlbCtl s _ _
@[simp] theorem State.mem_jput (n : Nat) (e : JEntry) : (s.jput n e).mem = s.mem := State.mem_withJnlaJnlbCtl s _ _
@[simp] theorem State.blk_jput (n : Nat) (e : JEntry) : (s.jput n e).blk = s.blk := State.blk_withJnlaJnlbCtl s _ _
@[simp] theorem State.srv_jput (n : Nat) (e : JEntry) : (s.jput n e).srv = s.srv := State.srv_withJnlaJnlbCtl s _ _
@[simp] theorem State.intc_jput (n : Nat) (e : JEntry) : (s.jput n e).intc = s.intc := State.intc_withJnlaJnlbCtl s _ _
@[simp] theorem State.obs_jput (n : Nat) (e : JEntry) : (s.jput n e).obs = s.obs := State.obs_withJnlaJnlbCtl s _ _
@[simp] theorem State.lpx_jput (n : Nat) (e : JEntry) : (s.jput n e).lpx = s.lpx := State.lpx_withJnlaJnlbCtl s _ _
@[simp] theorem State.rlt_jput (n : Nat) (e : JEntry) : (s.jput n e).rlt = s.rlt := State.rlt_withJnlaJnlbCtl s _ _
@[simp] theorem State.pci_jput (n : Nat) (e : JEntry) : (s.jput n e).pci = s.pci := State.pci_withJnlaJnlbCtl s _ _
@[simp] theorem State.pwr_jput (n : Nat) (e : JEntry) : (s.jput n e).pwr = s.pwr := State.pwr_withJnlaJnlbCtl s _ _
@[simp] theorem State.sec_jput (n : Nat) (e : JEntry) : (s.jput n e).sec = s.sec := State.sec_withJnlaJnlbCtl s _ _
@[simp] theorem State.pins_jput (n : Nat) (e : JEntry) : (s.jput n e).pins = s.pins := State.pins_withJnlaJnlbCtl s _ _
@[simp] theorem State.board_jput (n : Nat) (e : JEntry) : (s.jput n e).board = s.board := State.board_withJnlaJnlbCtl s _ _
@[simp] theorem State.saved_jput (n : Nat) (e : JEntry) : (s.jput n e).saved = s.saved := State.saved_withJnlaJnlbCtl s _ _
@[simp] theorem State.fresh_jput (n : Nat) (e : JEntry) : (s.jput n e).fresh = s.fresh := State.fresh_withJnlaJnlbCtl s _ _
@[simp] theorem State.beats_jput (n : Nat) (e : JEntry) : (s.jput n e).beats = s.beats := State.beats_withJnlaJnlbCtl s _ _
@[simp] theorem State.msix_jput (n : Nat) (e : JEntry) : (s.jput n e).msix = s.msix := State.msix_withJnlaJnlbCtl s _ _
@[simp] theorem State.out_jput (n : Nat) (e : JEntry) : (s.jput n e).out = s.out := State.out_withJnlaJnlbCtl s _ _
@[simp] theorem State.hostMem_jput (n : Nat) (e : JEntry) : (s.jput n e).hostMem = s.hostMem := State.hostMem_withJnlaJnlbCtl s _ _
@[simp] theorem State.pending_jput (n : Nat) (e : JEntry) : (s.jput n e).pending = s.pending := State.pending_withJnlaJnlbCtl s _ _
@[simp] theorem State.ctl_queues_jput (n : Nat) (e : JEntry) : (s.jput n e).ctl.queues = s.ctl.queues := State.ctl_queues_withJnlaJnlbCtl s _ _
@[simp] theorem State.ctl_cmds_jput (n : Nat) (e : JEntry) : (s.jput n e).ctl.cmds = s.ctl.cmds := State.ctl_cmds_withJnlaJnlbCtl s _ _
@[simp] theorem State.ctl_tasks_jput (n : Nat) (e : JEntry) : (s.jput n e).ctl.tasks = s.ctl.tasks := State.ctl_tasks_withJnlaJnlbCtl s _ _
@[simp] theorem State.ctl_ops_jput (n : Nat) (e : JEntry) : (s.jput n e).ctl.ops = s.ctl.ops := State.ctl_ops_withJnlaJnlbCtl s _ _
@[simp] theorem State.ctl_nextSeq_jput (n : Nat) (e : JEntry) : (s.jput n e).ctl.nextSeq = s.ctl.nextSeq := State.ctl_nextSeq_withJnlaJnlbCtl s _ _
@[simp] theorem State.ctl_hubs_jput (n : Nat) (e : JEntry) : (s.jput n e).ctl.hubs = s.ctl.hubs := State.ctl_hubs_withJnlaJnlbCtl s _ _
@[simp] theorem State.ctl_table_jput (n : Nat) (e : JEntry) : (s.jput n e).ctl.table = s.ctl.table := State.ctl_table_withJnlaJnlbCtl s _ _
@[simp] theorem State.ctl_slot_jput (n : Nat) (e : JEntry) : (s.jput n e).ctl.slot = s.ctl.slot := State.ctl_slot_withJnlaJnlbCtl s _ _
@[simp] theorem State.ctl_partPend_jput (n : Nat) (e : JEntry) : (s.jput n e).ctl.partPend = s.ctl.partPend := State.ctl_partPend_withJnlaJnlbCtl s _ _
@[simp] theorem State.ctl_turns_jput (n : Nat) (e : JEntry) : (s.jput n e).ctl.turns = s.ctl.turns := State.ctl_turns_withJnlaJnlbCtl s _ _
@[simp] theorem State.reg_of_jput (n : Nat) (e : JEntry) (k0 : RegKind) (i0 : Nat) : (s.jput n e).reg k0 i0 = s.reg k0 i0 := State.reg_of_withJnlaJnlbCtl s _ _ _ _
@[simp] theorem State.rd_of_jput (n : Nat) (e : JEntry) (f0 : Fld) (i0 : Nat) : (s.jput n e).rd f0 i0 = s.rd f0 i0 := State.rd_of_withJnlaJnlbCtl s _ _ _ _
@[simp] theorem State.live_of_jput (n : Nat) (e : JEntry) : (s.jput n e).live = s.live := State.live_of_withJnlaJnlbCtl s _ _
@[simp] theorem State.cog_of_jput (n : Nat) (e : JEntry) (c0 : Nat) : (s.jput n e).cog c0 = s.cog c0 := State.cog_of_withJnlaJnlbCtl s _ _ _
@[simp] theorem State.hub_of_jput (n : Nat) (e : JEntry) (h0 : Nat) : (s.jput n e).hub h0 = s.hub h0 := State.hub_of_withJnlaJnlbCtl s _ _ _
@[simp] theorem State.queue_of_jput (n : Nat) (e : JEntry) (q0 : Nat) : (s.jput n e).queue q0 = s.queue q0 := State.queue_of_withJnlaJnlbCtl s _ _ _
@[simp] theorem State.cmd_of_jput (n : Nat) (e : JEntry) (n0 : Nat) : (s.jput n e).cmd n0 = s.cmd n0 := State.cmd_of_withJnlaJnlbCtl s _ _ _
@[simp] theorem State.task_of_jput (n : Nat) (e : JEntry) (k0 : Nat) : (s.jput n e).task k0 = s.task k0 := State.task_of_withJnlaJnlbCtl s _ _ _
@[simp] theorem State.aop_of_jput (n : Nat) (e : JEntry) (n0 d0 : Nat) : (s.jput n e).aop n0 d0 = s.aop n0 d0 := State.aop_of_withJnlaJnlbCtl s _ _ _ _
@[simp] theorem State.tensor_of_jput (n : Nat) (e : JEntry) (p0 t0 : Nat) : (s.jput n e).tensor p0 t0 = s.tensor p0 t0 := State.tensor_of_withJnlaJnlbCtl s _ _ _ _
@[simp] theorem State.regionOf_of_jput (n : Nat) (e : JEntry) (c0 : Nat) : (s.jput n e).regionOf c0 = s.regionOf c0 := State.regionOf_of_withJnlaJnlbCtl s _ _ _
@[simp] theorem State.port_of_jput (n : Nat) (e : JEntry) (p0 : Nat) : (s.jput n e).port p0 = s.port p0 := State.port_of_withJnlaJnlbCtl s _ _ _
@[simp] theorem State.chan_of_jput (n : Nat) (e : JEntry) (c0 : Nat) : (s.jput n e).chan c0 = s.chan c0 := State.chan_of_withJnlaJnlbCtl s _ _ _

/-! ### `setBlock` -/

@[simp] theorem State.time_setBlock (c b : Nat) (x : FlashBlock) : (s.setBlock c b x).time = s.time := State.time_withBlocksBlk s _
@[simp] theorem State.work_setBlock (c b : Nat) (x : FlashBlock) : (s.setBlock c b x).work = s.work := State.work_withBlocksBlk s _
@[simp] theorem State.aclk_setBlock (c b : Nat) (x : FlashBlock) : (s.setBlock c b x).aclk = s.aclk := State.aclk_withBlocksBlk s _
@[simp] theorem State.clocks_setBlock (c b : Nat) (x : FlashBlock) : (s.setBlock c b x).clocks = s.clocks := State.clocks_withBlocksBlk s _
@[simp] theorem State.regs_setBlock (c b : Nat) (x : FlashBlock) : (s.setBlock c b x).regs = s.regs := State.regs_withBlocksBlk s _
@[simp] theorem State.arr_setBlock (c b : Nat) (x : FlashBlock) : (s.setBlock c b x).arr = s.arr := State.arr_withBlocksBlk s _
@[simp] theorem State.mem_setBlock (c b : Nat) (x : FlashBlock) : (s.setBlock c b x).mem = s.mem := State.mem_withBlocksBlk s _
@[simp] theorem State.ctl_setBlock (c b : Nat) (x : FlashBlock) : (s.setBlock c b x).ctl = s.ctl := State.ctl_withBlocksBlk s _
@[simp] theorem State.srv_setBlock (c b : Nat) (x : FlashBlock) : (s.setBlock c b x).srv = s.srv := State.srv_withBlocksBlk s _
@[simp] theorem State.intc_setBlock (c b : Nat) (x : FlashBlock) : (s.setBlock c b x).intc = s.intc := State.intc_withBlocksBlk s _
@[simp] theorem State.obs_setBlock (c b : Nat) (x : FlashBlock) : (s.setBlock c b x).obs = s.obs := State.obs_withBlocksBlk s _
@[simp] theorem State.lpx_setBlock (c b : Nat) (x : FlashBlock) : (s.setBlock c b x).lpx = s.lpx := State.lpx_withBlocksBlk s _
@[simp] theorem State.rlt_setBlock (c b : Nat) (x : FlashBlock) : (s.setBlock c b x).rlt = s.rlt := State.rlt_withBlocksBlk s _
@[simp] theorem State.pci_setBlock (c b : Nat) (x : FlashBlock) : (s.setBlock c b x).pci = s.pci := State.pci_withBlocksBlk s _
@[simp] theorem State.pwr_setBlock (c b : Nat) (x : FlashBlock) : (s.setBlock c b x).pwr = s.pwr := State.pwr_withBlocksBlk s _
@[simp] theorem State.sec_setBlock (c b : Nat) (x : FlashBlock) : (s.setBlock c b x).sec = s.sec := State.sec_withBlocksBlk s _
@[simp] theorem State.pins_setBlock (c b : Nat) (x : FlashBlock) : (s.setBlock c b x).pins = s.pins := State.pins_withBlocksBlk s _
@[simp] theorem State.board_setBlock (c b : Nat) (x : FlashBlock) : (s.setBlock c b x).board = s.board := State.board_withBlocksBlk s _
@[simp] theorem State.saved_setBlock (c b : Nat) (x : FlashBlock) : (s.setBlock c b x).saved = s.saved := State.saved_withBlocksBlk s _
@[simp] theorem State.fresh_setBlock (c b : Nat) (x : FlashBlock) : (s.setBlock c b x).fresh = s.fresh := State.fresh_withBlocksBlk s _
@[simp] theorem State.beats_setBlock (c b : Nat) (x : FlashBlock) : (s.setBlock c b x).beats = s.beats := State.beats_withBlocksBlk s _
@[simp] theorem State.msix_setBlock (c b : Nat) (x : FlashBlock) : (s.setBlock c b x).msix = s.msix := State.msix_withBlocksBlk s _
@[simp] theorem State.out_setBlock (c b : Nat) (x : FlashBlock) : (s.setBlock c b x).out = s.out := State.out_withBlocksBlk s _
@[simp] theorem State.hostMem_setBlock (c b : Nat) (x : FlashBlock) : (s.setBlock c b x).hostMem = s.hostMem := State.hostMem_withBlocksBlk s _
@[simp] theorem State.pending_setBlock (c b : Nat) (x : FlashBlock) : (s.setBlock c b x).pending = s.pending := State.pending_withBlocksBlk s _
@[simp] theorem State.blk_data_setBlock (c b : Nat) (x : FlashBlock) : (s.setBlock c b x).blk.data = s.blk.data := State.blk_data_withBlocksBlk s _
@[simp] theorem State.blk_cat_setBlock (c b : Nat) (x : FlashBlock) : (s.setBlock c b x).blk.cat = s.blk.cat := State.blk_cat_withBlocksBlk s _
@[simp] theorem State.blk_map_setBlock (c b : Nat) (x : FlashBlock) : (s.setBlock c b x).blk.map = s.blk.map := State.blk_map_withBlocksBlk s _
@[simp] theorem State.blk_copies_setBlock (c b : Nat) (x : FlashBlock) : (s.setBlock c b x).blk.copies = s.blk.copies := State.blk_copies_withBlocksBlk s _
@[simp] theorem State.blk_parity_setBlock (c b : Nat) (x : FlashBlock) : (s.setBlock c b x).blk.parity = s.blk.parity := State.blk_parity_withBlocksBlk s _
@[simp] theorem State.blk_bad_setBlock (c b : Nat) (x : FlashBlock) : (s.setBlock c b x).blk.bad = s.blk.bad := State.blk_bad_withBlocksBlk s _
@[simp] theorem State.blk_formats_setBlock (c b : Nat) (x : FlashBlock) : (s.setBlock c b x).blk.formats = s.blk.formats := State.blk_formats_withBlocksBlk s _
@[simp] theorem State.blk_op_setBlock (c b : Nat) (x : FlashBlock) : (s.setBlock c b x).blk.op = s.blk.op := State.blk_op_withBlocksBlk s _
@[simp] theorem State.blk_retired_setBlock (c b : Nat) (x : FlashBlock) : (s.setBlock c b x).blk.retired = s.blk.retired := State.blk_retired_withBlocksBlk s _
@[simp] theorem State.reg_of_setBlock (c b : Nat) (x : FlashBlock) (k0 : RegKind) (i0 : Nat) : (s.setBlock c b x).reg k0 i0 = s.reg k0 i0 := State.reg_of_withBlocksBlk s _ _ _
@[simp] theorem State.rd_of_setBlock (c b : Nat) (x : FlashBlock) (f0 : Fld) (i0 : Nat) : (s.setBlock c b x).rd f0 i0 = s.rd f0 i0 := State.rd_of_withBlocksBlk s _ _ _
@[simp] theorem State.live_of_setBlock (c b : Nat) (x : FlashBlock) : (s.setBlock c b x).live = s.live := State.live_of_withBlocksBlk s _
@[simp] theorem State.cog_of_setBlock (c b : Nat) (x : FlashBlock) (c0 : Nat) : (s.setBlock c b x).cog c0 = s.cog c0 := State.cog_of_withBlocksBlk s _ _
@[simp] theorem State.hub_of_setBlock (c b : Nat) (x : FlashBlock) (h0 : Nat) : (s.setBlock c b x).hub h0 = s.hub h0 := State.hub_of_withBlocksBlk s _ _
@[simp] theorem State.queue_of_setBlock (c b : Nat) (x : FlashBlock) (q0 : Nat) : (s.setBlock c b x).queue q0 = s.queue q0 := State.queue_of_withBlocksBlk s _ _
@[simp] theorem State.cmd_of_setBlock (c b : Nat) (x : FlashBlock) (n0 : Nat) : (s.setBlock c b x).cmd n0 = s.cmd n0 := State.cmd_of_withBlocksBlk s _ _
@[simp] theorem State.task_of_setBlock (c b : Nat) (x : FlashBlock) (k0 : Nat) : (s.setBlock c b x).task k0 = s.task k0 := State.task_of_withBlocksBlk s _ _
@[simp] theorem State.aop_of_setBlock (c b : Nat) (x : FlashBlock) (n0 d0 : Nat) : (s.setBlock c b x).aop n0 d0 = s.aop n0 d0 := State.aop_of_withBlocksBlk s _ _ _
@[simp] theorem State.tensor_of_setBlock (c b : Nat) (x : FlashBlock) (p0 t0 : Nat) : (s.setBlock c b x).tensor p0 t0 = s.tensor p0 t0 := State.tensor_of_withBlocksBlk s _ _ _
@[simp] theorem State.regionOf_of_setBlock (c b : Nat) (x : FlashBlock) (c0 : Nat) : (s.setBlock c b x).regionOf c0 = s.regionOf c0 := State.regionOf_of_withBlocksBlk s _ _
@[simp] theorem State.port_of_setBlock (c b : Nat) (x : FlashBlock) (p0 : Nat) : (s.setBlock c b x).port p0 = s.port p0 := State.port_of_withBlocksBlk s _ _
@[simp] theorem State.chan_of_setBlock (c b : Nat) (x : FlashBlock) (c0 : Nat) : (s.setBlock c b x).chan c0 = s.chan c0 := State.chan_of_withBlocksBlk s _ _

/-! ### `setSeq` -/

@[simp] theorem State.time_setSeq (k : Nat) (x : Seq) : (s.setSeq k x).time = s.time := State.time_withSeqsSrv s _
@[simp] theorem State.work_setSeq (k : Nat) (x : Seq) : (s.setSeq k x).work = s.work := State.work_withSeqsSrv s _
@[simp] theorem State.aclk_setSeq (k : Nat) (x : Seq) : (s.setSeq k x).aclk = s.aclk := State.aclk_withSeqsSrv s _
@[simp] theorem State.clocks_setSeq (k : Nat) (x : Seq) : (s.setSeq k x).clocks = s.clocks := State.clocks_withSeqsSrv s _
@[simp] theorem State.regs_setSeq (k : Nat) (x : Seq) : (s.setSeq k x).regs = s.regs := State.regs_withSeqsSrv s _
@[simp] theorem State.arr_setSeq (k : Nat) (x : Seq) : (s.setSeq k x).arr = s.arr := State.arr_withSeqsSrv s _
@[simp] theorem State.mem_setSeq (k : Nat) (x : Seq) : (s.setSeq k x).mem = s.mem := State.mem_withSeqsSrv s _
@[simp] theorem State.ctl_setSeq (k : Nat) (x : Seq) : (s.setSeq k x).ctl = s.ctl := State.ctl_withSeqsSrv s _
@[simp] theorem State.blk_setSeq (k : Nat) (x : Seq) : (s.setSeq k x).blk = s.blk := State.blk_withSeqsSrv s _
@[simp] theorem State.intc_setSeq (k : Nat) (x : Seq) : (s.setSeq k x).intc = s.intc := State.intc_withSeqsSrv s _
@[simp] theorem State.obs_setSeq (k : Nat) (x : Seq) : (s.setSeq k x).obs = s.obs := State.obs_withSeqsSrv s _
@[simp] theorem State.lpx_setSeq (k : Nat) (x : Seq) : (s.setSeq k x).lpx = s.lpx := State.lpx_withSeqsSrv s _
@[simp] theorem State.rlt_setSeq (k : Nat) (x : Seq) : (s.setSeq k x).rlt = s.rlt := State.rlt_withSeqsSrv s _
@[simp] theorem State.pci_setSeq (k : Nat) (x : Seq) : (s.setSeq k x).pci = s.pci := State.pci_withSeqsSrv s _
@[simp] theorem State.pwr_setSeq (k : Nat) (x : Seq) : (s.setSeq k x).pwr = s.pwr := State.pwr_withSeqsSrv s _
@[simp] theorem State.sec_setSeq (k : Nat) (x : Seq) : (s.setSeq k x).sec = s.sec := State.sec_withSeqsSrv s _
@[simp] theorem State.pins_setSeq (k : Nat) (x : Seq) : (s.setSeq k x).pins = s.pins := State.pins_withSeqsSrv s _
@[simp] theorem State.board_setSeq (k : Nat) (x : Seq) : (s.setSeq k x).board = s.board := State.board_withSeqsSrv s _
@[simp] theorem State.saved_setSeq (k : Nat) (x : Seq) : (s.setSeq k x).saved = s.saved := State.saved_withSeqsSrv s _
@[simp] theorem State.fresh_setSeq (k : Nat) (x : Seq) : (s.setSeq k x).fresh = s.fresh := State.fresh_withSeqsSrv s _
@[simp] theorem State.beats_setSeq (k : Nat) (x : Seq) : (s.setSeq k x).beats = s.beats := State.beats_withSeqsSrv s _
@[simp] theorem State.msix_setSeq (k : Nat) (x : Seq) : (s.setSeq k x).msix = s.msix := State.msix_withSeqsSrv s _
@[simp] theorem State.out_setSeq (k : Nat) (x : Seq) : (s.setSeq k x).out = s.out := State.out_withSeqsSrv s _
@[simp] theorem State.hostMem_setSeq (k : Nat) (x : Seq) : (s.setSeq k x).hostMem = s.hostMem := State.hostMem_withSeqsSrv s _
@[simp] theorem State.pending_setSeq (k : Nat) (x : Seq) : (s.setSeq k x).pending = s.pending := State.pending_withSeqsSrv s _
@[simp] theorem State.srv_steps_setSeq (k : Nat) (x : Seq) : (s.setSeq k x).srv.steps = s.srv.steps := State.srv_steps_withSeqsSrv s _
@[simp] theorem State.srv_groups_setSeq (k : Nat) (x : Seq) : (s.setSeq k x).srv.groups = s.srv.groups := State.srv_groups_withSeqsSrv s _
@[simp] theorem State.srv_mem_setSeq (k : Nat) (x : Seq) : (s.setSeq k x).srv.mem = s.srv.mem := State.srv_mem_withSeqsSrv s _
@[simp] theorem State.reg_of_setSeq (k : Nat) (x : Seq) (k0 : RegKind) (i0 : Nat) : (s.setSeq k x).reg k0 i0 = s.reg k0 i0 := State.reg_of_withSeqsSrv s _ _ _
@[simp] theorem State.rd_of_setSeq (k : Nat) (x : Seq) (f0 : Fld) (i0 : Nat) : (s.setSeq k x).rd f0 i0 = s.rd f0 i0 := State.rd_of_withSeqsSrv s _ _ _
@[simp] theorem State.live_of_setSeq (k : Nat) (x : Seq) : (s.setSeq k x).live = s.live := State.live_of_withSeqsSrv s _
@[simp] theorem State.cog_of_setSeq (k : Nat) (x : Seq) (c0 : Nat) : (s.setSeq k x).cog c0 = s.cog c0 := State.cog_of_withSeqsSrv s _ _
@[simp] theorem State.hub_of_setSeq (k : Nat) (x : Seq) (h0 : Nat) : (s.setSeq k x).hub h0 = s.hub h0 := State.hub_of_withSeqsSrv s _ _
@[simp] theorem State.queue_of_setSeq (k : Nat) (x : Seq) (q0 : Nat) : (s.setSeq k x).queue q0 = s.queue q0 := State.queue_of_withSeqsSrv s _ _
@[simp] theorem State.cmd_of_setSeq (k : Nat) (x : Seq) (n0 : Nat) : (s.setSeq k x).cmd n0 = s.cmd n0 := State.cmd_of_withSeqsSrv s _ _
@[simp] theorem State.task_of_setSeq (k : Nat) (x : Seq) (k0 : Nat) : (s.setSeq k x).task k0 = s.task k0 := State.task_of_withSeqsSrv s _ _
@[simp] theorem State.aop_of_setSeq (k : Nat) (x : Seq) (n0 d0 : Nat) : (s.setSeq k x).aop n0 d0 = s.aop n0 d0 := State.aop_of_withSeqsSrv s _ _ _
@[simp] theorem State.tensor_of_setSeq (k : Nat) (x : Seq) (p0 t0 : Nat) : (s.setSeq k x).tensor p0 t0 = s.tensor p0 t0 := State.tensor_of_withSeqsSrv s _ _ _
@[simp] theorem State.regionOf_of_setSeq (k : Nat) (x : Seq) (c0 : Nat) : (s.setSeq k x).regionOf c0 = s.regionOf c0 := State.regionOf_of_withSeqsSrv s _ _
@[simp] theorem State.port_of_setSeq (k : Nat) (x : Seq) (p0 : Nat) : (s.setSeq k x).port p0 = s.port p0 := State.port_of_withSeqsSrv s _ _
@[simp] theorem State.chan_of_setSeq (k : Nat) (x : Seq) (c0 : Nat) : (s.setSeq k x).chan c0 = s.chan c0 := State.chan_of_withSeqsSrv s _ _

/-! ### `setBmem` -/

@[simp] theorem State.time_setBmem (b : Nat) (m : BatchMem) : (s.setBmem b m).time = s.time := State.time_withMemSrv s _
@[simp] theorem State.work_setBmem (b : Nat) (m : BatchMem) : (s.setBmem b m).work = s.work := State.work_withMemSrv s _
@[simp] theorem State.aclk_setBmem (b : Nat) (m : BatchMem) : (s.setBmem b m).aclk = s.aclk := State.aclk_withMemSrv s _
@[simp] theorem State.clocks_setBmem (b : Nat) (m : BatchMem) : (s.setBmem b m).clocks = s.clocks := State.clocks_withMemSrv s _
@[simp] theorem State.regs_setBmem (b : Nat) (m : BatchMem) : (s.setBmem b m).regs = s.regs := State.regs_withMemSrv s _
@[simp] theorem State.arr_setBmem (b : Nat) (m : BatchMem) : (s.setBmem b m).arr = s.arr := State.arr_withMemSrv s _
@[simp] theorem State.mem_setBmem (b : Nat) (m : BatchMem) : (s.setBmem b m).mem = s.mem := State.mem_withMemSrv s _
@[simp] theorem State.ctl_setBmem (b : Nat) (m : BatchMem) : (s.setBmem b m).ctl = s.ctl := State.ctl_withMemSrv s _
@[simp] theorem State.blk_setBmem (b : Nat) (m : BatchMem) : (s.setBmem b m).blk = s.blk := State.blk_withMemSrv s _
@[simp] theorem State.intc_setBmem (b : Nat) (m : BatchMem) : (s.setBmem b m).intc = s.intc := State.intc_withMemSrv s _
@[simp] theorem State.obs_setBmem (b : Nat) (m : BatchMem) : (s.setBmem b m).obs = s.obs := State.obs_withMemSrv s _
@[simp] theorem State.lpx_setBmem (b : Nat) (m : BatchMem) : (s.setBmem b m).lpx = s.lpx := State.lpx_withMemSrv s _
@[simp] theorem State.rlt_setBmem (b : Nat) (m : BatchMem) : (s.setBmem b m).rlt = s.rlt := State.rlt_withMemSrv s _
@[simp] theorem State.pci_setBmem (b : Nat) (m : BatchMem) : (s.setBmem b m).pci = s.pci := State.pci_withMemSrv s _
@[simp] theorem State.pwr_setBmem (b : Nat) (m : BatchMem) : (s.setBmem b m).pwr = s.pwr := State.pwr_withMemSrv s _
@[simp] theorem State.sec_setBmem (b : Nat) (m : BatchMem) : (s.setBmem b m).sec = s.sec := State.sec_withMemSrv s _
@[simp] theorem State.pins_setBmem (b : Nat) (m : BatchMem) : (s.setBmem b m).pins = s.pins := State.pins_withMemSrv s _
@[simp] theorem State.board_setBmem (b : Nat) (m : BatchMem) : (s.setBmem b m).board = s.board := State.board_withMemSrv s _
@[simp] theorem State.saved_setBmem (b : Nat) (m : BatchMem) : (s.setBmem b m).saved = s.saved := State.saved_withMemSrv s _
@[simp] theorem State.fresh_setBmem (b : Nat) (m : BatchMem) : (s.setBmem b m).fresh = s.fresh := State.fresh_withMemSrv s _
@[simp] theorem State.beats_setBmem (b : Nat) (m : BatchMem) : (s.setBmem b m).beats = s.beats := State.beats_withMemSrv s _
@[simp] theorem State.msix_setBmem (b : Nat) (m : BatchMem) : (s.setBmem b m).msix = s.msix := State.msix_withMemSrv s _
@[simp] theorem State.out_setBmem (b : Nat) (m : BatchMem) : (s.setBmem b m).out = s.out := State.out_withMemSrv s _
@[simp] theorem State.hostMem_setBmem (b : Nat) (m : BatchMem) : (s.setBmem b m).hostMem = s.hostMem := State.hostMem_withMemSrv s _
@[simp] theorem State.pending_setBmem (b : Nat) (m : BatchMem) : (s.setBmem b m).pending = s.pending := State.pending_withMemSrv s _
@[simp] theorem State.srv_seqs_setBmem (b : Nat) (m : BatchMem) : (s.setBmem b m).srv.seqs = s.srv.seqs := State.srv_seqs_withMemSrv s _
@[simp] theorem State.srv_steps_setBmem (b : Nat) (m : BatchMem) : (s.setBmem b m).srv.steps = s.srv.steps := State.srv_steps_withMemSrv s _
@[simp] theorem State.srv_groups_setBmem (b : Nat) (m : BatchMem) : (s.setBmem b m).srv.groups = s.srv.groups := State.srv_groups_withMemSrv s _
@[simp] theorem State.reg_of_setBmem (b : Nat) (m : BatchMem) (k0 : RegKind) (i0 : Nat) : (s.setBmem b m).reg k0 i0 = s.reg k0 i0 := State.reg_of_withMemSrv s _ _ _
@[simp] theorem State.rd_of_setBmem (b : Nat) (m : BatchMem) (f0 : Fld) (i0 : Nat) : (s.setBmem b m).rd f0 i0 = s.rd f0 i0 := State.rd_of_withMemSrv s _ _ _
@[simp] theorem State.live_of_setBmem (b : Nat) (m : BatchMem) : (s.setBmem b m).live = s.live := State.live_of_withMemSrv s _
@[simp] theorem State.cog_of_setBmem (b : Nat) (m : BatchMem) (c0 : Nat) : (s.setBmem b m).cog c0 = s.cog c0 := State.cog_of_withMemSrv s _ _
@[simp] theorem State.hub_of_setBmem (b : Nat) (m : BatchMem) (h0 : Nat) : (s.setBmem b m).hub h0 = s.hub h0 := State.hub_of_withMemSrv s _ _
@[simp] theorem State.queue_of_setBmem (b : Nat) (m : BatchMem) (q0 : Nat) : (s.setBmem b m).queue q0 = s.queue q0 := State.queue_of_withMemSrv s _ _
@[simp] theorem State.cmd_of_setBmem (b : Nat) (m : BatchMem) (n0 : Nat) : (s.setBmem b m).cmd n0 = s.cmd n0 := State.cmd_of_withMemSrv s _ _
@[simp] theorem State.task_of_setBmem (b : Nat) (m : BatchMem) (k0 : Nat) : (s.setBmem b m).task k0 = s.task k0 := State.task_of_withMemSrv s _ _
@[simp] theorem State.aop_of_setBmem (b : Nat) (m : BatchMem) (n0 d0 : Nat) : (s.setBmem b m).aop n0 d0 = s.aop n0 d0 := State.aop_of_withMemSrv s _ _ _
@[simp] theorem State.tensor_of_setBmem (b : Nat) (m : BatchMem) (p0 t0 : Nat) : (s.setBmem b m).tensor p0 t0 = s.tensor p0 t0 := State.tensor_of_withMemSrv s _ _ _
@[simp] theorem State.regionOf_of_setBmem (b : Nat) (m : BatchMem) (c0 : Nat) : (s.setBmem b m).regionOf c0 = s.regionOf c0 := State.regionOf_of_withMemSrv s _ _
@[simp] theorem State.port_of_setBmem (b : Nat) (m : BatchMem) (p0 : Nat) : (s.setBmem b m).port p0 = s.port p0 := State.port_of_withMemSrv s _ _
@[simp] theorem State.chan_of_setBmem (b : Nat) (m : BatchMem) (c0 : Nat) : (s.setBmem b m).chan c0 = s.chan c0 := State.chan_of_withMemSrv s _ _

/-! ### `setStep` -/

@[simp] theorem State.time_setStep (b : Nat) (x : Step) : (s.setStep b x).time = s.time := State.time_withStepsSrv s _
@[simp] theorem State.work_setStep (b : Nat) (x : Step) : (s.setStep b x).work = s.work := State.work_withStepsSrv s _
@[simp] theorem State.aclk_setStep (b : Nat) (x : Step) : (s.setStep b x).aclk = s.aclk := State.aclk_withStepsSrv s _
@[simp] theorem State.clocks_setStep (b : Nat) (x : Step) : (s.setStep b x).clocks = s.clocks := State.clocks_withStepsSrv s _
@[simp] theorem State.regs_setStep (b : Nat) (x : Step) : (s.setStep b x).regs = s.regs := State.regs_withStepsSrv s _
@[simp] theorem State.arr_setStep (b : Nat) (x : Step) : (s.setStep b x).arr = s.arr := State.arr_withStepsSrv s _
@[simp] theorem State.mem_setStep (b : Nat) (x : Step) : (s.setStep b x).mem = s.mem := State.mem_withStepsSrv s _
@[simp] theorem State.ctl_setStep (b : Nat) (x : Step) : (s.setStep b x).ctl = s.ctl := State.ctl_withStepsSrv s _
@[simp] theorem State.blk_setStep (b : Nat) (x : Step) : (s.setStep b x).blk = s.blk := State.blk_withStepsSrv s _
@[simp] theorem State.intc_setStep (b : Nat) (x : Step) : (s.setStep b x).intc = s.intc := State.intc_withStepsSrv s _
@[simp] theorem State.obs_setStep (b : Nat) (x : Step) : (s.setStep b x).obs = s.obs := State.obs_withStepsSrv s _
@[simp] theorem State.lpx_setStep (b : Nat) (x : Step) : (s.setStep b x).lpx = s.lpx := State.lpx_withStepsSrv s _
@[simp] theorem State.rlt_setStep (b : Nat) (x : Step) : (s.setStep b x).rlt = s.rlt := State.rlt_withStepsSrv s _
@[simp] theorem State.pci_setStep (b : Nat) (x : Step) : (s.setStep b x).pci = s.pci := State.pci_withStepsSrv s _
@[simp] theorem State.pwr_setStep (b : Nat) (x : Step) : (s.setStep b x).pwr = s.pwr := State.pwr_withStepsSrv s _
@[simp] theorem State.sec_setStep (b : Nat) (x : Step) : (s.setStep b x).sec = s.sec := State.sec_withStepsSrv s _
@[simp] theorem State.pins_setStep (b : Nat) (x : Step) : (s.setStep b x).pins = s.pins := State.pins_withStepsSrv s _
@[simp] theorem State.board_setStep (b : Nat) (x : Step) : (s.setStep b x).board = s.board := State.board_withStepsSrv s _
@[simp] theorem State.saved_setStep (b : Nat) (x : Step) : (s.setStep b x).saved = s.saved := State.saved_withStepsSrv s _
@[simp] theorem State.fresh_setStep (b : Nat) (x : Step) : (s.setStep b x).fresh = s.fresh := State.fresh_withStepsSrv s _
@[simp] theorem State.beats_setStep (b : Nat) (x : Step) : (s.setStep b x).beats = s.beats := State.beats_withStepsSrv s _
@[simp] theorem State.msix_setStep (b : Nat) (x : Step) : (s.setStep b x).msix = s.msix := State.msix_withStepsSrv s _
@[simp] theorem State.out_setStep (b : Nat) (x : Step) : (s.setStep b x).out = s.out := State.out_withStepsSrv s _
@[simp] theorem State.hostMem_setStep (b : Nat) (x : Step) : (s.setStep b x).hostMem = s.hostMem := State.hostMem_withStepsSrv s _
@[simp] theorem State.pending_setStep (b : Nat) (x : Step) : (s.setStep b x).pending = s.pending := State.pending_withStepsSrv s _
@[simp] theorem State.srv_seqs_setStep (b : Nat) (x : Step) : (s.setStep b x).srv.seqs = s.srv.seqs := State.srv_seqs_withStepsSrv s _
@[simp] theorem State.srv_groups_setStep (b : Nat) (x : Step) : (s.setStep b x).srv.groups = s.srv.groups := State.srv_groups_withStepsSrv s _
@[simp] theorem State.srv_mem_setStep (b : Nat) (x : Step) : (s.setStep b x).srv.mem = s.srv.mem := State.srv_mem_withStepsSrv s _
@[simp] theorem State.reg_of_setStep (b : Nat) (x : Step) (k0 : RegKind) (i0 : Nat) : (s.setStep b x).reg k0 i0 = s.reg k0 i0 := State.reg_of_withStepsSrv s _ _ _
@[simp] theorem State.rd_of_setStep (b : Nat) (x : Step) (f0 : Fld) (i0 : Nat) : (s.setStep b x).rd f0 i0 = s.rd f0 i0 := State.rd_of_withStepsSrv s _ _ _
@[simp] theorem State.live_of_setStep (b : Nat) (x : Step) : (s.setStep b x).live = s.live := State.live_of_withStepsSrv s _
@[simp] theorem State.cog_of_setStep (b : Nat) (x : Step) (c0 : Nat) : (s.setStep b x).cog c0 = s.cog c0 := State.cog_of_withStepsSrv s _ _
@[simp] theorem State.hub_of_setStep (b : Nat) (x : Step) (h0 : Nat) : (s.setStep b x).hub h0 = s.hub h0 := State.hub_of_withStepsSrv s _ _
@[simp] theorem State.queue_of_setStep (b : Nat) (x : Step) (q0 : Nat) : (s.setStep b x).queue q0 = s.queue q0 := State.queue_of_withStepsSrv s _ _
@[simp] theorem State.cmd_of_setStep (b : Nat) (x : Step) (n0 : Nat) : (s.setStep b x).cmd n0 = s.cmd n0 := State.cmd_of_withStepsSrv s _ _
@[simp] theorem State.task_of_setStep (b : Nat) (x : Step) (k0 : Nat) : (s.setStep b x).task k0 = s.task k0 := State.task_of_withStepsSrv s _ _
@[simp] theorem State.aop_of_setStep (b : Nat) (x : Step) (n0 d0 : Nat) : (s.setStep b x).aop n0 d0 = s.aop n0 d0 := State.aop_of_withStepsSrv s _ _ _
@[simp] theorem State.tensor_of_setStep (b : Nat) (x : Step) (p0 t0 : Nat) : (s.setStep b x).tensor p0 t0 = s.tensor p0 t0 := State.tensor_of_withStepsSrv s _ _ _
@[simp] theorem State.regionOf_of_setStep (b : Nat) (x : Step) (c0 : Nat) : (s.setStep b x).regionOf c0 = s.regionOf c0 := State.regionOf_of_withStepsSrv s _ _
@[simp] theorem State.port_of_setStep (b : Nat) (x : Step) (p0 : Nat) : (s.setStep b x).port p0 = s.port p0 := State.port_of_withStepsSrv s _ _
@[simp] theorem State.chan_of_setStep (b : Nat) (x : Step) (c0 : Nat) : (s.setStep b x).chan c0 = s.chan c0 := State.chan_of_withStepsSrv s _ _

/-! ### `dropStep` -/

@[simp] theorem State.time_dropStep (b : Nat) : (s.dropStep b).time = s.time := State.time_withStepsSrv s _
@[simp] theorem State.work_dropStep (b : Nat) : (s.dropStep b).work = s.work := State.work_withStepsSrv s _
@[simp] theorem State.aclk_dropStep (b : Nat) : (s.dropStep b).aclk = s.aclk := State.aclk_withStepsSrv s _
@[simp] theorem State.clocks_dropStep (b : Nat) : (s.dropStep b).clocks = s.clocks := State.clocks_withStepsSrv s _
@[simp] theorem State.regs_dropStep (b : Nat) : (s.dropStep b).regs = s.regs := State.regs_withStepsSrv s _
@[simp] theorem State.arr_dropStep (b : Nat) : (s.dropStep b).arr = s.arr := State.arr_withStepsSrv s _
@[simp] theorem State.mem_dropStep (b : Nat) : (s.dropStep b).mem = s.mem := State.mem_withStepsSrv s _
@[simp] theorem State.ctl_dropStep (b : Nat) : (s.dropStep b).ctl = s.ctl := State.ctl_withStepsSrv s _
@[simp] theorem State.blk_dropStep (b : Nat) : (s.dropStep b).blk = s.blk := State.blk_withStepsSrv s _
@[simp] theorem State.intc_dropStep (b : Nat) : (s.dropStep b).intc = s.intc := State.intc_withStepsSrv s _
@[simp] theorem State.obs_dropStep (b : Nat) : (s.dropStep b).obs = s.obs := State.obs_withStepsSrv s _
@[simp] theorem State.lpx_dropStep (b : Nat) : (s.dropStep b).lpx = s.lpx := State.lpx_withStepsSrv s _
@[simp] theorem State.rlt_dropStep (b : Nat) : (s.dropStep b).rlt = s.rlt := State.rlt_withStepsSrv s _
@[simp] theorem State.pci_dropStep (b : Nat) : (s.dropStep b).pci = s.pci := State.pci_withStepsSrv s _
@[simp] theorem State.pwr_dropStep (b : Nat) : (s.dropStep b).pwr = s.pwr := State.pwr_withStepsSrv s _
@[simp] theorem State.sec_dropStep (b : Nat) : (s.dropStep b).sec = s.sec := State.sec_withStepsSrv s _
@[simp] theorem State.pins_dropStep (b : Nat) : (s.dropStep b).pins = s.pins := State.pins_withStepsSrv s _
@[simp] theorem State.board_dropStep (b : Nat) : (s.dropStep b).board = s.board := State.board_withStepsSrv s _
@[simp] theorem State.saved_dropStep (b : Nat) : (s.dropStep b).saved = s.saved := State.saved_withStepsSrv s _
@[simp] theorem State.fresh_dropStep (b : Nat) : (s.dropStep b).fresh = s.fresh := State.fresh_withStepsSrv s _
@[simp] theorem State.beats_dropStep (b : Nat) : (s.dropStep b).beats = s.beats := State.beats_withStepsSrv s _
@[simp] theorem State.msix_dropStep (b : Nat) : (s.dropStep b).msix = s.msix := State.msix_withStepsSrv s _
@[simp] theorem State.out_dropStep (b : Nat) : (s.dropStep b).out = s.out := State.out_withStepsSrv s _
@[simp] theorem State.hostMem_dropStep (b : Nat) : (s.dropStep b).hostMem = s.hostMem := State.hostMem_withStepsSrv s _
@[simp] theorem State.pending_dropStep (b : Nat) : (s.dropStep b).pending = s.pending := State.pending_withStepsSrv s _
@[simp] theorem State.srv_seqs_dropStep (b : Nat) : (s.dropStep b).srv.seqs = s.srv.seqs := State.srv_seqs_withStepsSrv s _
@[simp] theorem State.srv_groups_dropStep (b : Nat) : (s.dropStep b).srv.groups = s.srv.groups := State.srv_groups_withStepsSrv s _
@[simp] theorem State.srv_mem_dropStep (b : Nat) : (s.dropStep b).srv.mem = s.srv.mem := State.srv_mem_withStepsSrv s _
@[simp] theorem State.reg_of_dropStep (b : Nat) (k0 : RegKind) (i0 : Nat) : (s.dropStep b).reg k0 i0 = s.reg k0 i0 := State.reg_of_withStepsSrv s _ _ _
@[simp] theorem State.rd_of_dropStep (b : Nat) (f0 : Fld) (i0 : Nat) : (s.dropStep b).rd f0 i0 = s.rd f0 i0 := State.rd_of_withStepsSrv s _ _ _
@[simp] theorem State.live_of_dropStep (b : Nat) : (s.dropStep b).live = s.live := State.live_of_withStepsSrv s _
@[simp] theorem State.cog_of_dropStep (b : Nat) (c0 : Nat) : (s.dropStep b).cog c0 = s.cog c0 := State.cog_of_withStepsSrv s _ _
@[simp] theorem State.hub_of_dropStep (b : Nat) (h0 : Nat) : (s.dropStep b).hub h0 = s.hub h0 := State.hub_of_withStepsSrv s _ _
@[simp] theorem State.queue_of_dropStep (b : Nat) (q0 : Nat) : (s.dropStep b).queue q0 = s.queue q0 := State.queue_of_withStepsSrv s _ _
@[simp] theorem State.cmd_of_dropStep (b : Nat) (n0 : Nat) : (s.dropStep b).cmd n0 = s.cmd n0 := State.cmd_of_withStepsSrv s _ _
@[simp] theorem State.task_of_dropStep (b : Nat) (k0 : Nat) : (s.dropStep b).task k0 = s.task k0 := State.task_of_withStepsSrv s _ _
@[simp] theorem State.aop_of_dropStep (b : Nat) (n0 d0 : Nat) : (s.dropStep b).aop n0 d0 = s.aop n0 d0 := State.aop_of_withStepsSrv s _ _ _
@[simp] theorem State.tensor_of_dropStep (b : Nat) (p0 t0 : Nat) : (s.dropStep b).tensor p0 t0 = s.tensor p0 t0 := State.tensor_of_withStepsSrv s _ _ _
@[simp] theorem State.regionOf_of_dropStep (b : Nat) (c0 : Nat) : (s.dropStep b).regionOf c0 = s.regionOf c0 := State.regionOf_of_withStepsSrv s _ _
@[simp] theorem State.port_of_dropStep (b : Nat) (p0 : Nat) : (s.dropStep b).port p0 = s.port p0 := State.port_of_withStepsSrv s _ _
@[simp] theorem State.chan_of_dropStep (b : Nat) (c0 : Nat) : (s.dropStep b).chan c0 = s.chan c0 := State.chan_of_withStepsSrv s _ _

/-! ### `setChan` -/

@[simp] theorem State.time_setChan (c : Nat) (x : LpxChan) : (s.setChan c x).time = s.time := State.time_withChansLpx s _
@[simp] theorem State.work_setChan (c : Nat) (x : LpxChan) : (s.setChan c x).work = s.work := State.work_withChansLpx s _
@[simp] theorem State.aclk_setChan (c : Nat) (x : LpxChan) : (s.setChan c x).aclk = s.aclk := State.aclk_withChansLpx s _
@[simp] theorem State.clocks_setChan (c : Nat) (x : LpxChan) : (s.setChan c x).clocks = s.clocks := State.clocks_withChansLpx s _
@[simp] theorem State.regs_setChan (c : Nat) (x : LpxChan) : (s.setChan c x).regs = s.regs := State.regs_withChansLpx s _
@[simp] theorem State.arr_setChan (c : Nat) (x : LpxChan) : (s.setChan c x).arr = s.arr := State.arr_withChansLpx s _
@[simp] theorem State.mem_setChan (c : Nat) (x : LpxChan) : (s.setChan c x).mem = s.mem := State.mem_withChansLpx s _
@[simp] theorem State.ctl_setChan (c : Nat) (x : LpxChan) : (s.setChan c x).ctl = s.ctl := State.ctl_withChansLpx s _
@[simp] theorem State.blk_setChan (c : Nat) (x : LpxChan) : (s.setChan c x).blk = s.blk := State.blk_withChansLpx s _
@[simp] theorem State.srv_setChan (c : Nat) (x : LpxChan) : (s.setChan c x).srv = s.srv := State.srv_withChansLpx s _
@[simp] theorem State.intc_setChan (c : Nat) (x : LpxChan) : (s.setChan c x).intc = s.intc := State.intc_withChansLpx s _
@[simp] theorem State.obs_setChan (c : Nat) (x : LpxChan) : (s.setChan c x).obs = s.obs := State.obs_withChansLpx s _
@[simp] theorem State.rlt_setChan (c : Nat) (x : LpxChan) : (s.setChan c x).rlt = s.rlt := State.rlt_withChansLpx s _
@[simp] theorem State.pci_setChan (c : Nat) (x : LpxChan) : (s.setChan c x).pci = s.pci := State.pci_withChansLpx s _
@[simp] theorem State.pwr_setChan (c : Nat) (x : LpxChan) : (s.setChan c x).pwr = s.pwr := State.pwr_withChansLpx s _
@[simp] theorem State.sec_setChan (c : Nat) (x : LpxChan) : (s.setChan c x).sec = s.sec := State.sec_withChansLpx s _
@[simp] theorem State.pins_setChan (c : Nat) (x : LpxChan) : (s.setChan c x).pins = s.pins := State.pins_withChansLpx s _
@[simp] theorem State.board_setChan (c : Nat) (x : LpxChan) : (s.setChan c x).board = s.board := State.board_withChansLpx s _
@[simp] theorem State.saved_setChan (c : Nat) (x : LpxChan) : (s.setChan c x).saved = s.saved := State.saved_withChansLpx s _
@[simp] theorem State.fresh_setChan (c : Nat) (x : LpxChan) : (s.setChan c x).fresh = s.fresh := State.fresh_withChansLpx s _
@[simp] theorem State.beats_setChan (c : Nat) (x : LpxChan) : (s.setChan c x).beats = s.beats := State.beats_withChansLpx s _
@[simp] theorem State.msix_setChan (c : Nat) (x : LpxChan) : (s.setChan c x).msix = s.msix := State.msix_withChansLpx s _
@[simp] theorem State.out_setChan (c : Nat) (x : LpxChan) : (s.setChan c x).out = s.out := State.out_withChansLpx s _
@[simp] theorem State.hostMem_setChan (c : Nat) (x : LpxChan) : (s.setChan c x).hostMem = s.hostMem := State.hostMem_withChansLpx s _
@[simp] theorem State.pending_setChan (c : Nat) (x : LpxChan) : (s.setChan c x).pending = s.pending := State.pending_withChansLpx s _
@[simp] theorem State.lpx_failed_setChan (c : Nat) (x : LpxChan) : (s.setChan c x).lpx.failed = s.lpx.failed := State.lpx_failed_withChansLpx s _
@[simp] theorem State.lpx_retired_setChan (c : Nat) (x : LpxChan) : (s.setChan c x).lpx.retired = s.lpx.retired := State.lpx_retired_withChansLpx s _
@[simp] theorem State.lpx_top_setChan (c : Nat) (x : LpxChan) : (s.setChan c x).lpx.top = s.lpx.top := State.lpx_top_withChansLpx s _
@[simp] theorem State.lpx_remaps_setChan (c : Nat) (x : LpxChan) : (s.setChan c x).lpx.remaps = s.lpx.remaps := State.lpx_remaps_withChansLpx s _
@[simp] theorem State.lpx_held_setChan (c : Nat) (x : LpxChan) : (s.setChan c x).lpx.held = s.lpx.held := State.lpx_held_withChansLpx s _
@[simp] theorem State.lpx_heldNo_setChan (c : Nat) (x : LpxChan) : (s.setChan c x).lpx.heldNo = s.lpx.heldNo := State.lpx_heldNo_withChansLpx s _
@[simp] theorem State.reg_of_setChan (c : Nat) (x : LpxChan) (k0 : RegKind) (i0 : Nat) : (s.setChan c x).reg k0 i0 = s.reg k0 i0 := State.reg_of_withChansLpx s _ _ _
@[simp] theorem State.rd_of_setChan (c : Nat) (x : LpxChan) (f0 : Fld) (i0 : Nat) : (s.setChan c x).rd f0 i0 = s.rd f0 i0 := State.rd_of_withChansLpx s _ _ _
@[simp] theorem State.live_of_setChan (c : Nat) (x : LpxChan) : (s.setChan c x).live = s.live := State.live_of_withChansLpx s _
@[simp] theorem State.cog_of_setChan (c : Nat) (x : LpxChan) (c0 : Nat) : (s.setChan c x).cog c0 = s.cog c0 := State.cog_of_withChansLpx s _ _
@[simp] theorem State.hub_of_setChan (c : Nat) (x : LpxChan) (h0 : Nat) : (s.setChan c x).hub h0 = s.hub h0 := State.hub_of_withChansLpx s _ _
@[simp] theorem State.queue_of_setChan (c : Nat) (x : LpxChan) (q0 : Nat) : (s.setChan c x).queue q0 = s.queue q0 := State.queue_of_withChansLpx s _ _
@[simp] theorem State.cmd_of_setChan (c : Nat) (x : LpxChan) (n0 : Nat) : (s.setChan c x).cmd n0 = s.cmd n0 := State.cmd_of_withChansLpx s _ _
@[simp] theorem State.task_of_setChan (c : Nat) (x : LpxChan) (k0 : Nat) : (s.setChan c x).task k0 = s.task k0 := State.task_of_withChansLpx s _ _
@[simp] theorem State.aop_of_setChan (c : Nat) (x : LpxChan) (n0 d0 : Nat) : (s.setChan c x).aop n0 d0 = s.aop n0 d0 := State.aop_of_withChansLpx s _ _ _
@[simp] theorem State.tensor_of_setChan (c : Nat) (x : LpxChan) (p0 t0 : Nat) : (s.setChan c x).tensor p0 t0 = s.tensor p0 t0 := State.tensor_of_withChansLpx s _ _ _
@[simp] theorem State.regionOf_of_setChan (c : Nat) (x : LpxChan) (c0 : Nat) : (s.setChan c x).regionOf c0 = s.regionOf c0 := State.regionOf_of_withChansLpx s _ _
@[simp] theorem State.port_of_setChan (c : Nat) (x : LpxChan) (p0 : Nat) : (s.setChan c x).port p0 = s.port p0 := State.port_of_withChansLpx s _ _

/-! ### `setPort` -/

@[simp] theorem State.time_setPort (p : Nat) (x : Port) : (s.setPort p x).time = s.time := State.time_withPortsRlt s _
@[simp] theorem State.work_setPort (p : Nat) (x : Port) : (s.setPort p x).work = s.work := State.work_withPortsRlt s _
@[simp] theorem State.aclk_setPort (p : Nat) (x : Port) : (s.setPort p x).aclk = s.aclk := State.aclk_withPortsRlt s _
@[simp] theorem State.clocks_setPort (p : Nat) (x : Port) : (s.setPort p x).clocks = s.clocks := State.clocks_withPortsRlt s _
@[simp] theorem State.regs_setPort (p : Nat) (x : Port) : (s.setPort p x).regs = s.regs := State.regs_withPortsRlt s _
@[simp] theorem State.arr_setPort (p : Nat) (x : Port) : (s.setPort p x).arr = s.arr := State.arr_withPortsRlt s _
@[simp] theorem State.mem_setPort (p : Nat) (x : Port) : (s.setPort p x).mem = s.mem := State.mem_withPortsRlt s _
@[simp] theorem State.ctl_setPort (p : Nat) (x : Port) : (s.setPort p x).ctl = s.ctl := State.ctl_withPortsRlt s _
@[simp] theorem State.blk_setPort (p : Nat) (x : Port) : (s.setPort p x).blk = s.blk := State.blk_withPortsRlt s _
@[simp] theorem State.srv_setPort (p : Nat) (x : Port) : (s.setPort p x).srv = s.srv := State.srv_withPortsRlt s _
@[simp] theorem State.intc_setPort (p : Nat) (x : Port) : (s.setPort p x).intc = s.intc := State.intc_withPortsRlt s _
@[simp] theorem State.obs_setPort (p : Nat) (x : Port) : (s.setPort p x).obs = s.obs := State.obs_withPortsRlt s _
@[simp] theorem State.lpx_setPort (p : Nat) (x : Port) : (s.setPort p x).lpx = s.lpx := State.lpx_withPortsRlt s _
@[simp] theorem State.pci_setPort (p : Nat) (x : Port) : (s.setPort p x).pci = s.pci := State.pci_withPortsRlt s _
@[simp] theorem State.pwr_setPort (p : Nat) (x : Port) : (s.setPort p x).pwr = s.pwr := State.pwr_withPortsRlt s _
@[simp] theorem State.sec_setPort (p : Nat) (x : Port) : (s.setPort p x).sec = s.sec := State.sec_withPortsRlt s _
@[simp] theorem State.pins_setPort (p : Nat) (x : Port) : (s.setPort p x).pins = s.pins := State.pins_withPortsRlt s _
@[simp] theorem State.board_setPort (p : Nat) (x : Port) : (s.setPort p x).board = s.board := State.board_withPortsRlt s _
@[simp] theorem State.saved_setPort (p : Nat) (x : Port) : (s.setPort p x).saved = s.saved := State.saved_withPortsRlt s _
@[simp] theorem State.fresh_setPort (p : Nat) (x : Port) : (s.setPort p x).fresh = s.fresh := State.fresh_withPortsRlt s _
@[simp] theorem State.beats_setPort (p : Nat) (x : Port) : (s.setPort p x).beats = s.beats := State.beats_withPortsRlt s _
@[simp] theorem State.msix_setPort (p : Nat) (x : Port) : (s.setPort p x).msix = s.msix := State.msix_withPortsRlt s _
@[simp] theorem State.out_setPort (p : Nat) (x : Port) : (s.setPort p x).out = s.out := State.out_withPortsRlt s _
@[simp] theorem State.hostMem_setPort (p : Nat) (x : Port) : (s.setPort p x).hostMem = s.hostMem := State.hostMem_withPortsRlt s _
@[simp] theorem State.pending_setPort (p : Nat) (x : Port) : (s.setPort p x).pending = s.pending := State.pending_withPortsRlt s _
@[simp] theorem State.rlt_entries_setPort (p : Nat) (x : Port) : (s.setPort p x).rlt.entries = s.rlt.entries := State.rlt_entries_withPortsRlt s _
@[simp] theorem State.rlt_nextEntry_setPort (p : Nat) (x : Port) : (s.setPort p x).rlt.nextEntry = s.rlt.nextEntry := State.rlt_nextEntry_withPortsRlt s _
@[simp] theorem State.rlt_cut_setPort (p : Nat) (x : Port) : (s.setPort p x).rlt.cut = s.rlt.cut := State.rlt_cut_withPortsRlt s _
@[simp] theorem State.rlt_msgs_setPort (p : Nat) (x : Port) : (s.setPort p x).rlt.msgs = s.rlt.msgs := State.rlt_msgs_withPortsRlt s _
@[simp] theorem State.rlt_xfers_setPort (p : Nat) (x : Port) : (s.setPort p x).rlt.xfers = s.rlt.xfers := State.rlt_xfers_withPortsRlt s _
@[simp] theorem State.rlt_xpos_setPort (p : Nat) (x : Port) : (s.setPort p x).rlt.xpos = s.rlt.xpos := State.rlt_xpos_withPortsRlt s _
@[simp] theorem State.reg_of_setPort (p : Nat) (x : Port) (k0 : RegKind) (i0 : Nat) : (s.setPort p x).reg k0 i0 = s.reg k0 i0 := State.reg_of_withPortsRlt s _ _ _
@[simp] theorem State.rd_of_setPort (p : Nat) (x : Port) (f0 : Fld) (i0 : Nat) : (s.setPort p x).rd f0 i0 = s.rd f0 i0 := State.rd_of_withPortsRlt s _ _ _
@[simp] theorem State.live_of_setPort (p : Nat) (x : Port) : (s.setPort p x).live = s.live := State.live_of_withPortsRlt s _
@[simp] theorem State.cog_of_setPort (p : Nat) (x : Port) (c0 : Nat) : (s.setPort p x).cog c0 = s.cog c0 := State.cog_of_withPortsRlt s _ _
@[simp] theorem State.hub_of_setPort (p : Nat) (x : Port) (h0 : Nat) : (s.setPort p x).hub h0 = s.hub h0 := State.hub_of_withPortsRlt s _ _
@[simp] theorem State.queue_of_setPort (p : Nat) (x : Port) (q0 : Nat) : (s.setPort p x).queue q0 = s.queue q0 := State.queue_of_withPortsRlt s _ _
@[simp] theorem State.cmd_of_setPort (p : Nat) (x : Port) (n0 : Nat) : (s.setPort p x).cmd n0 = s.cmd n0 := State.cmd_of_withPortsRlt s _ _
@[simp] theorem State.task_of_setPort (p : Nat) (x : Port) (k0 : Nat) : (s.setPort p x).task k0 = s.task k0 := State.task_of_withPortsRlt s _ _
@[simp] theorem State.aop_of_setPort (p : Nat) (x : Port) (n0 d0 : Nat) : (s.setPort p x).aop n0 d0 = s.aop n0 d0 := State.aop_of_withPortsRlt s _ _ _
@[simp] theorem State.tensor_of_setPort (p : Nat) (x : Port) (p0 t0 : Nat) : (s.setPort p x).tensor p0 t0 = s.tensor p0 t0 := State.tensor_of_withPortsRlt s _ _ _
@[simp] theorem State.regionOf_of_setPort (p : Nat) (x : Port) (c0 : Nat) : (s.setPort p x).regionOf c0 = s.regionOf c0 := State.regionOf_of_withPortsRlt s _ _
@[simp] theorem State.chan_of_setPort (p : Nat) (x : Port) (c0 : Nat) : (s.setPort p x).chan c0 = s.chan c0 := State.chan_of_withPortsRlt s _ _

/-! ### `setMsg` -/

@[simp] theorem State.time_setMsg (n : Nat) (m : Msg) : (s.setMsg n m).time = s.time := State.time_withMsgsRlt s _
@[simp] theorem State.work_setMsg (n : Nat) (m : Msg) : (s.setMsg n m).work = s.work := State.work_withMsgsRlt s _
@[simp] theorem State.aclk_setMsg (n : Nat) (m : Msg) : (s.setMsg n m).aclk = s.aclk := State.aclk_withMsgsRlt s _
@[simp] theorem State.clocks_setMsg (n : Nat) (m : Msg) : (s.setMsg n m).clocks = s.clocks := State.clocks_withMsgsRlt s _
@[simp] theorem State.regs_setMsg (n : Nat) (m : Msg) : (s.setMsg n m).regs = s.regs := State.regs_withMsgsRlt s _
@[simp] theorem State.arr_setMsg (n : Nat) (m : Msg) : (s.setMsg n m).arr = s.arr := State.arr_withMsgsRlt s _
@[simp] theorem State.mem_setMsg (n : Nat) (m : Msg) : (s.setMsg n m).mem = s.mem := State.mem_withMsgsRlt s _
@[simp] theorem State.ctl_setMsg (n : Nat) (m : Msg) : (s.setMsg n m).ctl = s.ctl := State.ctl_withMsgsRlt s _
@[simp] theorem State.blk_setMsg (n : Nat) (m : Msg) : (s.setMsg n m).blk = s.blk := State.blk_withMsgsRlt s _
@[simp] theorem State.srv_setMsg (n : Nat) (m : Msg) : (s.setMsg n m).srv = s.srv := State.srv_withMsgsRlt s _
@[simp] theorem State.intc_setMsg (n : Nat) (m : Msg) : (s.setMsg n m).intc = s.intc := State.intc_withMsgsRlt s _
@[simp] theorem State.obs_setMsg (n : Nat) (m : Msg) : (s.setMsg n m).obs = s.obs := State.obs_withMsgsRlt s _
@[simp] theorem State.lpx_setMsg (n : Nat) (m : Msg) : (s.setMsg n m).lpx = s.lpx := State.lpx_withMsgsRlt s _
@[simp] theorem State.pci_setMsg (n : Nat) (m : Msg) : (s.setMsg n m).pci = s.pci := State.pci_withMsgsRlt s _
@[simp] theorem State.pwr_setMsg (n : Nat) (m : Msg) : (s.setMsg n m).pwr = s.pwr := State.pwr_withMsgsRlt s _
@[simp] theorem State.sec_setMsg (n : Nat) (m : Msg) : (s.setMsg n m).sec = s.sec := State.sec_withMsgsRlt s _
@[simp] theorem State.pins_setMsg (n : Nat) (m : Msg) : (s.setMsg n m).pins = s.pins := State.pins_withMsgsRlt s _
@[simp] theorem State.board_setMsg (n : Nat) (m : Msg) : (s.setMsg n m).board = s.board := State.board_withMsgsRlt s _
@[simp] theorem State.saved_setMsg (n : Nat) (m : Msg) : (s.setMsg n m).saved = s.saved := State.saved_withMsgsRlt s _
@[simp] theorem State.fresh_setMsg (n : Nat) (m : Msg) : (s.setMsg n m).fresh = s.fresh := State.fresh_withMsgsRlt s _
@[simp] theorem State.beats_setMsg (n : Nat) (m : Msg) : (s.setMsg n m).beats = s.beats := State.beats_withMsgsRlt s _
@[simp] theorem State.msix_setMsg (n : Nat) (m : Msg) : (s.setMsg n m).msix = s.msix := State.msix_withMsgsRlt s _
@[simp] theorem State.out_setMsg (n : Nat) (m : Msg) : (s.setMsg n m).out = s.out := State.out_withMsgsRlt s _
@[simp] theorem State.hostMem_setMsg (n : Nat) (m : Msg) : (s.setMsg n m).hostMem = s.hostMem := State.hostMem_withMsgsRlt s _
@[simp] theorem State.pending_setMsg (n : Nat) (m : Msg) : (s.setMsg n m).pending = s.pending := State.pending_withMsgsRlt s _
@[simp] theorem State.rlt_ports_setMsg (n : Nat) (m : Msg) : (s.setMsg n m).rlt.ports = s.rlt.ports := State.rlt_ports_withMsgsRlt s _
@[simp] theorem State.rlt_entries_setMsg (n : Nat) (m : Msg) : (s.setMsg n m).rlt.entries = s.rlt.entries := State.rlt_entries_withMsgsRlt s _
@[simp] theorem State.rlt_nextEntry_setMsg (n : Nat) (m : Msg) : (s.setMsg n m).rlt.nextEntry = s.rlt.nextEntry := State.rlt_nextEntry_withMsgsRlt s _
@[simp] theorem State.rlt_cut_setMsg (n : Nat) (m : Msg) : (s.setMsg n m).rlt.cut = s.rlt.cut := State.rlt_cut_withMsgsRlt s _
@[simp] theorem State.rlt_xfers_setMsg (n : Nat) (m : Msg) : (s.setMsg n m).rlt.xfers = s.rlt.xfers := State.rlt_xfers_withMsgsRlt s _
@[simp] theorem State.rlt_xpos_setMsg (n : Nat) (m : Msg) : (s.setMsg n m).rlt.xpos = s.rlt.xpos := State.rlt_xpos_withMsgsRlt s _
@[simp] theorem State.reg_of_setMsg (n : Nat) (m : Msg) (k0 : RegKind) (i0 : Nat) : (s.setMsg n m).reg k0 i0 = s.reg k0 i0 := State.reg_of_withMsgsRlt s _ _ _
@[simp] theorem State.rd_of_setMsg (n : Nat) (m : Msg) (f0 : Fld) (i0 : Nat) : (s.setMsg n m).rd f0 i0 = s.rd f0 i0 := State.rd_of_withMsgsRlt s _ _ _
@[simp] theorem State.live_of_setMsg (n : Nat) (m : Msg) : (s.setMsg n m).live = s.live := State.live_of_withMsgsRlt s _
@[simp] theorem State.cog_of_setMsg (n : Nat) (m : Msg) (c0 : Nat) : (s.setMsg n m).cog c0 = s.cog c0 := State.cog_of_withMsgsRlt s _ _
@[simp] theorem State.hub_of_setMsg (n : Nat) (m : Msg) (h0 : Nat) : (s.setMsg n m).hub h0 = s.hub h0 := State.hub_of_withMsgsRlt s _ _
@[simp] theorem State.queue_of_setMsg (n : Nat) (m : Msg) (q0 : Nat) : (s.setMsg n m).queue q0 = s.queue q0 := State.queue_of_withMsgsRlt s _ _
@[simp] theorem State.cmd_of_setMsg (n : Nat) (m : Msg) (n0 : Nat) : (s.setMsg n m).cmd n0 = s.cmd n0 := State.cmd_of_withMsgsRlt s _ _
@[simp] theorem State.task_of_setMsg (n : Nat) (m : Msg) (k0 : Nat) : (s.setMsg n m).task k0 = s.task k0 := State.task_of_withMsgsRlt s _ _
@[simp] theorem State.aop_of_setMsg (n : Nat) (m : Msg) (n0 d0 : Nat) : (s.setMsg n m).aop n0 d0 = s.aop n0 d0 := State.aop_of_withMsgsRlt s _ _ _
@[simp] theorem State.tensor_of_setMsg (n : Nat) (m : Msg) (p0 t0 : Nat) : (s.setMsg n m).tensor p0 t0 = s.tensor p0 t0 := State.tensor_of_withMsgsRlt s _ _ _
@[simp] theorem State.regionOf_of_setMsg (n : Nat) (m : Msg) (c0 : Nat) : (s.setMsg n m).regionOf c0 = s.regionOf c0 := State.regionOf_of_withMsgsRlt s _ _
@[simp] theorem State.port_of_setMsg (n : Nat) (m : Msg) (p0 : Nat) : (s.setMsg n m).port p0 = s.port p0 := State.port_of_withMsgsRlt s _ _
@[simp] theorem State.chan_of_setMsg (n : Nat) (m : Msg) (c0 : Nat) : (s.setMsg n m).chan c0 = s.chan c0 := State.chan_of_withMsgsRlt s _ _

/-! ### Reading back -/

/-- A register instance reads as written, modulo 2^64, in a state whose register file is in canonical form. -/
theorem State.reg_setReg_same (hs : Tab.rising s.regs = true) (k : RegKind) (i v : Nat) : (s.setReg k i v).reg k i = v % 2 ^ 64 := by
  simp only [State.reg, State.setReg, Tab.get_set_same _ hs, BitVec.toNat_ofNat]

/-- Writing a register instance leaves every instance with another key as it was. -/
theorem State.reg_setReg_other (hs : Tab.rising s.regs = true) {k k' : RegKind} {i i' : Nat} (h : k'.key i' ≠ k.key i) (v : Nat) :
    (s.setReg k i v).reg k' i' = s.reg k' i' := by
  simp only [State.reg, State.setReg, Tab.get_set_other _ _ hs h]

/-- Writing a register keeps the register file in canonical form. -/
theorem State.rising_setReg (hs : Tab.rising s.regs = true) (k : RegKind) (i v : Nat) : Tab.rising (s.setReg k i v).regs = true :=
  Tab.rising_set _ hs _ _

/-- A cog reads as written. -/
theorem State.cog_setCog_same (hs : Tab.rising s.arr.cogs = true) (c : Nat) (x : Cog) : (s.setCog c x).cog c = x :=
  Tab.get_set_same _ hs _ _

/-- Writing a cog leaves every other cog as it was. -/
theorem State.cog_setCog_other (hs : Tab.rising s.arr.cogs = true) {c c' : Nat} (h : c' ≠ c) (x : Cog) :
    (s.setCog c x).cog c' = s.cog c' :=
  Tab.get_set_other _ _ hs h _

/-- A hub reads as written. -/
theorem State.hub_setHub_same (hs : Tab.rising s.ctl.hubs = true) (h : Nat) (x : Hub) : (s.setHub h x).hub h = x :=
  Tab.get_set_same _ hs _ _

/-- Writing a hub leaves every other hub as it was. -/
theorem State.hub_setHub_other (hs : Tab.rising s.ctl.hubs = true) {h h' : Nat} (hh : h' ≠ h) (x : Hub) :
    (s.setHub h x).hub h' = s.hub h' :=
  Tab.get_set_other _ _ hs hh _

/-- A queue reads as written. -/
theorem State.queue_setQueue_same (hs : Tab.rising s.ctl.queues = true) (q : Nat) (x : Queue) : (s.setQueue q x).queue q = x :=
  Tab.get_set_same _ hs _ _

/-- A command reads as written. -/
@[simp] theorem State.cmd_setCmd_same (n : Nat) (c : Cmd) : (s.setCmd n c).cmd n = some c :=
  Tab.find_insert_same _ _ _

/-- A task reads as written. -/
@[simp] theorem State.task_setTask_same (k : Nat) (t : Task) : (s.setTask k t).task k = some t :=
  Tab.find_insert_same _ _ _

/-- An operation reads as written. -/
@[simp] theorem State.aop_setAop_same (n hd : Nat) (o : AOp) : (s.setAop n hd o).aop n hd = some o :=
  Tab.find_insert_same _ _ _

/-- A tensor reads as written. -/
@[simp] theorem State.tensor_setTensor_same (p tid : Nat) (t : Tensor) : (s.setTensor p tid t).tensor p tid = some t :=
  Tab.find_insert_same _ _ _

/-- A step reads as written. -/
@[simp] theorem State.step_setStep_same (b : Nat) (x : Step) : (s.setStep b x).step? b = some x :=
  Tab.find_insert_same _ _ _

/-- A port reads as written. -/
theorem State.port_setPort_same (hs : Tab.rising s.rlt.ports = true) (p : Nat) (x : Port) : (s.setPort p x).port p = x :=
  Tab.get_set_same _ hs _ _

/-- A channel reads as written. -/
theorem State.chan_setChan_same (hs : Tab.rising s.lpx.chans = true) (c : Nat) (x : LpxChan) : (s.setChan c x).chan c = x :=
  Tab.get_set_same _ hs _ _

/-! ### The gates -/

/-- A command that needs a live device has its effect on one. -/
theorem State.ifLive_of_live {s t : State} (h : s.live = true) : s.ifLive t = .next t := by simp [State.ifLive, h]

/-- On a device that is not live such a command changes nothing. -/
theorem State.ifLive_of_not_live {s t : State} (h : s.live = false) : s.ifLive t = .next s := by simp [State.ifLive, h]

/-- What a gate answers: one of its two states. -/
theorem State.ifLive_cases (s t : State) : (s.live = true ∧ s.ifLive t = .next t) ∨ (s.live = false ∧ s.ifLive t = .next s) := by
  cases h : s.live <;> simp [State.ifLive, h]

/-- A command that needs running clocks has its effect where they run. -/
theorem State.ifClocked_of_clocks {s t : State} (h : s.clocks = true) (h' : s.pins.porLow = false) : s.ifClocked t = .next t := by
  simp [State.ifClocked, h, h']

/-- A live device has its clocks on and POR_N high. -/
theorem State.clocks_of_live {s : State} (h : s.live = true) : s.clocks = true ∧ s.pins.porLow = false := by
  simp only [State.live, Bool.and_eq_true, Bool.not_eq_true'] at h
  exact ⟨h.1.1.1.1, h.1.1.1.2⟩

/-- A live device is not in the fatal state, not halted and has booted. -/
theorem State.flags_of_live {s : State} (h : s.live = true) : s.fatal = false ∧ s.halted = false ∧ s.unbooted = false := by
  simp only [State.live, Bool.and_eq_true, Bool.not_eq_true'] at h
  exact ⟨h.1.1.2, h.1.2, h.2⟩

/-- A host request that the device hears has its effect. -/
theorem State.ifHost_of_live {s t : State} {f : Nat} (off : Nat) (hl : s.live = true) (ht : s.turnedAway f = none)
    (hm : f = 0 ∨ s.mainUp = true) : s.ifHost f off t = .next t := by
  simp [State.ifHost, State.ifLive, hl, ht, hm]

/-- A host request that its function turns away is logged and has no other effect. -/
theorem State.ifHost_of_turned {s t : State} {f k : Nat} (off : Nat) (hl : s.live = true) (ht : s.turnedAway f = some k) :
    s.ifHost f off t = .next (s.pciEvent k f off) := by
  simp [State.ifHost, State.ifLive, hl, ht]

/-- A step with a command at the front. -/
theorem step_cons {s : State} {c : Instr} {rest : List Instr} (h : s.pending = c :: rest) :
    step s = exec c { s with pending := rest } := by
  simp [step, h]

/-- The memory of the state after reset is in canonical form. -/
theorem State.reset_hostMem_wf : State.reset.hostMem.wf = true := rfl

end Sys2Proof.Machine
end

