-- ==== Sys2Proof/Laws/Commands.lean ====
section
/-! SUPPORT. What the shared operations of the cog's and the hub's instructions and of the power pins answer, one lemma for each way they
can go. -/

namespace Sys2Proof.Machine

variable {s : State} {c h : Nat}

/-! ## Cogs (R49 to R53) -/

/-- What a cog fetches where it may issue and the opcode is the one asked for. -/
theorem State.cogFetch_eq_some {opc : Nat} {i : CogInstr} :
    s.cogFetch c opc = some i ↔ s.live = true ∧ (s.cog c).issues = true ∧ (s.cog c).instr = some i ∧ i.opc = opc := by
  unfold State.cogFetch
  split_ifs with hc
  · rw [Bool.and_eq_true] at hc
    cases hi : (s.cog c).instr with
    | none => simp
    | some j =>
      simp only [Option.some.injEq, hc.1, hc.2, true_and]
      split_ifs with ho
      · simp only [Option.some.injEq]
        exact ⟨fun e => ⟨e, e ▸ ho⟩, And.left⟩
      · simp only [false_iff, not_and]
        rintro rfl
        exact ho
  · rw [Bool.and_eq_true] at hc
    simp only [false_iff, not_and]
    exact fun h1 h2 => absurd ⟨h1, h2⟩ hc

/-- A cog instruction that fires (R50): its effect on the cog, recorded by `fired`. -/
theorem State.cogStepWith_of_fires {i : CogInstr} {vs : List Nat} {y : Cog} (hf : s.fires c i vs y) {opc : Nat} (ho : i.opc = opc)
    (skip : CogInstr → Cog → Cog) (f : CogInstr → List Nat → Cog → Cog) : s.cogStepWith c opc skip f = s.fired c (f i vs y) := by
  obtain ⟨h1, h2, h3, h4, h5, h6, h7⟩ := hf
  have hF : s.cogFetch c opc = some i := State.cogFetch_eq_some.2 ⟨h1, h2, h3, ho⟩
  simp only [State.cogStepWith, hF, h4, h5, h6, h7]
  simp

/-- The same for an instruction that a false predicate only retires. -/
theorem State.cogStep_of_fires {i : CogInstr} {vs : List Nat} {y : Cog} (hf : s.fires c i vs y) {opc : Nat} (ho : i.opc = opc)
    (f : CogInstr → List Nat → Cog → Cog) : s.cogStep c opc f = s.fired c (f i vs y) :=
  State.cogStepWith_of_fires hf ho _ f

/-- Another instruction at the program counter, or a cog that may not issue: nothing happens. -/
theorem State.cogStepWith_of_no_fetch {opc : Nat} (hF : s.cogFetch c opc = none) (skip : CogInstr → Cog → Cog)
    (f : CogInstr → List Nat → Cog → Cog) : s.cogStepWith c opc skip f = s := by
  simp only [State.cogStepWith, hF]

/-- A pending predicate: the instruction waits (R50). -/
theorem State.cogStepWith_of_pending {opc : Nat} {i : CogInstr} (hF : s.cogFetch c opc = some i)
    (hp : i.head.predRes.any (s.cog c).busy = true) (skip : CogInstr → Cog → Cog) (f : CogInstr → List Nat → Cog → Cog) :
    s.cogStepWith c opc skip f = s := by
  simp only [State.cogStepWith, hF, hp, if_true]

/-- A false predicate: the instruction retires and does no more (R51). -/
theorem State.cogStepWith_of_false {opc : Nat} {i : CogInstr} (hF : s.cogFetch c opc = some i)
    (hp : i.head.predRes.any (s.cog c).busy = false) (hq : (s.cog c).pred i.head = false) (skip : CogInstr → Cog → Cog)
    (f : CogInstr → List Nat → Cog → Cog) :
    s.cogStepWith c opc skip f = (s.setCog c { skip i (s.cog c) with waited := none }).note c false := by
  simp [State.cogStepWith, hF, hp, hq]

/-- A result that may be written is written (R52, R53). -/
theorem execInstrResultWrite_of_writable {k : CogId} {n : Nat} {f : InFlight} (hl : s.live = true) (hn : (s.cog k).inflight[n]? = some f)
    (hw : (s.cog k).writable n = true) : execInstrResultWrite k n s = .next ((s.setCog k
      { f.dests.foldl Cog.put { s.cog k with inflight := (s.cog k).inflight.eraseIdx n } with waited := none }).note k false) := by
  simp only [execInstrResultWrite, State.ifLive_of_live hl, hn, hw, if_true]

/-! ## Hubs (R262 to R266) -/

/-- The instruction a hub executes next is the one it fetches. -/
theorem State.hubFetch_of_issues {i : HubInstr} (hi : s.hubIssues h i) {opc : Nat} (ho : i.opc = opc) : s.hubFetch h opc = some i := by
  obtain ⟨h1, h2, h3, h4⟩ := hi
  simp [State.hubFetch, h1, h2, h3, h4, ho]

/-- An instruction of a hub has its effect where it is next. -/
theorem hubExec_of_issues {i : HubInstr} (hi : s.hubIssues h i) {opc : Nat} (ho : i.opc = opc) (f : HubInstr → State) :
    hubExec h opc s f = .next (f i) := by
  simp only [hubExec, State.hubFetch_of_issues hi ho]

/-- Another instruction at the program counter, or a hub that does not run: nothing happens. -/
theorem hubExec_of_no_fetch {opc : Nat} (hF : s.hubFetch h opc = none) (f : HubInstr → State) : hubExec h opc s f = .next s := by
  simp only [hubExec, hF]

/-- An instruction that acts on the command its hub runs. -/
theorem hubCmdExec_of_issues {i : HubInstr} (hi : s.hubIssues h i) {opc : Nat} (ho : i.opc = opc) {n : Nat} {k : Cmd}
    (hc : s.curCmd h = some (n, k)) (f : HubInstr → Nat → Cmd → State) : hubCmdExec h opc s f = .next (f i n k) := by
  simp only [hubCmdExec, hubExec_of_issues hi ho, hc]

/-- The command a hub runs is one of the commands that the block knows. -/
theorem State.curCmd_eq_some {n : Nat} {k : Cmd} : s.curCmd h = some (n, k) ↔ (s.hub h).cur = some n ∧ s.cmd n = some k := by
  unfold State.curCmd
  cases hc : (s.hub h).cur with
  | none => simp
  | some m =>
    cases hm : s.cmd m with
    | none => simp [Option.bind, hm]; rintro rfl; simp [hm]
    | some x => simp [Option.bind, hm]; rintro rfl; simp [hm]

/-- A synchronous instruction that is not refused returns its word, with WAITED where it waited, and moves on (R265). -/
theorem State.syncEnd_of_ok (i : HubInstr) (n : Nat) {w : Nat}
    (hw : isRefusal (setBits w 17 1 (b2n (bit w 17 || (s.hub h).waited))) = false) :
    s.syncEnd h i n w = (s.setHub h { s.hub h with stalled := false, waited := false }).hubRetN h i.rd
      (setBits w 17 1 (b2n (bit w 17 || (s.hub h).waited))) := by
  simp only [State.syncEnd, hw, Bool.false_and, Bool.false_eq_true, if_false]

/-- An operation that has started says so. -/
theorem State.opStart_of_aop {n d : Nat} {o : AOp} (ho : s.aop n d = some o) : s.opStart n d = s.setAop n d { o with started := true } := by
  simp only [State.opStart, ho]

/-- An operation whose command is gone only ends. -/
theorem State.opEnd_of_no_cmd {n d w : Nat} (hc : s.cmd n = none) : s.opEnd n d w = s.dropAop n d := by
  simp only [State.opEnd, State.cmd_of_dropAop, hc]

/-- A command is changed where the block knows it. -/
theorem State.modCmd_of_cmd {n : Nat} {k : Cmd} (hc : s.cmd n = some k) (f : Cmd → Cmd) : s.modCmd n f = s.setCmd n (f k) := by
  simp only [State.modCmd, hc]

/-- A tensor is changed where it is defined. -/
theorem State.modTensor_of_tensor {p tid : Nat} {t : Tensor} (ht : s.tensor p tid = some t) (f : Tensor → Tensor) :
    s.modTensor p tid f = s.setTensor p tid (f t) := by
  simp only [State.modTensor, ht]

/-- Where no region covers a cog, an event in it only settles its wait. -/
theorem State.note_of_no_region {c : Nat} (hr : s.regionOf c = none) (b : Bool) : s.note c b = s.rewait c := by
  simp only [State.note, State.rewait, State.regionOf_of_setCog, hr]

/-! ## Power pins (R435 to R437, R516) -/

/-- What the governor does with clocks, out of reset and not halted. -/
theorem State.ifGoverned_of_governed (hc : s.clocks = true) (hp : s.pins.porLow = false) (hh : s.halted = false) (t : State) :
    s.ifGoverned t = .next t := by
  simp [State.ifGoverned, hc, hp, hh]

/-- A power pin that the board drives on a device with clocks, out of reset and not halted: the device acts on what it samples. -/
theorem State.drives_of_governed {g : Pins → Pins} {f : State → State} (hc : s.clocks = true) (hp : (g s.pins).porLow = false)
    (hh : s.halted = false) : s.drives g f = .next (f { s with pins := g s.pins }) :=
  State.ifGoverned_of_governed (s := { s with pins := g s.pins }) hc hp hh _

/-- While POR_N is low the device samples nothing. -/
theorem State.drives_of_porLow {g : Pins → Pins} {f : State → State} (hp : (g s.pins).porLow = true) :
    s.drives g f = .next { s with pins := g s.pins } := by
  simp [State.drives, State.ifGoverned, hp]

/-- THROTTLE_N sampled at the level it had. -/
theorem State.throttleSeen_same {low : Bool} (h : s.on F.PWR_STATUS.THROTTLE 0 = low) : s.throttleSeen low = s := by
  unfold State.throttleSeen
  rw [if_pos h]

/-- COOLANT_ALERT_N sampled at the level it had. -/
theorem State.coolantSeen_same {low : Bool} (h : s.pwr.coolLow = low) : s.coolantSeen low = s := by
  unfold State.coolantSeen
  rw [if_pos h]

/-- PWR_STEP sampled with the code it had. -/
theorem State.stepSeen_same {code : Nat} (h : s.rd F.PWR_STATUS.PIN_CODE 0 = code) : s.stepSeen code = s := by
  unfold State.stepSeen
  rw [if_pos h]

end Sys2Proof.Machine
end

