-- ==== Sys2Proof/Tests/Slice0.lean ====
section
/-! SUPPORT. The model's own tests: commands that no sender can form, words written out from the encoding tables, and for each statement
with hypotheses states and operands that meet them. -/

namespace Sys2Proof.Tests

open Sys2Proof Sys2Proof.Machine

set_option Elab.async false

/-! ## States to look at -/

/-- The main tier has come up, the device is ready, the host has enabled the VFs, and every function takes memory requests. -/
def up : State :=
  let s := State.reset.put F.LPX_STATUS.READY 0 true
  { s with pci := { s.pci with ready := true, numVfs := 16, vfEn := true, mse := (List.range 17).map fun f => (f, true) } }

/-- State `s` in which only the PF takes memory requests. -/
def hosted (s : State) : State := { s with pci := { s.pci with ready := true, mse := [(0, true)] } }

/-- Cog 0 runs one instruction at address 0 of plane A. -/
def running (i : CogInstr) : Cog :=
  { Cog.reset with mode := .run, planeA := { Plane.empty with instrs := [(0, cogEncode i)], ninstr := 1, routes := 0x10 } }

/-- The state in which it does. -/
def atCog (x : Cog) : State := State.reset.setCog 0 x

/-- An unconditional head of an opcode. -/
def hd (opc : Nat) : CogHead := ⟨opc, false, 0⟩

/-- Whether the instruction of cog 0 fires with some source values. -/
def firesAt (x : Cog) (i : CogInstr) : Bool :=
  match x.gather x.plane (x.srcs i) with
  | some (vs, y, true) => decide ((atCog x).fires 0 i vs y)
  | _ => false

/-- Some fields of a command that its hub runs. -/
def hdr0 : Header := ⟨0, 0, false, 0, 8, 0, 0xFF, 0, 0, 0, timeNone, 0, [], 0⟩

/-- A command that hub 0 runs, from queue 0. -/
def cmd0 : Cmd := { Cmd.new 0 0 hdr0 0 7 with stage := .running }

/-- Hub 0 runs command 7 whose first routine word is `i`. -/
def hubAt (i : HubInstr) (s : State) : State :=
  (s.setCmd 7 cmd0).setHub 0 { Hub.clear with cur := some 7, imem := [(0, hubEncode i)] }

/-- A hub instruction with RD 5, RA 1, RB 2. -/
def hi (opc aux imm : Nat) : HubInstr := ⟨opc, 5, 1, 2, false, aux, imm⟩

/-- Partition 0 is ENABLED on block 0 with hub 0. -/
def part0 (s : State) : State := (((s.wr F.SEC_PART_MAP.RECT 0 0x1100).wr F.SEC_PART_MAP.HUBS 0 1).wr F.SEC_PART_MAP.ENABLE 0 1).wr
  F.SEC_PART_STATE.STATE 0 1

/-- Function 1 may read and write host bytes below 16 MiB (R389) and master the bus (R391). -/
def windows (s : State) : State :=
  let i := RegKind.idx .PCI_MWIN_LIMIT 1 0
  let s := ((s.wr F.PCI_MWIN_LIMIT.LIMIT i 0xFFF).put F.PCI_MWIN_LIMIT.R i true).put F.PCI_MWIN_LIMIT.W i true
  { s with pci := { s.pci with bme := [(1, true)] } }

/-! ## Commands that no sender can form -/

/-- A payload one byte too long for the mailbox (R393). -/
def long : List Byte := List.replicate 4081 0

theorem test_ill_formed_mailbox :
    [Instr.blkFormat 0 long, .catCreate 0 long, .catWrite 0 long, .catSeal 0 long, .catGrant 0 long, .catDelete 0 long,
      .haltJournalRead 0 long, .attest 0 long, .certRead 0 long, .authProvision 0 long, .updWrite 0 long, .updActivate 0 long].all
      (fun c => !c.wf) = true := by decide +kernel
theorem test_ill_formed_frame : (Instr.frameReceive 0 [] 0).wf = false ∧ (Instr.frameReceive 0 (List.replicate 256 0) 0).wf = true := by
  decide +kernel
theorem test_ill_formed_bar2 : (Instr.bar2Read 0 4095 2).wf = false ∧ (Instr.bar2Read 0 4095 1).wf = true ∧
    (Instr.bar2Read 0 0x40000000 1).wf = false ∧ (Instr.bar2Write 0 0 []).wf = true ∧ (Instr.bar2Write 0 4095 [1]).wf = true := by
  decide +kernel
theorem test_ill_formed_win_map : (Instr.winMapWrite 0 1 16 0).wf = false ∧ (Instr.winMapWrite 0 1 15 0).wf = true := by decide +kernel
theorem test_ill_formed_tlp : (Instr.faultyTlp 0 7 0 false).wf = false ∧ (Instr.faultyTlp 0 10 0 false).wf = true := by decide +kernel
theorem test_ill_formed_link : (Instr.pcieLinkTrain 7 16 false false).wf = false ∧ (Instr.pcieLinkTrain 6 3 false false).wf = false ∧
    (Instr.pcieLinkTrain 6 16 false false).wf = false ∧ (Instr.pcieLinkTrain 6 16 true false).wf = true := by decide +kernel
theorem test_ill_formed_vector : (Instr.msixSend 0 64).wf = false ∧ (Instr.msixSend 0 63).wf = true := by decide +kernel
theorem test_ill_formed_reset : (Instr.warmDeviceReset 0).wf = false ∧ (Instr.warmDeviceReset 5).wf = false ∧
    (Instr.warmDeviceReset 4).wf = true := by decide +kernel
theorem test_ill_formed_sensors : (Instr.sensorCheck []).wf = false ∧ (Instr.sensorCheck (List.replicate 80 0)).wf = true := by
  decide +kernel
theorem test_ill_formed_register : (Instr.registerWrite 0 1 0 4 0).wf = false ∧ (Instr.registerWrite 0 0 0x4000000 4 0).wf = false ∧
    (Instr.registerWrite 0 4 0x3FFFFC 4 0).wf = true ∧
    (Instr.registerWrite 0 7 0x1000 4 0).wf = false ∧ (Instr.registerWrite 0 7 0 4 0).wf = true ∧
    (Instr.registerWrite 0 8 2 4 0).wf = false ∧ (Instr.registerWrite 0 8 0 4 0).wf = true := by decide +kernel

/-- The machine stops on such a command, from any state. -/
theorem test_ill_formed_stops (s : State) : exec (.msixSend 0 64) s = .fault .illFormed ∧ exec (.warmDeviceReset 5) s = .fault .illFormed :=
  ⟨rfl, rfl⟩

/-! ## Words written out from the encoding tables (R66, R67, R263, R264)

No row of the table has bits; the words below are those of the cogs' and the hubs' instructions, which their sequencers read. -/

/-- LOOP c2, 5 iterations, to address 9: opcode 0x01, PSEL 0, CTR 10, COUNT_SEL 0, ADDR 0x09, COUNT 5. -/
theorem test_word_loop : cogDecode 0x0104009000000005 = some (.s (hd 0x01) 2 false 0 9 0 5) := by decide +kernel
/-- PCMP p3 := a2 LT 7: opcode 0x0B, AS at [46:43], COND at [42:40], PD at [39:37]. -/
theorem test_word_pcmp : cogDecode 0x0B00126000000007 = some (.a (hd 0x0B) 0 2 2 3 0 7) := by decide +kernel
/-- MMA into bank 1 of BF16 by 4-bit: opcode 0x10, DST 0x3F, SRCA v8, SRCB v9, SRCC v10, TYPE 4, IMM20[19]. -/
theorem test_word_mma : cogDecode 0x1007E41254080000 = some (.c (hd 0x10) 0x3F 8 9 10 4 0 false 0x80000) := by decide +kernel
/-- UREAD of 16 words at a4 with stride a5: opcode 0x50, QSR 0x3F, AREG 4, SREG 5. -/
theorem test_word_uread : cogDecode 0x5007E8A000000010 = some (.u (hd 0x50) 0x3F 4 5 0 false 0 16) := by decide +kernel
/-- Opcode 0x58 selects no format. -/
theorem test_word_reserved : cogDecode 0x5800000000000000 = none := by decide +kernel
/-- STEP rd 3 of batch ra 4 with TRY and IMM32 0x40: opcode 0x50. -/
theorem test_word_step : hubDecode 0x5019010000000040 = ⟨0x50, 3, 4, 0, true, 0, 0x40⟩ := by decide +kernel

/-! ## Cogs: states in which every instruction of chapter 04 fires (R50) -/

/-- Format S and A instructions, with a LOOP of no iteration and of three. -/
def plainCogInstrs : List CogInstr :=
  [.s (hd 0x00) 0 false 0 0 0 0, .s (hd 0x01) 1 false 0 5 0 0, .s (hd 0x01) 1 false 0 5 0 3, .s (hd 0x02) 0 false 0 5 0 0,
    .s (hd 0x03) 0 false 0 0 0 0, .s (hd 0x04) 0 false 0 0 0 0, .a (hd 0x08) 1 0 0 0 0 0xFFFFFFFF, .a (hd 0x09) 15 15 0 0 0 1,
    .a (hd 0x0A) 1 2 0 0 0 3, .a (hd 0x0B) 0 1 5 7 0 9, .a (hd 0x0C) 0 0 0 0 0 1, .a (hd 0x0D) 1 0 0 0 0 3]

/-- A format C instruction on registers v0, v2 and v4, FP32. -/
def vec (opc dst imm : Nat) : CogInstr := .c (hd opc) dst 0 2 4 0 0 false imm

/-- Format C and U instructions: every opcode; VCVT to FP32, BF16, E4M3 and E5M2; a U transfer of no flit and of some. -/
def wideCogInstrs : List CogInstr :=
  [vec 0x20 6 0, vec 0x21 6 0, vec 0x22 6 0, vec 0x23 0x28 0, vec 0x24 6 0, vec 0x25 6 0, vec 0x26 6 0, vec 0x27 6 0x60000, vec 0x28 6 0,
    vec 0x29 6 0, vec 0x29 6 0x10000, vec 0x29 6 0x28000, vec 0x29 6 0x30000, vec 0x2A 6 0x20000, vec 0x2B 6 0, vec 0x2C 6 0, vec 0x2D 6 0,
    vec 0x2E 6 15, vec 0x2F 6 0x3F80, vec 0x30 0x3F 0xF7, .c (hd 0x10) 0x3F 8 9 10 4 0 false 0x80000,
    .c (hd 0x10) 0x3F 8 9 0x3F 2 0 false 0x10000, .c (hd 0x11) 8 0x3F 0x3F 0x3F 0 0 true 0x80000, .c (hd 0x12) 0x3F 0x3F 0x3F 0x3F 0 0 false 0,
    .u (hd 0x50) 0x3F 4 5 0 false 0 0, .u (hd 0x50) 0x3F 4 5 0 false 0 16, .u (hd 0x51) 3 4 5 0 false 0 1, .u (hd 0x51) 3 4 5 0 false 0 0]

theorem test_plain_cog_instructions_fire : (plainCogInstrs.all fun i => firesAt (running i) i) = true := by decide +kernel
theorem test_wide_cog_instructions_fire : (wideCogInstrs.all fun i => firesAt (running i) i) = true := by decide +kernel

/-- VADD of N_IN, whose head flit holds the sixteen BF16 lanes, pops it as it fires. -/
def fromNorth : CogInstr := .c (hd 0x21) 6 0x20 2 0x3F 1 4 false 0
theorem test_queue_operand_fires :
    firesAt ((running fromNorth).setIq 0 { InQ.start with flits := [.make 0x3F80 false false] }) fromNorth = true := by decide +kernel

/-- A cog with loop entries, at the end of the innermost. -/
def looping (n : Nat) : Cog := { Cog.reset with loops := [⟨1, 3, 9⟩, ⟨0, 1, 9⟩], ctr := [(0, 4), (1, n)], pc := 9 }
theorem test_loop_end_cases : (∀ l ∈ (looping 2).loops, l.stop ≠ 8) ∧ 1 < (looping 2).c 1 ∧ (looping 1).c 1 ≤ 1 := by decide +kernel
/-- The two ends of a loop at one address: the inner leaves, the outer goes on (R55, R112). -/
theorem test_loop_ends_together : ((looping 1).retireAt 9).pc = 1 ∧ ((looping 1).retireAt 9).loops = [⟨0, 1, 9⟩] ∧
    ((looping 1).retireAt 9).c 0 = 3 := by decide +kernel
theorem test_loop_end_wraps : (Cog.reset.retireAt 255).pc = 0 := by decide +kernel

theorem test_numbers_that_are_not_nan : fp32 0x3F800000 ≠ .nan ∧ valueOf 1 0xFF80 ≠ .nan ∧ valueOf 2 0x7E ≠ .nan ∧ valueOf 3 0x7B ≠ .nan ∧
    (0x7B % 128 ≠ 0x7C) := by decide +kernel
/-- 1.5 + 2.25 = 3.75 in FP32, and 1 + 2⁻²⁵ rounds to even (R82, R95). -/
theorem test_vadd_rounds : enc32 (sumF [fp32 0x3FC00000, fp32 0x40100000]) = 0x40700000 ∧
    enc32 (sumF [fp32 0x3F800000, fp32 0x33000000]) = 0x3F800000 := by decide +kernel
/-- A fused multiply-add rounds once: 1.000…1 × 1.000…1 − 1 keeps the low bits (R95). -/
theorem test_vfma_rounds_once :
    enc32 (sumF [mulF (fp32 0x3F800001) (fp32 0x3F800001), fp32 0xBF800000]) = 0x34800000 ∨
    enc32 (sumF [mulF (fp32 0x3F800001) (fp32 0x3F800001), fp32 0xBF800000]) = 0x34800001 := by decide +kernel
/-- The largest E4M3 value is 448, and it has no infinity (R84). -/
theorem test_e4m3_largest : enc32 (valueOf 2 0x7E) = 0x43E00000 ∧ valueOf 2 0x7F = .nan := by decide +kernel

theorem test_accumulators_rise : Tab.rising ([(0, 5), (64, 7)] : Tab Nat) = true := by decide +kernel
/-- A product into bank 0 adds to its element and leaves bank 1 (R91). -/
theorem test_mma_adds : (Cog.put { Cog.reset with acc := [(0, 0x3F800000), (64, 0x40000000)] }
      (.accAdd 0 [[0x3F80, 0, 0, 0, 0, 0, 0, 0]] [[0x3F80, 0, 0, 0, 0, 0, 0, 0]] 0 1 127 false)).acc.find? (·.1 == 64) =
    some (64, 0x40000000) := by decide +kernel

/-! Instructions that do not fire. -/

/-- VTST in flight, and NOP under the predicate it will write. -/
def underP1 : CogInstr := .s ⟨0x00, false, 1⟩ 0 false 0 0 0 0
theorem test_cog_nothing_to_issue : State.reset.cogFetch 0 0x00 = none := by decide +kernel
theorem test_cog_predicate_pending :
    let x := { running underP1 with inflight := [⟨[.pred 1 true], false⟩] }
    (atCog x).cogFetch 0 0x00 = some underP1 ∧ underP1.head.predRes.any x.busy = true := by decide +kernel
theorem test_cog_predicate_false :
    let x := running underP1
    (atCog x).cogFetch 0 0x00 = some underP1 ∧ underP1.head.predRes.any x.busy = false ∧ x.pred underP1.head = false := by decide +kernel
theorem test_cog_register_pending :
    let x := { running (vec 0x20 6 0) with inflight := [⟨[.vreg 0 1], false⟩] }
    (atCog x).cogFetch 0 0x20 = some (vec 0x20 6 0) ∧ (atCog x).clear 0 x (vec 0x20 6 0) = false := by decide +kernel
theorem test_cog_source_lacks_words :
    let x := running fromNorth
    (atCog x).cogFetch 0 0x21 = some fromNorth ∧ x.pred fromNorth.head = true ∧ x.gather x.plane (x.srcs fromNorth) = none := by
  decide +kernel
theorem test_cog_source_parity :
    let x := (running fromNorth).setIq 0 { InQ.start with flits := [⟨0x3F80, false, false, 0⟩] }
    (atCog x).clear 0 x fromNorth = true ∧ ((x.gather x.plane (x.srcs fromNorth)).map (·.2.2)) = some false := by decide +kernel

/-! ## The mesh -/

/-- A flit of plane A. -/
def flitA : Flit := .make 5 false false

/-- Command 7 runs on block 0, plane A, with no stream. -/
def region0 : Region :=
  ⟨0x1100, 0, 7, 0, false, none, false, [], [], 0, ⟨true, 1, 4096, 50000, false, false⟩, 0, 0, 0, 0, none, none, []⟩
/-- The same while plane B is LIVE and plane A drains. -/
def shifting : Region := { region0 with live := true, shiftK := some 0, draining := true }

/-- A state with a cog, a region on block 0 and command 7. -/
def withRegion (x : Cog) (r : Region) : State := ((State.reset.setCog 0 x).setRegion 0 r).setCmd 7 cmd0
/-- A cog with an input queue given. -/
def withIn (q : Nat) (v : InQ) : Cog := ((running (vec 0x20 6 0)).setIq q v)
/-- A cog with an output queue given. -/
def withOut (d : Side) (o : OutQ) : Cog := Cog.reset.setOq d o

theorem test_flit_may_cross :
    let s := part0 (State.reset.setCog 1 (withOut .w { OutQ.start with flits := [flitA] }))
    s.live = true ∧ s.crossing 0 .e = some flitA ∧ ((s.cog 0).iq 1).credits ≠ 0 ∧ s.nacks 0 .e < 8 := by decide +kernel
theorem test_flit_abandoned_inside :
    let s := part0 (State.reset.setCog 1 (withOut .w { OutQ.start with flits := [flitA], nacks := 8 }))
    (s.crossing 0 .e).isSome = true ∧ s.nacks 0 .e = 8 := by decide +kernel
theorem test_flit_leaves_array :
    let x := withOut .n { OutQ.start with flits := [flitA], nacks := 7 }
    neighbour 0 .n = none ∧ (x.oq .n).flits = [flitA] ∧ (x.oq .n).mark = false ∧ (x.oq .n).nacks < 8 ∧
      ((withRegion x region0).regionOf 0).isSome = true ∧ ((atCog x).regionOf 0).isSome = false := by decide +kernel
theorem test_flit_abandoned_outside :
    let x := withOut .n { OutQ.start with flits := [flitA], nacks := 8 }
    neighbour 0 .n = none ∧ ((atCog x).cog 0 |>.oq .n).flits ≠ [] ∧ (((atCog x).cog 0).oq .n).nacks = 8 := by decide +kernel
theorem test_credit_returns :
    ((withIn 3 { InQ.start with freed := 1 }).iq 3).freed ≠ 0 ∧ ((withIn 3 { InQ.start with freed := 1 }).iq 3).spill = none ∧
      (Cog.reset.iq 3).freed = 0 ∧ ((withIn 3 { InQ.start with spill := some true }).iq 3).spill ≠ none := by decide +kernel

/-- A cog whose plane A sends N_IN to E_OUT and S_OUT. -/
def router : Cog := { (withIn 0 { InQ.start with flits := [flitA] }) with planeA := { Plane.empty with routes := 6 } }
/-- A flit whose parity fails. -/
def badFlit : Flit := ⟨5, false, false, 1⟩
theorem test_router_may_copy :
    (router.iq 0).flits = [flitA] ∧ fwd (router.routeOf 0 flitA) = [.e, .s] ∧ (router.iq 0).copied = false ∧ flitA.parOk = true ∧
      badFlit.parOk = false ∧ fwd (router.routeOf 0 badFlit) ≠ [] ∧
      (∀ d ∈ fwd (router.routeOf 0 flitA), (router.oq d).free ≠ 0 ∧ tagBlocked ((atCog router).regionOf 0) (router.oq d) false = false) ∧
      (atCog router).arbPtr router = 0 ∧ (atCog router).arbGrants 0 router 0 = true ∧ (atCog router).wants 0 router 0 ≠ [] ∧
      (∀ d ∈ sides, ((atCog router).wants 0 router 0).count d ≤ (router.oq d).free) ∧
      (atCog router).arbGrants 0 router 1 = false := by
  decide +kernel
theorem test_flit_without_route :
    let x := withIn 0 { InQ.start with flits := [flitA] }
    let y : Cog := { x with planeA := Plane.empty }
    Machine.core (y.routeOf 0 flitA) = false ∧ fwd (y.routeOf 0 flitA) = [] ∧ Tab.rising (atCog y).arr.cogs = true ∧ Tab.rising (atCog y).arr.regions = true ∧
      Tab.rising y.inq = true := by decide +kernel
theorem test_stale_flit :
    let x : Cog := { (withIn 0 { InQ.start with flits := [flitA], copied := true }) with plane := true, ranLive := true }
    let y : Cog := { x with planeA := { x.planeA with routes := 0x11 } }
    let s := withRegion x shifting
    s.regionOf 0 = some (0, shifting) ∧ shifting.draining = true ∧ flitA.tag ≠ shifting.live ∧ x.ranLive = true ∧
      Machine.core (x.routeOf 0 flitA) = true ∧ fwd (x.routeOf 0 flitA) = [] ∧ Machine.core (y.routeOf 0 flitA) = true ∧ fwd (y.routeOf 0 flitA) ≠ [] ∧
      (y.iq 0).copied = true := by decide +kernel

theorem test_marks_to_cross :
    (((State.reset.setCog 1 (withOut .w { OutQ.start with mark := true })).cog 1).oq Side.e.opp).mark = true ∧ neighbour 0 .e = some 1 ∧
      neighbour 0 .w = none ∧ ((State.reset.setEdgeIn 0 .w { EdgeIn.start with mark := true }).edgeIn 0 .w).mark = true ∧
      ((atCog (withOut .n { OutQ.start with mark := true })).cog 0 |>.oq .n).mark = true := by decide +kernel

theorem test_edge_mark_behind_live_flits :
    let s := (withRegion Cog.reset shifting).setEdgeIn 0 .w { EdgeIn.start with mark := true, flits := [.make 5 true false] }
    s.regionOf 0 = some (0, shifting) ∧ (∀ f ∈ (s.edgeIn 0 .w).flits, f.tag = shifting.live) ∧ (s.edgeIn 0 .w).mark = true := by
  decide +kernel

/-- A source stream on block 0's north-western port whose tokens are all sent. -/
def source0 : Stream := ⟨⟨0x11, 0, 0, 0, 1, 0, 16, [], [], [], 0, 0, 0, false⟩, 0, .north, 0, 0, false, []⟩
theorem test_may_turn :
    let s := withRegion Cog.reset shifting
    s.regionOf 0 = some (0, shifting) ∧ ((s.cog 0).oq .e).turned = false ∧ (s.cog 0).mayTurn .e (!shifting.live) = true := by decide +kernel
theorem test_edge_may_turn :
    let r := { shifting with streams := [source0] }
    let s := withRegion Cog.reset r
    neighbour 0 .n = none ∧ (s.edgeIn 0 .n).turned = false ∧ s.fedEdge r 0 .n = true ∧ s.mayTurnEdge r 0 .n = true := by decide +kernel

/-- A cog that has nothing left of plane A and whose queues have turned. -/
def drainedCog : Cog :=
  let x := sides.foldl (fun (x : Cog) d => x.setOq d { OutQ.start with turned := true }) Cog.reset
  (List.range 4).foldl (fun (x : Cog) q => x.setIq q { InQ.start with turned := true }) x
theorem test_region_drained :
    let s := (withRegion Cog.reset shifting)
    let s : State := { s with arr := { s.arr with cogs := (rectCogs 0x1100).map fun c => (c, drainedCog) } }
    Tab.find s.arr.regions 0 = some shifting ∧ (rectCogs shifting.rect).all (fun c => (s.cog c).drained (!shifting.live)) = true := by
  decide +kernel

/-- N_IN is full of plane A's flits, and the instruction lacks words of E_IN; plane A's pannier has a slice for N_IN. -/
def full : Cog :=
  let x := (running (.c (hd 0x20) 6 0x21 0x3F 0x3F 1 0 false 0)).setIq 0 { InQ.start with flits := List.replicate 8 flitA, credits := 0 }
  { x with planeA := { x.planeA with panBase := 1, panSize := 1, panMask := 1, routes := 0x210 } }
theorem test_spill_may_start :
    let s := (atCog full).setBplane 0 false ⟨.live, none⟩
    let v := full.iq 0
    v.flits.getLast? = some flitA ∧ v.spill = none ∧ v.flits.length = 8 ∧ (full.planeOf flitA.tag).spills 0 = true ∧
      (s.bplane (blockOf 0) flitA.tag).state.holds = true ∧ full.starved.any (· != 0) = true := by decide +kernel
theorem test_spill_may_end :
    let v : InQ := { InQ.start with spill := some false, flits := List.replicate 3 flitA, arrived := [flitA, flitA], credits := 3 }
    v.spill ≠ none ∧ v.side = [] ∧ v.credits + v.arrived.length ≤ 8 - v.flits.length := by decide +kernel

theorem test_result_may_be_written :
    let x : Cog := { Cog.reset with inflight := [⟨[.vreg 0 1], false⟩, ⟨[.vreg 1 2], false⟩] }
    x.inflight[1]? = some ⟨[.vreg 1 2], false⟩ ∧ x.writable 1 = true := by decide +kernel
theorem test_drain_at_work :
    let x : Cog := { Cog.reset with drain := some ⟨0, 8, 0, 0, true, false⟩ }
    let y : Cog := { Cog.reset with drain := some ⟨0, 0x29, 0, 7, true, false⟩ }
    x.freewheel = false ∧ outOf 8 = none ∧ outOf 0x29 = some .e ∧ (y.oq .e).free ≠ 0 ∧
      tagBlocked ((atCog y).regionOf 0) (y.oq .e) false = false ∧ (atCog y).arbGrants 0 y 6 = true := by decide +kernel
theorem test_uwrite_may_move :
    let x := { running (.u (hd 0x51) 0x20 3 4 0 false 0 2) with uwrite := some ⟨0x20, 0, 32, 1, [], false⟩ }
    let y := x.setIq 0 { InQ.start with flits := [flitA] }
    ((y.gather false [⟨0x20, 8, 0, true⟩]).map fun r => (r.1, r.2.2)) = some ([5], true) := by decide +kernel
theorem test_u_port_slots :
    let x : Cog := { Cog.reset with uread := some ⟨0, 32, 2, false⟩ }
    let y : Cog := { Cog.reset with uwrite := some ⟨0x20, 0, 32, 1, [1], false⟩ }
    let s := withRegion x region0
    s.fenced 0 = false ∧ x.freewheel = false ∧ (s.regionOf 0).isSome = true ∧ Cog.reset.uGrant = none ∧ y.uGrant = some 3 ∧
      x.uGrant = some 2 := by decide +kernel

/-- A cog that waits at its entry queue, N_IN of plane A, with a flit there. -/
def entering : Cog :=
  { (withIn 0 { InQ.start with flits := [flitA] }) with mode := .entry, planeA := { Plane.empty with routes := 0x10, entry := 0x20 } }
theorem test_token_starts : ((atCog entering).setBplane 0 false ⟨.live, none⟩).tokenStart 0 = some false := by decide +kernel
theorem test_cog_may_freewheel :
    let x := running (.c (hd 0x20) 6 0x21 0x3F 0x3F 1 0 false 0)
    let s : State := { withRegion x region0 with aclk := 1000 }
    let s := (s.rewait 0).tick
    let s : State := { s with aclk := s.aclk + 1000 }
    s.regionOf 0 = some (0, region0) ∧ region0.cfg.fwEn = true ∧ x.freewheel = false ∧ x.quiet = true ∧ s.waits 0 = true ∧
      ((s.cog 0).waited.any fun t => decide (t + region0.cfg.fwEntry * 16 ≤ s.cycle)) = true ∧ (s.cog 0).flitAt ≠ s.cycle := by
  decide +kernel
theorem test_limits_run_out :
    let s : State := { withRegion Cog.reset region0 with time := 4096000000 }
    let r := { region0 with deadSince := some 5 }
    s.deadAt region0 = none ∧ s.stallAt region0 = some 4096000000 ∧ s.deadAt r = some 50000005 := by decide +kernel

/-- A main tensor of 64 FP32 elements, RW, with a backing. -/
def desc0 : Desc := ⟨0x11, 1, 0, 1, 2, 4, 0xFF, 1, 0, [64, 1, 1, 1], 0, 0x10000, 0⟩
def tensor0 : Tensor := ⟨0, desc0, .clean, [(0, 7)], 0, [0], none, false, 0, false, [], false, [], []⟩
theorem test_source_may_send :
    let g := { region0 with streams := [source0] }
    let s := (withRegion Cog.reset g).setTensor 0 0x11 tensor0
    g.stream 0 = some source0 ∧ s.tensor 0 0x11 = some tensor0 ∧ source0.desc.dir = 0 ∧ source0.holds = false ∧
      source0.tok < s.streamTotal g source0 ∧
      (s.edgeIn (source0.portOf 0).1 (source0.portOf 0).2).flits.length < 8 ∧ g.draining = false ∧
      s.readMeets g.part (s.nextSources g source0 tensor0) = .ready ∧
      s.mainWaits (0, 0) (s.chansAt (s.regionTask g) g.part (s.nextSources g source0 tensor0)) = false ∧
      source0.unitStart tensor0 0 0 = true ∧ s.engGrants (engineOf (s.nextSources g source0 tensor0)) (s.streamReq g) = true ∧
      hostOf (s.nextSources g source0 tensor0) = none ∧ source0.unitStart tensor0 0 1 = false := by decide +kernel
/-- A sink stream on the same port. -/
def sink0 : Stream := { source0 with desc := { source0.desc with dir := 1 } }
theorem test_sink_may_take :
    let g := { region0 with streams := [sink0] }
    let s := ((withRegion Cog.reset g).setTensor 0 0x11 tensor0).setSinkAt 0 .n [flitA]
    Side.n ≠ .e ∧ neighbour 0 .n = none ∧ s.sinkAt 0 .n = [flitA] ∧ s.regionOf 0 = some (0, g) ∧ g.sinkOn 0 .n = some (sink0, 0) ∧
      tensor0.state = .clean ∧ 
      s.mainWaits (0, 0) (s.chansAt (s.regionTask g) 0 (s.sinkPlaces g sink0 tensor0 0 0)) = false ∧ sink0.unitStart tensor0 0 0 = true ∧
      s.engGrants 0 (s.streamReq g) = true ∧
      0 < s.streamTotal g sink0 ∧ 0 < sink0.desc.tokenFlits (elemBits desc0.etype) ∧
      (State.reset.setSinkAt 0 .n [flitA]).regionOf 0 = none := by decide +kernel

/-! ## Hubs -/

/-- The legal opcodes of R264 but those that name a handle. -/
def freeOps : List Nat := hubOpcodes.filter fun o => o != 0x39 && o != 0x31 && o != 0x40
theorem test_hub_instructions_issue : (freeOps.all fun o => decide ((hubAt (hi o 0 5) State.reset).hubIssues 0 (hi o 0 5))) = true := by
  decide +kernel
theorem test_hub_runs_a_command : (hubAt (hi 0 0 0) State.reset).curCmd 0 = some (7, cmd0) := by decide +kernel

/-- A command with the handles of a RUN and of a LOAD, the second with its outcome. -/
def cmdH : Cmd := { cmd0 with handles := [(0, ⟨true, false, 0, false, none⟩), (1, ⟨false, false, 1, false, some (okWord false)⟩)], issued := [0, 1] }
/-- Hub 0 runs it; h3 names its second handle. -/
def waitingAt (i : HubInstr) (w : Option HubWait) : State :=
  (State.reset.setCmd 7 cmdH).setHub 0 { Hub.clear with cur := some 7, imem := [(0, hubEncode i)], regs := [(3, 1)], wait := w }
theorem test_handle_instructions_issue :
    (waitingAt (hi 0x39 0 0) none).hubIssues 0 (hi 0x39 0 0) ∧ (waitingAt (hi 0x31 0 0) none).hubIssues 0 (hi 0x31 0 0) ∧
      (waitingAt ⟨0x40, 5, 3, 0, false, 0, 0⟩ none).hubIssues 0 ⟨0x40, 5, 3, 0, false, 0, 0⟩ := by decide +kernel
/-- DRAIN of an operation's handle and WAIT of a RUN's are illegal (R272), as is an opcode outside R264. -/
theorem test_illegal_instructions :
    ([⟨0x39, 5, 3, 0, false, 0, 0⟩, ⟨0x40, 5, 1, 0, false, 0, 0⟩, hi 0x0F 0 0, hi 0x10 6 5].all fun i =>
      (waitingAt i none).hubRuns 0 && (waitingAt i none).illegal 0) = true := by decide +kernel
theorem test_branch_cases : condHolds 0 0 0 = some true ∧ condHolds 1 0 0 = some false ∧
    (hubAt (hi 0x10 0 4095) State.reset).target 0 (hi 0x10 0 4095) = some 4095 ∧
    (hubAt (hi 0x11 0 0x2007) State.reset).target 0 (hi 0x11 0 0x2007) = some 4103 := by decide +kernel
theorem test_end_cases : cmd0.settled = true ∧ cmdH.settled = false := by decide +kernel
theorem test_handler_runs :
    let x : Hub := { Hub.clear with cur := some 7, imem := [(0, hubEncode (hi 0x15 0 0))], stack := [(3, 100, none)] }
    let s := (State.reset.setCmd 7 cmd0).setHub 0 x
    s.hubIssues 0 (hi 0x15 0 0) ∧ (s.hub 0).stack = [(3, 100, none)] ∧ (s.hub 0).cur = some 7 ∧
      ((s.setHub 0 { x with cur := none }).hub 0).cur = none ∧ (s.setHub 0 { x with cur := none }).hubIssues 0 (hi 0x15 0 0) := by
  decide +kernel
/-- EVWAIT: events compare as the signed difference (R264). -/
theorem test_event_wraps : (State.reset.wr F.HUB_EVENT.COUNT 5 3).eventMet 0 5 0xFFFFFFFE = true ∧
    (State.reset.wr F.HUB_EVENT.COUNT 5 3).eventMet 0 5 4 = false := by decide +kernel
theorem test_waits_met_and_not :
    let w : HubWait := ⟨.handle 1, 5, timeNone, 0, some 4⟩
    let v : HubWait := ⟨.handle 0, 5, 9, 0, none⟩
    (waitingAt (hi 0 0 0) none).waitMet cmdH w.kind = true ∧ (waitingAt (hi 0 0 0) none).waitMet cmdH v.kind = false ∧ w.inTime = true ∧
      v.inTime = false ∧ ({ v with met := some 9 } : HubWait).inTime = true ∧ ({ v with met := some 10 } : HubWait).inTime = false ∧
      v.limit ≠ timeNone ∧ v.limit ≤ 9 ∧ ((waitingAt (hi 0 0 0) (some w)).hub 0).wait = some w := by decide +kernel
theorem test_hub_registers_canonical : Tab.wf (fun _ => (0 : Word64)) [(1, 5), (31, 7)] = true := by decide +kernel
/-- LD and ST take the word of an address modulo 64 KiB, low bits ignored (R264). -/
theorem test_scratch_address : scratchAddr 0xFFFF 9 = 8 ∧ scratchAddr 3 4 = 0 := by decide +kernel
/-- SUB, SHL with a count of 64, SETC SLT of a negative number. -/
theorem test_hub_values : (1 : Word64) - 2 = 0xFFFFFFFFFFFFFFFF ∧ (5 : Word64) <<< ((60 + 4) % 64) = 5 ∧
    condHolds 4 0xFFFFFFFFFFFFFFFF 0 = some true ∧ condHolds 2 0xFFFFFFFFFFFFFFFF 0 = some false := by decide +kernel
theorem test_hub_fields_in_range : let i := hi 0x38 2 0xFFFFFFFF
    i.opc < 256 ∧ i.rd < 32 ∧ i.ra < 32 ∧ i.rb < 32 ∧ i.aux < 256 ∧ i.imm < 2 ^ 32 := by decide +kernel
theorem test_cog_instruction_in_range : (wideCogInstrs.all CogInstr.wf) = true := by decide +kernel
theorem test_hub_fetches_nothing : State.reset.hubFetch 0 0x00 = none ∧ hubLocalOp (.add 0) = some (0, 0x03) := by decide +kernel

/-! ## Operations -/

theorem test_free_handles : cmd0.freeHandles ≠ [] ∧
    ({ cmd0 with handles := (List.range 16).map fun k => (k, ⟨true, false, 0, false, none⟩) } : Cmd).freeHandles = [] ∧
    State.reset.asleep = false ∧ (State.reset.put F.PWR_STATUS.IDLE 0 true).asleep = true := by decide +kernel

/-- Block 0 holds gear 3 in plane B for its region's rectangle. -/
def gear3 : Gear := ⟨3, 0, 0x1100, 0, 0⟩
theorem test_shift_goes_and_waits :
    let s := (withRegion Cog.reset region0).setBplane 0 true ⟨.loaded, some gear3⟩
    let u := (withRegion Cog.reset region0).setBplane 0 true ⟨.loading, some gear3⟩
    s.shiftCheck region0 3 0 = .go ∧ u.shiftCheck region0 3 0 = .waits ∧
      (s.arr.regions.find? fun e => e.2.seq == 7 && e.2.handle == 0 && e.2.step.isNone) = some (0, region0) := by decide +kernel
theorem test_run_done :
    let s := withRegion Cog.reset region0
    Tab.find s.arr.regions 0 = some region0 ∧ s.runDone region0 = true ∧ region0.step = none ∧ s.cmd region0.seq = some cmd0 := by
  decide +kernel

/-- A REQUEST of one row that stops at token 9, and its live sequence. -/
def request0 : Request := ⟨0, 0, 1, 0x20, 4, 8, 1, 0, 0, 0, 3, 4, 0x30, 0x40, 0, 0, [9], timeNone⟩
def seq0 : Seq := ⟨21, 0, request0, 4, 2, 1, 0, [], 1000, 0, false, none⟩
/-- Batch 0, slot 3 holds it. -/
def withSeq (x : Seq) : State := State.reset.setSeq (seqKey 0 3) x
theorem test_seqend_cases :
    let s := withSeq seq0
    s.findSeq 21 = some (3, seq0) ∧ seq0.part = cmd0.part ∧ seq0.dead = none ∧ seq0.ending = false ∧ s.inStep (3 / 512) 21 = false := by
  decide +kernel
/-- A source stream of one link that names the tensor, and a step of batch 0 with one phase that has it, not begun. -/
def stream0 : StreamDesc := ⟨0x11, 0, 0, 0, 1, 0, 16, [0, 0xFF], [0xFF], [0], 0, 0, 0, true⟩
def phase0 : RunBlk × List StreamDesc := (⟨0x1100, 0, 1, 0, [], [], [], []⟩, [stream0])
def step0 : Step := ⟨7, 0, 7, 0, false, false, 0, 0, 0x50, [phase0], 0, false, 0, 1, [⟨3, 21, 1, true, false, .waiting⟩], [], [], [], 0⟩
theorem test_phase_may_start :
    let s := (((withSeq seq0).setStep 0 step0).setCmd 7 cmd0)
    let s := ((part0 (s.wr F.POOL_TOTAL.PAGES 0 100)).setTensor 0 0x11 tensor0).setBplane 0 false ⟨.loaded, some { gear3 with cls := 2 }⟩
    s.step? 0 = some step0 ∧ step0.running = false ∧ step0.phase = 0 ∧ s.asleep = false ∧ step0.phases[0]? = some phase0 ∧
      s.cmd step0.seq = some cmd0 ∧ phase0.1.nstream ≠ 0 ∧ phase0.1.nstream ≤ 16 ∧ s.runFault cmd0 phase0.1 phase0.2 = none ∧
      step0.edge = false ∧ (s.takePages (reqOf 7 19) 0 0 0).2 = .granted := by decide +kernel
/-- The source that a handler entered for is ACTIVE on its hub, or not, in either mode (R410, R412, R413). -/
theorem test_handler_source_cases :
    let s : State := { State.reset with intc := { State.reset.intc with active := [(0, 3, 0)] } }
    (s.intc.active.any fun a => a.1 == 0 && a.2.1 == 3) = true ∧ (s.intc.active.any fun a => a.1 == 0 && a.2.1 == 4) = false ∧
      s.on F.INTC_TGT_CFG.MODE 0 = false ∧ (s.put F.INTC_TGT_CFG.MODE 0 true).on F.INTC_TGT_CFG.MODE 0 = true := by decide +kernel
theorem test_phase_reserves_nothing_for_sources :
    ((withSeq seq0).sinkPages 7 0 phase0.1 stream0) = 0 ∧ westServes 0x8100 = true ∧ westServes 0x1100 = false := by decide +kernel

/-! ## Tensors -/

/-- A state with the pool of a main tier and one tensor. -/
def withTensor (t : Tensor) : State := (up.wr F.POOL_TOTAL.PAGES 0 100).setTensor 0 0x11 t
theorem test_load_cases :
    (withTensor tensor0).tensor 0 0x12 = none ∧ ({ tensor0 with desc := { desc0 with home := 3 } } : Tensor).main = false ∧
      tensor0.main = true ∧ tensor0.desc.back ≠ 0 ∧ ({ desc0 with back := 0 } : Desc).back = 0 ∧
      ((withTensor { tensor0 with state := .absent }).askLoad (reqOf 7 0) 0 0 0 { tensor0 with state := .absent }).2 = .granted := by
  decide +kernel
/-- A backing that is LOST, and one that is not (R195). -/
def backed (st : TState) : State :=
  (withTensor { tensor0 with state := .absent, desc := { desc0 with back := 1, backAddr := 0x12 } }).setTensor 0 0x12
    { tensor0 with state := st, desc := { desc0 with tid := 0x12 } }
theorem test_backing_lost :
    let t : Tensor := { tensor0 with state := .absent, desc := { desc0 with back := 1, backAddr := 0x12 } }
    (backed .lost).backLost 0 t = true ∧ (backed .clean).backLost 0 t = false ∧ (backed .clean).tensor 0 0x11 = some t := by decide +kernel
/-- COPY between tensors of one length, and HLIB of a RO tensor: what each is asked before it starts. -/
theorem test_copy_and_hlib_may_start :
    let s := (withTensor tensor0).setTensor 0 0x12 { tensor0 with desc := { desc0 with tid := 0x12 } }
    let u := withTensor { tensor0 with desc := { desc0 with kind := 0 } }
    (s.tensor 0 0x12).isSome = true ∧ s.bulkGate (s.sourceTier 0 s.chain 0x11) = .granted ∧
      (s.takePages (reqOf 7 0) 0 0 (s.shadowNeed 7 0 0x12 tensor0)).2 = .granted ∧
      ({ tensor0 with desc := { desc0 with kind := 0 } } : Tensor).rw_ = false ∧ desc0.length ≤ 32768 ∧
      u.bulkGate (u.sourceTier 0 u.chain 0x11) = .granted := by decide +kernel

/-- A RUN argument block of block 0, plane A, with one stream whose descriptor follows it at `at_` of the data area, and that
descriptor: a source of tensor 0x11 of
one link and 16 elements a token (R133, R269). -/
def runBytes (at_ : Nat) : List Byte :=
  [0x00, 0x11, 0, 1] ++ List.replicate 140 0 ++ toBytes 2 at_ ++ List.replicate 46 0 ++ [0x11, 0, 0, 0, 0, 0, 0, 1] ++ toBytes 4 0 ++
    toBytes 4 16 ++ [0, 0xFF, 0xFF, 0xFF, 0xFF] ++ List.replicate 5 0xFF ++ List.replicate 38 0
/-- A command with that block at the start of its data area. -/
def cmdR : Cmd := { cmd0 with hdr := { hdr0 with nrun := 1, nslot := 5, runblk := [0] }, handles := [(0, ⟨true, false, 0, false, none⟩)] }
/-- Block 0's plane A holds a gear of every class; hub 0 runs the command, whose frame holds `b` and after it `d`. -/
def runAt (c : Cmd) (b : List Byte) : State :=
  let s := (((part0 (up.wr F.POOL_TOTAL.PAGES 0 1000)).setTensor 0 0x11 tensor0).setBplane 0 false ⟨.loaded, some { gear3 with cls := 2 }⟩).setCmd 7 c
  s.setHub 0 { Hub.clear with cur := some 7, scratch := Memory.writeN [] 0 b }
theorem test_run_may_start :
    let s := runAt cmdR (runBytes 192)
    let r := RunBlk.parse (slice (s.frameData 0 cmdR) 0 192)
    s.cmd 7 = some cmdR ∧ s.runStarts cmdR 0 r (r.streams (s.frameData 0 cmdR)) ∧ s.asleep = false ∧
      (s.put F.PWR_STATUS.IDLE 0 true).asleep = true := by decide +kernel
/-- A STEP descriptor of batch 0 with one phase at offset 64, rows up to 512, no bindings, and the tensors 0x31 to 0x34 (R322), before that
RUN argument block. -/
def stepBytes : List Byte :=
  [0, 1, 0, 0xFF, 0, 2, 0xFF, 0] ++ toBytes 4 0x31 ++ toBytes 4 0x32 ++ toBytes 4 0x33 ++ toBytes 4 0x34 ++ List.replicate 8 0 ++ [64, 0] ++
    List.replicate 30 0 ++ runBytes 256
/-- The tensors of a step. -/
def stepTensor (tid etype : Nat) (dims : List Nat) : Tensor :=
  { tensor0 with desc := { desc0 with tid := tid, etype := etype, ndim := dims.length, dims := dims } }
def cmdS : Cmd := { cmd0 with
  hdr := { hdr0 with nslot := 6 }, decls := [⟨0x31, 2⟩, ⟨0x32, 2⟩, ⟨0x33, 2⟩, ⟨0x34, 2⟩], handles := [(0, ⟨false, false, 0, false, none⟩)] }
def stepAt : State :=
  let s := (((runAt cmdS stepBytes).wr F.SRV_BATCH_CTRL.STATE 0 1).wr F.SRV_BATCH_CFG.MAXP 0 4).wr F.SRV_BATCH_CFG.VOCAB 0 16
  ([stepTensor 0x31 9 [512, 4], stepTensor 0x32 9 [512, 4], stepTensor 0x33 9 [2048], stepTensor 0x34 0 [512, 16]].foldl
    (fun (s : State) t => s.setTensor 0 t.desc.tid t) s).setSeq (seqKey 0 3) seq0
theorem test_step_may_freeze :
    let d := StepDesc.parse ((stepAt.hub 0).scratchN 0 64)
    let r := RunBlk.parse ((stepAt.hub 0).scratchN 64 192)
    let ds := r.streams (stepAt.frameData 0 cmdS)
    stepAt.cmd 7 = some cmdS ∧ stepAt.stepFields 0 d 0 (frameBase cmdS.frame) = true ∧ stepAt.stepTensors cmdS d = true ∧
      d.offs.take d.nphase = [64] ∧ d.bindsOk r.shape = true ∧ r.nstream = 1 ∧ stepAt.runFault cmdS r ds = none ∧ d.edge = false ∧
      stepAt.step? d.batch = none ∧ (stepAt.srv.groups.all fun g => g.batch != d.batch) = true ∧ stepAt.batchSeqs d.batch ≠ [] ∧
      (d.tids.all fun tid => (stepAt.tensor 0 tid).all fun t => t.state == .clean) = true ∧
      (stepAt.takePages (reqOf 7 0) 0 0 (stepAt.stepShadow cmdS d)).2 = .granted := by decide +kernel

theorem test_write_back_cases :
    let s := withTensor { tensor0 with state := .dirty }
    s.opBlocked 7 0 0x11 { tensor0 with state := .dirty } = false ∧ (withTensor tensor0).opBlocked 7 0 0x11 tensor0 = false := by
  decide +kernel

/-- The descriptor of a main RW tensor of 64 FP32 elements backed by host memory: TID 0x21, NDIM 1, ETYPE 0, KIND 1, HOME 2, BACK 3,
SDIM 0xFF, DIM[0] 64, BACK_ADDR 0x10000 (R161). -/
def descBytes : List Byte :=
  [0x21, 0, 0, 0, 1, 0, 1, 2, 3, 0xFF, 0, 0, 0, 0, 0, 0, 64, 0, 0, 0] ++ List.replicate 28 0 ++ [0, 0, 1, 0, 0, 0, 0, 0] ++ List.replicate 8 0
theorem test_define_passes :
    let x := { Hub.clear with cur := some 7, imem := [(0, hubEncode (hi 0x20 0 0))], scratch := Memory.writeN [] 0 descBytes }
    let s := windows ((up.setCmd 7 cmd0).setHub 0 x)
    let d := Desc.parse descBytes
    (s.hub 0).scratchN 0 64 = descBytes ∧ s.hubIssues 0 (hi 0x20 0 0) ∧ d.tid ≠ 0 ∧ s.tensor 0 d.tid = none ∧ s.kvReserved 0 d.tid = none ∧
      s.descOk d descBytes = true ∧ s.bulkGate (if d.back = 2 ∨ d.home = 3 then 3 else 0) = .granted ∧ s.backingOk 0 d = true ∧ s.tableFree ≠ 0 ∧ d.back ≠ 0 := by decide +kernel
theorem test_free_trd_twr :
    let s := withTensor tensor0
    s.dependant 0 0x11 = none ∧ tensor0.state ≠ .writing ∧ s.opBlocked 7 0 0x11 tensor0 = false ∧ tensor0.rw_ = true ∧
      224 + 32 ≤ tensor0.desc.length ∧ (s.takePages (reqOf 7 16) 0 0 1).2 = .granted ∧
      s.mainWaits (hubReq 0) (s.readChans 0 0x11 224 32) = false ∧ s.engGrants 0 (s.hubAsk 7 cmd0) = true := by
  decide +kernel

/-- A LOAD at work, its tensor LOADING. -/
theorem test_load_under_way :
    let o : AOp := ⟨.load 0x11, 0, 7, 0, true, false, 0⟩
    let t : Tensor := { tensor0 with state := .loading }
    let s := (withTensor t).setAop 7 0 o
    s.aop 7 0 = some o ∧ (false && s.awaitsHost o.part o) = false ∧ s.hostDenied o.part o = none ∧ s.tensor 0 0x11 = some t ∧
      (s.tensorChans t 0 256).any s.paused = false ∧ s.readsBad 0 t = false ∧
      (s.opReq 7 o).all (fun x => s.engGrants x.1 x.2) = true := by decide +kernel
/-- A gear load that waits under check 17, and whose plane is free: its image's rectangle is block 0. -/
theorem test_gear_load_under_way :
    let g : AOp := ⟨.gload 0x11 0x1100 0, 0, 7, 0, false, true, 0⟩
    let s := (withTensor { tensor0 with data := [(10, 1), (11, 1)] }).setAop 7 0 g
    s.aop 7 0 = some g ∧ g.passed = true ∧ g.started = false ∧ (true && s.awaitsHost 0 g) = false ∧
      ((s.gearImage g 0x11).any fun e => s.gearJudge e.1 false == .write) = true := by decide +kernel
theorem test_step_under_way :
    let o : AOp := ⟨.step 0 0, 0, 7, 0, false, false, 0⟩
    let s := State.reset.setAop 7 0 o
    s.aop 7 0 = some o ∧ (true && s.awaitsHost o.part o) = false ∧ s.hostDenied o.part o = none ∧ (s.opReq 7 o).all (fun x => s.engGrants x.1 x.2) = true := by
  decide +kernel
/-- A WRITING tensor whose backing is a main RW tensor. -/
def writing0 : Tensor := { tensor0 with state := .writing, wb := some .flush, desc := { desc0 with back := 1, backAddr := 0x12 } }
theorem test_write_back_done :
    let s := (withTensor writing0).setTensor 0 0x12 { tensor0 with desc := { desc0 with tid := 0x12 } }
    s.tensor 0 0x11 = some writing0 ∧ s.backingReady 0 writing0 = true ∧ writing0.awaited = false ∧
      ((s.mainRead 0 0x11 0 256).writeBack 0 writing0).isSome = true ∧ (s.tensorChans writing0 0 256).any s.paused = false ∧
      (s.backReq 0 writing0).all (fun x => s.engGrants x.1 x.2) = true := by
  decide +kernel
theorem test_watchdog_runs_out :
    let c := { cmd0 with maxLen := 1 }
    let s : State := { State.reset.setCmd 7 c with work := 4001 * workUnit }
    s.cmd 7 = some c ∧ c.stage = .running ∧ c.hdr.kind = 0 ∧ 0 < s.overdue 7 c := by decide +kernel
theorem test_link_stalls :
    let c := { cmd0 with stage := .ended, cfg := ⟨false, 0, 1, 0, false, false⟩ }
    let k : Task := ⟨0, [7], [], 0, [], [], some 5⟩
    let q : Queue := { Queue.clear with linkPrev := true, taskOpen := true, taskSeq := 7 }
    let s : State := { ((State.reset.setCmd 7 c).setTask 7 k).setQueue 0 q with time := 1000005 }
    (s.queue 0) = q ∧ s.readable 0 = false ∧ s.task 7 = some k ∧ k.linkEnd = some 5 ∧ k.cmds.getLast? = some 7 ∧ s.cmd 7 = some c ∧
      q.doomed = false ∧ s.due 5 (c.cfg.stallMs * 1000000) = true := by decide +kernel
theorem test_stored_data_cases :
    ({ tensor0 with desc := { desc0 with home := 3 } } : Tensor).bulk = true ∧ tensor0.bulk = false ∧ tensor0.near = false ∧
      tensor0.state = .clean ∧ tensor0.desc.back ≠ 0 ∧ tensor0.repairing = false ∧
      (withTensor { tensor0 with repairing := true }).tensor 0 0x11 = some { tensor0 with repairing := true } := by decide +kernel
theorem test_refetch_may_end :
    let t : Tensor := { writing0 with state := .clean, wb := none, repairing := true }
    let s := (withTensor t).setTensor 0 0x12 { tensor0 with desc := { desc0 with tid := 0x12 } }
    let srcs := (List.range t.desc.dataLen).filterMap (s.backSource 0 t)
    s.tensor 0 0x11 = some t ∧ t.repairing = true ∧ s.readsBad 0 t = false ∧ s.readMeets 0 srcs = .ready ∧ hostOf srcs = none ∧
      ((withTensor t).setTensor 0 0x12 { tensor0 with state := .lost, desc := { desc0 with tid := 0x12 } }).readsBad 0 t = true := by
  decide +kernel
/-- A LOAD whose host backing lies in no window of its function (R389, R390). -/
theorem test_load_denied :
    let t : Tensor := { tensor0 with state := .loading, desc := { desc0 with back := 3, backAddr := 0x2000000 } }
    let o : AOp := ⟨.load 0x11, 0, 7, 0, true, false, 0⟩
    (((windows (withTensor t)).fetchHost 0 0x11).hostDenied 0 o) = some (0x11, 0x2000000) := by decide +kernel

/-! ## Queues, hubs and commands -/

theorem test_host_is_heard : up.hears 0 ∧ up.hears 1 ∧ (hosted State.reset).hears 0 ∧ ¬ State.reset.hears 0 ∧ up.mainUp = true ∧ ownFn 1 (qPart 0) = true ∧
    ownFn 2 (qPart 63) = false := by decide +kernel
theorem test_doorbell_cases :
    let x := { Queue.clear with head := 4294967295, tail := 4294967295 }
    let s := (up.wr F.Q_CFG.SIZE_LOG2 0 6).setQueue 0 x
    posDiff 63 (s.queue 0).head ≤ s.qSize 0 ∧ posDiff 63 (s.queue 0).tail < 2 ^ 31 ∧ s.qSize 0 < posDiff 64 (s.queue 0).head ∧
      2 ^ 31 ≤ posDiff 0x7FFFFFFF (s.queue 0).tail := by decide +kernel

/-- A header: FMT, KIND 0, no LINK, NSLOT 1, BODY_LEN 8, VEC 0xFF, no deadline and no budget (R251). -/
def headerBytes (fmt : Byte) : List Byte :=
  [fmt, 0, 0, 1, 8, 0, 0, 0xFF] ++ List.replicate 8 0 ++ List.replicate 16 0xFF ++ List.replicate 32 0
/-- Queue 0, ENABLED, rings in host memory and holds one command that hub 0, ONLINE, can take. -/
def ringed (fmt : Byte) : State :=
  let s := part0 (windows ((up.wr F.Q_CFG.SIZE_LOG2 0 6).wr F.Q_STATE.STATE 0 1))
  let s := (s.setQueue 0 { Queue.clear with tail := 2 }).setHub 0 { Hub.clear with part := some 0 }
  { (s.wr F.HUB_CTRL.STATE 0 1) with hostMem := Memory.writeN [] 0 (headerBytes fmt) }
theorem test_command_may_be_accepted :
    (ringed 1).accepts 0 = true ∧ ((ringed 1).queue 0).linkPrev = false ∧ headerCheck ((ringed 1).ringSlot 0 0) false = 0 ∧
      (ringed 7).accepts 0 = true ∧ headerCheck ((ringed 7).ringSlot 0 0) false ≠ 0 ∧ (ringed 1).takeSeq.2 = 1 := by decide +kernel
/-- Command 7 of queue 0 waits to be taken. -/
def accepted0 : State := (ringed 1).setCmd 7 { cmd0 with stage := .accepted }
theorem test_command_may_be_ready :
    accepted0.readyCmd 0 = some (7, { cmd0 with stage := .accepted }) ∧ (accepted0.queue 0).inDeque = false ∧
      (∀ g < 8, (accepted0.hub g).cont ≠ some 0) ∧ (accepted0.queue 0).readySeq ≠ 7 ∧ accepted0.homeHub 0 = some 0 ∧
      (accepted0.homeOf 0).isSome = true ∧ accepted0.dropUnserved 0 = accepted0 := by decide +kernel

/-- Hub 0 with a deque, hub 1 beside it. -/
def twoHubs (x y : Hub) : State :=
  (((accepted0.wr F.HUB_CTRL.STATE 1 1).setHub 0 { x with part := some 0 }).setHub 1 { y with part := some 0 })
theorem test_hub_may_select :
    let own := twoHubs { Hub.clear with pack := [0] } Hub.clear
    let steal := twoHubs Hub.clear { Hub.clear with pack := [0] }
    let parked := twoHubs { Hub.clear with park := [⟨7, [], 0, none, 0, some (5, 0)⟩] } Hub.clear
    let goes := twoHubs { Hub.clear with cont := some 0 } Hub.clear
    goes.park 0 = goes ∧ (goes.hub 0).cur = none ∧ goes.pickNext 0 = some (.cont 0) ∧ own.park 0 = own ∧ (own.hub 0).cur = none ∧ (own.hub 0).stack = [] ∧ own.pickNext 0 = some (.own 1 0) ∧
      steal.pickNext 0 = some (.steal 1 1 0) ∧ parked.pickNext 0 = some (.parked 7) := by decide +kernel
theorem test_command_may_be_dispatched :
    let c := { cmd0 with stage := .taken, deadline := 5 }
    let s : State := { (((ringed 1).setCmd 7 c).setHub 0 { Hub.clear with cur := some 7 }) with time := 5 }
    s.curCmd 0 = some (7, c) ∧ c.stage = .taken ∧ c.dstep = 0 ∧ s.ringOpen c.queue = true ∧ (s.hub 0).stack = [] ∧
      s.engGrants (s.ringEngine c.queue) (s.readReq c) = true ∧ c.deadline ≠ timeNone ∧
      c.deadline ≤ (s.readBody 0 c).time ∧ c.hdr.kind = 0 ∧ ({ c.hdr with kind := 1 } : Header).kind = 1 ∧
      cmd0.deadline = timeNone := by decide +kernel
/-- Command 7 of a host ring, whose body follows its header and whose data is `d`. -/
def dispatching (c : Cmd) (d : List Byte) : State :=
  let s := (runAt c []).wr F.Q_CFG.SIZE_LOG2 0 6
  { windows (s.wr F.Q_STATE.STATE 0 1) with hostMem := Memory.writeN [] 128 d }
/-- A PROGRAM with one RUN argument block and one declaration, which reads tensor 0x11; the block's shape entry 0 as given. -/
def takenR : Cmd := { cmdR with stage := .taken, handles := [], hdr := { cmdR.hdr with ndecl := 1, declOff := 256, nslot := 6 } }
def dataR (entry : List Byte) : List Byte :=
  (runBytes 192).take 0x50 ++ entry ++ (runBytes 192).drop 0x58 ++ toBytes 8 (0x11 + 2 ^ 32)
/-- Its blocks and declarations pass; with a runtime extent of 0 it ends at once. -/
theorem test_program_passes_its_checks :
    ([(List.replicate 8 0, false), ([0, 0, 0, 0, 16, 0, 0, 0x80], true)].all fun e =>
      let s := dispatching takenR (dataR e.1)
      let u := ((s.engServe (s.ringEngine 0) (s.readReq takenR)).readBody 0 takenR).hostGoes
      let data := u.frameData 0 takenR
      let blocks := takenR.hdr.blocks data
      let decls := (takenR.hdr.declList data).map fun w => (⟨w % 2 ^ 32, bits w 32 2⟩ : Decl)
      s.window 1 (s.ringAddr 0 1) 64 false && s.ringOpen 0 && (u.blockSteps 7 takenR blocks).2 == .ok &&
        (u.blockSteps 7 takenR blocks).1.declOk 0 decls blocks data && blocks.length == 1 &&
        (blocks.any fun b => zeroExtent b.shape) == e.2 &&
        !(blocks.any fun b => (b.streams data).any (u.gathersLost 7 0))) = true := by decide +kernel
/-- A REQUEST of one KV page for batch 0 (R316), and a state in which it passes the checks of R317. -/
def takenQ : Cmd := { cmd0 with stage := .taken, hdr := { hdr0 with kind := 1, nslot := 2 } }
def requestBytes : List Byte :=
  [0, 0, 1, 0] ++ toBytes 4 0x31 ++ toBytes 4 4 ++ toBytes 4 8 ++ toBytes 8 1 ++ toBytes 4 0 ++ toBytes 4 0x3F800000 ++ [0, 0, 3, 4] ++
    toBytes 4 0x11 ++ toBytes 4 0x40 ++ toBytes 8 0 ++ List.replicate 8 0xFF ++ toBytes 4 0
theorem test_request_passes_its_checks :
    let s := (((dispatching takenQ requestBytes).wr F.SRV_BATCH_CTRL.STATE 0 1).wr F.SRV_BATCH_CFG.MAXP 0 4).wr F.SRV_BATCH_CFG.VOCAB 0 16
    let s := s.setTensor 0 0x31 { tensor0 with desc := { desc0 with tid := 0x31, etype := 9 } }
    let u := ((s.engServe (s.ringEngine 0) (s.readReq takenQ)).readBody 0 takenQ).hostGoes
    let q := Request.parse (u.frameData 0 takenQ)
    takenQ.hdr.kind = 1 ∧ q.pages = 1 ∧ u.requestOk 0 takenQ.hdr.nslot q = true ∧
      (q.reads.all fun x => (u.tensor 0 x.tid).all fun t => t.state == .clean) = true := by decide +kernel
theorem test_holds_may_be_granted :
    let c := { cmd0 with stage := .taken, dstep := 8, decls := [⟨0x11, 2⟩] }
    let s := ((withTensor tensor0).setCmd 7 c).setHub 0 { Hub.clear with cur := some 7 }
    s.curCmd 0 = some (7, c) ∧ c.stage = .taken ∧ c.dstep = 8 ∧ (s.hub 0).stack = [] ∧ s.holdReady c = true ∧ c.hdr.kind = 0 ∧
      Tab.rising s.ctl.hubs = true := by decide +kernel

theorem test_queue_states :
    up.rd F.Q_STATE.STATE 0 = 0 ∧ (windows up).ringOk 0 = true ∧ up.ringOk 0 = false ∧ (up.wr F.Q_STATE.STATE 0 1).rd F.Q_STATE.STATE 0 = 1 ∧
      (up.wr F.Q_STATE.STATE 0 2).rd F.Q_STATE.STATE 0 = 2 ∧ (∀ e ∈ up.ctl.cmds, e.2.queue ≠ 0) ∧
      (up.wr F.Q_STATE.STATE 0 2).rd F.Q_STATE.ENABLE_PEND 0 = 0 ∧ Tab.rising (up.wr F.Q_STATE.STATE 0 2).regs = true ∧
      Tab.rising up.ctl.queues = true := by decide +kernel
theorem test_hub_states :
    up.hubHeld 0 = false ∧ (up.wr F.HUB_CTRL.STATE 0 1).rd F.HUB_CTRL.STATE 0 = 1 ∧ (up.wr F.HUB_CTRL.STATE 0 0).rd F.HUB_CTRL.STATE 0 = 0 ∧
      (up.wr F.HUB_CTRL.STATE 0 2).rd F.HUB_CTRL.STATE 0 = 2 ∧ (up.wr F.HUB_CTRL.STATE 0 2).rd F.HUB_CTRL.ENABLE_PEND 0 = 0 ∧
      (up.hub 0).cur = none ∧ (up.hub 0).park = [] ∧ (up.hub 0).stack = [] ∧ Tab.rising (up.wr F.HUB_CTRL.STATE 0 2).regs = true := by
  decide +kernel
theorem test_hub_failures :
    let s : State := { (up.wr F.HUB_CTRL.STATE 0 1) with time := 100 }
    (s.time :: (s.hub 0).fails.filter fun t => decide (s.time - t ≤ 3600000000000)).length < 3 ∧
      3 ≤ (s.time :: [1, 2].filter fun t => decide (s.time - t ≤ 3600000000000)).length ∧
      ((s.clearHub 0).fault 3).rd F.HUB_CTRL.STATE 0 = 1 := by decide +kernel

/-! ## Partitions, slots and batches -/

theorem test_cycle_table_cases :
    let s := up.put F.HUB_CYCLE_CTRL.PENDING 0 true
    s.live = true ∧ up.rd F.HUB_CYCLE_CTRL.PENDING 0 = 0 ∧ s.rd F.HUB_CYCLE_CTRL.PENDING 0 = 1 ∧ s.time % 1024000 = 0 ∧
      ({ s with time := 5 } : State).time % 1024000 ≠ 0 ∧ Tab.rising s.regs = true := by decide +kernel
theorem test_partition_stops :
    let s := up.wr F.SEC_PART_STATE.STATE 3 2
    s.rd F.SEC_PART_STATE.STATE 3 = 2 ∧ (∀ e ∈ s.ctl.cmds, e.2.part ≠ 3) ∧ Tab.find s.ctl.partPend 3 = none := by decide +kernel
theorem test_pool_floor_cases :
    let s := (up.wr F.POOL_TOTAL.PAGES 0 100).wr F.POOL_FLOOR.FLOOR 1 60
    let others := (((List.range 16).filter (· != 0)).map fun q => s.rd F.POOL_FLOOR.FLOOR q).foldl (· + ·) 0
    others + 40 ≤ s.rd F.POOL_TOTAL.PAGES 0 ∧ s.rd F.POOL_TOTAL.PAGES 0 < others + 41 ∧ (41 : Nat) < 2 ^ 25 := by decide +kernel
theorem test_batch_states :
    let s := part0 (windows (up.wr F.SRV_RING_CFG.SIZE_LOG2 0 6))
    s.batchState 0 = 0 ∧ s.resultRingOk 0 = true ∧ s.rd F.SEC_PART_STATE.STATE (s.rd F.SRV_BATCH_CFG.PART 0) = 1 ∧
      (s.wr F.SRV_BATCH_CTRL.STATE 0 2).batchState 0 = 2 ∧ (s.wr F.SRV_BATCH_CTRL.STATE 0 1).batchState 0 = 1 ∧
      (s.wr F.SRV_BATCH_CTRL.STATE 0 2).batchSeqs 0 = [] ∧ s.step? 0 = none ∧
      ((s.wr F.SRV_BATCH_CTRL.STATE 0 0).raise 104).rd F.SRV_BATCH_CTRL.ENABLE_PEND 0 = 0 := by decide +kernel
theorem test_ring_read_cases :
    let s := up.wr F.SRV_RING_POS.WRITE 0 5
    posDiff 5 (s.rd F.SRV_RING_POS.READ 0) ≤ posDiff (s.rd F.SRV_RING_POS.WRITE 0) (s.rd F.SRV_RING_POS.READ 0) ∧
      posDiff (s.rd F.SRV_RING_POS.WRITE 0) (s.rd F.SRV_RING_POS.READ 0) < posDiff 6 (s.rd F.SRV_RING_POS.READ 0) ∧
      ownFn 1 (s.rd F.SRV_BATCH_CFG.PART 0) = true ∧ ownFn 2 (s.rd F.SRV_BATCH_CFG.PART 0) = false := by decide +kernel

/-! ## Steps -/

/-- The step after its phase. -/
def ran0 : Step := { step0 with phase := 1 }
theorem test_step_may_sample :
    let s := (withSeq seq0).setStep 0 ran0
    s.step? 0 = some ran0 ∧ ran0.sampledOrder[0]? = some ⟨3, 21, 1, true, false, .waiting⟩ ∧ ran0.edge = false ∧ ran0.ran = true ∧ s.engGrants 3 (s.sampleReq ran0) = true ∧
      Tab.find s.srv.seqs (seqKey 0 3) = some seq0 := by decide +kernel
/-- A step whose logits cross the west edge, with the first row's token there. -/
theorem test_edge_step_may_sample :
    let x : Step := { step0 with edge := true, running := true, tokens := [[]] }
    let s := (withSeq seq0).setStep 0 x
    s.step? 0 = some x ∧ x.sampledOrder[0]? = some ⟨3, 21, 1, true, false, .waiting⟩ ∧ x.edge = true ∧ (0 : Nat) < x.tokens.length ∧ s.engGrants 3 (s.sampleReq x) = true ∧
      Tab.find s.srv.seqs (seqKey 0 3) = some seq0 := by decide +kernel
/-- A participant that sampled token 5. -/
def got5 : Participant := ⟨3, 21, 1, true, false, .token 5 0⟩
theorem test_step_may_drain :
    let x := { ran0 with parts := [got5] }
    x.ran = true ∧ (∀ q ∈ x.parts, q.samples = true → q.got ≠ .waiting) ∧ x.rows ≠ 0 := by decide +kernel
theorem test_records_may_be_written :
    let g : RecordGroup := ⟨0, [List.replicate 32 0], [], false⟩
    let s := windows (up.wr F.SRV_RING_CFG.SIZE_LOG2 0 6)
    let s : State := { s with srv := { s.srv with groups := [g] } }
    (s.srv.groups.find? fun g => g.batch == 0) = some g ∧ s.busOk 1 = true ∧
      posDiff (s.rd F.SRV_RING_POS.WRITE 0) (s.rd F.SRV_RING_POS.READ 0) + g.recs.length ≤ 2 ^ s.rd F.SRV_RING_CFG.SIZE_LOG2 0 ∧
      2 ^ s.rd F.SRV_RING_CFG.SIZE_LOG2 0 < posDiff ((s.wr F.SRV_RING_POS.WRITE 0 64).rd F.SRV_RING_POS.WRITE 0) 0 + g.recs.length := by
  decide +kernel
theorem test_choice_of_a_token : request0.temp = 0 ∧ (0 : Nat) < 8 ∧ ewma 8 16 = 9 ∧ ewma 8 1 = 7 ∧ ewma 0 5 = 5 := by decide +kernel
theorem test_participant_drains :
    let s := withSeq seq0
    Tab.find s.srv.seqs (seqKey 0 got5.slot) = some seq0 ∧ seq0.dead = none ∧ got5.skipped = false ∧ seq0.late s.time = false ∧
      got5.samples = true ∧ seq0.desc.pda = false ∧ 5 ∉ seq0.desc.stops ∧ seq0.emitted + 1 < seq0.desc.maxNew ∧ seq0.ending = false ∧
      (got5.skipped || seq0.late 2000) = true ∧ seq0.lateRun + 1 < seq0.desc.lateMax ∧ ({ seq0 with dead := some 1 } : Seq).dead = some 1 := by
  decide +kernel

/-! ## The bulk tier and the catalogue -/

/-- The bulk tier has come up; unit 0 lies in block 5 of channel 0, as the map says; its parity lies in block 2. -/
def bulk0 : State :=
  let s := (up.put F.BLK_STATUS.READY 0 true).wr F.BLK_GEOMETRY.PPB 0 16
  let s := s.setBlock 0 5 { FlashBlock.fresh with unit := some 0, gen := 1, reads := 100, sched := 1 }
  let s := s.setBlock 0 2 { FlashBlock.fresh with parity := [0], sets := 1 }
  { s with blk := { s.blk with map := [(0, 5)] }, board := { s.board with blocksPerCh := 8, targets := 1 } }
/-- The page at address 0 was lost. -/
def lostPage (s : State) : State := { s with blk := { s.blk with bad := [0] } }
/-- The block that the map names holds another unit. -/
def stray : State := bulk0.setBlock 0 5 { FlashBlock.fresh with unit := some 3 }
theorem test_sector_is_mapped :
    bulk0.blkReady = true ∧ bulk0.mapped_ (bulk0.unitOf 0) (bulk0.chanOf 0) = some 5 ∧ (∀ r ≤ 5, bulk0.passes 0 r = r) ∧
      bulk0.board.retries ≠ 0 ∧ bulk0.headerOk (bulk0.unitOf 0) (bulk0.chanOf 0) = true ∧ bulk0.pageBad 0 = false ∧
      (lostPage bulk0).pageBad 0 = true ∧ (lostPage bulk0).passes 0 0 = 5 ∧ stray.passes 0 0 = 4 := by decide +kernel
theorem test_read_disturb_cases :
    let s := bulk0.wr F.BLK_RD_CFG.RD_KREADS 0 1
    let n := s.rd F.BLK_RD_CFG.RD_KREADS 0 * 1000
    let r (k : Nat) : Nat := ((s.setBlock 0 5 { FlashBlock.fresh with reads := k }).block 0 5).reads
    2 * n ≤ r 2000 ∧ n ≤ r 1000 ∧ r 1999 < 2 * n ∧ r 999 < n := by decide +kernel
theorem test_block_may_move :
    bulk0.blkHeld = false ∧ (bulk0.block 0 5).unit = some 0 ∧ (bulk0.block 0 5).sched ≠ 0 ∧ bulk0.blockFree 0 0 = true ∧
      bulk0.blockFree 0 2 = false ∧ (bulk0.block 0 5).written = true ∧ (bulk0.block 0 2).unit = none ∧ (bulk0.block 0 2).written = true ∧
      Tab.rising bulk0.blk.blocks = true ∧ bulk0.board.blocksPerCh ≤ 2 ^ 32 := by decide +kernel
/-- The block is due for a patrol. -/
theorem test_scrub_is_due :
    let s : State := { bulk0.wr F.BLK_RD_CFG.SCRUB_DAYS 0 1 with time := 86400000000000 }
    s.due (s.block 0 5).readAt (s.rd F.BLK_RD_CFG.SCRUB_DAYS 0 * 86400000000000) = true := by decide +kernel

/-- Where one block of a channel is free, that one is taken (R210). -/
theorem pick_one (s : State) (c b : Nat) (h : s.freeBlocks c = [b]) : s.pickBlock c = (some b, (s.draw 32).2) := by
  simp [State.pickBlock, h, State.pickAmong, Nat.mod_one]
/-- Blocks 0, 2 and 5 stand on a channel; block 0 alone is free. -/
def oneFree : State := { bulk0 with board := { bulk0.board with factoryBad := [(0, [1, 3, 4, 6, 7])] } }
theorem test_only_block_0_is_free : (oneFree.copyReads 0 0 5).freeBlocks 0 = [0] := by decide +kernel
theorem test_unit_moves_to_block_0 : ((oneFree.copyReads 0 0 5).moveUnit 0 0).mapped_ 0 0 = some 0 := by
  unfold State.moveUnit State.swapBlock State.takeBlock
  rw [pick_one _ _ _ test_only_block_0_is_free]
  decide +kernel
theorem test_block_may_retire :
    (bulk0.block 0 0).retired = false ∧ 0 < bulk0.board.blocksPerCh ∧ 0 ∉ Tab.get [] bulk0.board.factoryBad 0 ∧
      ((bulk0.retireBlock 0 0).block 0 0).unit = none ∧ ((bulk0.retireBlock 0 5).block 0 5).unit = some 0 := by decide +kernel
theorem test_only_block_0_takes_a_retired_unit : (oneFree.retireBlock 0 5).freeBlocks 0 = [0] := by decide +kernel
/-- A retired block's unit moves where a block is free (R211). -/
theorem test_retired_unit_moves : ((oneFree.retireBlock 0 5).moveUnit 0 0).mapped_ 0 0 = some 0 := by
  unfold State.moveUnit State.swapBlock State.takeBlock
  rw [pick_one _ _ _ test_only_block_0_takes_a_retired_unit]
  decide +kernel
/-- With no free block it stays. -/
def noneFree : State := { bulk0 with board := { bulk0.board with factoryBad := [(0, [0, 1, 3, 4, 6, 7])] } }
theorem test_retired_unit_stays : ((noneFree.retireBlock 0 5).moveUnit 0 0).mapped_ 0 0 = some 5 := by decide +kernel

/-- The copy does not verify, and block 0, the only free one, is chosen (R208, R211). -/
theorem test_failed_copy_chose_block_0 : (oneFree.pickBlock 0).1 = some 0 := by
  rw [pick_one oneFree 0 0 (by decide +kernel)]
/-- A parity block whose rows have nowhere to go keeps them; one with none is empty after its move. -/
theorem test_parity_block_moves :
    ((noneFree.moveParity 0 2).block 0 2).written = true ∧
      (((bulk0.setBlock 0 2 { FlashBlock.fresh with sets := 1 }).moveParity 0 2).block 0 2).written = false := by decide +kernel

/-- A tensor that writes back 4 KiB to the bulk tier, in a SPILL entry granted to its partition. -/
def spilling : Tensor :=
  { tensor0 with state := .writing, wb := some .flush, data := [(0, 7)], desc := { desc0 with back := 2, backAddr := 0 } }
def spill0 : State :=
  let s := bulk0.setTensor 0 0x11 spilling
  { s with blk := { s.blk with cat := [(0, ⟨9, .ready, 1, 1, 1, 0, 4096, 0, 0, 0, 0⟩)] } }
theorem test_write_back_may_land :
    spill0.tensor 0 0x11 = some spilling ∧ spilling.state = .writing ∧ spilling.landed = false ∧ spill0.blkHeld = false ∧
      spill0.bulkAddrs 0 spilling ≠ [] ∧ spill0.bulkTurn spilling (spill0.bulkUnits 0 spilling) = false ∧
      spill0.takesBack 0 spill0.chain spilling.desc = true ∧ (∀ a ∈ spill0.bulkAddrs 0 spilling, spill0.spill 0 a = true) ∧
      spill0.writeStop = false ∧ spill0.bulkUnits 0 spilling = [0] ∧ spill0.blkReady = true ∧
      (spill0.backReq 0 spilling).all (fun x => spill0.engGrants x.1 x.2) = true := by decide +kernel

/-- `takeBlock` where one block of the channel is free. -/
def takeOne (s : State) (u c : Nat) : Option State :=
  match s.freeBlocks c with
  | [b] =>
    let v := (s.draw 32).2
    let x := v.block c b
    let v := v.setBlock c b { x with unit := some u, gen := x.gen + 1, readAt := v.time }
    some (v.setMap (Tab.insert v.blk.map (32 * u + c) b))
  | _ => none
theorem takeBlock_of_takeOne {s t : State} {u c : Nat} (h : takeOne s u c = some t) : s.takeBlock u c = some t := by
  unfold takeOne at h
  split at h
  · rename_i b hb
    unfold State.takeBlock
    rw [pick_one s c b hb]
    exact h
  · cases h
def writeOne (s : State) (u c : Nat) : Option State :=
  (takeOne s u c).bind fun t => if t.parityHome u c then some (t.putParity u c) else none
theorem writeOn_of_writeOne {s t : State} {u c : Nat} (h : writeOne s u c = some t) : s.writeOn u c = some t := by
  unfold writeOne at h
  obtain ⟨v, hv, h⟩ := Option.bind_eq_some_iff.1 h
  unfold State.writeOn
  rw [takeBlock_of_takeOne hv]
  exact h
theorem writes_of_writeOne : ∀ (l : List (Nat × Nat)) (s t : State),
    l.foldl (fun o e => o.bind fun t => writeOne t e.1 e.2) (some s) = some t →
    l.foldl (fun o e => o.bind fun t => t.writeOn e.1 e.2) (some s) = some t
  | [], _, _, h => h
  | e :: l, s, t, h => by
    have hn : ∀ l : List (Nat × Nat), l.foldl (fun o e => o.bind fun t => writeOne t e.1 e.2) none = none := by
      intro l; induction l with
      | nil => rfl
      | cons _ _ ih => exact ih
    simp only [List.foldl_cons, Option.bind_some] at h ⊢
    cases hw : writeOne s e.1 e.2 with
    | none => rw [hw, hn] at h; cases h
    | some v => rw [hw] at h; rw [writeOn_of_writeOne hw]; exact writes_of_writeOne l v t h
/-- Block 0 alone is free on every channel, and block 2 takes its parity. -/
def spill1 : State :=
  let s := (List.range 31).foldl (fun (s : State) c => s.setBlock (c + 1) 2 { FlashBlock.fresh with parity := [1], sets := 1 }) spill0
  { s with board := { s.board with factoryBad := (0, [1, 3, 4, 6, 7]) :: (List.range 31).map fun c => (c + 1, [1, 3, 4, 5, 6, 7]) } }
theorem test_every_channel_has_its_blocks :
    ((unitChans [0]).foldl (fun o e => o.bind fun t => writeOne t e.1 e.2) (some spill1)).isSome = true := by decide +kernel
theorem test_write_back_rewrites_its_unit : ∃ w, spill1.writeUnits [0] = some w := by
  obtain ⟨t, ht⟩ := Option.isSome_iff_exists.1 test_every_channel_has_its_blocks
  exact ⟨_, by rw [State.writeUnits, writes_of_writeOne _ _ _ ht]; rfl⟩

theorem test_mailbox_cases : up.rd F.PCI_MBX_STATUS.BUSY 0 = 0 ∧ up.firmwareBusy = false ∧
    (up.put F.PCI_MBX_STATUS.BUSY 0 true).rd F.PCI_MBX_STATUS.BUSY 0 = 1 ∧ (List.replicate 4080 (0 : Byte)).length ≤ 4080 := by
  decide +kernel
/-- Whatever six codes the catalogue operations have, one of the codes 1 to 7 is unknown. -/
theorem test_some_op_is_unknown : ∃ op, op < 65536 ∧ opKnown (op % 65536) = false := by
  by_contra hc
  push Not at hc
  have hk : ∀ k ∈ Finset.Icc 1 7, k ∈ (Finset.range 6).image (fun j => Config.mboxOp j % 65536) := by
    intro k hk
    have h7 := Finset.mem_Icc.1 hk
    have h := hc k (by omega)
    rw [Nat.mod_eq_of_lt (by omega : k < 65536)] at h
    simp only [opKnown, mboxFree, ne_eq, Bool.not_eq_false, Bool.or_eq_true, List.contains_iff_mem, List.mem_cons, List.not_mem_nil,
      or_false, List.any_cons, List.any_nil, Bool.or_false, beq_iff_eq] at h
    rw [Finset.mem_image]
    rcases h with h | h | h | h | h | h | h
    · omega
    · exact ⟨0, by simp, h⟩
    · exact ⟨1, by simp, h⟩
    · exact ⟨2, by simp, h⟩
    · exact ⟨3, by simp, h⟩
    · exact ⟨4, by simp, h⟩
    · exact ⟨5, by simp, h⟩
  have := Finset.card_le_card (show Finset.Icc 1 7 ⊆ _ from hk)
  have := this.trans Finset.card_image_le
  simp at this

/-- A payload of CAT_CREATE: slot, MODEL_ID 5, KIND 0 and LENGTH. -/
def createBytes (len : Nat) : List Byte := toBytes 4 0 ++ toBytes 4 5 ++ toBytes 4 0 ++ toBytes 4 0 ++ toBytes 8 len
/-- The catalogue with slot 0 in some state. -/
def slot0 (x : CatEntry) : State := { bulk0 with blk := { bulk0.blk with cat := [(0, x)] } }
/-- An entry of LENGTH 4 that is installing; SHA-256 of four zero bytes is its DIGEST. -/
def installing (written : Nat) : CatEntry :=
  ⟨9, .installing, 0, 1, 1, 0, 4, 0x1911B814C02405E88C49BC52DC8A77EA48D73DC42D195740DB2FA90498613FDF, 0, 0, written⟩
theorem test_create_cases :
    let s := bulk0.wr F.BLK_CAP.FREE_UNITS 0 3
    fieldAt (createBytes 1) 0 4 ≤ 1023 ∧ fieldAt (createBytes 1) 8 4 ≤ 1 ∧ (s.entry 0).state = .free ∧ fieldAt (createBytes 1) 4 4 = 5 ∧
      (∀ e ∈ s.blk.cat, e.2.modelId ≠ 5) ∧ fieldAt (createBytes 0) 16 8 = 0 ∧
      s.rd F.BLK_CAP.FREE_UNITS 0 < ceilDiv (fieldAt (createBytes 33554432) 16 8) (max 1 s.unitBytes) ∧
      ceilDiv (fieldAt (createBytes 1) 16 8) (max 1 s.unitBytes) ≤ s.rd F.BLK_CAP.FREE_UNITS 0 ∧ s.lowestFit 1 = some 0 ∧
      ((slot0 { installing 0 with state := .deleting }).entry 0).state = .deleting ∧
      ((slot0 (installing 0)).entry 0).state ≠ .deleting ∧ ((slot0 (installing 0)).entry 0).state ≠ .free := by decide +kernel
theorem test_install_cases :
    let x := (slot0 (installing 2)).entry 0
    x.state = .installing ∧ x.length < x.written + 3 ∧ x.written + 2 ≤ x.length ∧
      ((slot0 (installing 2)).put F.BLK_CH_STATE.WRITE_STOP 31 true).writeStop = true ∧ x.written ≠ x.length ∧
      (installing 4).written = (installing 4).length ∧
      ofBytes (sha256 ((slot0 (installing 4)).blk.data.readN 0 4)) = (installing 4).digest := by decide +kernel
theorem test_delete_cases :
    spill0.tidInside (spill0.entry 0) (fun _ => true) = some 0x11 ∧
      (slot0 (installing 4)).tidInside (installing 4) (fun _ => true) = none := by decide +kernel

/-- Activation 4 is under way. -/
def activating (comp : Nat) (hubs : List Nat) : State :=
  { up with sec := { up.sec with active := some ⟨comp, hubs, 0, ⟨1, 2, 0, 0⟩⟩ } }
theorem test_update_cases :
    let s := { windows up with pci := { (windows up).pci with bme := [(0, true)] } }
    let i := RegKind.idx .PCI_MWIN_LIMIT 0 0
    let t := (s.wr F.PCI_MWIN_LIMIT.LIMIT i 0xFFF).put F.PCI_MWIN_LIMIT.R i true
    t.staging = some 1 ∧ 0x01FFFFFF + 1 ≤ 0x02000000 ∧ t.sec.active = none ∧ t.busOk 0 = true ∧ t.window 0 0 4096 false = true ∧
      (activating 4 []).activeComp = some 4 ∧ ((activating 2 [0, 1]).wr F.HUB_CTRL.STATE 0 0).rd F.HUB_CTRL.STATE 0 = 0 := by decide +kernel

/-! ## The main tier -/

/-- A channel in a state. -/
def chanAt (st : Nat) (x : LpxChan) : State := (up.wr F.LPX_CH_STATE.STATE 9 st).setChan 9 x
theorem test_channel_cases :
    (chanAt cOnline LpxChan.clear).chanState 9 = cOnline ∧ (chanAt cOnline LpxChan.clear).chansIn cShort < 4 ∧
      (chanAt cOnline LpxChan.clear).chansIn cFull = 0 ∧ (chanAt cShort LpxChan.clear).chanState 9 = cShort ∧
      (chanAt cFull { LpxChan.clear with fulls := [1] }).chanState 9 = cFull ∧
      (0 :: [1].filter fun t => decide (0 ≤ timeAdd t 3600000000000)).length < 3 ∧
      3 ≤ (9 :: [1, 2].filter fun t => decide (9 ≤ timeAdd t 3600000000000)).length ∧
      (chanAt cMigrating LpxChan.clear).chanState 9 = cMigrating ∧ (chanAt cRetired LpxChan.clear).chanState 9 = cRetired ∧
      (chanAt cOnline LpxChan.clear).retiring < 4 ∧ (chanAt cOnline LpxChan.clear).leadDispatched = false := by decide +kernel
/-- A running channel is due for tracking; TRAINING and RETIRED channels do not run. -/
theorem test_channel_tracks :
    let s : State := { (chanAt cOnline LpxChan.clear).wr F.LPX_GEOMETRY.RANKS 0 2 with time := 100000000 }
    s.chanRuns 9 = true ∧ [5, 6].length = s.lpxRanks ∧ s.due (s.chan 9).trackAt (s.rd F.LPX_CFG.TRACK_MS 0 * 1000000) = true ∧
      (chanAt cTraining LpxChan.clear).chanRuns 9 = false ∧ (chanAt cRetired LpxChan.clear).chanRuns 9 = false := by decide +kernel
/-- REPLAY_TRIG is reached on a channel, 1 ms after a short retrain or with none; another channel has neither drift nor trigger. -/
theorem test_channel_triggers :
    let s (x : LpxChan) : State := { (chanAt cOnline x).wr F.LPX_CFG.REPLAY_TRIG 0 2 with time := 1000000 }
    let x : LpxChan := { LpxChan.clear with events := [(999999, 2)] }
    (s x).replayTrig 9 = true ∧ (s x).shortLately 9 = false ∧ (s { x with shortAt := some 0 }).shortLately 9 = true ∧
      (s LpxChan.clear).replayTrig 9 = false ∧ LpxChan.clear.drifted = false := by decide +kernel
theorem test_channel_may_retire :
    let s := ((chanAt cOnline { LpxChan.clear with retire := true }).wr F.POOL_TOTAL.PAGES 0 100).wr F.LPX_GEOMETRY.DATA_MIB 0 64
    let u := (((s.setChan 9 { s.chan 9 with retire := false }).moveChan 9 cMigrating).fault 3).raise 136
    (u.takePages (lpxReq 9) 16 timeMax u.remapPages).2 = .granted ∧ (s.chan 9).retire = true ∧
      ((chanAt cMigrating LpxChan.clear).chan 9).copying = false ∧
      ((chanAt cMigrating { LpxChan.clear with copying := true }).chan 9).copying = true := by decide +kernel
/-- Where dirty tensors hold the pages, the retirement waits. -/
theorem test_channel_retirement_waits :
    let t := { tensor0 with state := .dirty, touch := 3 }
    let s := (((chanAt cOnline { LpxChan.clear with retire := true }).wr F.POOL_TOTAL.PAGES 0 1).wr F.LPX_GEOMETRY.DATA_MIB 0 4).setTensor 0 0x11 t
    let u := (((s.setChan 9 { s.chan 9 with retire := false }).moveChan 9 cMigrating).fault 3).raise 136
    (u.takePages (lpxReq 9) 16 timeMax u.remapPages).2 = .waits := by decide +kernel
theorem test_mr4_cases :
    let s (x : LpxChan) (h : Bool) : State :=
      { ((chanAt cOnline x).put F.LPX_CH_STATE.HOT 9 h).wr F.LPX_GEOMETRY.RANKS 0 2 with time := 4000000 }
    let u (x : LpxChan) (h : Bool) : State := ((s x h).setChan 9 { x with pollAt := (s x h).time }).wr F.LPX_CH_STATE.MR4 9 3
    (s LpxChan.clear false).chanRuns 9 = true ∧ [31].length + 1 = (s LpxChan.clear false).lpxRanks ∧
      (s LpxChan.clear false).due 0 4000000 = true ∧ mr4Code 31 = 31 ∧ mr4Code 3 ≠ 31 ∧
      (u LpxChan.clear false).on F.LPX_CH_STATE.HOT 9 = false ∧ (u LpxChan.clear true).on F.LPX_CH_STATE.HOT 9 = true ∧
      ((u LpxChan.clear true).chan 9).cool < 2 ∧ 2 ≤ ((u { LpxChan.clear with cool := 2 } true).chan 9).cool := by decide +kernel

/-! ## The Ralet fabric -/

/-- Port 3 in a state. -/
def portAt (st : Nat) (x : Port) : State := (up.wr F.RLT_PORT_STATE.STATE 3 st).setPort 3 x

/-- A frame with every field at its largest value. -/
def frameTop : Frame := ⟨7, 15, 4095, 1048575, 1048575, 3, true, true, true, []⟩
theorem test_frame_ranges_boundaries :
    frameTop.type < 2 ^ 3 ∧ frameTop.hops < 2 ^ 4 ∧ frameTop.slice < 2 ^ 12 ∧ frameTop.dst < 2 ^ 20 ∧ frameTop.src < 2 ^ 20 ∧
      frameTop.vc < 2 ^ 2 ∧ Frame.parse frameTop.header frameTop.words = frameTop := by decide +kernel
/-- R350: TYPE is bits 63..61, HOPS 60..57, SLICE 56..45, DST 44..25, SRC 24..5, VC 4..3, then FIRST, LAST and POISON. -/
theorem test_frame_header_word :
    Frame.header ⟨1, 0b1111, 0b101, 0b11, 0b1, 0b10, true, true, false, []⟩ =
      0b001_1111_000000000101_00000000000000000011_00000000000000000001_10_1_1_0 := by decide +kernel
theorem test_trailer_ranges_boundaries :
    let t : Trailer := ⟨true, 3, 31, 4095, 4095, 2147483647⟩
    t.word < 2 ^ 64 ∧ Trailer.parse t.word = t ∧ oddParity 64 t.word = false := by decide +kernel

/-- The bytes of a UNICAST frame with the first sequence number. -/
def frame0 (par : Nat) : List Byte :=
  let h := Frame.header ⟨1, 15, 0, 0, 0, 0, true, true, false, []⟩
  let body := h :: List.replicate 30 0
  body.flatMap (toBytes 8) ++ toBytes 8 (Trailer.word ⟨false, 0, 0, 4095, 0, parOf body + par⟩)
theorem test_frames_are_received_cases :
    let s := portAt pUp Port.clear
    let words := wordsOf (frame0 0)
    let t := Trailer.parse (words.getD 31 0).toNat
    let f := Frame.parse (words.getD 0 0).toNat ((words.drop 1).take 30)
    let u := (s.corrected 3 0).useTrailer 3 t
    (frame0 0).length = 256 ∧ s.live = true ∧ s.carrying 3 = true ∧ oddParity 64 (words.getD 31 0).toNat = false ∧ f.type = 1 ∧
      u.carrying 3 = true ∧ parOf ((words.take 31).map (·.toNat)) = t.par ∧ t.lseq = ((u.port 3).ack + 1) % 4096 ∧
      t.lseq ≠ (({ Port.clear with ack := 5 } : Port).ack + 1) % 4096 ∧ (portAt pQuarantined Port.clear).portState 3 = pQuarantined ∧
      Tab.rising s.regs = true := by
  decide +kernel
theorem test_frame_with_bad_par :
    let words := wordsOf (frame0 1)
    oddParity 64 (words.getD 31 0).toNat = false ∧
      parOf ((words.take 31).map (·.toNat)) ≠ (Trailer.parse (words.getD 31 0).toNat).par := by decide +kernel

/-- A frame that waits on VC 2, and the peer's credits. -/
def queued0 : Queued := ⟨⟨1, 3, 0, 5, 6, 2, true, true, false, []⟩, 0, none⟩
theorem test_frames_are_sent_cases :
    let x : Port := { Port.clear with out := [(2, [queued0])], granted := [(2, 1)] }
    let y : Port := { Port.clear with sent := [(0, queued0)], resend := 1 }
    let s := portAt pUp y
    (portAt pStopping x).carrying 3 = true ∧ x.nextVc = some 2 ∧ Port.clear.nextVc = none ∧ x.links = [] ∧ x.resend = 0 ∧
      x.sent.length < 512 ∧ y.sent[y.sent.length - y.resend]? = some (0, queued0) ∧
      ({ y with resend := 0, sent := List.replicate 512 (0, queued0) } : Port).sent.length = 512 ∧
      ({ x with used := [(2, 1)] } : Port).nextVc = none ∧ 0 < s.rd F.RLT_PORT_CFG.REPLAY_NS 3 ∧
      State.due { s with time := s.rd F.RLT_PORT_CFG.REPLAY_NS 3 } y.ackAt (s.rd F.RLT_PORT_CFG.REPLAY_NS 3) = true ∧
      s.due y.ackAt (s.rd F.RLT_PORT_CFG.REPLAY_NS 3) = false ∧
      (portAt pDown Port.clear).portState 3 = pDown := by decide +kernel

theorem test_links_retrain_cases :
    let x : Port := { Port.clear with replays := 8 }
    let y : Port := { Port.clear with retrain := true }
    (portAt pUp x).portState 3 = pUp ∧ (portAt pUp x).live = true ∧ ((portAt pUp x).port 3).replays = 8 ∧
      ({ x with replays := 7 } : Port).replays < 8 ∧ (portAt pTraining y).portState 3 = pTraining ∧
      ((portAt pTraining y).port 3).retrain = true ∧
      State.due { portAt pTraining y with time := 100000000 } y.since 100000000 = true ∧ (portAt pTraining y).due y.since 100000000 = false ∧
      (portAt pDown x).portState 3 = pDown ∧ State.due { portAt pDown x with time := 1000000000 } x.since 1000000000 = true := by
  decide +kernel

/-- HELLO's payload: versions `low` to `high`, kind, role and credits (the layout is the model's, log 50). -/
def helloBytes (low high : Nat) : List Byte := toBytes 8 (2 ^ 56) ++ toBytes 8 (low + high * 16) ++ toBytes 8 256
theorem test_hello_cases :
    let s := (portAt pTraining { Port.clear with trained := true }).put F.RLT_DEV_ID.VALID 0 true
    let w (a b : Nat) := fieldAt (helloBytes a b) 8 8
    s.rd F.RLT_DEV_ID.VALID 0 = 1 ∧ (s.put F.RLT_DEV_ID.VALID 0 false).rd F.RLT_DEV_ID.VALID 0 = 0 ∧ (s.port 3).trained = true ∧ bits (w 2 3) 0 4 = 2 ∧ bits (w 2 3) 4 4 = 3 ∧
      max 2 (bits (w 2 3) 0 4) ≤ min (s.rd F.RLT_PORT_CFG.VER_MAX 3) (bits (w 2 3) 4 4) ∧
      min (s.rd F.RLT_PORT_CFG.VER_MAX 3) (bits (w 4 5) 4 4) < max 2 (bits (w 4 5) 0 4) ∧
      Port.clear.role = bit (w 2 3) 8 ∧ ({ Port.clear with role := true } : Port).role ≠ bit (w 2 3) 8 := by decide +kernel
theorem test_link_frame_cases :
    let x : Port := { Port.clear with test := 1 }
    Tab.rising Port.clear.freed = true ∧ (portAt pStopping x).portState 3 ≠ pTest ∧ (portAt pStopping x).carrying 3 = true ∧
      State.due { portAt pUp x with time := 31 } (Tab.get 0 Port.clear.heardAt 3) ((portAt pUp x).twelvePeriods 3) = true ∧
      State.due { portAt pUp x with time := 100000 } x.creditAt 100000 = true ∧ (portAt pUp x).due x.creditAt 100000 = false ∧
      (portAt pTest x).portState 3 = pTest ∧ ((portAt pTest x).port 3).test = 1 ∧
      State.due { portAt pTest x with time := 10000000 } x.since 10000000 = true ∧ (portAt pTest x).due x.since 10000000 = false := by
  decide +kernel
/-- Two ports that ask each other for a test: the one of the lower device ID refuses (R376). -/
theorem test_test_request_cases :
    let s := portAt pTest { Port.clear with test := 1 }
    s.devId < (s.wr F.RLT_PORT_STATE.PEER_ID 3 5).rd F.RLT_PORT_STATE.PEER_ID 3 ∧ ¬ s.devId < s.rd F.RLT_PORT_STATE.PEER_ID 3 ∧
      s.portState 3 ≠ pDisabled ∧ (portAt pTraining Port.clear).portState 3 ≠ pQuarantined := by decide +kernel
theorem test_ports_are_controlled_cases :
    let x : Port := { Port.clear with toTest := true }
    let s := portAt pStopping x
    (portAt pDisabled x).hears 0 ∧ up.hears 1 ∧ (portAt pUp x).rd F.RLT_PORT_CTRL.ENABLE_PEND 3 = 0 ∧ x.drained = true ∧
      (s.port 3).toTest = true ∧ Port.clear.toTest = false ∧ s.portState 3 = pStopping ∧
      (((portAt pStopping Port.clear).losePort 3).movePort 3 pDisabled).rd F.RLT_PORT_CTRL.ENABLE_PEND 3 = 0 ∧
      ({ Port.clear with sent := [(0, queued0)] } : Port).drained = false ∧
      State.due { portAt pStopping x with time := 100000 } x.since 100000 = true ∧
      (let y : Port := { Port.clear with test := 2 }
       let u : State := { portAt pTest y with time := 10 ^ 13 }
       u.portState 3 = pTest ∧ u.due y.since (u.rd F.RLT_PORT_CFG.TEST_S 3 * 1000000000) = true) := by decide +kernel

/-- A whole message of partition 0 with some header word. -/
def msgOf (op arg len : Nat) : Msg :=
  ⟨⟨9, 8, 0, 1, 16⟩, 0, 3, 0, op * 2 ^ 56 + 0x11, arg, List.replicate len 1, true, false, 0, 0, false, []⟩
/-- Message 0 has arrived. -/
def msgAt (m : Msg) : State := { up with rlt := { up.rlt with msgs := [m] } }
theorem test_messages_take_effect_cases :
    let t := { tensor0 with state := .dirty }
    let m := msgOf 1 t.desc.length 1
    let s := ((msgAt m).setTensor 0 0x11 t).wr F.POOL_TOTAL.PAGES 0 100
    s.rlt.msgs[0]? = some m ∧ m.op = 1 ∧ m.begun = false ∧ m.tid = 0x11 ∧ m.isOpen = false ∧ m.bad = false ∧
      (msgAt m).tensor 0 0x11 = none ∧ s.tensor 0 0x11 = some t ∧ t.main = true ∧ t.rw_ = true ∧ s.putWrites 0 0x11 = false ∧
      (∀ e ∈ s.ctl.cmds, e.2.holds 0 0x11 false = false) ∧ t.state ≠ .loading ∧ t.state ≠ .writing ∧
      (s.takePages (putReq 0 0x11) 0 m.came (pagesOf t.desc.length)).2 = .granted ∧ { t with state := .lost }.state = .lost ∧
      State.putWrites { s with rlt := { s.rlt with msgs := [m, { m with begun := true }] } } 0 0x11 = true := by
  decide +kernel
theorem test_other_messages_cases :
    let m := msgOf 2 5 0
    let c := msgOf 3 0x100 0
    let x : Xfer := ⟨0, 0x11, 1, 1, 9, 0, 0, 0, 0, 0, 0, true, 0, 3, 0, false, 0, 0⟩
    let s : State := { msgAt c with rlt := { (msgAt c).rlt with xfers := [x] } }
    (msgAt m).msg 0 2 = some m ∧ m.bad = false ∧ (msgAt { m with bad := true }).msg 0 2 = some { m with bad := true } ∧
      s.msg 0 3 = some c ∧ (s.dropMsg 0).xfer c.part c.tid = some x ∧ x.dst = c.flow.src ∧
      ((msgAt c).dropMsg 0).xfer c.part c.tid = none ∧ s.xfer 0 0x11 = some x ∧
      State.due { s with time := s.msgTimeout x.port } x.sentAt (s.msgTimeout x.port) = true ∧ x.started = true ∧ x.left = 0 ∧
      ({ m with done := false } : Msg).isOpen = true ∧ m.isOpen = false ∧
      State.due { s with time := s.msgTimeout m.port } m.at_ (s.msgTimeout m.port) = true ∧ s.due m.at_ (s.msgTimeout m.port) = false := by decide +kernel
theorem test_token_cases :
    let m := msgOf 0x10 32 32
    let s := (part0 (msgAt m)).wr F.SEC_PART_MAP.RECT 0 0x1108
    s.eastOf m.part (bits m.head 32 7) = true ∧ (s.rlt.msgs[0]? = some m) ∧ m.op = 0x10 ∧ (msgAt m).eastOf m.part (bits m.head 32 7) = false ∧
      m.bad = false ∧ m.done = true ∧
      ceilDiv (m.data.drop m.given).length 32 ≤ 2048 - (s.eastIn (bits m.head 32 7)).flits.length ∧
      s.partOfBlock (blockOf (eastCog 7)) = some 0 ∧ (s.put F.RLT_EDGE_BIND.VALID 7 true).rd F.RLT_EDGE_BIND.VALID 7 = 1 := by decide +kernel
theorem test_east_and_ring_cases :
    let s := up.setSinkAt (eastCog 7) .e [⟨0, false, true, 0⟩]
    ((s.sinkAt (eastCog 7) .e).takeWhile fun f => !f.eot).length < (s.sinkAt (eastCog 7) .e).length ∧
      s.rd F.RLT_EDGE_BIND.VALID 7 = 0 ∧ ((up.sinkAt (eastCog 7) .e).takeWhile fun f => !f.eot).length = (up.sinkAt (eastCog 7) .e).length ∧
      up.rd F.RLT_XFER_CFG.ENABLE 0 = 0 ∧ (up.put F.RLT_XFER_CFG.ENABLE 0 true).rd F.RLT_XFER_CFG.ENABLE 0 = 1 := by decide +kernel

/-! ## The host interface, resets and interrupts -/

/-- Window slot 0 of the PF maps page 0 of a resident tensor of partition 0, for writes too. -/
def mapped0 : State :=
  let j := RegKind.idx .PCI_WIN_MAP 0 0
  let s := (up.setTensor 0 0x11 { tensor0 with state := .clean }).put F.PCI_WIN_MAP.VALID j true
  (s.put F.PCI_WIN_MAP.WR j true).wr F.PCI_WIN_MAP.TID j 0x11
theorem test_host_window_cases :
    mapped0.hears 0 ∧ mapped0.mainUp = true ∧ mapped0.meetsFailure 0 0x11 4 8 = false ∧
      (mapped0.setTensor 0 0x11 { tensor0 with repairing := true, struck := [0] }).meetsFailure 0 0x11 4 8 = true ∧ bar2Fits 4 8 = true ∧ mapped0.windowAt 0 4 8 false = some (0, 0x11, 4) ∧
      mapped0.windowAt 0 4 ([1, 2] : List Byte).length true = some (0, 0x11, 4) ∧ (mapped0.tensor 0 0x11).isSome = true ∧
      up.windowAt 0 4 8 false = none ∧ up.windowAt 0 4 8 true = none ∧ bar2Fits 0x3FFFFFF8 8 = true ∧
      up.mapOk 0 (2 ^ 63 + 0x11) = false ∧ mapped0.mapOk 0 (2 ^ 63 + 2 ^ 62 + 0x11) = true ∧ up.hears 1 ∧
      [1, 2, 3, 4, 5, 6, 10].contains 10 = true := by decide +kernel

/-- Read 5 of function 1 has been sent for tensor 0x11 of partition 0. -/
def dmaAt (e : Dma) : State := { up with pci := { up.pci with dma := [(5, e)] } }
def dma0 : Dma := ⟨1, 0, 0x11, 4096, 64, true, false, false⟩
theorem test_dma_cases :
    (dmaAt dma0).dmaOf 5 = some dma0 ∧ (dmaAt dma0).dmaOf 6 = none ∧ dma0.dropped = false ∧
      Tab.get false (dmaAt dma0).pci.ideDown dma0.f = false ∧ dma0.again = false ∧ (dmaAt dma0).live = true := by decide +kernel
theorem test_link_ide_msix_cases :
    let k := 1 * 64 + 63
    let s := { windows up with msix := [k] }
    let t : State := { s with pci := { s.pci with msixTab := [(k, (0, 0, true))] } }
    Tab.rising State.reset.regs = true ∧ State.due { up with time := 20000000 } 0 20000000 = true ∧ up.rd F.PCI_IDE_STATE.SECURE 3 = 0 ∧
      (up.put F.PCI_IDE_STATE.SECURE 3 true).rd F.PCI_IDE_STATE.SECURE 3 = 1 ∧ up.pci.dma = [] ∧
      (t.msix.contains k && t.busOk 1 && Tab.get true t.pci.msixEn 1 && (Tab.get (0, 0, false) t.pci.msixTab k).2.2) = true ∧
      (up.msix.contains k) = false := by decide +kernel

/-- Management firmware of bundle 0 runs. -/
def romDone : State := { State.reset with sec := { State.reset.sec with running := [(1, ⟨0, 1, 1, 1⟩)] } }
theorem test_reset_cases :
    let low : State := { State.reset with pins := { State.reset.pins with porLow := true } }
    up.live = true ∧ State.reset.pci.ready = false ∧ ({ up.pci with ready := true } : Pci).ready = true ∧ up.pci.numVfs = 16 ∧
      low.pins.porLow = true ∧ Tab.rising low.regs = true ∧ ({ low.sec with fuseCrc := false } : Sec).fuseCrc = false ∧
      Tab.find romDone.sec.running 1 = some ⟨0, 1, 1, 1⟩ ∧ romDone.live = true ∧ romDone.rd F.SEC_BOOT_STATUS.STATE 0 = 0 := by
  decide +kernel
/-- A function is there or not, in reset or not, before and after the PF is ready, and 20 ms after POR_N. -/
theorem test_function_cases :
    let r : State := { up with pci := { up.pci with resetEnd := [(1, 100)] } }
    up.present 1 = true ∧ up.present 0 = true ∧ State.reset.present 1 = false ∧ r.inReset 1 = true ∧ up.inReset 1 = false ∧
      State.reset.inReset 1 = false ∧ State.reset.unbooted = false ∧ State.reset.clocks = true ∧ State.reset.pins.porLow = false ∧
      ({ State.reset with time := 20000000 } : State).due 0 20000000 = true ∧
      (State.reset.wr F.SEC_BOOT_STATUS.STATE 0 3).unbooted = true ∧ romDone.unbooted = false := by decide +kernel
/-- ECRC is checked or not; IDE refuses or not; a good read of function 1 and one of function 2. -/
theorem test_tlp_cases :
    let e : State := { up with pci := { up.pci with aer := [(1, { Aer.start with cap := 256 })] } }
    bit (Tab.get Aer.start e.pci.aer 1).cap 8 = true ∧ bit (Tab.get Aer.start up.pci.aer 1).cap 8 = false ∧
      up.ideRefuses 1 = false ∧ (up.put F.PCI_IDE_STATE.REQUIRE 1 true).ideRefuses 1 = true ∧ dma0.f = 1 ∧ dma0.f ≠ 2 := by
  decide +kernel
/-- An access to a window waits where another waits for its channel, and does not on a free main tier. -/
theorem test_window_waits :
    (mapped0.holdMain [0] (.put 0 0x11 0 [1] false)).mainWaits (heldReq 1) [0] = true ∧ mapped0.mainWaits (heldReq 0) [0, 1] = false ∧
      mapped0.windowAt 0 4 0 false = some (0, 0x11, 4) ∧ bar2Fits 4 0 = true := by decide +kernel
/-- With an empty flash no component is accepted; with images the outcome is that of the signature check (log 41). -/
theorem test_boot_of_empty_flash :
    ([2, 3, 4].foldl (fun (s : State) c => s.bootComp 0 c) romDone).unbooted = true := by decide +kernel

/-- Source 5 pends for target 9 at priority 3. -/
def pends : State :=
  let s := (up.put F.INTC_MASK.MASK 0 false).wr F.INTC_MASK.MASK 0 0
  (((s.wr F.INTC_SRC_CFG.PRIO 5 3).wr F.INTC_SRC_CFG.TARGET 5 9).wr F.INTC_TGT_CFG.THRESHOLD 9 0).putBit F.INTC_PEND.BITS 5 true
theorem test_interrupt_selected : pends.selected 9 = some 5 ∧ up.selected 9 = none := by decide +kernel
theorem test_interrupt_cases :
    let s : State := { pends with intc := ⟨[(9, (5, 3, 0))], [], []⟩ }
    Tab.find pends.intc.flight 9 = none ∧ Tab.find s.intc.flight 9 = some (5, 3, 0) ∧ s.canLand 9 = true ∧ s.routable 5 9 = true ∧ up.routable 256 3 = false ∧
      s.time ≤ timeAdd 0 8 ∧
      timeAdd 0 8 < ({ s with time := 9 } : State).time ∧ (up.wr F.HUB_CTRL.STATE 3 0).canLand 3 = false ∧ s.time < timeAdd 0 8 ∧
      (([(3, 5, 1)] : List (Nat × Nat × Nat)).any fun a => a.1 == 3 && a.2.1 == 5) = true ∧
      (up.intc.active.any fun a => a.1 == 3 && a.2.1 == 5) = false ∧
      (up.put F.INTC_TGT_CFG.MODE 3 true).rd F.INTC_TGT_CFG.MODE 3 = 1 ∧ (up.put F.INTC_TGT_CFG.MODE 3 false).rd F.INTC_TGT_CFG.MODE 3 = 0 ∧
      ownFn 1 0 = true ∧ ownFn 2 0 = false := by decide +kernel

/-! ## Power, heat, fatal causes, observation and pins -/

/-- The rack manager is endpoint 9. -/
def rack : State := (up.wr F.PWR_RM_CFG.RM_EID 0 9).put F.PWR_RM_CFG.HB_EN 0 true
theorem test_power_limit_cases :
    rack.validEid 9 = true ∧ rack.validEid 8 = false ∧ rack.rd F.PWR_STATUS.KICKSTAND 0 = 0 ∧ rack.halted = false ∧
      (rack.raise 162).validEid 9 = true ∧ (rack.raise 162).validEid 8 = false ∧
      (rack.put F.PWR_STATUS.KICKSTAND 0 true).rd F.PWR_STATUS.KICKSTAND 0 = 1 ∧ rack.rd F.PWR_STATUS.PIN_CODE 0 ≠ 6 % 8 := by decide +kernel
/-- A cap falls below an older one without lowering CAP_EFF, the mean above it by more than BRAKE_TOL or not; and one that lowers it. -/
theorem test_cap_arrives_cases :
    let s (w : Nat) : State := { rack.capRegs with pwr := { rack.pwr with samples := [w] } }
    let t (w : Nat) : State := (s w).evalCaps (some 0)
    let low : State := s 900 |>.wr F.PWR_STATUS.CAP_RM 0 400
    ((s 900).pwr.judged).all (fun j => j.at_ != (s 900).time) = true ∧
      (s 900).rd F.PWR_STATUS.CAP_EFF 0 ≤ (t 900).rd F.PWR_STATUS.CAP_EFF 0 ∧
      (t 900).above (700 + 200 * 0 + (t 900).rd F.PWR_CFG.BRAKE_TOL 0) = true ∧
      (t 600).above (700 + 200 * 0 + (t 600).rd F.PWR_CFG.BRAKE_TOL 0) = false ∧
      (low.evalCaps (some 0)).rd F.PWR_STATUS.CAP_EFF 0 < low.rd F.PWR_STATUS.CAP_EFF 0 := by decide +kernel
theorem test_cap_eff_premises : Tab.rising rack.regs = true ∧ rack.ceiling < 4 := by decide +kernel
/-- R425, R426: of equal limits the lowest code is named; a limit below 350 W counts as 350 W. -/
theorem test_cap_eff_tie :
    let s := (up.wr F.PWR_STATUS.CAP_RM 0 300).wr F.PWR_HOST_CAP.CAP 0 340
    s.capRegs.rd F.PWR_STATUS.CAP_EFF 0 = 350 ∧ s.capRegs.rd F.PWR_STATUS.LIMITER 0 = 1 ∧
      s.capRegs.rd F.PWR_STATUS.MIN_CLAMP 0 = 1 := by decide +kernel

theorem test_governor_cases :
    let at_ (t : Nat) (x : Pwr) : State := { rack with time := t, pwr := x }
    let x := rack.pwr
    let beat_ (k : Nat) : State := { rack with beats := [(k, 0)] }
    rack.clocks = true ∧ rack.pins.porLow = false ∧ (beat_ beatSample).beatDue beatSample 1000 = false ∧
      State.beatDue { beat_ beatSample with time := 1000 } beatSample 1000 = true ∧ (beat_ beatEval).beatDue beatEval 10000 = false ∧
      rack.beatDue beatEval 10000 = true ∧
      (((settings.filter fun e => decide (rack.fastest ≤ e.1)).zip [0]).find? (fun e => decide (e.2 ≤ min
        (rack.rd F.PWR_STATUS.CAP_EFF 0) (rack.pwr.ramp.level rack.time)))).isSome = true ∧
      (at_ 0 { x with wantDiv := 2 }).rd F.PWR_STATUS.ACLK_DIV 0 ≠ 2 ∧ (at_ 0 { x with wantDiv := 0 }).rd F.PWR_STATUS.ACLK_DIV 0 = 0 ∧
      x.brakeCap = none ∧ x.brakeCool = none ∧ x.brakeThr = false ∧ (rack.put F.PWR_STATUS.BRAKE 0 true).rd F.PWR_STATUS.BRAKE 0 = 1 ∧
      rack.rd F.PWR_STATUS.THROTTLE 0 = 0 ∧ (at_ 100000 { x with throttleUp := some 0, brakeThr := true }).due 0 100000 = true ∧
      x.coolLow = false ∧ (at_ 10000000000 x).rd F.PWR_TEMP.TJ 0 < 8 * rack.rd F.PWR_THERM_CFG.T_WARN 0 ∧
      (at_ 10000000000 x).due 0 10000000000 = true ∧ (at_ 500000001 { x with lastMsg := some 0 }).due 0 500000001 = true ∧
      rack.due 0 500000001 = false ∧ (at_ 5000000000 { x with kick := some (900, 0) }).due 0 5000000000 = true ∧ rack.rd F.PWR_RM_CFG.HB_EN 0 = 1 ∧
      rack.rd F.PWR_RM_CFG.RM_EID 0 ≠ 0 ∧ rack.rd F.PWR_STATUS.KICKSTAND 0 = 0 ∧ rack.rd F.PWR_STATUS.KICK_SAFE 0 = 0 := by
  decide +kernel
/-- A voltage of the table lies in 600 to 750 mV whatever the fuses hold. -/
theorem test_volt_range (s : State) (d : Nat) : 600 ≤ s.volt d ∧ s.volt d ≤ 750 := by
  simp only [State.volt, clampTo]
  split_ifs <;> omega
/-- VDD_CORE, reckoned to stand at 0 or at 1,000 mV, lies below and above every voltage of the table. -/
theorem test_vdd_cases :
    let at_ (w : Nat) : State := { rack with pwr := { rack.pwr with vdd := some ⟨0, w, 0, w⟩ } }
    (∀ d, (at_ 0).vdd < (at_ 0).volt d) ∧ (∀ d, (at_ 1000).volt d ≤ (at_ 1000).vdd) ∧
      max { rack.pwr with wantDiv := 0 }.wantDiv rack.fastest = rack.fastest ∧ (rack.wr F.PWR_STATUS.ACLK_DIV 0 3).rd F.PWR_STATUS.ACLK_DIV 0 = 3 ∧
      (rack.wr F.PWR_STATUS.ACLK_DIV 0 3).fastest < 3 ∧ rack.pwr.wake = none := by
  refine ⟨fun d => Nat.lt_of_lt_of_le (by decide) (test_volt_range _ d).1, fun d => Nat.le_trans (test_volt_range _ d).2 (by decide), ?_⟩
  decide +kernel
theorem test_idle_serve_cases :
    let s := (up.put F.PWR_CFG.IDLE_EN 0 true).wr F.PWR_CFG.IDLE_US 0 50
    let busy : State := { s with arr := { s.arr with regions := [(0, region0)] } }
    s.rd F.PWR_CFG.IDLE_EN 0 = 1 ∧ s.asleep = false ∧ s.arrayBusy = false ∧
      State.due { s with time := 50000 } s.pwr.idleFrom (s.rd F.PWR_CFG.IDLE_US 0 * 1000) = true ∧ busy.arrayBusy = true ∧
      (busy.put F.PWR_STATUS.IDLE 0 true).asleep = true := by decide +kernel
theorem test_heat_cases :
    up.beatDue beatTemp 10000 = true ∧ hottest ([839, 840].take 80) up.pwr.excluded = some (840, 1) ∧ hottest ([839].take 80) up.pwr.excluded = some (839, 0) := by
  decide +kernel
theorem test_fatal_cases :
    let s := (up.put F.OBS_FATAL.FATAL 0 true).put F.OBS_FATAL.JOURNAL_FINAL 0 true
    s.fatal = true ∧ s.rd F.OBS_FATAL.JOURNAL_FINAL 0 = 1 ∧ (s.put F.BLK_STATUS.READY 0 true).rd F.BLK_STATUS.READY 0 = 1 ∧
      s.rd F.OBS_FATAL.CAUSE 0 ≠ 5 ∧ up.rd F.OBS_FATAL.JOURNAL_FINAL 0 = 0 := by decide +kernel
/-- The sampling stream's buffer is a tensor that loads. -/
def held2 : State :=
  let s := (up.wr F.OBS_SAMPLE_CTRL.STATE 0 2).setTensor 0 0x11 { tensor0 with state := .loading }
  s.wr F.OBS_BUF_CFG.TID 0 0x11
theorem test_observation_cases :
    let on_ (n : Nat) := up.wr F.OBS_SAMPLE_CTRL.STATE 0 n
    up.rd F.OBS_CAL_STATUS.TRIM_MV 0 < 30 ∧ up.beatDue beatMargin 1000000000 = true ∧
      State.beatDue { up with beats := [(beatMargin, 0)] } beatMargin 1000000000 = false ∧ up.beatDue beatSensors 10000000000 = true ∧
      State.beatDue { up with beats := [(beatSensors, 0)] } beatSensors 10000000000 = false ∧ (on_ 1).beatDue beatDepth 1000 = true ∧
      up.beatDue (beatTach 15) 1000000000 = true ∧ (on_ 1).rd F.OBS_SAMPLE_CTRL.STATE 0 = 1 ∧ up.rd F.OBS_SAMPLE_CTRL.STATE 0 ≠ 1 ∧
      (up.wr F.OBS_CAL_STATUS.TRIM_MV 0 30).rd F.OBS_CAL_STATUS.TRIM_MV 0 = 30 ∧ up.rd F.OBS_CAL_STATUS.DIV_STEPS 0 < 3 ∧
      (up.wr F.OBS_CAL_STATUS.DIV_STEPS 0 3).rd F.OBS_CAL_STATUS.DIV_STEPS 0 = 3 ∧
      ((on_ 2).drainFifo.obs.fifo.any fun r => r.1 == streamNo false) = false ∧
      (({ held2 with obs := { up.obs with fifo := [(0, [1])] } } : State).drainFifo.obs.fifo.any fun r => r.1 == streamNo false) = true ∧
      (on_ 2).rd (fState false) 0 = 2 ∧ (on_ 2).on (fPend false) 0 = false ∧
      (up.wr F.OBS_TRACE_CTRL.STATE 0 2).rd (fState true) 0 = 2 ∧ up.on (fPend true) 0 = false ∧
      (up.setFunc 15 1).rd F.OBS_GPIO_CLAIM.FUNC 15 = 1 ∧ Tab.get false up.pins.gpio 15 = false ∧
      (({ up with pins := { up.pins with gpio := Tab.set false up.pins.gpio 15 true } } : State).put F.OBS_GPIO_CFG.LEVEL 15 true).live = true :=
  by decide +kernel

/-! ## Register writes and approval -/

theorem test_register_write_cases :
    let q := regAt 0 (RegKind.addr .Q_CFG 3)
    let w := regAt 0 (RegKind.addr .PWR_CFG 0)
    let l := regAt 0 (RegKind.addr .RLT_PORT_CTRL 0)
    let r := regAt 0 (RegKind.addr .SEC_PART_MAP 0)
    let t := regAt 0 (RegKind.addr .SEC_TOKEN_BUF 0)
    q.map (fun e => (e.1, e.2.1)) = some (.Q_CFG, 3) ∧ accessOk 0 (RegKind.addr .Q_CFG 3) (RegKind.Q_CFG.info.width / 8) = true ∧
      accessOk 0 (RegKind.addr .Q_CFG 3) 2 = false ∧ up.mayWrite 2 .Q_CFG 3 = false ∧ up.mayWrite 1 .Q_CFG 3 = true ∧
      rwaMask .Q_CFG = 0 ∧ kindIsLink .Q_CFG = false ∧ kindIsMgmt .Q_CFG = false ∧
      w.isSome = true ∧ rwaMask .PWR_CFG = 0 ∧ kindIsLink .PWR_CFG = false ∧ kindIsMgmt .PWR_CFG = true ∧
      l.isSome = true ∧ rwaMask .RLT_PORT_CTRL = 0 ∧ kindIsLink .RLT_PORT_CTRL = true ∧ r.isSome = true ∧ rwaMask .SEC_PART_MAP ≠ 0 ∧
      t.isSome = true ∧ 64 < RegKind.SEC_TOKEN_BUF.info.width ∧ accessOk 0 (RegKind.addr .SEC_TOKEN_BUF 0) 8 = true ∧
      up.mainUp = true ∧ regAt 0 0x3FFFFF0 = none ∧ accessOk 0 0x3FFFFF0 8 = true := by decide +kernel

/-- Configuration space answers once the device is ready, or with Request Retry Status before; a core's store lies in BAR0. -/
theorem test_config_cases :
    up.inReset 1 = false ∧ up.pci.ready = true ∧ State.reset.pci.ready = false ∧ State.reset.unbooted = false ∧
      ({ up with pci := { up.pci with resetEnd := [(1, 100)] } } : State).inReset 1 = true ∧ regAt 4 0x20010 = none ∧
      accessOk 4 0x20010 8 = true ∧ accessOk 4 0x20010 4 = true ∧ regAt 4 0x1FFF0 = none ∧ accessOk 4 0x1FFF0 8 = true := by decide +kernel
theorem test_token_cases_of_approval :
    up.sec.apply = none ∧ up.tokenCheck = 1 ∧ up.tokenCheck ≠ 0 ∧
      ({ up.sec with apply := some (up.applyToken fun _ => true).2 } : Sec).apply ≠ none ∧ up.registered.length < 2 ∧ up.hears 0 ∧ Tab.rising up.regs = true ∧
      up.rd F.SEC_FUSE_STATE.DEBUG_CLOSED 0 = 0 ∧ up.rd F.SEC_FUSE_STATE.DEBUG_SEEN 0 = 0 ∧
      (up.put F.SEC_FUSE_STATE.DEBUG_SEEN 0 true).rd F.SEC_FUSE_STATE.DEBUG_SEEN 0 = 1 ∧ ownFn 1 0 = true := by decide +kernel

/-! ## The whole block -/

/-- HARDWARE_TRIP gives a block that is dead, and a step from it answers. -/
theorem test_dead_block :
    let s : State := { State.reset with clocks := false }
    s.clocks = false ∧ s.pins.porLow = false ∧ Instr.coldReset ∉ s.pending ∧ ∃ t, step s = .next t :=
  ⟨by decide +kernel, by decide +kernel, by decide +kernel, _, rfl⟩
theorem test_fatal_state_answers :
    (up.put F.OBS_FATAL.FATAL 0 true).fatal = true ∧ ∃ t, exec (.nop 0) (up.put F.OBS_FATAL.FATAL 0 true) = .next t :=
  ⟨by decide +kernel, _, rfl⟩
theorem test_form_premises :
    State.reset.canonical = true ∧ Memory.wf [(3, 1), (5, 2)] = true ∧ RegKind.Q_CFG.key 3 ≠ RegKind.Q_CFG.key 4 := by decide +kernel
theorem test_formed_commands : (Instr.nop 0).wf = true ∧ (Instr.msixSend 0 64).wf = false := by decide +kernel

/-- A finite product of E4M3 1.0 and E2M1 1.0, an infinite one of a BF16 infinity, and NaN. -/
theorem test_block_scale_premises :
    let product (atype a : Nat) : FVal := mulF (valueOf (if atype = 0 then 1 else atype + 1) a) (valueOf 2 (expand4 4 0b0010))
    (∃ m e, product 1 0x38 = .fin false m e) ∧ product 0 0x7F80 = .inf false ∧ product 1 0x7F = .nan :=
  ⟨⟨_, _, rfl⟩, by decide +kernel, by decide +kernel⟩

end Sys2Proof.Tests
end

section
/-! PROOFS. The laws of the scope chapter's data: bit fields, sparse tables and byte memory read back, and what a field of a register
holds after a store (R7 to R11). -/

namespace Sys2Proof

/-! ## Bit fields (R7) -/

theorem testBit_bits (x lo w j : Nat) : (bits x lo w).testBit j = (decide (j < w) && x.testBit (lo + j)) := by
  simp [bits, Nat.testBit_mod_two_pow, Nat.testBit_shiftRight]

theorem testBit_setBits (x lo w v j : Nat) : (setBits x lo w v).testBit j =
    if j < lo then x.testBit j else if j < lo + w then v.testBit (j - lo) else x.testBit j := by
  have hx : setBits x lo w v = 2 ^ lo * (2 ^ w * (x / 2 ^ (lo + w)) + v % 2 ^ w) + x % 2 ^ lo := by
    rw [setBits, Nat.pow_add]
    ring
  rw [hx, Nat.testBit_two_pow_mul_add _ (Nat.mod_lt _ (Nat.two_pow_pos lo)),
    Nat.testBit_two_pow_mul_add _ (Nat.mod_lt _ (Nat.two_pow_pos w))]
  simp only [Nat.testBit_mod_two_pow, Nat.testBit_div_two_pow]
  split_ifs with h1 h2 h3 h4
  · simp [h1]
  · simp [h2]
  · omega
  · omega
  · congr 1
    omega

theorem bits_lt (x lo w : Nat) : bits x lo w < 2 ^ w := Nat.mod_lt _ (Nat.two_pow_pos w)

/-- A written field reads as written, truncated to its width. -/
theorem bits_setBits_same (x lo w v : Nat) : bits (setBits x lo w v) lo w = v % 2 ^ w := by
  refine Nat.eq_of_testBit_eq fun j => ?_
  rw [testBit_bits, testBit_setBits, Nat.testBit_mod_two_pow]
  by_cases hj : j < w
  · simp [hj]
  · simp [hj]

/-- Writing a field leaves a field apart from it as it was. -/
theorem bits_setBits_apart {lo w lo' w' : Nat} (h : lo + w ≤ lo' ∨ lo' + w' ≤ lo) (x v : Nat) :
    bits (setBits x lo w v) lo' w' = bits x lo' w' := by
  refine Nat.eq_of_testBit_eq fun j => ?_
  rw [testBit_bits, testBit_bits, testBit_setBits]
  by_cases hj : j < w'
  · rcases h with h | h
    · rw [if_neg (by omega), if_neg (by omega)]
    · rw [if_pos (by omega)]
  · simp [hj]

/-! ## Sparse tables and byte memory -/

section
variable {α : Type} {d : α}

/-- A listed first key of a table reads as its entry. -/
theorem Tab.get_cons_same (j : Nat) (v : α) (m : Tab α) : Tab.get d ((j, v) :: m) j = v := by
  simp [Tab.get]

/-- Two tables that begin with one entry, whose key lies below all others, and read alike have tails that read alike. -/
theorem Tab.get_tail_eq {j : Nat} {v : α} {m n : Tab α} (hm : ∀ e ∈ m, j < e.1) (hn : ∀ e ∈ n, j < e.1)
    (h : ∀ k, Tab.get d ((j, v) :: m) k = Tab.get d ((j, v) :: n) k) (k : Nat) : Tab.get d m k = Tab.get d n k := by
  by_cases hk : k ≤ j
  · rw [Tab.get_of_lt fun e he => lt_of_le_of_lt hk (hm e he), Tab.get_of_lt fun e he => lt_of_le_of_lt hk (hn e he)]
  · have hk' := h k
    simp only [Tab.get] at hk'
    rwa [if_neg (by omega), if_neg (by omega), if_neg (by omega), if_neg (by omega)] at hk'

/-- A table whose first entry is not the default does not read like one whose keys all lie above its first key. -/
theorem Tab.not_above_of_get_eq {j : Nat} {v : α} {m n : Tab α} (hv : v ≠ d)
    (h : ∀ k, Tab.get d ((j, v) :: m) k = Tab.get d n k) : ¬ ∀ e ∈ n, j < e.1 := by
  intro hn
  have hj := h j
  rw [Tab.get_cons_same, Tab.get_of_lt hn] at hj
  exact hv hj

variable [DecidableEq α]

/-- The canonical form with one default, entry by entry. -/
theorem Tab.wf_cons {j : Nat} {v : α} {m : Tab α} : Tab.wf (fun _ => d) ((j, v) :: m) = true ↔
    v ≠ d ∧ (∀ e ∈ m, j < e.1) ∧ Tab.wf (fun _ => d) m = true := by
  simp only [Tab.wf, Tab.sparse, Bool.and_eq_true, Tab.rising_cons, List.all_cons, decide_eq_true_eq]
  tauto

/-- Canonical tables that read alike are equal. -/
theorem Tab.eq_of_get_eq {m n : Tab α} (hm : Tab.wf (fun _ => d) m = true) (hn : Tab.wf (fun _ => d) n = true)
    (h : ∀ k, Tab.get d m k = Tab.get d n k) : m = n := by
  induction m generalizing n with
  | nil =>
    cases n with
    | nil => rfl
    | cons e n =>
      obtain ⟨hv, -, -⟩ := Tab.wf_cons.1 hn
      exact absurd (by simp) (Tab.not_above_of_get_eq hv fun k => (h k).symm)
  | cons e m ih =>
    obtain ⟨j, v⟩ := e
    obtain ⟨hv, hj, hm'⟩ := Tab.wf_cons.1 hm
    cases n with
    | nil => exact absurd (by simp) (Tab.not_above_of_get_eq hv h)
    | cons f n =>
      obtain ⟨k, w⟩ := f
      obtain ⟨hw, hk, hn'⟩ := Tab.wf_cons.1 hn
      have hjk : ¬ j < k := fun hlt => Tab.not_above_of_get_eq hv h
        (List.forall_mem_cons.2 ⟨hlt, fun e he => lt_trans hlt (hk e he)⟩)
      have hkj : ¬ k < j := fun hlt => Tab.not_above_of_get_eq hw (fun q => (h q).symm)
        (List.forall_mem_cons.2 ⟨hlt, fun e he => lt_trans hlt (hj e he)⟩)
      obtain rfl : j = k := by omega
      have hvw : v = w := by simpa only [Tab.get_cons_same] using h j
      subst hvw
      rw [ih hm' hn' (Tab.get_tail_eq hj hk h)]

end

/-- Written bytes read as written. -/
theorem Memory.readN_writeN_same {m : Memory} (hm : m.wf = true) (a : Nat) (bs : List Byte) :
    (m.writeN a bs).readN a bs.length = bs := by
  induction bs generalizing m a with
  | nil => rfl
  | cons b bs ih =>
    have hb := Memory.wf_write hm a b
    rw [Memory.writeN, List.length_cons, Memory.readN, ih hb, Memory.read_writeN_other hb _ _ (by omega),
      Memory.read_write_same hm]

/-! ## The register tables (R9, R10) -/

theorem RegKind.code_lt (k : RegKind) : k.code < 256 := by cases k <;> decide

theorem RegKind.code_injective : Function.Injective RegKind.code :=
  Function.LeftInverse.injective RegKind.ofNat_ctorIdx

/-- A key of the register file names its kind and its instance. -/
theorem RegKind.key_mod (k : RegKind) (i : Nat) : k.key i % 256 = k.code := by
  have := k.code_lt
  simp only [RegKind.key]
  omega

theorem RegKind.key_div (k : RegKind) (i : Nat) : k.key i / 256 = i := by
  have := k.code_lt
  simp only [RegKind.key]
  omega

/-- Two fields that share no bit. -/
abbrev FieldInfo.apart (f g : FieldInfo) : Prop := f.lo + f.w ≤ g.lo ∨ g.lo + g.w ≤ f.lo

/-- No two fields of a register share a bit. -/
theorem RegKind.flds_apart (k : RegKind) : k.info.flds.Pairwise FieldInfo.apart := by cases k <;> decide

end Sys2Proof

namespace Sys2Proof.Machine

/-! ## Stores under access codes (R10) -/

/-- What a field of `w` bits holds after a store of `new` over `old`. -/
def stored (a : Access) (w old new : Nat) : Nat :=
  match a with
  | .rw => new
  | .w1c => Nat.land old (2 ^ w - 1 - new)
  | _ => old

/-- A field that is neither RW nor W1C keeps its bits. -/
theorem stored_of_other {a : Access} (h : a ≠ .rw) (h' : a ≠ .w1c) (w old new : Nat) : stored a w old new = old := by
  cases a with
  | rw => exact absurd rfl h
  | w1c => exact absurd rfl h'
  | ro => rfl
  | wo => rfl
  | rwa => rfl

/-- One field of a register stored: the step of `storeFields`. -/
def storeField (x v : Nat) (f : FieldInfo) : Nat := storeFields x v [f]

theorem storeFields_cons (x v : Nat) (f : FieldInfo) (fs : List FieldInfo) :
    storeFields x v (f :: fs) = storeFields (storeField x v f) v fs := rfl

/-- A stored field holds what its access code makes of the old and the written bits. -/
theorem bits_storeField_same (x v : Nat) (f : FieldInfo) :
    bits (storeField x v f) f.lo f.w = stored f.access f.w (bits x f.lo f.w) (bits v f.lo f.w) := by
  obtain ⟨lo, w, access, reset⟩ := f
  cases access with
  | rw => exact (bits_setBits_same ..).trans (Nat.mod_eq_of_lt (bits_lt v lo w))
  | w1c =>
    refine (bits_setBits_same ..).trans (Nat.mod_eq_of_lt (Nat.and_lt_two_pow _ ?_))
    have hw := Nat.two_pow_pos w
    show 2 ^ w - 1 - bits v lo w < 2 ^ w
    omega
  | ro => rfl
  | wo => rfl
  | rwa => rfl

/-- Storing a field leaves a field apart from it as it was. -/
theorem bits_storeField_apart {f g : FieldInfo} (h : f.apart g) (x v : Nat) :
    bits (storeField x v f) g.lo g.w = bits x g.lo g.w := by
  obtain ⟨lo, w, access, reset⟩ := f
  cases access with
  | rw => exact bits_setBits_apart h ..
  | w1c => exact bits_setBits_apart h ..
  | ro => rfl
  | wo => rfl
  | rwa => rfl

/-- Storing fields leaves a field apart from each of them as it was. -/
theorem bits_storeFields_apart {fs : List FieldInfo} {g : FieldInfo} (h : ∀ f ∈ fs, f.apart g) (x v : Nat) :
    bits (storeFields x v fs) g.lo g.w = bits x g.lo g.w := by
  induction fs generalizing x with
  | nil => rfl
  | cons f fs ih =>
    obtain ⟨hf, hfs⟩ := List.forall_mem_cons.1 h
    rw [storeFields_cons, ih hfs, bits_storeField_apart hf]

/-- Storing fields that share no bit stores each of them. -/
theorem bits_storeFields_of_mem {fs : List FieldInfo} (hfs : fs.Pairwise FieldInfo.apart) {g : FieldInfo} (hg : g ∈ fs) (x v : Nat) :
    bits (storeFields x v fs) g.lo g.w = stored g.access g.w (bits x g.lo g.w) (bits v g.lo g.w) := by
  induction fs generalizing x with
  | nil => simp at hg
  | cons f fs ih =>
    obtain ⟨hf, hfs'⟩ := List.pairwise_cons.1 hfs
    rw [storeFields_cons]
    rcases List.mem_cons.1 hg with rfl | hg'
    · rw [bits_storeFields_apart (fun e he => (hf e he).symm), bits_storeField_same]
    · rw [ih hfs' hg', bits_storeField_apart (hf g hg')]

end Sys2Proof.Machine
end

section
/-! PROOFS. What REGISTER_WRITE answers, one lemma for each way it can go (R10, R384, R396, R403). -/

namespace Sys2Proof.Machine

variable {s : State} {f : FnId} {bar off size i o w fn : Nat} {v : Word64} {k : RegKind}

/-! ## The gate of configuration requests -/

/-- A configuration request to a function in reset is answered Request Retry Status and logged (R401). -/
theorem State.ifConfig_of_inReset (hc : s.clocks = true) (hp : s.pins.porLow = false) (hr : s.inReset fn = true) (t : State) :
    s.ifConfig fn t = .next ((s.pciEvent 6 fn 0).sendTlp fn 2 (.retryStatus fn)) := by
  rw [State.ifConfig, State.ifClocked_of_clocks hc hp, if_pos hr]

/-- A configuration request that the device takes has its effect. -/
theorem State.ifConfig_of_ready (hc : s.clocks = true) (hp : s.pins.porLow = false) (hr : s.inReset fn = false)
    (h : s.pci.ready = true ∨ s.unbooted = true) (t : State) : s.ifConfig fn t = .next t := by
  rw [State.ifConfig, State.ifClocked_of_clocks hc hp, if_neg (by simp [hr]), if_pos (by simpa using h)]

/-- Until the device is ready a configuration request is answered Request Retry Status (R451). -/
theorem State.ifConfig_of_not_ready (hc : s.clocks = true) (hp : s.pins.porLow = false) (hr : s.inReset fn = false)
    (h : s.pci.ready = false) (hu : s.unbooted = false) (t : State) :
    s.ifConfig fn t = .next (s.sendTlp fn 2 (.retryStatus fn)) := by
  rw [State.ifConfig, State.ifClocked_of_clocks hc hp, if_neg (by simp [hr]), if_neg (by simp [h, hu])]

/-! ## The three address spaces -/

/-- A write of configuration space (log 91). -/
theorem exec_registerWrite_config (hoff : off < 0x1000) :
    exec (.registerWrite f 7 off 4 v) s = s.ifConfig f (s.cfgWrite f off (v.toNat % 2 ^ 32)) :=
  if_pos ⟨rfl, hoff, rfl⟩

/-- A management core's write (log 93). -/
theorem exec_registerWrite_core (hl : s.live = true) (hoff : off < 0x4000000) (ha : off % 4 = 0) :
    exec (.registerWrite f 8 off 4 v) s = .next (s.coreWrite off (v.toNat % 2 ^ 32)) := by
  show execRegisterWrite .. = _
  rw [execRegisterWrite, if_neg (by simp), if_pos ⟨rfl, hoff, ha, rfl⟩, State.ifLive_of_live hl]

/-- A write of BAR0 or BAR4 that the function hears: stored where R384 allows its form, else logged as BAD_ACCESS. -/
theorem exec_registerWrite_bar (hf : s.hears f.val) (hb : (bar = 0 ∧ off + size ≤ 0x4000000) ∨ (bar = 4 ∧ off + size ≤ 0x400000))
    (hm : bar = 0 ∨ s.mainUp = true) : exec (.registerWrite f bar off size v) s = .next
      (if accessOk bar off size then s.hostWriteReg f bar off size (v.toNat % 2 ^ (8 * size)) else s.pciEvent 3 f off) := by
  obtain ⟨hl, ht, hu⟩ := hf
  show execRegisterWrite .. = _
  have hform : ¬ (!(decide (bar = 0 ∧ off + size ≤ 0x4000000) || decide (bar = 4 ∧ off + size ≤ 0x400000))) = true := by
    simpa only [Bool.not_eq_true', Bool.not_eq_false, Bool.or_eq_true, decide_eq_true_eq] using hb
  rw [execRegisterWrite, if_neg (by omega), if_neg (by omega), if_neg hform, State.ifHost_of_live off hl ht hu,
    if_neg (by rcases hm with h | h <;> simp [h])]

/-! ## A write that R384 allows -/

/-- Where no register and no MSI-X table stands, a write is ignored. -/
theorem State.hostWriteReg_of_none (hr : regAt bar off = none) (h : bar = 0 ∨ off < 0x20000 ∨ 0x20400 ≤ off) :
    s.hostWriteReg fn bar off size w = s := by
  simp only [State.hostWriteReg, hr]
  rw [if_neg (by omega)]

/-- A write of the MSI-X table. -/
theorem State.hostWriteReg_of_msix (hr : regAt 4 off = none) (h1 : 0x20000 ≤ off) (h2 : off < 0x20400) (hm : s.mainUp = true) :
    s.hostWriteReg fn 4 off size w =
      let u := s.writeMsix fn (off - 0x20000) (w % 2 ^ 32)
      if size = 8 then u.writeMsix fn (off - 0x20000 + 4) (w / 2 ^ 32) else u := by
  simp only [State.hostWriteReg, hr, h1, h2, hm, and_self, if_true]

section
variable (hr : regAt bar off = some (k, i, o))
include hr

/-- A register that the function may not write is denied (R403). -/
theorem State.hostWriteReg_of_denied (hw : s.mayWrite fn k i = false) : s.hostWriteReg fn bar off size w = s.deny fn := by
  simp [State.hostWriteReg, hr, hw]

/-- A register wider than 64 bits takes the bytes (log 65). -/
theorem State.hostWriteReg_of_wide (hw : s.mayWrite fn k i = true) (hk : 64 < k.info.width) :
    s.hostWriteReg fn bar off size w = s.writeWide k i o (toBytes size w) := by
  simp [State.hostWriteReg, hr, hw, hk]

/-- A register of at most 64 bits is written by its chapter's rules. -/
theorem State.hostWriteReg_of_narrow (hw : s.mayWrite fn k i = true) (hk : k.info.width ≤ 64) :
    s.hostWriteReg fn bar off size w = s.writeReg fn k i off w := by
  simp [State.hostWriteReg, hr, hw, Nat.not_lt.2 hk]

end

/-! ## The chapter's rules -/

theorem State.writeReg_of_rwa (h : rwaMask k ≠ 0) : s.writeReg fn k i off w = s.writeRwa k i off w := if_pos h

theorem State.writeReg_of_link (h : rwaMask k = 0) (hk : kindIsLink k = true) :
    s.writeReg fn k i off w = s.writeLink fn k i w := by
  simp [State.writeReg, h, hk]

theorem State.writeReg_of_mgmt (h : rwaMask k = 0) (hk : kindIsLink k = false) (hk' : kindIsMgmt k = true) :
    s.writeReg fn k i off w = s.writeMgmt k i w := by
  simp [State.writeReg, h, hk, hk']

theorem State.writeReg_of_core (h : rwaMask k = 0) (hk : kindIsLink k = false) (hk' : kindIsMgmt k = false) :
    s.writeReg fn k i off w = s.writeCore k i w := by
  simp [State.writeReg, h, hk, hk']

end Sys2Proof.Machine
end

section
/-! PROOFS. The register file in canonical form, and the obligations of the scope chapter. -/

namespace Sys2Proof.Machine

/-! ## Canonical states (R11) -/

/-- The canonical form of a state, part by part. -/
theorem State.canonical_iff {s : State} : s.canonical = true ↔ Tab.rising s.regs = true ∧
    (∀ e ∈ s.regs, ∀ k ∈ RegKind.all, k.code ≠ e.1 % 256 ∨ e.2 ≠ BitVec.ofNat 64 (k.resetVal (e.1 / 256))) ∧
    Memory.wf s.hostMem = true := by
  simp only [State.canonical, Bool.and_eq_true, List.all_eq_true, decide_eq_true_eq, and_assoc]

/-- A write of the register file lists an old entry, or the written one where it is not the reset value. -/
theorem State.mem_regs_setReg {s : State} {k : RegKind} {i v : Nat} {e : Nat × Word64} (he : e ∈ (s.setReg k i v).regs) :
    e ∈ s.regs ∨ e = (k.key i, BitVec.ofNat 64 v) ∧ BitVec.ofNat 64 v ≠ BitVec.ofNat 64 (k.resetVal i) := by
  simp only [State.setReg, Tab.set] at he
  split_ifs at he with h
  · exact .inl (Tab.mem_erase he)
  · exact (Tab.mem_insert he).symm.imp_right fun heq => ⟨heq, h⟩

/-- Writing a register keeps a state canonical. -/
theorem State.canonical_setReg {s : State} (hs : s.canonical = true) (k : RegKind) (i v : Nat) : (s.setReg k i v).canonical = true := by
  obtain ⟨hr, hd, hm⟩ := State.canonical_iff.1 hs
  refine State.canonical_iff.2 ⟨State.rising_setReg s hr k i v, fun e he k' hk' => ?_, hm⟩
  rcases State.mem_regs_setReg he with he | ⟨rfl, hne⟩
  · exact hd e he k' hk'
  · rw [RegKind.key_mod, RegKind.key_div]
    by_cases hc : k'.code = k.code
    · exact .inr (RegKind.code_injective hc ▸ hne)
    · exact .inl hc

/-- After cold reset the register file lists nothing, so every register reads as its reset value. -/
theorem State.reg_reset (k : RegKind) (i : Nat) : State.reset.reg k i = k.resetVal i % 2 ^ 64 :=
  BitVec.toNat_ofNat ..

/-! ## The step -/

/-- A step with nothing waiting is a tick of device time (log 5). -/
theorem step_nil {s : State} (h : s.pending = []) : step s = .next s.tick := by
  simp [step, h]

/-! ## The thermal trip (R443) -/

/-- At 115 °C the clocks of a device stop and its trip output is asserted. -/
theorem exec_hardwareTrip_of_hot {s : State} (hc : s.clocks = true) (hp : s.pins.porLow = false) {tj : Nat} (ht : 920 ≤ tj) :
    exec (.hardwareTrip tj) s = .next { (s.put F.CLK_STATUS.ROOT_LOCK 0 false) with
      clocks := false, pins := { s.pins with thermTrip := true } } := by
  show execHardwareTrip tj s = _
  rw [execHardwareTrip, State.ifClocked_of_clocks hc hp, if_pos ht]

/-- At 115 °C a device whose clocks run is dead until its next cold reset. -/
theorem exec_hardwareTrip_dead {s : State} (hc : s.clocks = true) (hp : s.pins.porLow = false) (hq : Instr.coldReset ∉ s.pending)
    {tj : Nat} (ht : 920 ≤ tj) : ∃ t, exec (.hardwareTrip tj) s = .next t ∧ t.dead :=
  ⟨_, exec_hardwareTrip_of_hot hc hp ht, rfl, hp, by simpa using hq⟩

/-! ## The obligations -/

/-- Settles O1: the two cases of the command queue. -/
theorem stepRunsFrontCommand : Obligations.StepRunsFrontCommand :=
  ⟨fun _ _ _ => step_cons rfl, fun _ => step_nil⟩

/-- Settles O54: the fields of the reset state, and the trip from it. -/
theorem resetState : Obligations.ResetState := by
  have hq : Instr.coldReset ∉ State.reset.pending := List.not_mem_nil
  refine ⟨rfl, by decide, ?_, rfl, ?_, rfl, rfl, rfl, rfl, rfl, rfl, rfl, State.reg_reset,
    exec_hardwareTrip_dead rfl rfl hq le_rfl⟩
  · rintro ⟨hclocks, -, -⟩
    exact absurd hclocks (by decide)
  · exact List.forall_mem_nil _

/-- Settles O57: the register file reads back by the laws of tables, memory by induction over the bytes, and tables in canonical form
are equal where they read alike. -/
theorem registersAndMemoryReadBack : Obligations.RegistersAndMemoryReadBack := by
  refine ⟨fun s k i v hs => ?_, fun m a bs hm => ?_, fun m n hm hn h => Tab.eq_of_get_eq hm hn h⟩
  · obtain ⟨hr, -, -⟩ := State.canonical_iff.1 hs
    exact ⟨State.canonical_setReg hs k i v, State.reg_setReg_same s hr k i v, fun k' i' h => State.reg_setReg_other s hr h v⟩
  · exact ⟨Memory.wf_writeN hm a bs, Memory.readN_writeN_same hm a bs, fun b hb => Memory.read_writeN_other hm a bs hb⟩

/-- Settles O51: the three address spaces, the ways a write of BAR0 or BAR4 goes, and the access codes of fields that share no bit. -/
theorem hostRegisterWrites : Obligations.HostRegisterWrites := by
  refine ⟨⟨fun f off v s hc hp hoff => ?_, fun f off v s hl hoff ha => exec_registerWrite_core hl hoff ha,
    fun f bar off size v s hf hb hm => ?_⟩, fun k old v f hmem _ => ?_⟩
  · rw [exec_registerWrite_config hoff]
    exact ⟨fun hr => State.ifConfig_of_inReset hc hp hr _, fun hr h => State.ifConfig_of_ready hc hp hr h _,
      fun hr h hu => State.ifConfig_of_not_ready hc hp hr h hu _⟩
  · rw [exec_registerWrite_bar hf hb hm]
    refine ⟨fun ha => by rw [ha, if_neg Bool.false_ne_true], fun ha => ?_⟩
    rw [ha, if_pos rfl]
    refine ⟨fun hr h => by rw [State.hostWriteReg_of_none hr h], fun hr h4 h1 h2 => ?_, fun k i o hr => ?_⟩
    · subst h4
      rw [State.hostWriteReg_of_msix hr h1 h2 (hm.resolve_left (by decide))]
    · refine ⟨fun hw => by rw [State.hostWriteReg_of_denied hr hw], fun hw => ⟨fun hk => by rw [State.hostWriteReg_of_wide hr hw hk],
        fun hk => ?_⟩⟩
      rw [State.hostWriteReg_of_narrow hr hw hk]
      exact ⟨fun h => by rw [State.writeReg_of_rwa h], fun h hk => by rw [State.writeReg_of_link h hk],
        fun h hk hk' => by rw [State.writeReg_of_mgmt h hk hk'], fun h hk hk' => by rw [State.writeReg_of_core h hk hk']⟩
  · have hx := bits_storeFields_of_mem k.flds_apart hmem old v
    exact ⟨fun h => by rw [hx, h, stored], fun h => by rw [hx, h, stored], fun h h' => by rw [hx, stored_of_other h h']⟩

end Sys2Proof.Machine
end

section
/-! PROOFS. The words of instructions are made of fields (R7, R66), and the obligations on the encoding of cog instructions. -/

namespace Sys2Proof

/-! ## Words made of fields (R7) -/

theorem bits_eq_div_mod (x lo w : Nat) : bits x lo w = x / 2 ^ lo % 2 ^ w := by
  rw [bits, Nat.shiftRight_eq_div_pow]

/-- One bit, read as a Boolean or as a field of width 1. -/
theorem bit_eq_iff {x i : Nat} {b : Bool} : bit x i = b ↔ bits x i 1 = b2n b := by
  have := bits_lt x i 1
  cases b <;> simp [bit, b2n]
  omega

theorem b2n_lt_two (b : Bool) : b2n b < 2 ^ 1 := by cases b <;> decide

/-- The number that fields, width and value from bit 0 upward, make up. -/
def packFields : List (Nat × Nat) → Nat
  | [] => 0
  | f :: fs => f.2 + packFields fs * 2 ^ f.1

/-- Every field fits its width. -/
def fieldsFit : List (Nat × Nat) → Prop
  | [] => True
  | f :: fs => f.2 < 2 ^ f.1 ∧ fieldsFit fs

/-- `x` holds the fields, one after another from bit `lo` upward. -/
def holdsFields (x : Nat) : Nat → List (Nat × Nat) → Prop
  | _, [] => True
  | lo, f :: fs => bits x lo f.1 = f.2 ∧ holdsFields x (lo + f.1) fs

/-- A number is made up of fields that fit exactly where it holds them and nothing above. -/
theorem packFields_eq_iff {fs : List (Nat × Nat)} {x lo : Nat} (hx : x / 2 ^ lo < 2 ^ (fs.map Prod.fst).sum) :
    fieldsFit fs ∧ packFields fs = x / 2 ^ lo ↔ holdsFields x lo fs := by
  induction fs generalizing lo with
  | nil =>
    simp only [List.map_nil, List.sum_nil, pow_zero, Nat.lt_one_iff] at hx
    simp [fieldsFit, packFields, holdsFields, hx]
  | cons f fs ih =>
    obtain ⟨w, v⟩ := f
    have hlo : x / 2 ^ (lo + w) = x / 2 ^ lo / 2 ^ w := by rw [Nat.pow_add, Nat.div_div_eq_div_mul]
    rw [holdsFields, ← ih (hlo ▸ Nat.div_lt_of_lt_mul (by simpa [Nat.pow_add] using hx)), hlo, bits_eq_div_mod, fieldsFit, packFields]
    have hdiv : x / 2 ^ lo / 2 ^ w = packFields fs ∧ x / 2 ^ lo % 2 ^ w = v ↔ v + 2 ^ w * packFields fs = x / 2 ^ lo ∧ v < 2 ^ w :=
      Nat.div_mod_unique (Nat.two_pow_pos w)
    rw [mul_comm] at hdiv
    constructor
    · rintro ⟨⟨hv, hfs⟩, hp⟩
      obtain ⟨hq, hr⟩ := hdiv.2 ⟨hp, hv⟩
      exact ⟨hr, hfs, hq.symm⟩
    · rintro ⟨hr, hfs, hq⟩
      obtain ⟨hp, hv⟩ := hdiv.1 ⟨hq.symm, hr⟩
      exact ⟨⟨hv, hfs⟩, hp⟩

/-- Fields that fit make up a number that fits their widths together. -/
theorem packFields_lt {fs : List (Nat × Nat)} (h : fieldsFit fs) : packFields fs < 2 ^ (fs.map Prod.fst).sum := by
  induction fs with
  | nil => simp [packFields]
  | cons f fs ih =>
    obtain ⟨hf, hfs⟩ := h
    calc f.2 + packFields fs * 2 ^ f.1
        < 2 ^ f.1 + packFields fs * 2 ^ f.1 := Nat.add_lt_add_right hf _
      _ = (packFields fs + 1) * 2 ^ f.1 := by ring
      _ ≤ 2 ^ (fs.map Prod.fst).sum * 2 ^ f.1 := Nat.mul_le_mul_right _ (ih hfs)
      _ = 2 ^ ((f :: fs).map Prod.fst).sum := by rw [List.map_cons, List.sum_cons, Nat.pow_add, mul_comm]

end Sys2Proof

namespace Sys2Proof.Machine

/-! ## The encoding of cog instructions (R66) -/

/-- The fields of the head of an instruction, PSEL first. -/
def CogHead.fields (h : CogHead) : List (Nat × Nat) := [(4, h.psel), (1, b2n h.pneg), (8, h.opc)]

/-- The fields of an instruction word from bit 0 upward: the encoding tables of R66. -/
def CogInstr.fields : CogInstr → List (Nat × Nat)
  | .s h ctr csel creg addr rsvd count =>
    [(24, count), (12, rsvd), (8, addr), (4, creg), (1, b2n csel), (2, ctr)] ++ h.fields
  | .a h ad as_ cond pd rsvd imm => [(32, imm), (5, rsvd), (3, pd), (3, cond), (4, as_), (4, ad)] ++ h.fields
  | .c h dst sa sb sc type pop et imm =>
    [(20, imm), (1, b2n et), (3, pop), (3, type), (6, sc), (6, sb), (6, sa), (6, dst)] ++ h.fields
  | .u h qsr areg sreg creg cs rsvd count =>
    [(24, count), (8, rsvd), (1, b2n cs), (4, creg), (4, sreg), (4, areg), (6, qsr)] ++ h.fields

/-- The format of an instruction, as `fmtOf` numbers them. -/
def CogInstr.format : CogInstr → Nat
  | .s .. => 0
  | .a .. => 1
  | .c .. => 2
  | .u .. => 3

theorem CogInstr.fields_width (i : CogInstr) : (i.fields.map Prod.fst).sum = 64 := by cases i <;> rfl

/-- The head of a word has some fields where the word does. -/
theorem headOf_eq_iff {w : Nat} {h : CogHead} :
    headOf w = h ↔ bits w 56 8 = h.opc ∧ bits w 55 1 = b2n h.pneg ∧ bits w 51 4 = h.psel := by
  cases h
  simp only [headOf, CogHead.mk.injEq, bit_eq_iff]

theorem fmtOf_isSome {opc : Nat} : (fmtOf opc).isSome = true ↔ opc < 0x58 := by
  unfold fmtOf
  split_ifs <;> simp <;> omega

theorem fmtOf_le_three {opc k : Nat} (h : fmtOf opc = some k) : k ≤ 3 := by
  unfold fmtOf at h
  split_ifs at h <;> simp at h <;> omega

/-- The encoding of an instruction is made up of its fields. -/
theorem cogEncode_eq (i : CogInstr) : cogEncode i = BitVec.ofNat 64 (packFields i.fields) := by
  cases i <;>
  · simp only [cogEncode, CogInstr.fields, CogHead.fields, CogHead.word, packFields, List.cons_append, List.nil_append]
    refine congrArg (BitVec.ofNat 64) ?_
    omega

/-- An instruction is well-formed where its opcode selects its format and its fields fit. -/
theorem CogInstr.wf_iff (i : CogInstr) : i.wf = true ↔ fmtOf i.opc = some i.format ∧ fieldsFit i.fields := by
  have hopc {k : Nat} (h : fmtOf i.opc = some k) : i.head.opc < 256 :=
    lt_trans (fmtOf_isSome.1 (Option.isSome_of_eq_some h)) (by decide)
  cases i <;>
  · simp only [CogInstr.wf, Bool.and_eq_true, decide_eq_true_eq, beq_iff_eq]
    simp only [CogInstr.opc, CogInstr.head, CogInstr.format, CogInstr.fields, CogHead.fields, fieldsFit, List.cons_append, List.nil_append,
      b2n_lt_two, true_and, and_true] at hopc ⊢
    constructor
    · rintro ⟨hp, hf, hb⟩
      have := hopc hf
      refine ⟨hf, ?_⟩
      omega
    · rintro ⟨hf, hb⟩
      refine ⟨?_, hf, ?_⟩ <;> omega

/-- A word that holds the fields of an instruction holds its opcode in bits [63:56]. -/
theorem CogInstr.opc_of_holdsFields {i : CogInstr} {x : Nat} (h : holdsFields x 0 i.fields) : bits x 56 8 = i.opc := by
  cases i <;> simp_all [CogInstr.fields, CogHead.fields, holdsFields, CogInstr.opc, CogInstr.head]

/-- The opcode of a word selects the format of the instruction it decodes to. -/
theorem fmtOf_of_cogDecode {w : Word64} {i : CogInstr} (h : cogDecode w = some i) : fmtOf (bits w.toNat 56 8) = some i.format := by
  unfold cogDecode at h
  dsimp only at h
  split at h
  next hf => cases h; exact hf
  next hf => cases h; exact hf
  next hf => cases h; exact hf
  next k h0 h1 h2 hf =>
    have hk : k = 3 := by
      have := fmtOf_le_three hf
      change k ≠ 0 at h0
      change k ≠ 1 at h1
      change k ≠ 2 at h2
      omega
    cases h
    rw [hf, hk, CogInstr.format]
  next => cases h

/-- A word decodes to the instruction whose fields it holds, where its opcode selects that format. -/
theorem cogDecode_eq_some {w : Word64} {i : CogInstr} :
    cogDecode w = some i ↔ fmtOf i.opc = some i.format ∧ holdsFields w.toNat 0 i.fields := by
  by_cases hf : fmtOf (bits w.toNat 56 8) = some i.format
  · rw [and_iff_right_of_imp fun h => CogInstr.opc_of_holdsFields h ▸ hf]
    cases i <;>
    · simp only [CogInstr.format] at hf
      simp only [cogDecode, hf, Option.some.injEq, CogInstr.s.injEq, CogInstr.a.injEq, CogInstr.c.injEq, CogInstr.u.injEq, headOf_eq_iff,
        bit_eq_iff, CogInstr.fields, CogHead.fields, List.cons_append, List.nil_append, holdsFields, Nat.reduceAdd, and_true]
      tauto
  · exact ⟨fun h => absurd (fmtOf_of_cogDecode h) hf, fun ⟨hi, h⟩ => absurd (CogInstr.opc_of_holdsFields h ▸ hi) hf⟩

/-- Decoding and encoding are inverse on well-formed instructions. -/
theorem cogDecode_eq_some_iff {w : Word64} {i : CogInstr} : cogDecode w = some i ↔ i.wf = true ∧ cogEncode i = w := by
  have hw : w.toNat / 2 ^ 0 < 2 ^ (i.fields.map Prod.fst).sum := by
    rw [i.fields_width, pow_zero, Nat.div_one]
    exact w.isLt
  rw [cogDecode_eq_some, ← packFields_eq_iff hw, pow_zero, Nat.div_one, i.wf_iff, and_assoc, cogEncode_eq]
  refine and_congr_right fun _ => and_congr_right fun hfit => ?_
  have hlt := i.fields_width ▸ packFields_lt hfit
  rw [← BitVec.toNat_inj, BitVec.toNat_ofNat, Nat.mod_eq_of_lt hlt]

/-- A word decodes exactly where its opcode is in a format. -/
theorem cogDecode_isSome {w : Word64} : (cogDecode w).isSome = (fmtOf (bits w.toNat 56 8)).isSome := by
  unfold cogDecode
  dsimp only
  split <;> simp [*]

/-- The opcode of a word, without its bound. -/
theorem opc_of_word (w : Word64) : bits w.toNat 56 8 = w.toNat / 2 ^ 56 := by
  rw [bits_eq_div_mod]
  exact Nat.mod_eq_of_lt (Nat.div_lt_of_lt_mul w.isLt)

/-- Settles O19: a word decodes to an instruction exactly where the instruction is well-formed and encodes to the word. -/
theorem cogInstructionsRoundTrip : Obligations.CogInstructionsRoundTrip :=
  ⟨fun _ hi => cogDecode_eq_some_iff.2 ⟨hi, rfl⟩, fun _ _ => cogDecode_eq_some_iff.1, fun w => by
    rw [cogDecode_isSome, fmtOf_isSome, opc_of_word]⟩

/-- Settles O20: the words are evaluated. -/
theorem exampleWordsDecode : Obligations.ExampleWordsDecode := by
  refine ⟨?_, ?_, ?_, ?_, ?_, ?_, ?_, ?_, ?_⟩ <;> decide

end Sys2Proof.Machine
end

section
/-! PROOFS. What the cog sequencer makes of each instruction that fires (R49 to R69), the end test of loops (R55) and the elements of an
accumulator bank (R91). -/

namespace Sys2Proof.Machine

variable {s : State} {c : CogId} {i : CogInstr} {vs : List Nat} {y : Cog}

/-! ## The end test of loops (R55, R112) -/

/-- Where the innermost loop does not end at the instruction, or no loop is open, the sequencer goes on. -/
theorem endTest_of_head_ne {ctr : Tab Nat} {ls : List LoopEntry} {q : Nat} (h : ∀ l ∈ ls.head?, l.stop ≠ q) :
    endTest ctr ls q = ((q + 1) % 256, ctr, ls) := by
  cases ls with
  | nil => rfl
  | cons l ls => exact if_neg (h l rfl)

/-- A loop with iterations left goes back to its start. -/
theorem endTest_of_again {ctr : Tab Nat} {l : LoopEntry} {ls : List LoopEntry} {q : Nat} (hq : l.stop = q)
    (hc : 1 < Tab.get 0 ctr l.ctr) :
    endTest ctr (l :: ls) q = (l.start, Tab.set 0 ctr l.ctr (Tab.get 0 ctr l.ctr - 1), l :: ls) := by
  rw [endTest, if_pos hq, if_pos hc]

/-- A loop in its last iteration is left, and the loop around it is tested. -/
theorem endTest_of_last {ctr : Tab Nat} {l : LoopEntry} {ls : List LoopEntry} {q : Nat} (hq : l.stop = q)
    (hc : Tab.get 0 ctr l.ctr ≤ 1) : endTest ctr (l :: ls) q = endTest ctr ls q := by
  rw [endTest, if_pos hq, if_neg (Nat.not_lt.2 hc)]

/-- Settles O3: the cases of the end test. -/
theorem cogLoopEndTest : Obligations.CogLoopEndTest := by
  intro x q
  refine ⟨fun h => ?_, fun l ls hl hq => ⟨fun hc => ?_, fun hc => ?_⟩⟩
  · rw [Cog.retireAt, endTest_of_head_ne fun l hl => h l (List.mem_of_mem_head? hl)]
  · rw [Cog.retireAt, hl, endTest_of_again hq hc, ← hl]
    rfl
  · rw [Cog.retireAt, hl, endTest_of_last hq hc]
    rfl

/-! ## Instructions that fire (R50, R67) -/

/-- What a command answers whose meaning is one instruction of a cog, where that instruction fires. -/
theorem next_cogStep_of_fires (hf : s.fires c i vs y) {opc : Nat} (ho : i.opc = opc) (f : CogInstr → List Nat → Cog → Cog) :
    (.next (s.cogStep c opc f) : Result) = .next (s.fired c (f i vs y)) := by
  rw [State.cogStep_of_fires hf ho]

/-- LOOP where it fires: its count decides whether the body is entered (R55). -/
theorem exec_loop_of_fires {h : CogHead} {k creg addr r n : Nat} {sel : Bool} (hf : s.fires c (.s h k sel creg addr r n) vs y)
    (ho : h.opc = 0x01) : exec (.loop c) s = .next (s.fired c (if y.count sel creg n = 0 then y.retireAt addr else
      { y with loops := ⟨k, y.pc + 1, addr⟩ :: y.loops, ctr := Tab.set 0 y.ctr k (y.count sel creg n),
               ctrInit := Tab.set 0 y.ctrInit k (y.count sel creg n), pc := y.pc + 1 })) :=
  congrArg _ (State.cogStepWith_of_fires hf ho _ _)

/-- p0 is true whatever is written to it (R54). -/
theorem Cog.p_zero (x : Cog) : x.p 0 = true := rfl

/-- Settles O2: each instruction's effect, where it fires. -/
theorem cogControlAndAddressOps : Obligations.CogControlAndAddressOps := by
  refine ⟨fun c s h k creg addr r n sel hf => ⟨?nop, ?loopSkips, ?loopEnters, ?br, ?cogEnd, ?stop⟩,
    fun c s h ad as_ cond pd r imm hf => ⟨?aimm, ?aadd, ?aaddr, ?pcmp, ?pset, ?acnt, Cog.p_zero _⟩⟩
  case loopSkips => exact fun ho hn => by rw [exec_loop_of_fires hf ho, if_pos hn]
  case loopEnters => exact fun ho hn => by rw [exec_loop_of_fires hf ho, if_neg hn]
  all_goals exact fun ho => next_cogStep_of_fires hf ho _

/-- VCVT where it fires: an 8-bit DTYPE takes half of a register, another the whole destination (R101 to R103). -/
theorem exec_vcvt_of_fires {h : CogHead} {dst sa sb sc type pop imm : Nat} {et : Bool}
    (hf : s.fires c (.c h dst sa sb sc type pop et imm) vs y) (ho : h.opc = 0x29) :
    exec (.vcvt c) s = .next (s.fired c (y.result false y.plane
      (if 2 ≤ bits imm 16 3 then [.vreg dst (BitVec.ofNat 256 (setBits (y.v dst) (if bit imm 15 then 128 else 0) 128
          (vcvtLanes (s.numCfg c) type (bits imm 16 3) (vs.getD 0 0))))]
        else vecDest dst (resultFlits h.opc type imm) (vcvtLanes (s.numCfg c) type (bits imm 16 3) (vs.getD 0 0)) y.plane et)).retire) := by
  rw [ho]
  exact next_cogStep_of_fires hf ho _

/-- VSEL where it fires. -/
theorem exec_vsel_of_fires {h : CogHead} {dst sa sb sc type pop imm : Nat} {et : Bool}
    (hf : s.fires c (.c h dst sa sb sc type pop et imm) vs y) (ho : h.opc = 0x28) :
    exec (.vsel c) s = .next (s.fired c (y.result true y.plane (vecDest dst (resultFlits h.opc type imm)
      (lanes16 (typeBits type) fun i => if lane (typeBits type) (vs.getD 2 0) i ≠ 0 then lane (typeBits type) (vs.getD 0 0) i
        else lane (typeBits type) (vs.getD 1 0) i) y.plane et)).retire) := by
  simp only [← bne_iff_ne]
  exact next_cogStep_of_fires hf ho _

/-- Settles O4: each instruction's effect, where it fires. -/
theorem cogVectorOps : Obligations.CogVectorOps := by
  refine ⟨fun c s h dst sa sb sc type pop imm et vs y hf => ⟨?vmov, ?vsel, ?vbcast, ?vimm⟩,
    fun c s h dst sa sb sc type pop imm et vs y hf => ⟨?vadd, ?vsub, ?vmul, ?vfma, ?vmax, ?vmin, ?vcmp, ?vred, ?vexp2, ?vrcp, ?vrsq,
      ?vcvtWide, ?vcvtNarrow, ?vtst⟩⟩
  case vsel => exact fun ho => exec_vsel_of_fires hf ho
  case vcvtWide => exact fun ho hd => by rw [exec_vcvt_of_fires hf ho, if_neg (Nat.not_le.2 hd)]
  case vcvtNarrow => exact fun ho hd => by rw [exec_vcvt_of_fires hf ho, if_pos hd]
  all_goals exact fun ho => next_cogStep_of_fires hf ho _

/-- UREAD where it fires (R64). -/
theorem exec_uread_of_fires {h : CogHead} {qsr areg sreg creg r n : Nat} {cs : Bool} (hf : s.fires c (.u h qsr areg sreg creg cs r n) vs y)
    (ho : h.opc = 0x50) : exec (.uread c) s = .next (s.fired c ({ y with
      uread := if y.count cs creg n = 0 then none else some ⟨(y.areg areg).toNat, (y.areg sreg).toNat, y.count cs creg n, y.plane⟩ } : Cog).retire) :=
  next_cogStep_of_fires hf ho _

/-- UWRITE where it fires (R63). -/
theorem exec_uwrite_of_fires {h : CogHead} {qsr areg sreg creg r n : Nat} {cs : Bool} (hf : s.fires c (.u h qsr areg sreg creg cs r n) vs y)
    (ho : h.opc = 0x51) : exec (.uwrite c) s = .next (s.fired c ({ y with
      uwrite := (if y.count cs creg n = 0 then none else some
        ⟨qsr, (y.areg areg).toNat, (y.areg sreg).toNat, y.count cs creg n - 1, [BitVec.ofNat 256 (vs.getD 0 0)], y.plane⟩) } : Cog).retire) :=
  next_cogStep_of_fires hf ho _

/-- Settles O6: each instruction's effect, where it fires. -/
theorem cogMatrixAndBankOps : Obligations.CogMatrixAndBankOps := by
  refine ⟨fun c s h dst sa sb sc type pop imm et vs y hf => ⟨?mma, ?accrd, ?accz⟩,
    fun c s h qsr areg sreg creg r n cs vs y hf => ⟨?uread, ?ureadNone, ?uwrite, ?uwriteNone⟩⟩
  case uread => exact fun ho hn => by rw [exec_uread_of_fires hf ho, if_neg hn]
  case ureadNone => exact fun ho hn => by rw [exec_uread_of_fires hf ho, if_pos hn]
  case uwrite => exact fun ho hn => by rw [exec_uwrite_of_fires hf ho, if_neg hn]
  case uwriteNone => exact fun ho hn => by rw [exec_uwrite_of_fires hf ho, if_pos hn]
  all_goals exact fun ho => next_cogStep_of_fires hf ho _

/-! ## Elements of an accumulator bank (R68, R91) -/

section
variable {α : Type} [DecidableEq α] {d : α}

/-- Writing the `n` keys from `b` upward keeps the canonical form. -/
theorem rising_foldl_set {m : Tab α} (hm : Tab.rising m = true) (b n : Nat) (f : Nat → α) :
    Tab.rising ((List.range n).foldl (fun m k => Tab.set d m (b + k) (f k)) m) = true :=
  List.foldlRecOn (motive := fun m => Tab.rising m = true) _ _ hm fun _ h k _ => Tab.rising_set d h (b + k) (f k)

/-- Writing the `n` keys from `b` upward: each of them reads as written, every other key as before. -/
theorem get_foldl_set {m : Tab α} (hm : Tab.rising m = true) (b n q : Nat) (f : Nat → α) :
    Tab.get d ((List.range n).foldl (fun m k => Tab.set d m (b + k) (f k)) m) q =
      if b ≤ q ∧ q < b + n then f (q - b) else Tab.get d m q := by
  induction n with
  | zero => rw [if_neg (by omega)]; rfl
  | succ n ih =>
    rw [List.range_succ, List.foldl_append, List.foldl_cons, List.foldl_nil]
    have hr := rising_foldl_set (d := d) hm b n f
    by_cases hq : q = b + n
    · rw [hq, Tab.get_set_same d hr, if_pos (by omega), Nat.add_sub_cancel_left]
    · rw [Tab.get_set_other d d hr hq, ih]
      congr 1
      exact propext (by omega)

end

/-- The cog with the 64 elements of an accumulator bank written (R68). -/
def Cog.setBank (x : Cog) (b : Nat) (f : Nat → Nat) : Cog :=
  { x with acc := (List.range 64).foldl (fun m n => Tab.set 0 m (64 * b + n) (f n)) x.acc }

theorem Cog.put_accAdd (x : Cog) (b : Nat) (as_ bs : List (List Nat)) (at_ bt scale : Nat) (zero : Bool) :
    x.put (.accAdd b as_ bs at_ bt scale zero) = x.setBank b fun n =>
      mmaElem at_ bt scale zero (x.accAt b n) (as_.map (·.getD (n / 8) 0)) (bs.map (·.getD (n % 8) 0)) := rfl

theorem Cog.put_acc (x : Cog) (b : Nat) (vs : List Nat) : x.put (.acc b vs) = x.setBank b fun n => vs.getD n 0 := rfl

section
variable {x : Cog} (hx : Tab.rising x.acc = true) {n : Nat} (hn : n < 64)
include hx hn

theorem Cog.accAt_setBank_same (b : Nat) (f : Nat → Nat) : (x.setBank b f).accAt b n = f n := by
  rw [Cog.accAt, Cog.setBank, get_foldl_set hx, if_pos (by omega), Nat.add_sub_cancel_left]

theorem Cog.accAt_setBank_other {b b' : Nat} (hb : b' ≠ b) (f : Nat → Nat) : (x.setBank b f).accAt b' n = x.accAt b' n := by
  rw [Cog.accAt, Cog.setBank, get_foldl_set hx, if_neg (by omega), Cog.accAt]

end

/-- Settles O7: an MMA result and zeros write one bank whole. -/
theorem accumulatorElements : Obligations.AccumulatorElements := by
  intro x b n as_ bs at_ bt scale zero hb hn hx
  rw [Cog.put_accAdd, Cog.put_acc, Cog.accAt_setBank_same hx hn, Cog.accAt_setBank_same hx hn,
    Cog.accAt_setBank_other hx hn (by omega)]
  exact ⟨rfl, rfl, rfl⟩

end Sys2Proof.Machine
end

section
/-! PROOFS. What a cog instruction that fires leaves unchanged (R49, R50, R53, R78). -/

namespace Sys2Proof.Machine

variable {s t : State} {c : Nat}

/-! ## States that differ at most in one cog -/

theorem CogOnly.refl (c : Nat) (s : State) : CogOnly c s s :=
  ⟨rfl, rfl, rfl, rfl, rfl, rfl, rfl, rfl, rfl, ⟨rfl, rfl⟩, fun _ _ _ => rfl,
    rfl, rfl, rfl, rfl, rfl, rfl, rfl, rfl, rfl, rfl, rfl, rfl, rfl, rfl, rfl⟩

/-- What the region remembers is not among what is claimed to stay. -/
theorem CogOnly.setRegion (h : CogOnly c s t) (k : Nat) (r : Region) : CogOnly c s (t.setRegion k r) :=
  { h with }

theorem CogOnly.setCmd (h : CogOnly c s t) (n : Nat) (k : Cmd) : CogOnly c s (t.setCmd n k) :=
  { h with }

theorem CogOnly.modCmd (h : CogOnly c s t) (n : Nat) (f : Cmd → Cmd) : CogOnly c s (t.modCmd n f) := by
  unfold State.modCmd
  split
  · exact h.setCmd n _
  · exact h

theorem State.rising_setCog (hs : Tab.rising s.arr.cogs = true) (c : Nat) (x : Cog) : Tab.rising (s.setCog c x).arr.cogs = true :=
  Tab.rising_set _ hs _ _

/-- The cog itself may change. -/
theorem CogOnly.setCog (h : CogOnly c s t) (hr : Tab.rising s.arr.cogs = true → Tab.rising t.arr.cogs = true) (x : Cog) :
    CogOnly c s (t.setCog c x) :=
  { h with
    others := fun hs c' hc => (State.cog_setCog_other t (hr hs) hc x).trans (h.others hs c' hc) }

/-- An event in a cog changes what the cog, its region and its command remember of quiet time (R75, R78). -/
theorem CogOnly.note (h : CogOnly c s t) (hr : Tab.rising s.arr.cogs = true → Tab.rising t.arr.cogs = true) (b : Bool) :
    CogOnly c s (t.note c b) := by
  have hw : CogOnly c s (t.rewait c) := h.setCog hr _
  unfold State.note
  dsimp only
  split
  · exact hw
  · refine CogOnly.setRegion ?_ _ _
    split
    · exact hw.modCmd _ _
    · exact hw

/-- An instruction that fires changes its own cog only (R49). -/
theorem State.cogOnly_fired (s : State) (c : Nat) (x : Cog) : CogOnly c s (s.fired c x) :=
  ((CogOnly.refl c s).setCog id _).note (fun hs => State.rising_setCog hs c _) true

/-- Every cog instruction is one step of its cog, with an effect of its own (R49 to R53). -/
theorem exec_of_cogOp {i : Instr} {c : CogId} {opc : Nat} (h : cogOp i = some (c, opc)) (s : State) :
    ∃ skip f, exec i s = .next (s.cogStepWith c opc skip f) := by
  unfold cogOp at h
  split at h <;> cases h <;> exact ⟨_, _, rfl⟩

/-- Settles O9: what fires is recorded by `State.fired`, which keeps to its cog. -/
theorem cogInstructionFrame : Obligations.CogInstructionFrame := by
  intro i c opc d vs y s hi ho hf
  obtain ⟨skip, f, he⟩ := exec_of_cogOp hi s
  exact ⟨_, he.trans (congrArg _ (State.cogStepWith_of_fires hf ho skip f)), s.cogOnly_fired c _⟩

end Sys2Proof.Machine
end

section
/-! PROOFS. Input queues keep their order (R43), and what a discarded flit leaves unchanged (R44). -/

namespace Sys2Proof

/-- A key that a canonical table lists is found. -/
theorem Tab.find_of_mem {α : Type} {m : Tab α} (hm : Tab.rising m = true) {e : Nat × α} (he : e ∈ m) : Tab.find m e.1 = some e.2 := by
  induction m with
  | nil => cases he
  | cons f m ih =>
    obtain ⟨j, v⟩ := f
    obtain ⟨hj, hr⟩ := Tab.rising_cons.1 hm
    rcases List.mem_cons.1 he with rfl | he
    · simp [Tab.find]
    · have := hj e he
      rw [Tab.find, if_neg (by omega), if_neg (by omega), ih hr he]

/-- Writing a key that is listed changes no key's being listed. -/
theorem Tab.isSome_find_insert {α : Type} {m : Tab α} (hm : Tab.rising m = true) {k : Nat} (hk : (Tab.find m k).isSome = true) (v : α)
    (q : Nat) : (Tab.find (Tab.insert m k v) q).isSome = (Tab.find m q).isSome := by
  by_cases hq : q = k
  · rw [hq, Tab.find_insert_same, hk, Option.isSome_some]
  · rw [Tab.find_insert_other hm hq]

end Sys2Proof

namespace Sys2Proof.Machine

/-! ## Settling a queue (R35, R43, R136) -/

theorem InQ.flits_pop (v : InQ) : v.pop.flits = v.flits.drop 1 := rfl
theorem InQ.spill_pop (v : InQ) : v.pop.spill = v.spill := rfl
theorem InQ.credits_pop (v : InQ) : v.pop.credits = v.credits := rfl

/-- Outside a spill episode the entry that a flit leaves is freed (R35). -/
theorem InQ.freed_pop {v : InQ} (h : v.spill = none) : v.pop.freed = v.freed + 1 := by simp [InQ.pop, h]

/-- One step of settling: an empty queue and a head flit that has not had every action stay, another head flit leaves. -/
theorem Cog.settleQ_succ (x : Cog) (q n : Nat) (v : InQ) :
    x.settleQ q (n + 1) v = v ∨ (v.flits ≠ [] ∧ x.settleQ q (n + 1) v = x.settleQ q n v.pop) := by
  rw [Cog.settleQ]
  cases hv : v.flits with
  | nil => exact .inl rfl
  | cons f fs =>
    dsimp only
    split_ifs
    · exact .inr ⟨List.cons_ne_nil _ _, rfl⟩
    · exact .inl rfl

/-- Settles O11: by induction on the bound of settling, each step leaving the queue or dropping its head. -/
theorem queuesKeepOrder : Obligations.QueuesKeepOrder := by
  intro x q n v
  induction n generalizing v with
  | zero => exact ⟨0, le_rfl, Nat.zero_le _, rfl, rfl, rfl, fun _ => rfl⟩
  | succ n ih =>
    rcases x.settleQ_succ q n v with h | ⟨hne, h⟩
    · rw [h]
      exact ⟨0, Nat.zero_le _, Nat.zero_le _, rfl, rfl, rfl, fun _ => rfl⟩
    · obtain ⟨k, hkn, hkl, hf, hs, hc, hfr⟩ := ih v.pop
      rw [h]
      have hlen := List.length_pos_of_ne_nil hne
      rw [InQ.flits_pop, List.length_drop] at hkl
      refine ⟨k + 1, by omega, by omega, ?_, hs.trans v.spill_pop, hc.trans v.credits_pop, fun hsp => ?_⟩
      · rw [hf, InQ.flits_pop, List.drop_drop, Nat.add_comm]
      · rw [hfr (v.spill_pop.trans hsp), InQ.freed_pop hsp]
        omega

/-- A settled queue of a cog holds what is left of it after some flits from the head. -/
theorem Cog.flits_settle {x : Cog} (hx : Tab.rising x.inq = true) (q : Nat) (v : InQ) :
    ∃ k, ((x.settle q v).iq q).flits = v.flits.drop k := by
  obtain ⟨k, -, -, hf, -⟩ := queuesKeepOrder x q 8 v
  refine ⟨k, ?_⟩
  rw [← hf]
  exact congrArg InQ.flits (Tab.get_set_same InQ.start hx q _)

/-! ## Raising a source (R404, R414) and noting an event (R75, R141) -/

variable {s : State} {c : Nat}

@[simp] theorem State.arr_raise (s : State) (n : Nat) : (s.raise n).arr = s.arr := by
  unfold State.raise State.handOver State.request
  split_ifs <;> simp

@[simp] theorem State.ctl_raise (s : State) (n : Nat) : (s.raise n).ctl = s.ctl := by
  unfold State.raise State.handOver State.request
  split_ifs <;> simp

@[simp] theorem State.mem_raise (s : State) (n : Nat) : (s.raise n).mem = s.mem := by
  unfold State.raise State.handOver State.request
  split_ifs <;> simp

/-- An event at a cog that moves nothing: its wait, and what its region remembers of the deadlock conditions. -/
theorem State.note_false_eq (s : State) (c : Nat) : s.note c false = s.rewait c ∨
    ∃ k r r', s.regionOf c = some (k, r) ∧ s.note c false = (s.rewait c).setRegion k r' := by
  have hr : (s.rewait c).regionOf c = s.regionOf c := State.regionOf_of_setCog ..
  unfold State.note
  simp only [hr]
  split
  · exact .inl rfl
  next k r h => exact .inr ⟨k, r, _, h, rfl⟩

@[simp] theorem State.ctl_note_false (s : State) (c : Nat) : (s.note c false).ctl = s.ctl := by
  rcases s.note_false_eq c with h | ⟨k, r, r', -, h⟩ <;> rw [h] <;> rfl

@[simp] theorem State.mem_note_false (s : State) (c : Nat) : (s.note c false).mem = s.mem := by
  rcases s.note_false_eq c with h | ⟨k, r, r', -, h⟩ <;> rw [h] <;> rfl

/-- The regions that run stay. -/
theorem State.regions_note_false (hs : Tab.rising s.arr.regions = true) (c k : Nat) :
    (Tab.find (s.note c false).arr.regions k).isSome = (Tab.find s.arr.regions k).isSome := by
  rcases s.note_false_eq c with h | ⟨k', r, r', hr, h⟩
  · rw [h]
    rfl
  · rw [h]
    have hf : Tab.find s.arr.regions k' = some r := Tab.find_of_mem hs (List.mem_of_find?_eq_some hr)
    exact Tab.isSome_find_insert hs (Option.isSome_of_eq_some hf) r' k

/-- FLIT_DISCARD_NO_ROUTE on a head flit that goes nowhere (R44). -/
theorem exec_flitDiscardNoRoute_of_no_route {c : CogId} {q : InId} {f : Flit} {fs : List Flit} (hl : s.live = true)
    (hf : ((s.cog c).iq q).flits = f :: fs) (hc : core ((s.cog c).routeOf q f) = false) (hw : fwd ((s.cog c).routeOf q f) = []) :
    exec (.flitDiscardNoRoute c q) s =
      .next (((s.setCog c ((s.cog c).settle q ((s.cog c).iq q).pop)).cogError (blockOf c)).note c false) := by
  show execFlitDiscardNoRoute c q s = _
  simp [execFlitDiscardNoRoute, State.ifLive_of_live hl, hf, hc, hw]

/-- Settles O60: the flit leaves its queue, and raising a source and noting an event keep commands, tensors and regions. -/
theorem unroutedFlitsAreDiscarded : Obligations.UnroutedFlitsAreDiscarded := by
  intro c q s f fs hl hf hcogs hregions hinq hcore hfwd
  refine ⟨_, _, exec_flitDiscardNoRoute_of_no_route hl hf hcore hfwd, rfl, ?_, ?_, ?_, ?_⟩
  · rw [State.cog_setCog_same s hcogs]
    obtain ⟨k, hk⟩ := Cog.flits_settle hinq q ((s.cog c).iq q).pop
    exact ⟨k, by rw [hk, InQ.flits_pop, hf]; rfl⟩
  · rw [State.cogError, State.ctl_note_false, State.ctl_raise, State.ctl_setCog]
  · rw [State.cogError, State.mem_note_false, State.mem_raise, State.mem_setCog]
  · intro k
    rw [State.cogError, State.regions_note_false, State.arr_raise, State.arr_regions_setCog]
    rwa [State.arr_raise, State.arr_regions_setCog]

end Sys2Proof.Machine
end

section
/-! PROOFS. Links and credits (R34 to R37, R47, R136), the router and the discards (R41 to R46, R129), and TURN marks (R125 to R132). -/

namespace Sys2Proof.Machine

variable {s : State}

/-! ## Links (R34 to R37, R47) -/

section
variable {c : Nat} {d : Side} {f : Flit}

/-- A flit received good is taken by the queue (R36). -/
theorem State.flitIn_good (hf : s.crossing c d = some f) (hc : ((s.cog c).iq d.num).credits ≠ 0) (hn : s.nacks c d < 8) :
    s.flitIn c d false = s.arrive c d f := by
  simp [State.flitIn, hf, hc, Nat.not_le.2 hn]

/-- A flit received bad is counted and will cross again (R36). -/
theorem State.flitIn_bad (hf : s.crossing c d = some f) (hc : ((s.cog c).iq d.num).credits ≠ 0) (hn : s.nacks c d < 8) :
    s.flitIn c d true = ((s.setNacks c d (s.nacks c d + 1)).count F.COG_LINK_ERR.REPLAYS (blockOf c) 1).fault 0 := by
  simp [State.flitIn, hf, hc, Nat.not_le.2 hn]

section
variable {fs : List Flit} (he : neighbour c d = none) (hf : ((s.cog c).oq d).flits = f :: fs) (hm : ((s.cog c).oq d).mark = false)
  (hn : ((s.cog c).oq d).nacks < 8)
include he hf hm hn

/-- A flit that leaves the array goes to its edge port where a command runs on the region (R47). -/
theorem State.flitOut_sink (hr : (s.regionOf c).isSome = true) : s.flitOut c d false =
    (let u := s.setCog c { (s.cog c).setOq d { (s.cog c).oq d with flits := fs, nacks := 0 } with woken := true }
     (u.setSinkAt c d (u.sinkAt c d ++ [f])).note c false) := by
  simp only [State.flitOut, he, hf]
  simp [hm, Nat.not_le.2 hn, hr]

/-- A flit that leaves the array where no command runs on the region is discarded (R47). -/
theorem State.flitOut_discard (hr : (s.regionOf c).isSome = false) : s.flitOut c d false =
    ((s.setCog c { (s.cog c).setOq d { (s.cog c).oq d with flits := fs, nacks := 0 } with woken := true }).cogError
      (blockOf c)).note c false := by
  simp only [State.flitOut, he, hf]
  simp [hm, Nat.not_le.2 hn, hr]

/-- A flit that leaves the array and is received bad is counted and will cross again (R36). -/
theorem State.flitOut_bad : s.flitOut c d true =
    ((s.setCog c ((s.cog c).setOq d { (s.cog c).oq d with nacks := ((s.cog c).oq d).nacks + 1 })).count F.COG_LINK_ERR.REPLAYS
      (blockOf c) 1).fault 0 := by
  simp only [State.flitOut, he, hf]
  simp [hm, Nat.not_le.2 hn]

end
end

section
variable {c : CogId} {d : Side} (hl : s.live = true)
include hl

theorem exec_flitArrive_into (bad : Bool) : exec (.flitArrive (.into c d) bad) s = .next (s.flitIn c d bad) := State.ifLive_of_live hl
theorem exec_flitArrive_out (bad : Bool) : exec (.flitArrive (.out c d) bad) s = .next (s.flitOut c d bad) := State.ifLive_of_live hl

/-- After eight negative acknowledgements the sender of a link into the array abandons the flit (R37). -/
theorem exec_flitReplayAbandon_into (hx : (s.crossing c d).isSome = true) (hn : s.nacks c d = 8) :
    exec (.flitReplayAbandon (.into c d)) s =
      .next ((((s.unsend c d).count F.COG_LINK_ERR.FAILS (blockOf c) 1).cogError (blockOf c)).abortRegion c eParity) := by
  show execFlitReplayAbandon (.into c d) s = _
  simp [execFlitReplayAbandon, State.ifLive_of_live hl, hx, hn]

/-- After eight negative acknowledgements an output queue at the edge abandons its head (R37). -/
theorem exec_flitReplayAbandon_out (he : neighbour c d = none) (hf : ((s.cog c).oq d).flits ≠ []) (hn : ((s.cog c).oq d).nacks = 8) :
    exec (.flitReplayAbandon (.out c d)) s =
      .next ((((s.setCog c ((s.cog c).setOq d { (s.cog c).oq d with flits := ((s.cog c).oq d).flits.drop 1, nacks := 0 })).count
        F.COG_LINK_ERR.FAILS (blockOf c) 1).cogError (blockOf c)).abortRegion c eParity) := by
  show execFlitReplayAbandon (.out c d) s = _
  simp [execFlitReplayAbandon, State.ifLive_of_live hl, he, hf, hn]

/-- CREDIT_RETURN: a freed entry outside a spill episode returns its credit (R35, R136). -/
theorem exec_creditReturn : exec (.creditReturn c d) s = .next (
    if ((s.cog c).iq d.num).freed = 0 ∨ ((s.cog c).iq d.num).spill.isSome = true then s
    else (s.setCog c ((s.cog c).setIq d.num { (s.cog c).iq d.num with
      freed := ((s.cog c).iq d.num).freed - 1, credits := ((s.cog c).iq d.num).credits + 1 })).note c false) := State.ifLive_of_live hl

end

/-- Settles O10: the cases of a link and of a credit. -/
theorem flitsAndCreditsCrossLinks : Obligations.FlitsAndCreditsCrossLinks := by
  refine ⟨fun c d s hl => ⟨fun f hf hc hn => ⟨?_, ?_⟩, fun f fs he hf hm hn => ⟨?_, ?_, ?_⟩, exec_flitReplayAbandon_into hl,
    exec_flitReplayAbandon_out hl⟩, fun c d s hl => ⟨fun hf hs => ?_, fun h => ?_⟩⟩
  · rw [exec_flitArrive_into hl, State.flitIn_good hf hc hn]
    rfl
  · rw [exec_flitArrive_into hl, State.flitIn_bad hf hc hn]
  · exact fun hr => (exec_flitArrive_out hl false).trans (congrArg _ (State.flitOut_sink he hf hm hn hr))
  · exact fun hr => (exec_flitArrive_out hl false).trans (congrArg _ (State.flitOut_discard he hf hm hn hr))
  · rw [exec_flitArrive_out hl, State.flitOut_bad he hf hm hn]
  · rw [exec_creditReturn hl, if_neg (by simp [hf, hs])]
  · rw [exec_creditReturn hl, if_pos (h.imp_right Option.isSome_iff_ne_none.2)]

/-! ## The arbiter of output entries (R45) -/

/-- The arbiter grants the first requester of its round what it waits for, where every entry of it is free. -/
theorem State.visit_head {c : Nat} {x : Cog} {k : Nat} {ks : List Nat} (hw : s.wants c x k ≠ [])
    (hf : ∀ d, (s.wants c x k).count d ≤ (x.oq d).free) : k ∈ s.visit c x (k :: ks) [] := by
  have hall : (sides.all fun d => decide (([] ++ s.wants c x k).count d ≤ (x.oq d).free)) = true :=
    List.all_eq_true.2 fun d _ => decide_eq_true (hf d)
  have hne : (s.wants c x k).isEmpty = false := List.isEmpty_eq_false_iff.2 hw
  simp only [State.visit, hne, hall, Bool.not_false, Bool.and_self, if_true, List.mem_cons_self]

/-- The arbiter grants the requester at which its pointer stands what it waits for, where every entry of it is free. -/
theorem State.arbGrants_of_pointer {c : Nat} {x : Cog} {k : Nat} (hp : s.arbPtr x = k) (hw : s.wants c x k ≠ [])
    (hf : ∀ d, (s.wants c x k).count d ≤ (x.oq d).free) : s.arbGrants c x k = true := by
  have hk : (k + 0) % 7 = k := hp ▸ Nat.mod_mod _ 7
  rw [State.arbGrants, hp, List.range_succ_eq_map, List.map_cons, hk]
  exact List.contains_iff_mem.2 (State.visit_head hw hf)

theorem sides_nodup : sides.Nodup := by decide

/-- A route entry names an output queue at most once. -/
theorem count_fwd_le (r : Nat) (d : Side) : (fwd r).count d ≤ 1 := List.nodup_iff_count_le_one.1 (sides_nodup.filter _) d

/-- A head flit that has not been copied waits for the output queues of its route entry, where none of them holds back its tag (R42, R128). -/
theorem State.wants_of_head {c : Nat} {x : Cog} {q : InId} {f : Flit} {fs : List Flit} (hf : (x.iq q).flits = f :: fs)
    (hc : (x.iq q).copied = false) (ht : ∀ d ∈ fwd (x.routeOf q f), tagBlocked (s.regionOf c) (x.oq d) f.tag = false) :
    s.wants c x q = fwd (x.routeOf q f) := by
  have hany : (fwd (x.routeOf q f)).any (fun d => tagBlocked (s.regionOf c) (x.oq d) f.tag) = false :=
    List.any_eq_false.2 fun d hd => by rw [ht d hd]; decide
  rw [State.wants, if_pos q.isLt, State.wantsCopy]
  simp only [hf, hc, hany]
  rfl

/-- A head flit at whose queue the arbiter's pointer stands is granted its output queues, where each has a free entry (R42, R45). -/
theorem State.arbGrants_of_head {c : Nat} {x : Cog} {q : InId} {f : Flit} {fs : List Flit} (hf : (x.iq q).flits = f :: fs)
    (hp : s.arbPtr x = q.val) (ho : fwd (x.routeOf q f) ≠ []) (hc : (x.iq q).copied = false)
    (hd : ∀ d ∈ fwd (x.routeOf q f), (x.oq d).free ≠ 0 ∧ tagBlocked (s.regionOf c) (x.oq d) f.tag = false) :
    s.arbGrants c x q = true := by
  have hw := State.wants_of_head hf hc fun d h => (hd d h).2
  refine State.arbGrants_of_pointer hp (hw ▸ ho) fun d => ?_
  rw [hw]
  by_cases h : d ∈ fwd (x.routeOf q f)
  · exact (count_fwd_le _ d).trans (Nat.pos_of_ne_zero (hd d h).1)
  · rw [List.count_eq_zero_of_not_mem h]
    exact Nat.zero_le _

/-! ## The router and the discards (R38, R42 to R44, R129) -/

/-- A cog with a flit appended to output queues. -/
def Cog.append (x : Cog) (outs : List Side) (f : Flit) : Cog :=
  outs.foldl (fun y d => y.setOq d { y.oq d with flits := (y.oq d).flits ++ [f] }) x

section
variable {c : CogId} {q : InId} {f : Flit} {fs : List Flit} (hl : s.live = true) (hf : ((s.cog c).iq q).flits = f :: fs)
include hl hf

/-- ROUTER_COPY, by the arbiter's grant and the flit's parity (R38, R42, R45). -/
theorem exec_routerCopy : exec (.routerCopy c q) s = .next (if s.arbGrants c (s.cog c) q = false then s
    else if f.parOk = false then s.abortRegion c eParity
    else (s.setCog c (((s.cog c).append (fwd ((s.cog c).routeOf q f)) f).settle q { (s.cog c).iq q with copied := true })).note c false) := by
  show execRouterCopy c q s = _
  rw [execRouterCopy, State.ifLive_of_live hl]
  simp only [hf]
  rfl

/-- STALE_FLIT_DISCARD on a flit that R129 takes from the core. -/
theorem exec_staleFlitDiscard {k : Nat} {r : Region} (hr : s.regionOf c = some (k, r)) (hd : r.draining = true) (ht : f.tag ≠ r.live)
    (hn : (s.cog c).ranLive = true) (hcore : core ((s.cog c).routeOf q f) = true) :
    exec (.staleFlitDiscard c q) s = .next (
      if (fwd ((s.cog c).routeOf q f)).isEmpty then
        ((s.setCog c ((s.cog c).settle q ((s.cog c).iq q).pop)).cogError (blockOf c)).note c false
      else if ((s.cog c).iq q).copied then (s.setCog c ((s.cog c).settle q ((s.cog c).iq q).pop)).note c false else s) := by
  have hs : (s.cog c).stale r f.tag = true := by simp [Cog.stale, hd, ht, hn]
  show execStaleFlitDiscard c q s = _
  rw [execStaleFlitDiscard, State.ifLive_of_live hl]
  simp only [hf, hr, hs, hcore, Bool.and_self, if_true]

end

/-! ## TURN marks (R125 to R128, R132) -/

/-- A cog's input queue has turned (R125). -/
def State.turnIn (s : State) (c : Nat) (d : Side) : State :=
  (s.setCog c ((s.cog c).setIq d.num { (s.cog c).iq d.num with turned := true })).note c false

section
variable {c : CogId} {d : Side} (hl : s.live = true)
include hl

/-- A mark that a neighbour's output queue holds arrives. -/
theorem exec_turnMarkArrive_of_neighbour {e : Nat} (he : neighbour c d = some e) (hm : ((s.cog e).oq d.opp).mark = true) :
    exec (.turnMarkArrive (.into c d)) s = .next
      ((s.setCog e ((s.cog e).setOq d.opp { (s.cog e).oq d.opp with mark := false })).turnIn c d) := by
  show execTurnMarkArrive (.into c d) s = _
  rw [execTurnMarkArrive, State.ifLive_of_live hl]
  simp only [he, hm, if_true]
  rfl

/-- A mark at an edge port arrives once no DRAINING-tag flit waits before it. -/
theorem exec_turnMarkArrive_of_edge (he : neighbour c d = none) (hm : (s.edgeIn c d).mark = true)
    (hb : ∀ k r, s.regionOf c = some (k, r) → ∀ f ∈ (s.edgeIn c d).flits, f.tag = r.live) :
    exec (.turnMarkArrive (.into c d)) s = .next ((s.setEdgeIn c d { s.edgeIn c d with mark := false }).turnIn c d) := by
  show execTurnMarkArrive (.into c d) s = _
  rw [execTurnMarkArrive, State.ifLive_of_live hl]
  cases hr : s.regionOf c with
  | none =>
    simp only [he, hm, Bool.and_self, if_true]
    rfl
  | some e =>
    have hall : ((s.edgeIn c d).flits.all fun f => f.tag == e.2.live) = true :=
      List.all_eq_true.2 fun f hf => beq_iff_eq.2 (hb e.1 e.2 hr f hf)
    simp only [he, hm, hall, Bool.and_self, if_true]
    rfl

/-- A mark that an output queue at an edge port holds leaves the array. -/
theorem exec_turnMarkArrive_out (he : neighbour c d = none) (hm : ((s.cog c).oq d).mark = true) :
    exec (.turnMarkArrive (.out c d)) s = .next (s.setCog c ((s.cog c).setOq d { (s.cog c).oq d with mark := false })) := by
  show execTurnMarkArrive (.out c d) s = _
  rw [execTurnMarkArrive, State.ifLive_of_live hl]
  simp only [he, hm, Option.isNone_none, Bool.and_self, if_true]

section
variable {k : Nat} {r : Region} (hr : s.regionOf c = some (k, r)) (hd : r.draining = true)
include hr hd

/-- An output queue turns where R128 lets it, with a mark where its link leads to the region or out of the array. -/
theorem exec_outputTurn_of_mayTurn (ht : ((s.cog c).oq d).turned = false) (hm : (s.cog c).mayTurn d (!r.live) = true) :
    exec (.outputTurn c d) s = .next ((s.setCog c ((s.cog c).setOq d { (s.cog c).oq d with
      turned := true, mark := (neighbour c d).all fun e => inRect r.rect (blockOf e) })).note c false) := by
  show execOutputTurn c d s = _
  rw [execOutputTurn, State.ifLive_of_live hl]
  simp only [hr, hd, ht, hm, Bool.not_false, Bool.and_self, if_true]
  cases neighbour c d <;> rfl

/-- A fed edge link turns where R126 lets it. -/
theorem exec_edgeTurnSend_of_mayTurn (he : neighbour c d = none) (ht : (s.edgeIn c d).turned = false) (hf : s.fedEdge r c d = true)
    (hm : s.mayTurnEdge r c d = true) : exec (.edgeTurnSend c d) s =
      .next (s.setEdgeIn c d { s.edgeIn c d with turned := true, mark := true, closed := s.lastEast r c d }) := by
  show execEdgeTurnSend c d s = _
  rw [execEdgeTurnSend, State.ifLive_of_live hl]
  simp only [hr, hd, he, ht, hf, hm, Bool.not_false, Bool.and_self, if_true]

end
end

/-- The blocks of a region lose their DRAINING plane, each with its trace record (R114, R132). -/
def State.planesDrained (s : State) (r : Region) : State :=
  (rectBlocks r.rect).foldl (fun (v : State) b =>
    (v.setBplane b (!r.live) (if (v.bplane b (!r.live)).state = .draining then { v.bplane b (!r.live) with state := .loaded }
      else v.bplane b (!r.live))).trace 0x05 r.seq b (b2n (!r.live))) s

/-- PLANE_DRAIN_DONE ends the SHIFT of a region whose cogs have drained (R132). -/
theorem exec_planeDrainDone_of_drained {k : RunId} {r : Region} (hl : s.live = true) (hr : Tab.find s.arr.regions k = some r)
    (hd : r.draining = true) (hc : ∀ c ∈ rectCogs r.rect, (s.cog c).drained (!r.live) = true) :
    exec (.planeDrainDone k) s = .next (((((rectCogs r.rect).foldl (fun (u : State) c => u.setCog c (u.cog c).unturn) s).unturnEdges
      r.rect).planesDrained r).setRegion k { r with draining := false, shiftK := none }) := by
  have hall : ((rectCogs r.rect).all fun c => (s.cog c).drained (!r.live)) = true := List.all_eq_true.2 hc
  show execPlaneDrainDone k s = _
  rw [execPlaneDrainDone, State.ifLive_of_live hl]
  simp only [hr, hd, hall, Bool.and_self, if_true]
  rfl

/-- Settles O12: the cases of the router, of the discards and of the marks. -/
theorem routersAndTurns : Obligations.RoutersAndTurns := by
  refine ⟨fun c q s f fs hl hf => ⟨fun hp ho hc hd => ?_, fun hg hpar => ?_, fun hg hpar => ?_, fun hg => ?_,
      fun k hp hw hn => State.arbGrants_of_pointer hp hw hn, fun hcore ho => exec_flitDiscardNoRoute_of_no_route hl hf hcore ho,
      fun k r hr hd ht hn hcore => ⟨fun ho => ?_, fun ho hc => ?_⟩⟩,
    fun c d s hl => ⟨fun e he hm => exec_turnMarkArrive_of_neighbour hl he hm, fun he hm hb => exec_turnMarkArrive_of_edge hl he hm hb,
      fun he hm => exec_turnMarkArrive_out hl he hm, fun k r hr hd => ⟨fun ht hm => exec_outputTurn_of_mayTurn hl hr hd ht hm,
        fun he ht hf hm => exec_edgeTurnSend_of_mayTurn hl hr hd he ht hf hm⟩⟩,
    fun k r s hl hr hd hc => exec_planeDrainDone_of_drained hl hr hd hc⟩
  · have hg := State.arbGrants_of_head hf hp ho hc hd
    rw [exec_routerCopy hl hf, hg]
    exact ⟨fun hpar => by rw [hpar]; rfl, fun hpar => by rw [hpar]; rfl⟩
  · rw [exec_routerCopy hl hf, hg, hpar]
    rfl
  · rw [exec_routerCopy hl hf, hg, hpar]
    rfl
  · rw [exec_routerCopy hl hf, if_pos hg]
  · rw [exec_staleFlitDiscard hl hf hr hd ht hn hcore, if_pos (List.isEmpty_iff.2 ho)]
  · rw [exec_staleFlitDiscard hl hf hr hd ht hn hcore, if_neg (fun h => ho (List.isEmpty_iff.1 h)), if_pos hc]

end Sys2Proof.Machine
end

section
/-! PROOFS. Spilling (R134 to R136), and the engines of a cog: results in flight, the drain, UWRITE and the U port (R52, R63, R64, R69, R137). -/

namespace Sys2Proof.Machine

variable {s : State} {c : CogId} {d : Side}

section
variable (hl : s.live = true)
include hl

/-! ## Spill episodes (R134 to R136) -/

/-- SPILL_START on a full queue of a holding plane that may spill, while the cog lacks words of another source. -/
theorem exec_spillStart_of_full {f : Flit} (hf : ((s.cog c).iq d.num).flits.getLast? = some f) (hs : ((s.cog c).iq d.num).spill = none)
    (hn : ((s.cog c).iq d.num).flits.length = 8) (hq : ((s.cog c).planeOf f.tag).spills d.num = true)
    (hp : (s.bplane (blockOf c) f.tag).state.holds = true) (hj : (s.cog c).starved.any (· != d.num) = true) :
    exec (.spillStart c d) s = .next ((((s.setCog c ((s.cog c).setIq d.num { (s.cog c).iq d.num with
      spill := some f.tag, sliceHead := 0, side := [], arrived := [], freed := 0,
      credits := max ((s.cog c).iq d.num).credits (min 8 ((s.cog c).planeOf f.tag).sliceCap) })).count F.GEAR_PAN_STAT.SPILLS
        (blockOf c) 1).trace 0x06 (s.regionSeq c) (cogX c + 256 * cogY c) (0x20 + d.num)).note c false) := by
  show execSpillStart c d s = _
  rw [execSpillStart, State.ifLive_of_live hl]
  simp only [hf, hs, hn, hq, hp, hj, Option.isNone_none, beq_self_eq_true, Bool.and_self, if_true]

/-- SPILL_END on an empty slice whose queue has room for all that the sender may still send. -/
theorem exec_spillEnd_of_empty (hs : ((s.cog c).iq d.num).spill ≠ none) (he : ((s.cog c).iq d.num).side = [])
    (hr : ((s.cog c).iq d.num).credits + ((s.cog c).iq d.num).arrived.length ≤ 8 - ((s.cog c).iq d.num).flits.length) :
    exec (.spillEnd c d) s = .next ((s.setCog c ((s.cog c).settle d.num { (s.cog c).iq d.num with
      spill := none, sliceHead := 0, flits := ((s.cog c).iq d.num).flits ++ ((s.cog c).iq d.num).arrived, arrived := [], freed := 0,
      credits := 8 - ((s.cog c).iq d.num).flits.length - ((s.cog c).iq d.num).arrived.length })).note c false) := by
  show execSpillEnd c d s = _
  rw [execSpillEnd, State.ifLive_of_live hl]
  simp only [Option.isSome_iff_ne_none.2 hs, he, hr, List.isEmpty_nil, decide_true, Bool.and_self, if_true]

/-! ## The drain engine (R45, R69, R121) -/

section
variable {dr : Drain} (hd : (s.cog c).drain = some dr) (hf : (s.cog c).freewheel = false)
include hd hf

/-- A cog whose drain engine has written its next flit. -/
def Cog.drainNext (x : Cog) (dr : Drain) : Cog :=
  { x with drain := if dr.next + 1 = dr.flits then none else some { dr with next := dr.next + 1 }, waited := none }

/-- DRAIN_FLIT into a register. -/
theorem exec_drainFlit_reg (ho : outOf dr.dst = none) : exec (.drainFlit c) s = .next ((s.setCog c (((s.cog c).drainNext dr).setV
    (dr.dst + dr.next) (BitVec.ofNat 256 ((s.cog c).drainData dr (s.numCfg c).1 dr.next)))).note c false) := by
  show execDrainFlit c s = _
  rw [execDrainFlit, State.ifLive_of_live hl]
  simp only [hd, ho, beq_iff_eq]
  rw [if_neg (Bool.eq_false_iff.1 hf)]
  rfl

/-- DRAIN_FLIT into an output queue whose entry the arbiter grants. -/
theorem exec_drainFlit_out {sd : Side} (ho : outOf dr.dst = some sd) (hg : s.arbGrants c (s.cog c) 6 = true) :
    exec (.drainFlit c) s = .next ((s.setCog c (((s.cog c).drainNext dr).setOq sd { (s.cog c).oq sd with
      flits := ((s.cog c).oq sd).flits ++ [.make ((s.cog c).drainData dr (s.numCfg c).1 dr.next) dr.plane
        (dr.et && dr.next + 1 == dr.flits)] })).note c false) := by
  show execDrainFlit c s = _
  rw [execDrainFlit, State.ifLive_of_live hl]
  simp only [hd, ho, beq_iff_eq]
  rw [if_neg (Bool.eq_false_iff.1 hf), if_pos hg]
  rfl

end

/-! ## UWRITE and the U port (R63, R64, R137) -/

/-- UWRITE_FLIT_MOVE: the next flit of a running UWRITE's source moves into U_OUT. -/
theorem exec_uwriteFlitMove_of_present {w : WriteXfer} {vs : List Nat} {y : Cog} (hw : (s.cog c).uwrite = some w) (hn : w.left ≠ 0)
    (hr : w.uout.length < 8) (hg : (s.cog c).gather w.plane [⟨w.src, 8, 0, true⟩] = some (vs, y, true)) :
    exec (.uwriteFlitMove c) s = .next ((s.setCog c { y with waited := none, uwrite := some { w with
      left := w.left - 1, uout := w.uout ++ [BitVec.ofNat 256 (vs.getD 0 0)] } }).note c false) := by
  show execUwriteFlitMove c s = _
  rw [execUwriteFlitMove, State.ifLive_of_live hl]
  simp only [hw, hg, if_neg (not_or.2 ⟨hn, Nat.not_le.2 hr⟩)]

/-- The state in which the pointer of a cog's U port has gone on. -/
def State.uAdvance (s : State) (c : Nat) : State := s.setCog c { s.cog c with uptr := ((s.cog c).uptr + 1) % 4 }

end

/-- A cog whose slot grants its read stream reads as written once the pointer has gone on: it is no cog as after reset. -/
theorem State.cog_uAdvance (hg : (s.cog c).uGrant = some 2) :
    (s.uAdvance c).cog c = { s.cog c with uptr := ((s.cog c).uptr + 1) % 4 } := by
  have hready : (s.cog c).uReady 2 = true := List.find?_some hg
  have hu : (s.cog c).uread.isSome = true := (Bool.and_eq_true_iff.1 hready).1
  refine Tab.get_set_same_of_ne _ _ _ fun h => ?_
  have hnone : (s.cog c).uread = none := congrArg Cog.uread h
  rw [hnone] at hu
  cases hu

section
variable (hl : s.live = true) (hf : s.fenced c = false) (hw : (s.cog c).freewheel = false) (hr : (s.regionOf c).isSome = true)
include hf hw hr

/-- Nothing keeps the U port of a cog of a region from its slots where the cog is neither fenced nor in freewheel (R72, R76). -/
theorem State.uPort_open : ¬ (s.fenced c || (s.cog c).freewheel || (s.regionOf c).isNone) = true := by
  rw [hf, hw, ← Option.not_isSome, hr]
  decide

include hl

/-- A slot with no requester only moves the pointer. -/
theorem exec_uPortSlot_idle (hg : (s.cog c).uGrant = none) : exec (.uPortSlot c .good) s = .next (s.uAdvance c) := by
  show execUPortSlot c .good s = _
  rw [execUPortSlot, State.ifLive_of_live hl]
  dsimp only
  rw [if_neg (State.uPort_open hf hw hr), hg]
  rfl

/-- A slot that grants UWRITE writes the oldest flit of U_OUT (R63). -/
theorem exec_uPortSlot_uwrite (hg : (s.cog c).uGrant = some 3) :
    exec (.uPortSlot c .good) s = .next (((s.uAdvance c).uwriteFlit c).note c false) := by
  show execUPortSlot c .good s = _
  rw [execUPortSlot, State.ifLive_of_live hl]
  dsimp only
  rw [if_neg (State.uPort_open hf hw hr), hg]
  rfl

/-- A slot that grants the read stream moves the flit at the stream's address into U_IN (R64). -/
theorem exec_uPortSlot_read (hg : (s.cog c).uGrant = some 2) {rs : ReadStream} (hu : ((s.uAdvance c).cog c).uread = some rs) :
    exec (.uPortSlot c .good) s =
      .next ((s.uAdvance c).ureadGoes c rs (((s.uAdvance c).cog c).bank.num (bankAddr rs.addr) 32)) := by
  rw [State.cog_uAdvance hg] at hu ⊢
  show execUPortSlot c .good s = _
  rw [execUPortSlot, State.ifLive_of_live hl]
  dsimp only at hu ⊢
  rw [if_neg (State.uPort_open hf hw hr), hg]
  show Host.Outcome.next (match (s.cog c).uread with
    | some u => (s.uAdvance c).ureadGoes c u ((s.cog c).bank.num (bankAddr u.addr) 32)
    | none => s.uAdvance c) = _
  rw [hu]

end

/-- Settles O13: the cases of the episodes and of the engines. -/
theorem spillsAndEngines : Obligations.SpillsAndEngines := by
  refine ⟨fun c d s hl => ⟨fun f hf hs hn hq hp hj => exec_spillStart_of_full hl hf hs hn hq hp hj,
      fun hs he hr => exec_spillEnd_of_empty hl hs he hr⟩,
    fun c s hl => ⟨fun n f hn hw => execInstrResultWrite_of_writable hl hn hw,
      fun dr hd hf => ⟨fun ho => exec_drainFlit_reg hl hd hf ho, fun sd ho hg => exec_drainFlit_out hl hd hf ho hg⟩,
      fun w vs y hw hn hr hg => exec_uwriteFlitMove_of_present hl hw hn hr hg,
      fun hf hw hr => ⟨exec_uPortSlot_idle hl hf hw hr, exec_uPortSlot_uwrite hl hf hw hr,
        fun rs hg hu => exec_uPortSlot_read hl hf hw hr hg hu⟩⟩⟩

end Sys2Proof.Machine
end

section
/-! PROOFS. Token starts and freewheel (R59, R75, R77), the ends of quiet regions (R79, R141), and the engines of edge ports (R47, R180). -/

namespace Sys2Proof.Machine

variable {s : State}

/-! ## Token starts and freewheel (R59, R75, R77) -/

section
variable {c : CogId} (hl : s.live = true)
include hl

/-- SEQ_TOKEN_START: the plane that the head flit of the entry queue names starts at address 0. -/
theorem exec_seqTokenStart_of_token {pl : Bool} (hf : (s.cog c).freewheel = false) (ht : s.tokenStart c = some pl) :
    exec (.seqTokenStart c) s = .next ((s.setCog c { s.cog c with
      mode := .run, plane := pl, pc := 0, waited := none,
      ranLive := (s.cog c).ranLive || (s.regionOf c).any (fun e => pl == e.2.live) }).note c false) := by
  show execSeqTokenStart c s = _
  rw [execSeqTokenStart, State.ifLive_of_live hl, if_neg (Bool.eq_false_iff.1 hf), ht]
  cases s.regionOf c <;> rfl

/-- FREEWHEEL_ENTER: a cog that has waited long enough and into which no flit comes in this cycle (R75). -/
theorem exec_freewheelEnter_of_waited {k : Nat} {r : Region} {t : Nat} (hr : s.regionOf c = some (k, r)) (he : r.cfg.fwEn = true)
    (hf : (s.cog c).freewheel = false) (hw : (s.cog c).waited = some t) (ht : t + r.cfg.fwEntry * 16 ≤ s.cycle) (hs : s.waits c = true)
    (ha : (s.cog c).flitAt ≠ s.cycle) :
    exec (.freewheelEnter c) s = .next (s.setCog c { s.cog c with freewheel := true, woken := false }) := by
  have hcond : (r.cfg.fwEn && !(s.cog c).freewheel && decide (t + r.cfg.fwEntry * 16 ≤ s.cycle) && s.waits c &&
      (s.cog c).flitAt != s.cycle) = true := by simp [he, hf, ht, hs, ha]
  show execFreewheelEnter c s = _
  rw [execFreewheelEnter, State.ifLive_of_live hl]
  simp only [hr, hw]
  rw [if_pos hcond]

/-- FREEWHEEL_EXIT: a woken cog (R77). -/
theorem exec_freewheelExit_of_woken (hf : (s.cog c).freewheel = true) (hw : (s.cog c).woken = true) :
    exec (.freewheelExit c) s =
      .next ((s.setCog c { s.cog c with freewheel := false, woken := false, waited := none }).note c false) := by
  show execFreewheelExit c s = _
  rw [execFreewheelExit, State.ifLive_of_live hl]
  dsimp only
  rw [if_pos (Bool.and_eq_true_iff.2 ⟨hf, hw⟩)]

end

/-! ## Quiet regions (R21, R79, R141) -/

/-- A region whose stall limit alone has run out stalls. -/
theorem State.quietAbort_of_stall {r : Region} {t : Nat} (hd : s.deadAt r = none) (ht : s.stallAt r = some t) :
    s.quietAbort r = s.abortCmd r.seq eStall 0 := by
  simp only [State.quietAbort, hd, ht]

/-- A region whose deadlock window ran out, and not after its stall limit, is deadlocked. -/
theorem State.quietAbort_of_deadlock {r : Region} {t : Nat} (hd : s.deadAt r = some t) (hs : ∀ u, s.stallAt r = some u → t ≤ u) :
    s.quietAbort r = s.deadlock r := by
  cases hu : s.stallAt r with
  | none => simp only [State.quietAbort, hd, hu]
  | some u => simp only [State.quietAbort, hd, hu, if_pos (hs u hu)]

section
variable {k : RunId} {r : Region} (hl : s.live = true) (hr : Tab.find s.arr.regions k = some r)
include hl hr

/-- STREAM_STALL_TIMEOUT of a region whose stall limit has run out. -/
theorem exec_streamStallTimeout_of_stall {t : Nat} (ht : s.stallAt r = some t) :
    exec (.streamStallTimeout k) s = .next (s.quietAbort r) := by
  show execStreamStallTimeout k s = _
  rw [execStreamStallTimeout, State.ifLive_of_live hl]
  simp only [hr, ht, Option.isSome_some, if_true]

/-- DEADLOCK_TIMEOUT of a region whose deadlock window has run out. -/
theorem exec_deadlockTimeout_of_dead {t : Nat} (ht : s.deadAt r = some t) : exec (.deadlockTimeout k) s = .next (s.quietAbort r) := by
  show execDeadlockTimeout k s = _
  rw [execDeadlockTimeout, State.ifLive_of_live hl]
  simp only [hr, ht, Option.isSome_some, if_true]

end

/-! ## Movement engines (R301) -/

/-- The state in which a transfer goes on: served by its engine where it begins a unit of 4 KiB. -/
def State.atUnit (s : State) (unit : Bool) (e : Nat) (q : EngReq) : State := if unit then s.engServe e q else s

/-- A transfer that begins a unit where its engine grants it, or none, goes on. -/
theorem State.atEngine_of_granted {unit : Bool} {e : Nat} {q : EngReq} (hg : unit = true → s.engGrants e q = true) (f : State → State) :
    s.atEngine (if unit then some (e, q) else none) f = f (s.atUnit unit e q) := by
  cases unit with
  | false => rfl
  | true => exact if_pos (hg rfl)

/-! ## Edge sources (R120, R126, R180, R192) -/

/-- A source stream has a flit to send that its edge port takes. -/
theorem State.sourceGoes_of {g : Region} {st : Stream} (hd : st.desc.dir = 0) (hh : st.holds = false) (ht : st.tok < s.streamTotal g st)
    (hn : (s.edgeIn (st.portOf st.tok).1 (st.portOf st.tok).2).flits.length < 8)
    (hm : ¬ (g.draining = true ∧ g.stamp (st.desc.tokenBase + st.tok) = g.live ∧
      (s.edgeIn (st.portOf st.tok).1 (st.portOf st.tok).2).turned = false)) : s.sourceGoes g st = true := by
  have hmark : (g.draining && g.stamp (st.desc.tokenBase + st.tok) == g.live &&
      !(s.edgeIn (st.portOf st.tok).1 (st.portOf st.tok).2).turned) = false := by
    rw [← Bool.not_eq_true]
    simpa [and_assoc] using hm
  simp only [State.sourceGoes, hd, hh, ht, hn, hmark]
  rfl

/-- What a source stream's next flit does as it is sent: it stands at the edge port, is captured, and the stream goes on. -/
theorem State.sourceSend_eq (v : State) (k : Nat) (g : Region) (st : Stream) (t : Tensor) (c : Nat) (d : Side) :
    v.sourceSend k g st t c d =
      (let w := v.sourceFlit (v.regionTask g) g.part st.desc t g.shape g.plist st.tok st.flit
       let last := decide (st.desc.tokenFlits (elemBits t.desc.etype) ≤ st.flit + 1)
       let u := (v.captureFlit (v.regionTask g) g.part st.desc t g.shape g.plist st.tok st.flit).setEdgeIn c d
         { v.edgeIn c d with flits := (v.edgeIn c d).flits ++ [.make w.1 (g.stamp (st.desc.tokenBase + st.tok)) last] }
       ((u.setRegion k (g.setStream (if last then { st with tok := st.tok + 1, flit := 0 } else { st with flit := st.flit + 1 }))).badIndices
         g.part st.desc.tid w.2).note c false) := by
  unfold State.sourceSend
  simp only [decide_eq_true_eq]
  split_ifs <;> rfl

/-- EDGE_SOURCE_FLIT of a stream whose read meets no hindrance and waits for no channel, and whose engine grants it a unit where it begins
one, which needs no host read. -/
theorem exec_edgeSourceFlit_of_ready {k : RunId} {i : StreamId} {g : Region} {st : Stream} {t : Tensor} (hl : s.live = true)
    (hg : Tab.find s.arr.regions k = some g) (hst : g.stream i = some st) (ht : s.tensor g.part st.desc.tid = some t)
    (hgo : s.sourceGoes g st = true) (hr : s.readMeets g.part (s.nextSources g st t) = .ready)
    (hw : s.mainWaits (k, i) (s.chansAt (s.regionTask g) g.part (s.nextSources g st t)) = false)
    (hu : st.unitStart t st.tok st.flit = true →
      s.engGrants (engineOf (s.nextSources g st t)) (s.streamReq g) = true ∧ hostOf (s.nextSources g st t) = none) :
    exec (.edgeSourceFlit k i) s = .next ((s.atUnit (st.unitStart t st.tok st.flit) (engineOf (s.nextSources g st t))
      (s.streamReq g)).sourceMove k g st t (s.nextSources g st t)) := by
  have hhost : (if st.unitStart t st.tok st.flit then hostOf (s.nextSources g st t) else none) = none := by
    split_ifs with h
    · exact (hu h).2
    · rfl
  show execEdgeSourceFlit k i s = _
  rw [execEdgeSourceFlit, State.ifLive_of_live hl]
  simp only [hg, hst, ht, hgo, hr, hw, hhost, Bool.true_eq_false, Bool.false_eq_true, if_false]
  exact congrArg _ (State.atEngine_of_granted (fun h => (hu h).1) _)

/-! ## Edge sinks (R47, R155, R172, R180) -/

/-- A sink stream takes a flit inside its walk whose tensor is CLEAN or DIRTY, whose channels are not paused, and whose engine grants it a
unit where it begins one. -/
theorem State.sinkTake_of_ready {key : Nat} {r : Region} {st : Stream} {l c : Nat} {d : Side} {f : Flit} {fs : List Flit} {t : Tensor}
    (ht : s.tensor r.part st.desc.tid = some t) (hc : t.state = .clean ∨ t.state = .dirty)
    (htok : l + (Tab.get (0, 0) st.links l).1 * st.desc.nlink < s.streamTotal r st)
    (hn : (Tab.get (0, 0) st.links l).2 < st.desc.tokenFlits (elemBits t.desc.etype))
    (hw : s.mainWaits (key, st.idx) (s.chansAt (s.regionTask r) r.part
      (s.sinkPlaces r st t (l + (Tab.get (0, 0) st.links l).1 * st.desc.nlink) (Tab.get (0, 0) st.links l).2)) = false)
    (hu : st.unitStart t (l + (Tab.get (0, 0) st.links l).1 * st.desc.nlink) (Tab.get (0, 0) st.links l).2 = true →
      s.engGrants 0 (s.streamReq r) = true) :
    s.sinkTake key r st l c d f fs =
      (let n := Tab.get (0, 0) st.links l
       let tok := l + n.1 * st.desc.nlink
       (((((s.atUnit (st.unitStart t tok n.2) 0 (s.streamReq r)).leaveMain (· == (key, st.idx))).setSinkAt c d fs).sinkFlit r st t tok n.2
        f.data).orParity r.seq fun u => u.setRegion key (r.setStream
          { st with links := Tab.set (0, 0) st.links l (if f.eot then (n.1 + 1, 0) else (n.1, n.2 + 1)) })).mainGo) := by
  have habs : t.state ≠ .absent := by rcases hc with h | h <;> rw [h] <;> decide
  have hload : t.state ≠ .loading := by rcases hc with h | h <;> rw [h] <;> decide
  have hwrite : t.state ≠ .writing := by rcases hc with h | h <;> rw [h] <;> decide
  rw [State.sinkTake]
  simp only [ht, if_neg (Nat.not_le.2 htok), if_neg (Nat.not_le.2 hn), habs, hload, hwrite, hw, and_false, if_false, Bool.false_eq_true]
  exact State.atEngine_of_granted hu _

section
variable {c : CogId} {d : Side} {f : Flit} {fs : List Flit} (hl : s.live = true) (hd : d ≠ .e) (he : neighbour c d = none)
  (hf : s.sinkAt c d = f :: fs)
include hl hd he hf

/-- EDGE_SINK_FLIT where no region runs: the flit is discarded (R47). -/
theorem exec_edgeSinkFlit_of_no_region (hr : s.regionOf c = none) :
    exec (.edgeSinkFlit c d) s = .next ((s.setSinkAt c d fs).cogError (blockOf c)) := by
  show execEdgeSinkFlit c d s = _
  rw [execEdgeSinkFlit, State.ifLive_of_live hl, if_neg (by simp [hd, he])]
  simp only [hf, hr]
  rfl

/-- EDGE_SINK_FLIT on a link that a sink stream takes. -/
theorem exec_edgeSinkFlit_of_sink {key l : Nat} {r : Region} {st : Stream} (hr : s.regionOf c = some (key, r))
    (hs : r.sinkOn c d = some (st, l)) : exec (.edgeSinkFlit c d) s = .next ((s.sinkTake key r st l c d f fs).note c false) := by
  show execEdgeSinkFlit c d s = _
  rw [execEdgeSinkFlit, State.ifLive_of_live hl, if_neg (by simp [hd, he])]
  simp only [hf, hr, hs]

end

/-- Settles O14: the cases of the sequencer, of quiet regions and of the engines at the edge. -/
theorem cogsAndEdgePortsRun : Obligations.CogsAndEdgePortsRun := by
  refine ⟨⟨fun c s hl => ⟨fun pl hf ht => exec_seqTokenStart_of_token hl hf ht,
      fun k r t hr he hf hw ht hs ha => exec_freewheelEnter_of_waited hl hr he hf hw ht hs ha,
      fun hf hw => exec_freewheelExit_of_woken hl hf hw⟩,
    fun k r s hl hr => ⟨fun hd t ht => ?_, fun d hd hs => ?_⟩⟩,
    fun k i s g st t hl hg hst ht hdir hh htok hn hm hr hw hu => ?_,
    fun c d s f fs hl hd he hf => ⟨fun hr => exec_edgeSinkFlit_of_no_region hl hd he hf hr,
      fun key r st l t hr hs ht hc htok hn hw hu => ?_⟩⟩
  · rw [exec_streamStallTimeout_of_stall hl hr ht, State.quietAbort_of_stall hd ht]
  · rw [exec_deadlockTimeout_of_dead hl hr hd, State.quietAbort_of_deadlock hd hs]
  · rw [exec_edgeSourceFlit_of_ready hl hg hst ht (State.sourceGoes_of hdir hh htok hn hm) hr hw hu]
    simp only [State.sourceMove, State.sourceSend_eq]
    rfl
  · rw [exec_edgeSinkFlit_of_sink hl hd he hf hr hs, State.sinkTake_of_ready ht hc htok hn hw hu]
    rfl

end Sys2Proof.Machine
end

section
/-! PROOFS. Lanes of a vector read back as packed (R82), and the encodings of the floating-point formats round to themselves (R81, R84). -/

namespace Sys2Proof.Machine

/-! ## Lanes (R82) -/

/-- Lanes are fields of one width, each truncated to it. -/
theorem packLanes_eq_packFields (w : Nat) (ls : List Nat) : packLanes w ls = packFields (ls.map fun l => (w, l % 2 ^ w)) := by
  induction ls with
  | nil => rfl
  | cons l ls ih => rw [List.map_cons, packFields, ← ih]; rfl

theorem fieldsFit_lanes (w : Nat) (ls : List Nat) : fieldsFit (ls.map fun l => (w, l % 2 ^ w)) := by
  induction ls with
  | nil => trivial
  | cons l ls ih => exact ⟨Nat.mod_lt _ (Nat.two_pow_pos w), ih⟩

theorem packLanes_lt (w : Nat) (ls : List Nat) : packLanes w ls < 2 ^ (ls.length * w) := by
  have h := packFields_lt (fieldsFit_lanes w ls)
  simpa [← packLanes_eq_packFields, Function.comp_def] using h

/-- A lane of packed lanes reads as packed, truncated to its width. -/
theorem lane_packLanes (w : Nat) (ls : List Nat) (k : Nat) : lane w (packLanes w ls) k = ls.getD k 0 % 2 ^ w := by
  rw [lane, bits_eq_div_mod]
  induction ls generalizing k with
  | nil => simp [packLanes]
  | cons l ls ih =>
    have hcons : packLanes w (l :: ls) = l % 2 ^ w + packLanes w ls * 2 ^ w := rfl
    rw [hcons]
    cases k with
    | zero => simp
    | succ k =>
      have hdrop : (l % 2 ^ w + packLanes w ls * 2 ^ w) / 2 ^ w = packLanes w ls := by
        rw [Nat.add_mul_div_right _ _ (Nat.two_pow_pos w), Nat.div_eq_of_lt (Nat.mod_lt _ (Nat.two_pow_pos w)), Nat.zero_add]
      rw [Nat.mul_succ, Nat.add_comm (w * k), Nat.pow_add, ← Nat.div_div_eq_div_mul, hdrop, ih, List.getD_cons_succ]

theorem lanes16_lt (w : Nat) (f : Nat → Nat) : lanes16 w f < 2 ^ (16 * w) := by
  simpa [lanes16] using packLanes_lt w ((List.range 16).map f)

theorem lane_lanes16 (w : Nat) (f : Nat → Nat) {k : Nat} (hk : k < 16) : lane w (lanes16 w f) k = f k % 2 ^ w := by
  rw [lanes16, lane_packLanes, List.getD_eq_getElem _ _ (by simpa using hk), List.getElem_map, List.getElem_range]

/-! ## Rounding (R84) -/

theorem bitLen_le {m k : Nat} (h : m < 2 ^ k) : bitLen m ≤ k := by
  unfold bitLen
  split_ifs with h0
  · exact Nat.zero_le k
  · exact (Nat.log2_lt h0).2 h

theorem lt_bitLen {m k : Nat} (h : 2 ^ k ≤ m) : k < bitLen m := by
  have h0 : m ≠ 0 := (Nat.lt_of_lt_of_le (Nat.two_pow_pos k) h).ne'
  rw [bitLen, if_neg h0]
  exact Nat.lt_succ_of_le ((Nat.le_log2 h0).2 h)

theorem quantize_self (m : Nat) (e : Int) : quantize m e e = m := by
  simp [quantize]

/-- A number that has the precision of a format, and no exponent below its least, rounds to itself. -/
theorem roundTo_self {fw m : Nat} {emin e : Int} (hm : m < 2 ^ (fw + 1)) (he : emin - fw ≤ e) (hn : 2 ^ fw ≤ m ∨ e = emin - fw) :
    roundTo fw emin m e = (m, e) := by
  have hq : max (e + bitLen m - 1 - fw) (emin - fw) = e := by
    have hle := bitLen_le hm
    rcases hn with hn | hn
    · have := lt_bitLen hn
      omega
    · omega
  unfold roundTo
  simp only [hq, quantize_self, if_neg (Nat.not_le.2 hm)]

/-! ## Significand and exponent of an encoding (R81) -/

/-- The biased exponent of an encoding. -/
def expField (ew fw x : Nat) : Nat := x / 2 ^ fw % 2 ^ ew

/-- The significand of a finite encoding: its fraction, with the leading bit unless it is a zero or subnormal. -/
def sigOf (ew fw x : Nat) : Nat := if expField ew fw x = 0 then x % 2 ^ fw else 2 ^ fw + x % 2 ^ fw

/-- The exponent of the significand's last bit: a zero or subnormal has that of the smallest normal. -/
def expOf (ew fw x : Nat) : Int := (max (expField ew fw x) 1 : Nat) - (2 ^ (ew - 1) - 1) - fw

/-- The sign of an encoding. -/
def signOf (ew fw x : Nat) : Bool := x / 2 ^ (fw + ew) % 2 == 1

section
variable (ew fw x : Nat)

theorem finiteOf_eq : finiteOf ew fw x = .fin (signOf ew fw x) (sigOf ew fw x) (expOf ew fw x) := by
  unfold finiteOf expOf sigOf signOf expField
  split_ifs with h
  · simp [h]
  · rw [max_eq_left (by omega)]
    exact if_neg h

theorem sigOf_lt : sigOf ew fw x < 2 ^ (fw + 1) := by
  have hM : x % 2 ^ fw < 2 ^ fw := Nat.mod_lt _ (Nat.two_pow_pos fw)
  unfold sigOf
  split_ifs <;> omega

theorem roundTo_sigOf : roundTo fw (2 - 2 ^ (ew - 1)) (sigOf ew fw x) (expOf ew fw x) = (sigOf ew fw x, expOf ew fw x) := by
  refine roundTo_self (sigOf_lt ew fw x) ?_ ?_
  · unfold expOf
    omega
  · by_cases hE : expField ew fw x = 0
    · right
      rw [expOf, hE]
      omega
    · left
      rw [sigOf, if_neg hE]
      omega

/-- The exponent and fraction fields of an encoding. -/
theorem mod_eq_fields : x % 2 ^ (fw + ew) = x % 2 ^ fw + 2 ^ fw * expField ew fw x := by
  rw [Nat.pow_add, Nat.mod_mul, expField]

/-- Significand and exponent encode to all of the encoding but its sign. -/
theorem encodeFinite_sigOf : encodeFinite ew fw (sigOf ew fw x) (expOf ew fw x) = x % 2 ^ (fw + ew) := by
  have hM : x % 2 ^ fw < 2 ^ fw := Nat.mod_lt _ (Nat.two_pow_pos fw)
  rw [encodeFinite, mod_eq_fields]
  by_cases hE : expField ew fw x = 0
  · rw [sigOf, if_pos hE, if_pos hM, hE, Nat.mul_zero, Nat.add_zero]
  · have he : (expOf ew fw x + fw + (2 ^ (ew - 1) - 1)).toNat = expField ew fw x := by
      rw [expOf]
      omega
    rw [sigOf, if_neg hE, if_neg (by omega)]
    simp only [he, Nat.add_sub_cancel_left]
    rw [Nat.mul_comm, Nat.add_comm]

variable {ew fw x} (hx : x < 2 ^ (1 + ew + fw))
include hx

/-- An encoding is its sign and the rest. -/
theorem signBit_add_mod : signBit (1 + ew + fw) (signOf ew fw x) + x % 2 ^ (fw + ew) = x := by
  have hpow : 2 ^ (1 + ew + fw) = 2 * 2 ^ (fw + ew) := by ring
  have hw : 1 + ew + fw - 1 = fw + ew := by omega
  have hdiv := Nat.mod_add_div x (2 ^ (fw + ew))
  have hlt : x / 2 ^ (fw + ew) < 2 := Nat.div_lt_of_lt_mul (by rwa [Nat.mul_comm, ← hpow])
  rw [signBit, signOf, hw]
  obtain h | h := Nat.le_one_iff_eq_zero_or_eq_one.1 (Nat.le_of_lt_succ hlt)
  · rw [h] at hdiv ⊢
    simpa using hdiv
  · rw [h] at hdiv ⊢
    simpa [Nat.add_comm] using hdiv

/-- What a format's conversion makes of the exact value of an encoding, once it is rounded: the encoding. -/
theorem encode_sign_sig_exp :
    (if sigOf ew fw x = 0 then signBit (1 + ew + fw) (signOf ew fw x)
      else signBit (1 + ew + fw) (signOf ew fw x) + encodeFinite ew fw (sigOf ew fw x) (expOf ew fw x)) = x := by
  have henc := encodeFinite_sigOf ew fw x
  have hsum := signBit_add_mod hx
  split_ifs with h0
  · rw [h0, encodeFinite, if_pos (Nat.two_pow_pos fw)] at henc
    omega
  · rw [henc, hsum]

end

/-! ## The IEEE formats (R81, R84) -/

section
variable {ew fw x : Nat}

theorem ieeeOf_of_finite (hE : expField ew fw x ≠ 2 ^ ew - 1) : ieeeOf ew fw x = finiteOf ew fw x := if_neg hE

theorem ieeeOf_of_inf (hE : expField ew fw x = 2 ^ ew - 1) (hM : x % 2 ^ fw = 0) : ieeeOf ew fw x = .inf (signOf ew fw x) :=
  (if_pos hE).trans (if_pos hM)

theorem ieeeOf_of_nan (hE : expField ew fw x = 2 ^ ew - 1) (hM : x % 2 ^ fw ≠ 0) : ieeeOf ew fw x = .nan :=
  (if_pos hE).trans (if_neg hM)

/-- A finite encoding does not reach that of an infinity. -/
theorem encodeFinite_sigOf_le (hE : expField ew fw x ≠ 2 ^ ew - 1) :
    encodeFinite ew fw (sigOf ew fw x) (expOf ew fw x) ≤ (2 ^ ew - 1) * 2 ^ fw := by
  have hlt : expField ew fw x < 2 ^ ew := Nat.mod_lt _ (Nat.two_pow_pos ew)
  have hM : x % 2 ^ fw < 2 ^ fw := Nat.mod_lt _ (Nat.two_pow_pos fw)
  calc encodeFinite ew fw (sigOf ew fw x) (expOf ew fw x)
      = x % 2 ^ fw + 2 ^ fw * expField ew fw x := by rw [encodeFinite_sigOf, mod_eq_fields]
    _ ≤ 2 ^ fw * (expField ew fw x + 1) := by rw [Nat.mul_succ]; omega
    _ ≤ 2 ^ fw * (2 ^ ew - 1) := Nat.mul_le_mul_left _ (by omega)
    _ = (2 ^ ew - 1) * 2 ^ fw := Nat.mul_comm _ _

/-- An encoding that is not a NaN is that of its own value. -/
theorem ieeeEnc_ieeeOf (hx : x < 2 ^ (1 + ew + fw)) (hnan : ieeeOf ew fw x ≠ .nan) : ieeeEnc ew fw (ieeeOf ew fw x) = x := by
  by_cases hE : expField ew fw x = 2 ^ ew - 1
  · have hM : x % 2 ^ fw = 0 := by_contra fun hM => hnan (ieeeOf_of_nan hE hM)
    have hmod : (2 ^ ew - 1) * 2 ^ fw = x % 2 ^ (fw + ew) := by rw [mod_eq_fields, hM, hE, Nat.zero_add, Nat.mul_comm]
    rw [ieeeOf_of_inf hE hM, ieeeEnc, hmod, signBit_add_mod hx]
  · rw [ieeeOf_of_finite hE, finiteOf_eq]
    simp only [ieeeEnc, roundTo_sigOf, Nat.min_eq_left (encodeFinite_sigOf_le hE)]
    exact encode_sign_sig_exp hx

end

/-! ## The 8-bit formats (R81, R84, R102) -/

/-- A dyadic below an integer, by a bound on its exponent. -/
theorem dyLe_of_le {m k n : Nat} {e : Int} (he : e ≤ k) (h : m * 2 ^ k ≤ n) : dyLe m e n 0 = true := by
  rw [dyLe, decide_eq_true_eq]
  calc m * 2 ^ (e - min e 0).toNat
      ≤ m * 2 ^ (k + (0 - min e 0).toNat) := Nat.mul_le_mul_left _ (Nat.pow_le_pow_right Nat.two_pos (by omega))
    _ = m * 2 ^ k * 2 ^ (0 - min e 0).toNat := by rw [Nat.pow_add, Nat.mul_assoc]
    _ ≤ n * 2 ^ (0 - min e 0).toNat := Nat.mul_le_mul_right _ h

/-- No E4M3 number is above 448. -/
theorem dyLe_e4m3 {x : Nat} (h : x % 128 ≠ 127) : dyLe (sigOf 4 3 x) (expOf 4 3 x) 448 0 = true := by
  have hsig := sigOf_lt 4 3 x
  have hE : expField 4 3 x = x / 8 % 16 := rfl
  by_cases htop : expField 4 3 x = 15
  · have hexp : expOf 4 3 x = 5 := by rw [expOf, htop]; rfl
    have hs : sigOf 4 3 x = 8 + x % 8 := if_neg (by omega)
    exact dyLe_of_le (k := 5) hexp.le (by omega)
  · have hexp : expOf 4 3 x ≤ 4 := by rw [expOf]; omega
    exact dyLe_of_le (k := 4) hexp (by omega)

/-- No finite E5M2 number is above 57,344. -/
theorem dyLe_e5m2 {x : Nat} (h : expField 5 2 x ≠ 31) : dyLe (sigOf 5 2 x) (expOf 5 2 x) 57344 0 = true := by
  have hsig := sigOf_lt 5 2 x
  have hE : expField 5 2 x < 32 := Nat.mod_lt _ (by decide)
  have hexp : expOf 5 2 x ≤ 13 := by rw [expOf]; omega
  exact dyLe_of_le (k := 13) hexp (by omega)

/-- An E4M3 encoding that is not a NaN is that of its own value. -/
theorem encT_e4m3 (sat : Bool) {x : Nat} (hx : x < 2 ^ 8) (hnan : valueOf 2 x ≠ .nan) : encT sat 2 (valueOf 2 x) = x := by
  have h127 : x % 128 ≠ 127 := fun h => hnan (if_pos h)
  have hval : valueOf 2 x = finiteOf 4 3 x := if_neg h127
  have hround : roundTo 3 (-6) (sigOf 4 3 x) (expOf 4 3 x) = (sigOf 4 3 x, expOf 4 3 x) := roundTo_sigOf 4 3 x
  rw [hval, finiteOf_eq]
  simp only [encT, hround, dyLe_e4m3 h127, if_true]
  exact encode_sign_sig_exp (ew := 4) (fw := 3) hx

/-- A finite E5M2 encoding is that of its own value. -/
theorem encT_e5m2 (sat : Bool) {x : Nat} (hx : x < 2 ^ 8) (hnan : valueOf 3 x ≠ .nan) (hinf : x % 128 ≠ 0x7C) :
    encT sat 3 (valueOf 3 x) = x := by
  have hE : expField 5 2 x ≠ 31 := by
    intro hE
    have hM : x % 2 ^ 2 ≠ 0 := by
      have : expField 5 2 x = x / 4 % 32 := rfl
      omega
    exact hnan (ieeeOf_of_nan hE hM)
  have hval : valueOf 3 x = finiteOf 5 2 x := ieeeOf_of_finite hE
  have hround : roundTo 2 (-14) (sigOf 5 2 x) (expOf 5 2 x) = (sigOf 5 2 x, expOf 5 2 x) := roundTo_sigOf 5 2 x
  rw [hval, finiteOf_eq]
  simp only [encT, hround, dyLe_e5m2 hE, if_true]
  exact encode_sign_sig_exp (ew := 5) (fw := 2) hx

/-- Settles O5: lanes are fields, and an encoding's significand and exponent round to themselves. -/
theorem lanesAndNumbersRoundTrip : Obligations.LanesAndNumbersRoundTrip :=
  ⟨fun w f => ⟨lanes16_lt w f, fun _ hk => lane_lanes16 w f hk⟩,
    fun _ hx hnan => ieeeEnc_ieeeOf (ew := 8) (fw := 23) hx hnan,
    fun _ hx hnan => ieeeEnc_ieeeOf (ew := 8) (fw := 7) hx hnan,
    fun sat _ hx hnan => encT_e4m3 sat hx hnan,
    fun sat _ hx hnan hinf => encT_e5m2 sat hx hnan hinf⟩

end Sys2Proof.Machine
end

section
/-! PROOFS. The larger and the smaller of two values (R97), and MMA products under a block scale (R87, R89). -/

namespace Sys2Proof.Machine

/-! ## The order of values (R97, R98) -/

/-- The order of values is asymmetric. -/
theorem ltF_asymm {a b : FVal} (h : ltF a b = true) : ltF b a = false := by
  cases a with
  | nan => simp [ltF] at h
  | inf a =>
    cases b with
    | nan => rfl
    | inf b =>
      simp only [ltF, Bool.and_eq_true, Bool.not_eq_true'] at h
      simp [ltF, h]
    | fin b n f => simpa [ltF] using h
  | fin a m e =>
    cases b with
    | nan => rfl
    | inf b => simpa [ltF] using h
    | fin b n f =>
      simp only [ltF, decide_eq_true_eq, decide_eq_false_iff_not, min_comm f e] at h ⊢
      exact lt_asymm h

theorem ltF_irrefl (a : FVal) : ltF a a = false := by
  cases h : ltF a a with
  | false => rfl
  | true => exact h ▸ ltF_asymm h

/-- Zeros are equal whatever their signs. -/
theorem ltF_zeros (a b : Bool) (e f : Int) : ltF (.fin a 0 e) (.fin b 0 f) = false := by
  simp [ltF, FVal.atExp]

/-- Equal values are not below each other. -/
theorem ltF_of_eqF {a b : FVal} (h : eqF a b = true) : ltF a b = false ∧ ltF b a = false := by
  simp only [eqF, Bool.and_eq_true, Bool.not_eq_true'] at h
  exact ⟨h.1.2, h.2⟩

/-! ## VMAX and VMIN (R97) -/

section
variable {a b : FVal}

theorem maxF_of_nan (h : a = .nan ∨ b = .nan) : maxF a b = .nan := if_pos h

theorem minF_of_nan (h : a = .nan ∨ b = .nan) : minF a b = .nan := if_pos h

/-- The pick that VMAX and VMIN make, each under its own order: one of the two values, and neither is beyond it. -/
theorem pick_spec {beyond : FVal → FVal → Bool} (hirrefl : ∀ v, beyond v v = false) (hasymm : beyond a b = true → beyond b a = false)
    (heq : eqF a b = true → beyond b a = false) {tie : Bool} {v : FVal} (hv : v = if beyond a b || (eqF a b && tie) then b else a) :
    (v = a ∨ v = b) ∧ beyond v a = false ∧ beyond v b = false := by
  subst hv
  split_ifs with h
  · rw [Bool.or_eq_true, Bool.and_eq_true] at h
    exact ⟨.inr rfl, h.elim hasymm fun h => heq h.1, hirrefl b⟩
  · rw [Bool.not_eq_true, Bool.or_eq_false_iff] at h
    exact ⟨.inl rfl, hirrefl a, h.1⟩

variable (ha : a ≠ .nan) (hb : b ≠ .nan)
include ha hb

/-- The larger of two numbers is one of them, and neither is above it. -/
theorem maxF_spec : (maxF a b = a ∨ maxF a b = b) ∧ ltF (maxF a b) a = false ∧ ltF (maxF a b) b = false :=
  pick_spec ltF_irrefl ltF_asymm (fun h => (ltF_of_eqF h).2) (if_neg (not_or.2 ⟨ha, hb⟩))

/-- The smaller of two numbers is one of them, and neither is below it. -/
theorem minF_spec : (minF a b = a ∨ minF a b = b) ∧ ltF a (minF a b) = false ∧ ltF b (minF a b) = false :=
  pick_spec (beyond := fun v w => ltF w v) ltF_irrefl ltF_asymm (fun h => (ltF_of_eqF h).1) (if_neg (not_or.2 ⟨ha, hb⟩))

end

/-- Of two zeros the second is the larger where the first is −0. -/
theorem maxF_zeros (a b : Bool) (e f : Int) : maxF (.fin a 0 e) (.fin b 0 f) = if a then .fin b 0 f else .fin a 0 e := by
  simp [maxF, eqF, ltF_zeros, FVal.neg]

/-- Of two zeros the second is the smaller where it is −0. -/
theorem minF_zeros (a b : Bool) (e f : Int) : minF (.fin a 0 e) (.fin b 0 f) = if b then .fin b 0 f else .fin a 0 e := by
  simp [minF, eqF, ltF_zeros, FVal.neg]

/-- Settles O58: the pick is one of the lanes, and the order of values is asymmetric. -/
theorem vmaxVminLanes : Obligations.VmaxVminLanes := by
  refine ⟨fun a b h => ⟨maxF_of_nan h, minF_of_nan h⟩, fun a b ha hb => ?number,
    fun e f => ⟨maxF_zeros .., maxF_zeros .., minF_zeros .., minF_zeros ..⟩,
    fun c s h dst sa sb sc type pop imm et vs y hf => ⟨fun ho => next_cogStep_of_fires hf ho _, fun ho => next_cogStep_of_fires hf ho _⟩⟩
  case number =>
    obtain ⟨hpick, hna, hnb⟩ := maxF_spec ha hb
    exact ⟨hpick, hna, hnb, minF_spec ha hb⟩

/-! ## Block scales (R87, R89) -/

/-- A value times 2^(v − 127): the exponent of a finite one moves, an infinity and NaN stay. -/
def FVal.scaled (v : Nat) : FVal → FVal
  | .nan => .nan
  | .inf neg => .inf neg
  | .fin neg m e => .fin neg m (e + v - 127)

section
variable {atype btype : Nat} (hb : 4 ≤ btype) (a b : Nat)
include hb

/-- A scale of 0xFF makes the product NaN. -/
theorem mmaProduct_of_nan_scale : mmaProduct atype btype 0xFF a b = .nan := if_pos ⟨hb, rfl⟩

/-- Another scale multiplies the product of the elements. -/
theorem mmaProduct_of_scale {v : Nat} (hv : v ≠ 0xFF) : mmaProduct atype btype v a b =
    (mulF (valueOf (if atype = 0 then 1 else atype + 1) a) (valueOf 2 (expand4 btype b))).scaled v := by
  simp only [mmaProduct, hb, hv, and_false, if_false, if_true]
  cases mulF (valueOf (if atype = 0 then 1 else atype + 1) a) (valueOf 2 (expand4 btype b)) with
  | nan => rfl
  | inf neg => rfl
  | fin neg m e => rfl

end

/-- Settles O59: the product is that of the elements, scaled. -/
theorem blockScales : Obligations.BlockScales := by
  intro atype btype a b hb product
  refine ⟨mmaProduct_of_nan_scale hb a b, fun v hv => ?_⟩
  have hscaled : mmaProduct atype btype v a b = product.scaled v := mmaProduct_of_scale hb a b (by omega)
  exact ⟨fun neg m e hp => by rw [hscaled, hp, FVal.scaled], fun neg hp => by rw [hscaled, hp, FVal.scaled],
    fun hp => by rw [hscaled, hp, FVal.scaled]⟩

end Sys2Proof.Machine
end

section
/-! PROOFS. What issuing an asynchronous operation answers (R265), and how the operations of R169, R264, R270 and R323 start, one lemma for
each way that a statement of this chapter speaks of. -/

namespace Sys2Proof.Machine

variable {s : State} {p tid n hd : Nat} {t : Tensor}

/-! ## Requests for pages leave the serving engine as it was (R189) -/

@[simp] theorem State.srv_vacate (s : State) (p tid : Nat) : (s.vacate p tid).srv = s.srv := by
  unfold State.vacate
  cases s.tensor p tid with
  | none => rfl
  | some t => exact State.srv_setTensor .. |>.trans (State.srv_wr ..)

@[simp] theorem State.srv_evictNow (s : State) (p tid : Nat) : (s.evictNow p tid).srv = s.srv := by
  rw [State.evictNow, State.srv_count, State.srv_vacate]
  rfl

@[simp] theorem State.srv_startWrite (s : State) (p tid : Nat) (w : WriteBack) : (s.startWrite p tid w).srv = s.srv := by
  unfold State.startWrite State.modTensor
  cases s.tensor p tid <;> rfl

theorem State.srv_evictLoop (s : State) (req p n : Nat) (ks : List Nat) : (s.evictLoop req p n ks).1.srv = s.srv := by
  induction ks generalizing s with
  | nil => rfl
  | cons k ks ih =>
    rw [State.evictLoop]
    by_cases hroom : (n : Int) ≤ s.avail p
    · rw [if_pos hroom]
      rfl
    · rw [if_neg hroom]
      cases Tab.find s.mem.tensors k with
      | none => exact ih s
      | some t =>
        dsimp only
        split_ifs with hev hfloor hdirty
        · exact ih s
        · exact ih s
        · exact State.srv_startWrite ..
        · exact (ih _).trans (State.srv_evictNow ..)

@[simp] theorem State.srv_takePages (s : State) (req p acc n : Nat) : (s.takePages req p acc n).1.srv = s.srv := by
  unfold State.takePages
  by_cases hroom : (n : Int) ≤ s.avail p
  · rw [if_pos hroom]
    rfl
  · rw [if_neg hroom]
    cases s.evictWait req with
    | none =>
      dsimp only
      split_ifs
      · rfl
      · exact State.srv_evictLoop ..
    | some w =>
      dsimp only
      split_ifs
      · rfl
      · exact State.srv_evictLoop ..

@[simp] theorem State.srv_modTask (s : State) (k : Nat) (f : Task → Task) : (s.modTask k f).srv = s.srv := by
  unfold State.modTask
  cases Tab.find s.ctl.tasks k <;> rfl

/-! ## Issuing an operation (R265, log 13) -/

section
variable (s) (h : Nat) (i : HubInstr) (n : Nat) (c : Cmd) (run : Bool) (op : HOp) (hd : Nat)

/-- The handle that an operation of a command is given: the one of the free ones that the next free value picks. -/
def State.pickHandle : Nat := c.freeHandles.getD ((s.draw 16).1 % c.freeHandles.length) (c.freeHandles.headD 0)

/-- An operation of a command as it is issued: not started, and no check passed yet. -/
def State.newAop : AOp := ⟨op, c.part, c.task, c.acceptedAt, false, false, s.work⟩

@[simp] theorem State.aop_issued : (s.issued h i n c run op hd).aop n hd = some (s.newAop c op) := by
  rw [State.issued, State.hubWith, State.aop_of_setHub, State.aop_setAop_same]
  rfl

@[simp] theorem State.tensor_issued (p tid : Nat) : (s.issued h i n c run op hd).tensor p tid = s.tensor p tid := rfl

@[simp] theorem State.asleep_issued : (s.issued h i n c run op hd).asleep = s.asleep := rfl

end

section
variable {h : Nat} {i : HubInstr} {c : Cmd}

/-- The picked handle is free. -/
theorem State.pickHandle_mem (hf : c.freeHandles ≠ []) : s.pickHandle c ∈ c.freeHandles := by
  have hlt : (s.draw 16).1 % c.freeHandles.length < c.freeHandles.length := Nat.mod_lt _ (List.length_pos_iff.2 hf)
  rw [State.pickHandle, List.getD_eq_getElem _ _ hlt]
  exact List.getElem_mem hlt

/-- With a handle free the operation is issued under the picked one. -/
theorem State.issue_of_free (hf : c.freeHandles ≠ []) (run : Bool) (op : HOp) :
    s.issue h i n c run op = (s.issued h i n c run op (s.pickHandle c), some (s.pickHandle c)) := by
  unfold State.issue State.pickHandle
  cases hk : c.freeHandles with
  | nil => exact absurd hk hf
  | cons k ks => rfl

/-- With all handles in use the task aborts, naming the word address (R266). -/
theorem State.issue_of_full (hf : c.freeHandles = []) (run : Bool) (op : HOp) :
    s.issue h i n c run op = (s.abortCmd n eAborted (0xFC + (s.hub h).pc % 2 ^ 13 * 2 ^ 8), none) := by
  simp only [State.issue, hf]
  rfl

end

section
variable {h : HubId} {i : HubInstr} {c : Cmd} {opc : Nat} (hi : s.hubIssues h i) (hc : s.curCmd h = some (n, c))
include hi hc

/-- A tensor operation is issued and tried at once (R265). -/
theorem asyncExec_of_free (hf : c.freeHandles ≠ []) (ho : i.opc = opc) (f : HubInstr → HOp) : asyncExec h opc s f =
    .next ((s.issued h i n c false (f i) (s.pickHandle c)).tryOp n (s.pickHandle c) (s.newAop c (f i))) := by
  rw [asyncExec, hubCmdExec_of_issues hi ho hc]
  simp only [State.issue_of_free hf, State.aop_issued]

theorem asyncExec_of_full (hf : c.freeHandles = []) (ho : i.opc = opc) (f : HubInstr → HOp) : asyncExec h opc s f =
    .next (s.abortCmd n eAborted (0xFC + (s.hub h).pc % 2 ^ 13 * 2 ^ 8)) := by
  rw [asyncExec, hubCmdExec_of_issues hi ho hc]
  simp only [State.issue_of_full hf]

section
variable (hf : c.freeHandles ≠ [])
include hf

theorem exec_load_of_free (ho : i.opc = 0x21) :
    let tid := ((s.hub h).reg i.ra).toNat % 2 ^ 32
    exec (.load h) s = .next ((s.issued h i n c false (.load tid) (s.pickHandle c)).tryLoad n (s.pickHandle c) c.part c.acceptedAt tid) :=
  asyncExec_of_free hi hc hf ho _

theorem exec_flush_of_free (ho : i.opc = 0x22) :
    let tid := ((s.hub h).reg i.ra).toNat % 2 ^ 32
    exec (.flush h) s = .next ((s.issued h i n c false (.flush tid) (s.pickHandle c)).tryFlush n (s.pickHandle c) c.part c.task tid) :=
  asyncExec_of_free hi hc hf ho _

theorem exec_evict_of_free (ho : i.opc = 0x23) :
    let tid := ((s.hub h).reg i.ra).toNat % 2 ^ 32
    exec (.evict h) s = .next ((s.issued h i n c false (.evict tid) (s.pickHandle c)).tryEvict n (s.pickHandle c) c.part c.task tid) :=
  asyncExec_of_free hi hc hf ho _

theorem exec_copy_of_free (ho : i.opc = 0x25) :
    let src := ((s.hub h).reg i.ra).toNat % 2 ^ 32
    let dst := ((s.hub h).reg i.rb).toNat % 2 ^ 32
    exec (.copy h) s = .next ((s.issued h i n c false (.copy src dst) (s.pickHandle c)).tryCopy n (s.pickHandle c) c.part c.task
      c.acceptedAt src dst) :=
  asyncExec_of_free hi hc hf ho _

theorem exec_hlib_of_free (ho : i.opc = 0x58) :
    let tid := ((s.hub h).reg i.ra).toNat % 2 ^ 32
    exec (.hlib h) s = .next ((s.issued h i n c false (.hlib tid) (s.pickHandle c)).tryHlib n (s.pickHandle c) c.part tid) :=
  asyncExec_of_free hi hc hf ho _

theorem exec_gload_of_free (ho : i.opc = 0x30) :
    let tid := ((s.hub h).reg i.ra).toNat % 2 ^ 32
    let rect := ((s.hub h).reg i.rb).toNat % 2 ^ 16
    let op := HOp.gload tid rect (i.aux % 2)
    exec (.gload h) s = .next ((s.issued h i n c false op (s.pickHandle c)).tryGload n (s.pickHandle c) (s.newAop c op) tid rect
      (i.aux % 2)) := by
  show execGload h s = _
  rw [execGload, hubCmdExec_of_issues hi ho hc]
  simp only [State.issue_of_free hf, State.aop_issued]
  rfl

/-- A RUN is tried at once, but not while the array sleeps (R423). -/
theorem exec_run_of_free (ho : i.opc = 0x38) :
    let u := s.issued h i n c true (.run (i.aux % 4)) (s.pickHandle c)
    exec (.run h) s = .next (if s.asleep then u else u.tryRun n (s.pickHandle c) (i.aux % 4)) := by
  show execRun h s = _
  rw [execRun, hubCmdExec_of_issues hi ho hc]
  simp only [State.issue_of_free hf, State.asleep_issued]
  rfl

theorem exec_step_of_free (ho : i.opc = 0x50) :
    let ra := ((s.hub h).reg i.ra).toNat % 65536
    exec (.step h) s = .next ((s.issued h i n c false (.step ra i.imm) (s.pickHandle c)).tryStep n (s.pickHandle c) ra i.imm) := by
  show execStep h s = _
  rw [execStep, hubCmdExec_of_issues hi ho hc]
  simp only [State.issue_of_free hf]

end

theorem exec_gload_of_full (hf : c.freeHandles = []) (ho : i.opc = 0x30) :
    exec (.gload h) s = .next (s.abortCmd n eAborted (0xFC + (s.hub h).pc % 2 ^ 13 * 2 ^ 8)) := by
  show execGload h s = _
  rw [execGload, hubCmdExec_of_issues hi ho hc]
  simp only [State.issue_of_full hf]

theorem exec_run_of_full (hf : c.freeHandles = []) (ho : i.opc = 0x38) :
    exec (.run h) s = .next (s.abortCmd n eAborted (0xFC + (s.hub h).pc % 2 ^ 13 * 2 ^ 8)) := by
  show execRun h s = _
  rw [execRun, hubCmdExec_of_issues hi ho hc]
  simp only [State.issue_of_full hf]

theorem exec_step_of_full (hf : c.freeHandles = []) (ho : i.opc = 0x50) :
    exec (.step h) s = .next (s.abortCmd n eAborted (0xFC + (s.hub h).pc % 2 ^ 13 * 2 ^ 8)) := by
  show execStep h s = _
  rw [execStep, hubCmdExec_of_issues hi ho hc]
  simp only [State.issue_of_full hf]

end

/-! ## Operations on a main-home tensor (R169, R264) -/

section
variable (ht : s.tensor p tid = some t) (hm : t.main = true)
include ht hm

/-- LOAD of a tensor that stands in the main tier ends at once. -/
theorem State.tryLoad_of_resident (hs : t.state = .clean ∨ t.state = .dirty) (acc : Nat) :
    s.tryLoad n hd p acc tid = s.opEnd n hd (okWord false) := by
  rcases hs with hs | hs <;> simp [State.tryLoad, ht, hm, hs]

/-- FLUSH of a CLEAN tensor ends at once. -/
theorem State.tryFlush_of_clean (hs : t.state = .clean) (hb : t.desc.back ≠ 0) {task : Nat} (hblk : s.opBlocked task p tid t = false) :
    s.tryFlush n hd p task tid = s.opEnd n hd (okWord false) := by
  simp [State.tryFlush, ht, hm, hs, hb, hblk]

/-- EVICT of a CLEAN tensor gives its pages back and ends at once. -/
theorem State.tryEvict_of_clean (hs : t.state = .clean) (hb : t.desc.back ≠ 0) {task : Nat} (hblk : s.opBlocked task p tid t = false) :
    s.tryEvict n hd p task tid = (s.vacate p tid).opEnd n hd (okWord false) := by
  simp [State.tryEvict, ht, hm, hs, hb, hblk]

/-- HLIB of a resident RO tensor of at most 32 KiB starts. -/
theorem State.tryHlib_of_resident (hs : t.state = .clean ∨ t.state = .dirty) (hro : t.rw_ = false) (hlen : t.desc.length ≤ 32768)
    (hgate : s.bulkGate (s.sourceTier p s.chain tid) = .granted) : s.tryHlib n hd p tid = s.opStart n hd := by
  rcases hs with hs | hs <;> simp [State.tryHlib, State.lostNow, ht, hm, hs, hro, hlen, hgate]

/-- COPY between resident tensors of one length starts where its shadow pages are granted. -/
theorem State.tryCopy_of_resident {dst task acc : Nat} {b : Tensor} {w : State} (hs : t.state = .clean ∨ t.state = .dirty)
    (hb : s.tensor p dst = some b) (hbm : b.main = true) (hrw : b.rw_ = true) (hlen : b.desc.length = t.desc.length)
    (hbs : b.state = .clean ∨ b.state = .dirty) (hgate : s.bulkGate (s.sourceTier p s.chain tid) = .granted)
    (hp : s.takePages (reqOf n hd) p acc (s.shadowNeed task p dst b) = (w, .granted)) :
    s.tryCopy n hd p task acc tid dst =
      (w.modTask task fun k => { k with reserved := k.reserved + s.shadowNeed task p dst b }).opStart n hd := by
  rcases hs with hs | hs <;> rcases hbs with hbs | hbs <;>
    simp [State.tryCopy, State.lostNow, ht, hb, hm, hbm, hrw, hlen, hs, hbs, hgate, hp]

/-- GLOAD of a resident image that passes checks 1 to 16 goes to check 17. -/
theorem State.tryGload_of_checked {o : AOp} {rect plane len : Nat} {g : GearImage} (hop : o.part = p)
    (hs : t.state = .clean ∨ t.state = .dirty) (hdim : t.desc.ndim = 1) (hty : t.desc.etype = 8)
    (hg : s.gearImage o tid = some (g, len)) (hf : s.gearFault p o.since rect (plane == 1) g len = none) :
    s.tryGload n hd o tid rect plane = s.gearPlace n hd o g (plane == 1) := by
  subst hop
  rcases hs with hs | hs <;> simp [State.tryGload, ht, hm, hs, hdim, hty, hg, hf]

end

/-! ## RUN (R270) -/

/-- A RUN whose checks pass starts its region. -/
theorem State.tryRun_of_starts {c : Cmd} {k : Nat} {r : RunBlk} {ds : List StreamDesc} (hc : s.cmd n = some c) (hr : s.runStarts c k r ds) :
    s.tryRun n hd k = (s.opStart n hd).startRegion n hd c r ds none := by
  obtain ⟨hk, rfl, rfl, hlo, hhi, hf⟩ := hr
  simp only [State.tryRun, hc, if_neg (Nat.not_le.2 hk), hlo, Nat.not_lt.2 hhi, or_self, if_false, hf]

/-! ## STEP (R323) -/

/-- The tensors of a step that are defined, with their TIDs. -/
def State.stepDefined (s : State) (p : Nat) (d : StepDesc) : List (Nat × Tensor) :=
  d.tids.dedup.filterMap fun tid => (s.tensor p tid).map fun t => (tid, t)

theorem State.tensor_of_stepDefined {d : StepDesc} {e : Nat × Tensor} (he : e ∈ s.stepDefined p d) :
    e.1 ∈ d.tids ∧ s.tensor p e.1 = some e.2 := by
  obtain ⟨tid, htid, hmap⟩ := List.mem_filterMap.1 he
  obtain ⟨t, ht, rfl⟩ := Option.map_eq_some_iff.1 hmap
  exact ⟨List.mem_dedup.1 htid, ht⟩

/-- A STEP whose checks pass freezes its batch where its shadow pages are granted. -/
theorem State.tryStep_of_freezes {c : Cmd} {ra imm : Nat} {d : StepDesc} {phases : List (RunBlk × List StreamDesc)} {w : State}
    (hc : s.cmd n = some c) (hs : s.stepFreezes c ra imm d phases)
    (hp : s.takePages (reqOf n hd) c.part c.acceptedAt (s.stepShadow c d) = (w, .granted)) :
    s.tryStep n hd ra imm =
      (w.modTask c.task fun k => { k with reserved := k.reserved + s.stepShadow c d }).freeze n hd c d phases := by
  obtain ⟨hd', hfields, htensors, hphases, hbinds, ⟨⟨r0, ds0⟩, hhead, hlo, hhi, hrun, hedge⟩, hstep, hgroups, hseqs,
    hstate⟩ := hs
  have hdef : ∀ e ∈ s.stepDefined c.part d, e.2.state ≠ .absent ∧ e.2.state ≠ .loading ∧ e.2.state ≠ .writing := fun e he =>
    let ⟨hmem, ht⟩ := State.tensor_of_stepDefined he
    hstate e.1 hmem e.2 ht
  have hgone : ((s.stepDefined c.part d).filter fun e => e.2.state == .absent) = [] :=
    List.filter_eq_nil_iff.2 fun e he => by simpa using (hdef e he).1
  have hbusy : ((s.stepDefined c.part d).any fun e => e.2.state == .loading || e.2.state == .writing) = false :=
    List.any_eq_false.2 fun e he => by simpa using (hdef e he).2
  have hbind : (phases.any fun e => !d.bindsOk e.1.shape) = false :=
    List.any_eq_false.2 fun e he => by simp [hbinds e he]
  have hgroup : (s.srv.groups.any fun g => g.batch == d.batch) = false :=
    List.any_eq_false.2 fun g hg => by simpa using hgroups g hg
  have hwest : (d.edge && phases.length == 1 && !westServes r0.rect) = false := by
    rw [← Bool.not_eq_true]
    simpa [and_assoc] using hedge
  have hsrv : w.srv = s.srv := by simpa only [hp] using State.srv_takePages s (reqOf n hd) c.part c.acceptedAt (s.stepShadow c d)
  have hlive : ∀ f, ((w.modTask c.task f).batchSeqs d.batch).isEmpty = false := fun f => by
    rw [State.batchSeqs, State.srv_modTask, hsrv]
    exact List.isEmpty_eq_false_iff.2 hseqs
  have hgate : s.bulkGate 0 = .granted := rfl
  rw [State.tryStep]
  simp only [State.stepDefined, State.stepShadow] at hgone hbusy hp ⊢
  simp only [hc, ← hd', ← hphases, hfields, htensors, hbind, hhead, hlo, Nat.not_lt.2 hhi, hrun, hwest, hstep, hgroup, hgone, hbusy]
  simp [hgate, hp, hlive]

end Sys2Proof.Machine
end

section
/-! PROOFS. SHIFT (R123), RUN_COMPLETE (R271), SEQEND (R333) and the phases of a step (R326), and the obligation that operations issue and
go on. -/

namespace Sys2Proof.Machine

variable {s : State} {n : Nat} {c : Cmd}

theorem bits_zero_eq_mod (x w : Nat) : bits x 0 w = x % 2 ^ w := rfl

theorem bit_zero_eq_decide (x : Nat) : bit x 0 = decide (x % 2 = 1) := by
  rw [bit, bits_zero_eq_mod]
  rfl

section
variable {h : HubId} {i : HubInstr} (hi : s.hubIssues h i) (hc : s.curCmd h = some (n, c))

/-! ## SHIFT (R123) -/

section
variable {key : Nat} {r : Region} (hr : (s.arr.regions.find? fun e =>
  e.2.seq == n && e.2.handle == ((s.hub h).reg i.ra).toNat && e.2.step.isNone) = some (key, r))
include hr

/-- A SHIFT whose checks pass takes effect. -/
theorem State.shift_of_go (hv : s.shiftCheck r (((s.hub h).reg i.rb).toNat % 2 ^ 32) i.imm = .go) : s.shift h i n =
    (s.shiftNow key r (((s.hub h).reg i.rb).toNat % 2 ^ 32) i.imm).syncEnd h i n (okWord false) := by
  simp only [State.shift, hr, bits_zero_eq_mod, hv]

/-- A SHIFT that must wait stays at the program counter. -/
theorem State.shift_of_waits (hv : s.shiftCheck r (((s.hub h).reg i.rb).toNat % 2 ^ 32) i.imm = .waits) :
    s.shift h i n = s.setHub h { s.hub h with stalled := true, waited := true } := by
  simp only [State.shift, hr, bits_zero_eq_mod, hv, State.stallWaited]

end

include hi hc

theorem exec_shift_of_fresh (ho : i.opc = 0x31) (hs : (s.hub h).stalled = false) : exec (.shift h) s = .next (s.shift h i n) := by
  show execShift h s = _
  rw [execShift, hubCmdExec_of_issues hi ho hc, if_neg (Bool.eq_false_iff.1 hs)]

theorem exec_shiftResume_of_stalled (ho : i.opc = 0x31) (hs : (s.hub h).stalled = true) :
    exec (.shiftResume h) s = .next (s.shift h i n) := by
  show execShiftResume h s = _
  rw [execShiftResume, hubCmdExec_of_issues hi ho hc, if_pos hs]

/-! ## SEQEND (R333, log 38) -/

/-- The first SEQEND of a live sequence of the partition: what it does to one that is ENDING already, to one that it aborts, to one that a
step holds, and to another. -/
theorem exec_seqend_of_live (ho : i.opc = 0x51) (hs : (s.hub h).stalled = false) {k : Nat} {y : Seq}
    (hf : s.findSeq ((s.hub h).reg i.ra).toNat = some (k, y)) (hp : y.part = c.part) (hd : y.dead = none) :
    let req := ((s.hub h).reg i.ra).toNat
    exec (.seqend h) s = .next (
      if y.ending then (if i.aux % 2 = 1 then s.seqAbort req eAborted 0xF6 else s).stall h
      else if i.aux % 2 = 1 then (s.seqAbort req eAborted 0xF6).syncEnd h i n (okWord false)
      else if s.inStep (k / 512) req then (s.setSeq k { y with ending := true }).syncEnd h i n (okWord false)
      else (s.seqDone req).syncEnd h i n (okWord false)) := by
  show execSeqend h s = _
  rw [execSeqend, hubCmdExec_of_issues hi ho hc, if_neg (Bool.eq_false_iff.1 hs)]
  simp only [hf, hp, hd, ne_eq, not_true, Option.isSome_none, Bool.false_eq_true, or_self, if_false, bit_zero_eq_decide, decide_eq_true_eq]

end

/-! ## RUN_COMPLETE (R271) -/

/-- A RUN that meets R271 ends its fills and its region, leaves out its quiet time, and its operation ends. -/
theorem exec_runComplete_of_done {k : RunId} {g : Region} (hl : s.live = true) (hg : Tab.find s.arr.regions k = some g)
    (hd : s.runDone g = true) (hstep : g.step = none) (hc : s.cmd g.seq = some c) :
    let u := (s.endFills g).closeRegion k
    exec (.runComplete k) s = .next (((u.modCmd g.seq fun c => c.exclude g.quietWork u.work).trace 0x03 g.seq (okWord false)
      (s.countedTime g.seq c)).opEnd g.seq g.handle (okWord false)) := by
  show execRunComplete k s = _
  rw [execRunComplete, State.ifLive_of_live hl]
  simp only [hg, hd, hstep, hc, if_true]

/-! ## Phases of a step (R326) -/

section
variable {b : Nat} {x : Step} {r : RunBlk} {ds : List StreamDesc} (hph : x.phases[x.phase]? = some (r, ds)) (hc : s.cmd x.seq = some c)
include hph hc

/-- A phase whose sink pages are granted starts its region. -/
theorem State.startPhase_of_granted {u : State}
    (hu : s.takePages (reqOf x.seq 19) c.part c.acceptedAt
      (((ds.filter fun d => !s.kvSink b x.task c.part d).map (s.sinkPages x.task c.part r)).foldl (· + ·) 0) = (u, .granted)) :
    s.startPhase b x = ((u.modTask x.task fun t => { t with reserved := t.reserved +
      ((ds.filter fun d => !s.kvSink b x.task c.part d).map (s.sinkPages x.task c.part r)).foldl (· + ·) 0 }).setStep b
        { x with running := true }).startRegion x.seq x.handle c r ds (some (b, x.phase)) := by
  simp only [State.startPhase, hph, hc, hu]

end

/-- STEP_PHASE_START of a step whose next phase passes its checks, with the array awake. -/
theorem exec_stepPhaseStart_of_ready {b : BatchId} {x : Step} {r : RunBlk} {ds : List StreamDesc} (hl : s.live = true)
    (hx : s.step? b = some x) (hrun : x.running = false) (hs : s.asleep = false) (hph : x.phases[x.phase]? = some (r, ds))
    (hc : s.cmd x.seq = some c) (hlo : r.nstream ≠ 0) (hhi : r.nstream ≤ 16) (hf : s.runFault c r ds = none)
    (hw : x.edge = true → x.phase + 1 = x.phases.length → westServes r.rect = true) :
    exec (.stepPhaseStart b) s = .next (s.startPhase b x) := by
  have hwest : ¬ (x.edge = true ∧ x.phase + 1 = x.phases.length ∧ westServes r.rect = false) := by simpa using hw
  show execStepPhaseStart b s = _
  rw [execStepPhaseStart, State.ifLive_of_live hl]
  simp only [hx, hrun, hs, hph, hc, hlo, Nat.not_lt.2 hhi, hf, hwest, Bool.or_self, Bool.false_eq_true, Option.isSome_none,
    or_self, if_false]

/-! ## The obligation -/

/-- Settles O22: an operation is issued under the handle that the next free value picks, and each goes on as its own lemma says. -/
theorem operationsIssueAndRun : Obligations.OperationsIssueAndRun := by
  refine ⟨fun h s i n c hi hc => ⟨fun hf => ⟨s.pickHandle c, State.pickHandle_mem hf, ?issued⟩, fun hf => ?full⟩,
    ⟨?shift, ?complete, ?seqend, ?phase⟩⟩
  case issued =>
    refine ⟨exec_load_of_free hi hc hf, exec_flush_of_free hi hc hf, exec_evict_of_free hi hc hf, exec_copy_of_free hi hc hf,
      exec_hlib_of_free hi hc hf, exec_gload_of_free hi hc hf, fun ho hs => ?awake, fun ho hs => ?asleep, exec_step_of_free hi hc hf,
      fun t ht hm => ?tensor, ?starts, ?freezes⟩
    case awake => rw [exec_run_of_free hi hc hf ho, hs, if_neg Bool.false_ne_true]
    case asleep => rw [exec_run_of_free hi hc hf ho, hs, if_pos rfl]
    case tensor =>
      have htu : ∀ run op, (s.issued h i n c run op (s.pickHandle c)).tensor c.part (((s.hub h).reg i.ra).toNat % 2 ^ 32) = some t :=
        fun _ _ => ht
      refine ⟨fun ho hs => ?_, fun hs hb => ⟨?_, ?_⟩, fun hs => ⟨?_, ?_, ?_⟩⟩
      · rw [exec_load_of_free hi hc hf ho, State.tryLoad_of_resident (htu _ _) hm hs]
      · rintro _ ho rfl hblk
        rw [exec_flush_of_free hi hc hf ho, State.tryFlush_of_clean (htu _ _) hm hs hb hblk]
      · rintro _ ho rfl hblk
        rw [exec_evict_of_free hi hc hf ho, State.tryEvict_of_clean (htu _ _) hm hs hb hblk]
      · rintro b' _ w ho hb hbm hrw hlen hbs rfl hgate hp
        rw [exec_copy_of_free hi hc hf ho, State.tryCopy_of_resident (htu _ _) hm hs hb hbm hrw hlen hbs hgate hp]
      · rintro _ ho hro hlen rfl hgate
        rw [exec_hlib_of_free hi hc hf ho, State.tryHlib_of_resident (htu _ _) hm hs hro hlen hgate]
      · rintro _ g len ho hdim hty rfl hg hfault
        rw [exec_gload_of_free hi hc hf ho]
        exact congrArg _ (State.tryGload_of_checked (htu _ _) hm rfl hs hdim hty hg hfault)
    case starts =>
      rintro _ c' r ds ho hs rfl hc' hr
      rw [exec_run_of_free hi hc hf ho, hs, if_neg Bool.false_ne_true, State.tryRun_of_starts hc' hr]
    case freezes =>
      rintro _ w c' d phases ho rfl hc' hs hp
      rw [exec_step_of_free hi hc hf ho, State.tryStep_of_freezes hc' hs hp]
  case full =>
    exact ⟨fun ho => asyncExec_of_full hi hc hf ho _, fun ho => asyncExec_of_full hi hc hf ho _,
      fun ho => asyncExec_of_full hi hc hf ho _, fun ho => asyncExec_of_full hi hc hf ho _, fun ho => asyncExec_of_full hi hc hf ho _,
      fun ho => exec_gload_of_full hi hc hf ho, fun ho => exec_run_of_full hi hc hf ho, fun ho => exec_step_of_full hi hc hf ho⟩
  case shift =>
    intro h s i n c key r hi hc x gear ho hr
    refine ⟨fun hv => ⟨fun hs => ?_, fun hs => ?_⟩, fun hv hs => ?_⟩
    · rw [exec_shift_of_fresh hi hc ho hs, State.shift_of_go hr hv]
    · rw [exec_shiftResume_of_stalled hi hc ho hs, State.shift_of_go hr hv]
    · rw [exec_shift_of_fresh hi hc ho hs, State.shift_of_waits hr hv]
  case complete => exact fun k s g c hl hg hd hstep hc => exec_runComplete_of_done hl hg hd hstep hc
  case seqend =>
    intro h s i n c k y hi hc ho hs req hf hp hd
    have hseq := exec_seqend_of_live hi hc ho hs hf hp hd
    refine ⟨fun ha he => ?_, fun ha he hin => ?_, fun ha he hin => ?_, fun he => ?_⟩
    · rw [hseq, if_neg (Bool.eq_false_iff.1 he), if_pos ha]
    · rw [hseq, if_neg (Bool.eq_false_iff.1 he), if_neg (by omega), if_neg (Bool.eq_false_iff.1 hin)]
    · rw [hseq, if_neg (Bool.eq_false_iff.1 he), if_neg (by omega), if_pos hin]
    · rw [hseq, if_pos he]
      rfl
  case phase =>
    intro b s x r ds c hl hx hrun hs hph hc hlo hhi hf hw pages u hu
    rw [exec_stepPhaseStart_of_ready hl hx hrun hs hph hc hlo hhi hf hw, State.startPhase_of_granted hph hc hu]

end Sys2Proof.Machine
end

section
/-! PROOFS. The ends of operations (R169, R265), write-backs (R175), gear loads that waited (R116), the watchdog (R309), link stalls (R258),
stored-data failures and their repair (R193), and the obligation about them. -/

namespace Sys2Proof.Machine

variable {s : State} {t : Tensor} {ok : Bool}

/-! ## Movement engines (R301, R305) -/

/-- A request that has its turn is served, and what stood behind it goes on. -/
theorem State.atEngine_of_hasTurn {q : Option (Nat × EngReq)} (hq : s.hasTurn q) (f : State → State) :
    s.atEngine q f = f (s.served q) := by
  cases q with
  | none => rfl
  | some x => exact if_pos (hq x rfl)

/-! ## OPERATION_COMPLETE (R169, R265) -/

/-- A started LOAD whose tensor is LOADING, on no paused channel, ends well or fails. -/
theorem State.opGoes_of_loading {n hd tid : Nat} {o : AOp} (hop : o.op = .load tid) (hst : o.started = true)
    (ht : s.tensor o.part tid = some t) (hs : t.state = .loading) (hp : (s.tensorChans t 0 t.desc.length).any s.paused = false) :
    s.opGoes n hd o ok = if ok && !s.readsBad o.part t then s.loadEnds o.part tid else s.loadFails o.part tid t := by
  simp [State.opGoes, State.loadOver, hop, hst, ht, hs, hp]

/-- A LOAD that has not started is tried again. -/
theorem State.opGoes_of_waiting_load {n hd tid : Nat} {o : AOp} (hop : o.op = .load tid) (hst : o.started = false) :
    s.opGoes n hd o ok = s.tryLoad n hd o.part o.acc tid := by
  simp [State.opGoes, State.tryOp, hop, hst]

/-- The block planes that a gear load has written, each changed by `f`, and the load's end with its diagnosis (R158). -/
def State.gearEnds (s : State) (n hd : Nat) (o : AOp) (rect plane : Nat) (f : State → Nat → State) (w : Nat) : State :=
  (((rectBlocks rect).foldl f s).gearDiag o.part 0 0 none (((s.bplane (rectKey rect) (plane == 1)).gear.map (·.id)).getD 0)).opEnd n hd w

/-- A started GLOAD ends: its planes are LOADED, or EMPTY where it failed. -/
theorem State.gearGoes_of_started {n hd tid rect plane : Nat} {o : AOp} (hst : o.started = true) :
    s.gearGoes n hd o tid rect plane ok = if ok
      then s.gearEnds n hd o rect plane
        (fun v b => v.setBplane b (plane == 1) { v.bplane b (plane == 1) with state := .loaded }) (okWord false)
      else s.gearEnds n hd o rect plane (fun v b => v.emptyPlane b (plane == 1)) (outcomeWord 0 false false stAborted eParity) := by
  simp only [State.gearGoes, State.gearEnds, hst, if_true]

section
variable {seq : Nat} {hd : HandleId} {o : AOp} (hl : s.live = true) (ho : s.aop seq hd.val = some o)
include hl ho

section
variable (hw : (ok && s.awaitsHost o.part o) = false)
include hw

/-- An operation whose load had a host read denied fails. -/
theorem exec_operationComplete_of_denied {tid a : Nat} (hd' : s.hostDenied o.part o = some (tid, a)) :
    exec (.operationComplete seq hd ok) s = .next (s.loadDenied o.part tid a) := by
  show execOperationComplete seq hd ok s = _
  rw [execOperationComplete, State.ifLive_of_live hl]
  simp only [ho, hw, hd', Bool.false_eq_true, if_false]

variable (hd' : s.hostDenied o.part o = none) (hq : s.hasTurn (s.opReq seq o))
include hd' hq

/-- A gear load goes on. -/
theorem exec_operationComplete_of_gload {tid rect plane : Nat} (hop : o.op = .gload tid rect plane) :
    exec (.operationComplete seq hd ok) s = .next ((s.served (s.opReq seq o)).gearGoes seq hd o tid rect plane ok) := by
  show execOperationComplete seq hd ok s = _
  rw [execOperationComplete, State.ifLive_of_live hl]
  simp only [ho, hw, hd', hop, Bool.false_eq_true, if_false, State.atEngine_of_hasTurn hq]

/-- A LOAD goes on. -/
theorem exec_operationComplete_of_load {tid : Nat} (hop : o.op = .load tid) :
    exec (.operationComplete seq hd ok) s = .next ((s.served (s.opReq seq o)).opGoes seq hd o ok) := by
  show execOperationComplete seq hd ok s = _
  rw [execOperationComplete, State.ifLive_of_live hl]
  simp only [ho, hw, hd', hop, Bool.false_eq_true, if_false, State.atEngine_of_hasTurn hq]

end

/-! ## GEAR_LOAD_RESUME (R116) -/

/-- A gear load that waited under check 17 writes its planes as they are free. -/
theorem exec_gearLoadResume_of_write {tid rect plane len : Nat} {g : GearImage} (hop : o.op = .gload tid rect plane)
    (hpass : o.passed = true) (hst : o.started = false) (hg : s.gearImage o tid = some (g, len))
    (hj : s.gearJudge g (plane == 1) = .write) :
    exec (.gearLoadResume seq hd) s = .next ((s.gearWrite g (plane == 1)).setAop seq hd { o with started := true, passed := true }) := by
  show execGearLoadResume seq hd s = _
  rw [execGearLoadResume, State.ifLive_of_live hl]
  simp only [ho, hop, hpass, hst, hg, State.gearPlace, hj, Bool.not_false, Bool.and_self, if_true]

end

/-! ## WRITE_BACK_DONE (R169, R175) -/

/-- A write-back for a FLUSH alone leaves the tensor CLEAN. -/
theorem State.wroteBack_of_flush {p tid : Nat} (hwb : t.wb = some .flush) :
    s.wroteBack p tid t = s.modTensor p tid fun t => { t with state := .clean, wb := none, landed := false } := by
  simp only [State.wroteBack, hwb]

/-- The FLUSHes take the outcome of such a write-back, and no other operation does. -/
theorem State.writersEnd_of_flush {p tid : Nat} (hwb : t.wb = some .flush) (ha : t.awaited = false) (w : Nat) :
    s.writersEnd p tid t w = s.opsEnd (s.startedOn p (HOp.flushes tid)) w := by
  simp [State.writersEnd, hwb, ha]

section
variable {p : PartId} {tid : Word32} (hl : s.live = true) (ht : s.tensor p.val tid.toNat = some t)
include hl ht

section
variable (hs : t.state = .writing) (hwb : t.wb = some .flush) (hr : s.backingReady p.val t = true)
  (hp : (s.tensorChans t 0 t.desc.length).any s.paused = false) (ha : t.awaited = false) (hq : s.hasTurn (s.backReq p.val t))
include hs hwb hr hp ha hq

/-- A FLUSH's write-back ends well. -/
theorem exec_writeBackDone_of_flush {v : State}
    (hv : ((s.served (s.backReq p.val t)).mainRead p.val tid.toNat 0 t.desc.length).writeBack p.val t = some v) :
    let w := v.modTensor p.val tid.toNat fun t => { t with state := .clean, wb := none, landed := false }
    exec (.writeBackDone p tid true) s = .next (w.opsEnd (w.startedOn p.val (HOp.flushes tid.toNat)) (okWord false)) := by
  show execWriteBackDone p tid true s = _
  rw [execWriteBackDone, State.ifLive_of_live hl]
  simp only [ht, hs, hr, hp, ne_eq, not_true, Bool.true_eq_false, Bool.false_eq_true, or_self, if_false, if_true,
    State.atEngine_of_hasTurn hq, hv, State.wroteBack_of_flush hwb, State.writersEnd_of_flush hwb ha]

/-- A FLUSH's write-back fails: the tensor stays DIRTY. -/
theorem exec_writeBackDone_of_failed_flush :
    let w := ((s.served (s.backReq p.val t)).setTensor p.val tid.toNat { t with
      state := .dirty, wb := none, landed := false }).tnsFault p.val 7 2 0 tid.toNat
    exec (.writeBackDone p tid false) s =
      .next (w.opsEnd (w.startedOn p.val (HOp.flushes tid.toNat)) (refusedWord 0 false eNoSpace)) := by
  show execWriteBackDone p tid false s = _
  rw [execWriteBackDone, State.ifLive_of_live hl]
  simp only [ht, hs, hr, hp, ne_eq, not_true, Bool.true_eq_false, Bool.false_eq_true, or_self, if_false,
    State.atEngine_of_hasTurn hq, State.writersEnd_of_flush hwb ha]

end

/-! ## Repairs (R193) -/

/-- TENSOR_REFETCH_DONE of a backing whose places can be read, none of them in host memory. -/
theorem exec_tensorRefetchDone_of_ready (hrep : t.repairing = true) (hb : s.readsBad p.val t = false)
    (hm : s.readMeets p.val ((List.range t.desc.dataLen).filterMap (s.backSource p.val t)) = .ready)
    (hh : hostOf ((List.range t.desc.dataLen).filterMap (s.backSource p.val t)) = none) :
    exec (.tensorRefetchDone p tid true) s = .next (s.refetched p.val tid.toNat t) := by
  show execTensorRefetchDone p tid true s = _
  rw [execTensorRefetchDone, State.ifLive_of_live hl]
  simp only [ht, hrep, hb, State.readPlaces, hm, hh, Bool.true_eq_false, if_false, Bool.not_false, Bool.and_self, if_true]

/-- TENSOR_REFETCH_DONE that did not go well, or of a backing with a bulk page that has failed. -/
theorem exec_tensorRefetchDone_of_failed (hrep : t.repairing = true) (hb : ok = false ∨ s.readsBad p.val t = true) :
    exec (.tensorRefetchDone p tid ok) s =
      .next (s.repairFails p.val tid.toNat (tierCause (s.backingTier p.val t)) (s.backingTier p.val t)) := by
  have hbad : (ok && !s.readsBad p.val t) = false := by
    rcases hb with h | h <;> simp [h]
  show execTensorRefetchDone p tid ok s = _
  rw [execTensorRefetchDone, State.ifLive_of_live hl]
  simp only [ht, hrep, hbad, Bool.true_eq_false, Bool.false_eq_true, if_false]

end

/-! ## Stored-data failures (R193, R194, R229) -/

section
variable {p tid : Nat} (ht : s.tensor p tid = some t)
include ht

/-- In a bulk tensor: recorded, and the reading command aborts. -/
theorem State.storedFailure_of_bulk (hb : t.bulk = true) (page seq : Nat) :
    s.storedFailure p tid page seq = (s.tnsFault p 6 3 0 tid).abortCmd seq eParity 0 := by
  simp only [State.storedFailure, ht, hb, if_true]

/-- In a main CLEAN tensor with a backing: the page is recorded and a repair begins. -/
theorem State.storedFailure_of_backed (hb : t.bulk = false) (hn : t.near = false) (hs : t.state = .clean) (hk : t.desc.back ≠ 0)
    (hr : t.repairing = false) (page seq : Nat) : s.storedFailure p tid page seq =
      (((s.draw 13).2.pageFail t page (s.draw 13).1).modTensor p tid fun u =>
        { u with repairing := true, struck := t.frames[page]?.toList }).holdStreams p tid (fun r => r.seq == seq) true := by
  have hres : TState.clean.resident = true := rfl
  simp only [State.storedFailure, ht, hb, hn, hs, hres, hk, hr, State.repair, ne_eq, not_false_eq_true, and_self, Bool.false_eq_true,
    if_false, if_true]

end

/-! ## Limits that run out (R258, R309) -/

/-- COMMAND_WATCHDOG of a running PROGRAM that counts more than it may. -/
theorem exec_commandWatchdog_of_overdue {seq : Nat} {c : Cmd} (hl : s.live = true) (hc : s.cmd seq = some c)
    (hs : c.stage = .running ∨ c.stage = .parked) (hk : c.hdr.kind = 0) (ho : 0 < s.overdue seq c) :
    exec (.commandWatchdog seq) s = .next (s.abortCmd seq eAborted 0xFB) := by
  show execCommandWatchdog seq s = _
  rw [execCommandWatchdog, State.ifLive_of_live hl]
  simp only [hc]
  rw [if_pos ⟨hs, hk, ho⟩]

/-- TASK_LINK_STALL of an open task whose next command is not readable within the stall limit of its last one. -/
theorem exec_taskLinkStall_of_due {q : QueueId} {k : Task} {e n : Nat} {c : Cmd} (hl : s.live = true)
    (hlink : (s.queue q.val).linkPrev = true) (hopen : (s.queue q.val).taskOpen = true) (hdoom : (s.queue q.val).doomed = false)
    (hread : s.readable q.val = false) (hk : s.task (s.queue q.val).taskSeq = some k) (he : k.linkEnd = some e)
    (hn : k.cmds.getLast? = some n) (hc : s.cmd n = some c) (hs : c.stage = .ended) (hdue : s.due e (c.cfg.stallMs * 1000000) = true) :
    let at_ := timeAdd e (c.cfg.stallMs * 1000000)
    exec (.taskLinkStall q) s = .next (s.abortBy (s.queue q.val).taskSeq
      ((s.firstCause (s.queue q.val).taskSeq at_ eStall).getD ⟨at_, eStall, 0, n, []⟩)) := by
  show execTaskLinkStall q s = _
  rw [execTaskLinkStall, State.ifLive_of_live hl]
  simp [hlink, hopen, hdoom, hread, hk, he, hn, hc, hs, hdue]

/-! ## The obligation -/

/-- Settles O24: each end as its own lemma says, from a live state. -/
theorem operationsEnd : Obligations.OperationsEnd := by
  refine fun s hl => ⟨fun seq hd ok o ho hw => ⟨fun tid a hd' => exec_operationComplete_of_denied hl ho hw hd',
      fun hd' hq => ⟨?load, ?gload, ?again⟩⟩,
    fun seq hd o tid rect plane g len ho hop hpass hst hg hj => exec_gearLoadResume_of_write hl ho hop hpass hst hg hj,
    fun p tid t ht hs hwb hr hp ha hq => ⟨fun v hv => exec_writeBackDone_of_flush hl ht hs hwb hr hp ha hq hv,
      exec_writeBackDone_of_failed_flush hl ht hs hwb hr hp ha hq⟩,
    fun seq c hc hs hk ho => exec_commandWatchdog_of_overdue hl hc hs hk ho,
    fun q k e n c hlink hopen hdoom hread hk he hn hc hs hdue =>
      exec_taskLinkStall_of_due hl hlink hopen hdoom hread hk he hn hc hs hdue,
    fun p tid t page seq ht => ⟨fun hb => ?bulk, fun hb hn hs hk hr => ?backed⟩,
    fun p tid t ht hrep => ⟨fun hb hm hh => exec_tensorRefetchDone_of_ready hl ht hrep hb hm hh,
      fun ok hb => exec_tensorRefetchDone_of_failed hl ht hrep hb⟩⟩
  case load =>
    intro tid t hop hst ht hs hp
    rw [exec_operationComplete_of_load hl ho hw hd' hq hop, State.opGoes_of_loading hop hst ht hs hp]
  case gload =>
    intro tid rect plane hop hst id ends
    rw [exec_operationComplete_of_gload hl ho hw hd' hq hop, State.gearGoes_of_started hst]
    rfl
  case again =>
    intro tid hop hst
    rw [exec_operationComplete_of_load hl ho hw hd' hq hop, State.opGoes_of_waiting_load hop hst]
  case bulk => exact (State.ifLive_of_live hl).trans (congrArg _ (State.storedFailure_of_bulk ht hb page seq))
  case backed => exact (State.ifLive_of_live hl).trans (congrArg _ (State.storedFailure_of_backed ht hb hn hs hk hr page seq))

end Sys2Proof.Machine
end

section
/-! PROOFS. Tables filled entry by entry, the selection of a hub's next command (R304), the dispatch of a taken command (R260) and the start
of a PROGRAM at its body (R262), with the obligations about them. -/

namespace Sys2Proof

/-! ## Tables filled entry by entry -/

section
variable {ι α : Type} [DecidableEq α] (d : α) {key : ι → Nat} {val : ι → α} {l : List ι} {m : Tab α} {k : Nat}

/-- Filling a table leaves a key that no entry writes as it was. -/
theorem Tab.get_foldl_set_of_not_mem (hm : Tab.rising m = true) (hk : k ∉ l.map key) :
    Tab.get d (l.foldl (fun m e => Tab.set d m (key e) (val e)) m) k = Tab.get d m k := by
  induction l generalizing m with
  | nil => rfl
  | cons e l ih =>
    obtain ⟨hne, hl⟩ := not_or.1 (mt List.mem_cons.2 hk)
    exact (ih (Tab.rising_set d hm _ _) hl).trans (Tab.get_set_other d d hm hne _)

/-- A table filled with entries of different keys reads as each of them. -/
theorem Tab.get_foldl_set_of_mem (hm : Tab.rising m = true) (hl : (l.map key).Nodup) {e : ι} (he : e ∈ l) :
    Tab.get d (l.foldl (fun m e => Tab.set d m (key e) (val e)) m) (key e) = val e := by
  induction l generalizing m with
  | nil => exact absurd he List.not_mem_nil
  | cons f l ih =>
    obtain ⟨hf, hl⟩ := List.nodup_cons.1 hl
    rcases List.mem_cons.1 he with rfl | he
    · exact (Tab.get_foldl_set_of_not_mem d (Tab.rising_set d hm _ _) hf).trans (Tab.get_set_same d hm _ _)
    · exact ih (Tab.rising_set d hm _ _) hl he

end

end Sys2Proof

namespace Sys2Proof.Machine

variable {s : State} {n : Nat} {c : Cmd}

/-! ## Selection (R304) -/

/-- What a free hub does with its next pick (R268, R304). -/
def State.takePick (s : State) (h : Nat) : Option Pick → State
  | none => s.dropCont h
  | some (.parked n) => s.unpark h n
  | some (.cont q) => (s.setHub h { s.hub h with cont := none }).takeCmd h q
  | some (.own cls q) =>
    let u := s.dropCont h
    (u.setHub h ((u.hub h).setDeque cls (((u.hub h).deque cls).drop 1))).takeCmd h q
  | some (.steal g cls q) =>
    let u := s.dropCont h
    (u.setHub g ((u.hub g).setDeque cls ((u.hub g).deque cls).dropLast)).takeCmd h q

/-- HUB_SELECT of a free hub that parks nothing takes its next pick. -/
theorem exec_hubSelect_of_free {h : HubId} (hl : s.live = true) (hp : s.park h.val = s) (hc : (s.hub h.val).cur = none)
    (hs : (s.hub h.val).stack = []) {k : Option Pick} (hk : s.pickNext h.val = k) :
    exec (.hubSelect h) s = .next (s.takePick h.val k) := by
  subst hk
  have hfree : ((s.hub h.val).cur.isSome || !(s.hub h.val).stack.isEmpty) = false := by simp [hc, hs]
  show execHubSelect h s = _
  rw [execHubSelect, State.ifLive_of_live hl]
  simp only [hp, hfree, Bool.false_eq_true, if_false]
  rcases s.pickNext h.val with _ | (_ | _ | _ | _) <;> rfl

/-! ## The dispatch read (R260) -/

/-- The state in which the body and the data of a command have been read into its hub, the engine that read them going on. -/
def State.bodyRead (s : State) (h : Nat) (c : Cmd) : State :=
  ((s.engServe (s.ringEngine c.queue) (s.readReq c)).readBody h c).hostGoes

section
variable {h : HubId} (hl : s.live = true) (hc : s.curCmd h.val = some (n, c)) (hst : c.stage = .taken) (hs : (s.hub h.val).stack = [])
include hl hc hst hs

section
variable (hd : c.dstep = 0) (ho : s.ringOpen c.queue = true) (he : s.engGrants (s.ringEngine c.queue) (s.readReq c) = true)
  (hw : s.on F.Q_CFG.LOC c.queue = true ∨ s.window (c.part + 1) (s.ringAddr c.queue (c.pos + 1)) 64 false = true)
include hd ho he hw

/-- COMMAND_DISPATCH at step 1, its engine and its window granted: the read fails beyond repair, or the DEADLINE is judged and the steps of
the command's kind follow. -/
theorem exec_commandDispatch_of_granted (fail : Bool) : exec (.commandDispatch h fail) s = .next (
    if fail then (s.ringFails c).abortCmd n eParity 0
    else if c.deadline ≠ timeNone ∧ c.deadline ≤ (s.bodyRead h.val c).time then (s.bodyRead h.val c).refuse n eAdmitTime
    else if c.hdr.kind = 1 then (s.bodyRead h.val c).requestSteps h.val n c else (s.bodyRead h.val c).programSteps h.val n c) := by
  have hgo : ¬(c.stage ≠ .taken ∨ (s.hub h.val).stack.isEmpty = false) := by simp [hst, hs]
  have hopen : ¬(s.ringOpen c.queue = false ∨ s.engGrants (s.ringEngine c.queue) (s.readReq c) = false) := by simp [ho, he]
  have hwin : ¬(s.on F.Q_CFG.LOC c.queue = false ∧ s.window (c.part + 1) (s.ringAddr c.queue (c.pos + 1)) 64 false = false) := by
    simpa [imp_iff_not_or] using hw
  show execCommandDispatch h fail s = _
  rw [execCommandDispatch, State.ifLive_of_live hl]
  simp only [hc, hd, if_neg hgo, if_neg hopen, if_neg hwin]
  rfl

end

/-! ## Holds (R171) -/

/-- DISPATCH_HOLD_GRANT of a PROGRAM that can take its holds starts it. -/
theorem exec_dispatchHoldGrant_of_ready (hd : c.dstep = 8) (hr : s.holdReady c = true) (hk : c.hdr.kind = 0) :
    exec (.dispatchHoldGrant h) s = .next (s.startProgram h.val n c) := by
  obtain ⟨-, hcmd⟩ := State.curCmd_eq_some.1 hc
  show execDispatchHoldGrant h s = _
  rw [execDispatchHoldGrant, State.ifLive_of_live hl]
  simp [hc, hst, hs, hd, hr, hk, State.holdStep, hcmd]

end

/-! ## The steps of a PROGRAM and of a REQUEST (R260, R317) -/

/-- A command with the declarations that its data area holds (R252). -/
def Cmd.declared (c : Cmd) (data : List Byte) : Cmd :=
  { c with decls := (c.hdr.declList data).map fun w => (⟨w % 2 ^ 32, bits w 32 2⟩ : Decl) }

/-- None of the declared tensors is LOST. -/
theorem any_lost_eq_false {p : Nat} {ds : List Decl} (hd : ∀ x ∈ ds, ∀ t, s.tensor p x.tid = some t → t.state ≠ .lost) :
    (ds.any fun d => (s.tensor p d.tid).any fun t => t.state == .lost) = false :=
  List.any_eq_false.2 fun d hmem => by
    cases ht : s.tensor p d.tid with
    | none => simp
    | some t => simpa using hd d hmem t ht

section
variable {h : Nat} {v : State} (hb : s.blockSteps n c (c.hdr.blocks (s.frameData h c)) = (v, .ok))
include hb

/-- Steps 4 to 6 of a PROGRAM whose RUN blocks have passed step 3. -/
theorem State.programSteps_of_blocks :
    let data := s.frameData h c
    let blocks := c.hdr.blocks data
    let d := c.declared data
    let w := v.setCmd n d
    s.programSteps h n c =
      if v.declOk c.part d.decls blocks data = false then v.refuse n eShape
      else if blocks.any fun r => zeroExtent r.shape then (w.setCmd n { d with zeroExtent := true, cfg := w.runCfg c.part }).endCommand h n
      else if (d.decls.any fun x => (w.tensor c.part x.tid).any fun t => t.state == .lost) ||
        blocks.any (fun r => (r.streams data).any (w.gathersLost c.task c.part)) then w.abortCmd n eStateLost 0
      else w.reserveStep h n := by
  simp only [State.programSteps, hb]
  rfl

variable (hd : v.declOk c.part (c.declared (s.frameData h c)).decls (c.hdr.blocks (s.frameData h c)) (s.frameData h c) = true)
include hd

/-- A PROGRAM with a block of zero extent ends at once (R261). -/
theorem State.programSteps_of_zeroExtent (hz : ((c.hdr.blocks (s.frameData h c)).any fun b => zeroExtent b.shape) = true) :
    let d := c.declared (s.frameData h c)
    let w := v.setCmd n d
    s.programSteps h n c = (w.setCmd n { d with zeroExtent := true, cfg := w.runCfg c.part }).endCommand h n := by
  rw [State.programSteps_of_blocks hb, if_neg (Bool.not_eq_false _ ▸ hd), if_pos hz]

/-- A PROGRAM with no block of zero extent and no LOST tensor goes on to reserve its pages. -/
theorem State.programSteps_of_checked (hz : ((c.hdr.blocks (s.frameData h c)).any fun b => zeroExtent b.shape) = false)
    (hlost : ∀ x ∈ (c.declared (s.frameData h c)).decls, ∀ t,
      (v.setCmd n (c.declared (s.frameData h c))).tensor c.part x.tid = some t → t.state ≠ .lost)
    (hg : ((c.hdr.blocks (s.frameData h c)).any fun b =>
      (b.streams (s.frameData h c)).any ((v.setCmd n (c.declared (s.frameData h c))).gathersLost c.task c.part)) = false) :
    s.programSteps h n c = (v.setCmd n (c.declared (s.frameData h c))).reserveStep h n := by
  rw [State.programSteps_of_blocks hb, if_neg (Bool.not_eq_false _ ▸ hd), if_neg (Bool.eq_false_iff.1 hz), any_lost_eq_false hlost, hg]
  rfl

end

/-- A REQUEST that passes R317, none of its tensors LOST, takes its holds. -/
theorem State.requestSteps_of_ok {h : Nat} {q : Request} (hq : Request.parse (s.frameData h c) = q)
    (hok : s.requestOk c.part c.hdr.nslot q = true)
    (hlost : ∀ x ∈ q.reads, ∀ t, (s.setCmd n { c with decls := q.reads }).tensor c.part x.tid = some t → t.state ≠ .lost) :
    s.requestSteps h n c = (s.setCmd n { c with decls := q.reads }).requestHold h n := by
  subst hq
  simp only [State.requestSteps, hok, any_lost_eq_false hlost, Bool.true_eq_false, Bool.false_eq_true, if_false]

/-- Settles O26: each pick, each end of the dispatch read and the grant of the holds as its own lemma says. -/
theorem hubsTakeCommands : Obligations.HubsTakeCommands := by
  refine ⟨fun h s cls q hl hp hc hs => ⟨exec_hubSelect_of_free hl hp hc hs, fun g => exec_hubSelect_of_free hl hp hc hs,
      exec_hubSelect_of_free hl hp hc hs, fun m => exec_hubSelect_of_free hl hp hc hs⟩,
    fun h s n c hl hc hst hd hs ho he hw => ?dispatch,
    fun h s n c hl hc hst hd hs hr hk => exec_dispatchHoldGrant_of_ready hl hc hst hs hd hr hk⟩
  intro u data blocks d
  have hfail := exec_commandDispatch_of_granted hl hc hst hs hd ho he hw true
  have hread := exec_commandDispatch_of_granted hl hc hst hs hd ho he hw false
  rw [if_neg Bool.false_ne_true] at hread
  refine ⟨hfail, fun hlim hover => hread.trans (congrArg _ (if_pos (And.intro hlim hover))), fun hdl => ?_⟩
  rw [if_neg fun hover => hdl.elim hover.1 (Nat.not_lt.2 hover.2)] at hread
  refine ⟨fun v hk hb hok => ?_, fun hk => ?_⟩
  · rw [hread, if_neg (by omega)]
    exact ⟨fun hz => congrArg _ (State.programSteps_of_zeroExtent hb hok hz),
      fun hz hlost hg => congrArg _ (State.programSteps_of_checked hb hok hz hlost hg)⟩
  · rw [hread, if_pos hk]
    exact fun hok hlost => congrArg _ (State.requestSteps_of_ok rfl hok hlost)

/-! ## The start of a PROGRAM (R171, R243, R262, R279) -/

@[simp] theorem State.ctl_trace (s : State) (event seq a1 a2 : Nat) : (s.trace event seq a1 a2).ctl = s.ctl := by
  unfold State.trace
  split_ifs <;> simp

@[simp] theorem State.ctl_leadStart (s : State) (c : Cmd) : (s.leadStart c).ctl = s.ctl := by
  simp only [State.leadStart]
  split_ifs <;> simp

/-- Taking the holds touches tensors, and no control state but the command. -/
theorem State.takeHolds_frame (s : State) (n : Nat) (c : Cmd) :
    (s.takeHolds n c).ctl = (s.setCmd n { c with held := true }).ctl ∧ (s.takeHolds n c).time = s.time := by
  refine List.foldlRecOn (motive := fun u : State => u.ctl = (s.setCmd n { c with held := true }).ctl ∧ u.time = s.time) c.decls _
    ⟨rfl, rfl⟩ fun u hu d _ => ?_
  unfold State.modTensor
  cases u.tensor c.part d.tid <;> exact hu

/-- The registers that a PROGRAM starts with, and what each holds (R243). -/
def Cmd.bodyEntries (c : Cmd) (n : Nat) : List (Nat × Nat) := [(1, n), (2, frameBase c.frame), (3, c.pos), (4, c.queue)]

/-- The register table of a hub at the start of a PROGRAM. -/
def Cmd.bodyRegs (c : Cmd) (n : Nat) : Tab Word64 :=
  (c.bodyEntries n).foldl (fun m e => Tab.set 0 m e.1 (BitVec.ofNat 64 e.2)) []

theorem Cmd.get_bodyRegs_of_mem {e : Nat × Nat} (he : e ∈ c.bodyEntries n) : Tab.get 0 (c.bodyRegs n) e.1 = BitVec.ofNat 64 e.2 :=
  Tab.get_foldl_set_of_mem 0 (key := Prod.fst) rfl (by simp [Cmd.bodyEntries]) he

theorem Cmd.get_bodyRegs_of_gt {r : Nat} (hr : 4 < r) : Tab.get 0 (c.bodyRegs n) r = 0 :=
  (Tab.get_foldl_set_of_not_mem 0 (key := Prod.fst) rfl (by simp [Cmd.bodyEntries]; omega)).trans rfl

/-- The control state of a PROGRAM that starts, with its holds taken and its journal entry written. -/
def State.dispatchedCtl (s : State) (n : Nat) (c : Cmd) : Ctl :=
  ((s.setCmd n { c with held := true }).jput n { s.jget n with state := .dispatched, time := s.time }).ctl

/-- The state in which a PROGRAM has taken its holds and is DISPATCHED. -/
def State.dispatched (s : State) (n : Nat) (c : Cmd) : State :=
  ((s.takeHolds n c).jset n { s.jget n with state := .dispatched }).leadStart c

theorem State.ctl_dispatched (s : State) (n : Nat) (c : Cmd) : (s.dispatched n c).ctl = s.dispatchedCtl n c := by
  obtain ⟨hctl, htime⟩ := s.takeHolds_frame n c
  rw [State.dispatched, State.ctl_leadStart, State.jset, State.ctl_trace, htime]
  simp only [State.jput, hctl]
  rfl

theorem State.cmd_dispatched (s : State) (n : Nat) (c : Cmd) : (s.dispatched n c).cmd n = some { c with held := true } := by
  rw [State.cmd, State.ctl_dispatched]
  exact Tab.find_insert_same ..

theorem State.hub_dispatched (s : State) (n : Nat) (c : Cmd) (h : Nat) : (s.dispatched n c).hub h = s.hub h := by
  rw [State.hub, State.ctl_dispatched]
  rfl

/-- The journal entry of a DISPATCHED command, at the device time (R279). -/
theorem State.jget_dispatched (s : State) (n : Nat) (c : Cmd) :
    (s.dispatched n c).jget n = { s.jget n with state := .dispatched, time := s.time } := by
  rw [State.jget, State.ctl_dispatched]
  exact Tab.get_set_same_of_ne _ _ _ fun h => JState.noConfusion (congrArg JEntry.state h)

/-- A command as it begins to run (R262). -/
def State.begun (s : State) (c : Cmd) : Cmd :=
  { c with stage := .running, startedAt := s.work, maxLen := s.rd F.HUB_PART_CFG.CMD_MAXLEN c.part, cfg := s.runCfg c.part, dstep := 0 }

/-- A hub at the first word of a command's body, with R1 to R4 set (R243, R262). -/
def Hub.atBody (x : Hub) (n : Nat) (c : Cmd) : Hub :=
  { x with regs := c.bodyRegs n, pc := bodyBase c.frame, wait := none, stalled := false, waited := false }

/-- A PROGRAM that starts: its command runs, and its hub stands at the first word of its body. -/
theorem State.startProgram_eq (s : State) (h n : Nat) (c : Cmd) : let u := s.dispatched n c
    s.startProgram h n c =
      ((u.setCmd n (u.begun { c with held := true })).setHub h ((s.hub h).atBody n c)).moveHead c.queue := by
  intro u
  have hmod : u.modCmd n u.begun = u.setCmd n (u.begun { c with held := true }) := State.modCmd_of_cmd (s.cmd_dispatched n c) _
  have hhub : (u.modCmd n u.begun).hub h = s.hub h := by rw [hmod, State.hub_of_setCmd, State.hub_dispatched]
  show ((u.modCmd n u.begun).setHub h (((u.modCmd n u.begun).hub h).atBody n c)).moveHead c.queue = _
  rw [hhub, hmod]

@[simp] theorem State.hub_moveHead (s : State) (q h : Nat) : (s.moveHead q).hub h = s.hub h := State.hub_of_setQueue ..

@[simp] theorem State.cmd_moveHead (s : State) (q n : Nat) : (s.moveHead q).cmd n = s.cmd n := State.cmd_of_setQueue ..

/-- The hub of a PROGRAM that starts. -/
theorem State.hub_startProgram (hh : Tab.rising s.ctl.hubs = true) (h n : Nat) (c : Cmd) : (s.startProgram h n c).hub h = (s.hub h).atBody n c := by
  rw [State.startProgram_eq, State.hub_moveHead, State.hub_setHub_same]
  rw [State.ctl_hubs_setCmd, State.ctl_dispatched]
  exact hh

/-- Settles O27: the program counter and the registers are those of the hub that starts, the journal entry and the command those of the
DISPATCHED state. -/
theorem programsStartAtTheirBody : Obligations.ProgramsStartAtTheirBody := by
  intro h s n c hl hc hst hd hs hr hk hh
  have hhub := State.hub_startProgram hh h.val n c
  have hreg : ∀ r, r ≠ 0 → ((s.startProgram h.val n c).hub h.val).reg r = Tab.get 0 (c.bodyRegs n) r := fun r hr => by
    rw [hhub, Hub.reg, if_neg hr]
    rfl
  have hset : ∀ e ∈ c.bodyEntries n, e.1 ≠ 0 → ((s.startProgram h.val n c).hub h.val).reg e.1 = BitVec.ofNat 64 e.2 := fun e he h0 =>
    (hreg e.1 h0).trans (Cmd.get_bodyRegs_of_mem he)
  have hj : (s.startProgram h.val n c).jget n = { s.jget n with state := .dispatched, time := s.time } := by
    rw [State.startProgram_eq, ← State.jget_dispatched s n c]
    rfl
  refine ⟨_, exec_dispatchHoldGrant_of_ready hl hc hst hs hd hr hk, by rw [hhub]; rfl, hset (1, n) ?_ ?_, hset (2, frameBase c.frame) ?_ ?_,
    hset (3, c.pos) ?_ ?_, hset (4, c.queue) ?_ ?_, fun r hr _ => (hreg r (by omega)).trans (Cmd.get_bodyRegs_of_gt hr), by rw [hj],
    by rw [hj], _, by rw [State.startProgram_eq, State.cmd_moveHead, State.cmd_of_setHub, State.cmd_setCmd_same], rfl, rfl⟩
  all_goals simp [Cmd.bodyEntries]

end Sys2Proof.Machine
end

section
/-! PROOFS. The slot table (R299, R300), partitions that stop (R296), pool floors (R187), batches (R314) and result rings (R343), and the
obligation about them. -/

namespace Sys2Proof

/-- A field within the low `n` bits of a number is that of the number truncated to them. -/
theorem bits_mod_two_pow {lo w n : Nat} (h : lo + w ≤ n) (x : Nat) : bits (x % 2 ^ n) lo w = bits x lo w := by
  refine Nat.eq_of_testBit_eq fun j => ?_
  rw [testBit_bits, testBit_bits, Nat.testBit_mod_two_pow]
  by_cases hj : j < w
  · simp [show lo + j < n by omega]
  · simp [hj]

end Sys2Proof

namespace Sys2Proof.Machine

variable {s : State}

/-- A written field of a canonical register file reads as written, truncated to its width. -/
theorem State.rd_wr_same (hs : Tab.rising s.regs = true) {f : Fld} (hf : f.lo + f.w ≤ 64) (i v : Nat) :
    (s.wr f i v).rd f i = v % 2 ^ f.w := by
  rw [State.rd, State.wr, State.reg_setReg_same s hs, bits_mod_two_pow hf, bits_setBits_same]

/-- Control state holds no register. -/
theorem State.rd_withCtl (x : Ctl) (f : Fld) (i : Nat) : ({ s with ctl := x } : State).rd f i = s.rd f i := rfl

/-- A field of one bit is on where it reads 1. -/
theorem State.on_iff {f : Fld} (hw : f.w = 1) {i : Nat} : s.on f i = true ↔ s.rd f i = 1 := by
  have hlt : s.rd f i < 2 ^ 1 := hw ▸ bits_lt ..
  simp only [State.on, bne_iff_ne]
  omega

/-! ## Requests of the host (R287, R301, R346) -/

section
variable {f : FnId} (hf : s.hears f.val)
include hf

theorem State.ifHost_of_hears (off : Nat) (t : State) : s.ifHost f.val off t = .next t :=
  let ⟨hl, ht, hm⟩ := hf
  State.ifHost_of_live off hl ht hm

theorem exec_commit : exec (.commit f) s = .next (if isPF f.val then s.put F.HUB_CYCLE_CTRL.PENDING 0 true else s.deny f.val) :=
  State.ifHost_of_hears hf ..

theorem exec_poolFloorWrite (p : PartId) (v : Word32) :
    exec (.poolFloorWrite f p v) s = .next (if isPF f.val then s.writeFloor p.val v.toNat else s.deny f.val) :=
  State.ifHost_of_hears hf ..

theorem exec_batchEnable (b : BatchId) : exec (.batchEnable f b) s = .next (if isPF f.val then s.batchEnable b.val else s.deny f.val) :=
  State.ifHost_of_hears hf ..

theorem exec_batchDisable (b : BatchId) :
    exec (.batchDisable f b) s = .next (if isPF f.val then s.batchDisable b.val else s.deny f.val) :=
  State.ifHost_of_hears hf ..

theorem exec_ringReadWrite (b : BatchId) (v : Word32) : exec (.ringReadWrite f b v) s =
    .next (if ownFn f.val (s.rd F.SRV_BATCH_CFG.PART b.val) then s.moveRead b.val v.toNat else s.deny f.val) :=
  State.ifHost_of_hears hf ..

end

theorem isPF_iff {f : Nat} : isPF f = true ↔ f = 0 := beq_iff_eq

/-! ## The slot table (R300) -/

/-- The owner that the staging table gives a slot, if any. -/
def State.stagedOwner (s : State) (i : Nat) : Option Nat :=
  if s.on F.HUB_CYCLE.VALID i then some (s.rd F.HUB_CYCLE.PART i) else none

/-- The staging table as the active table takes it over. -/
def State.stagedTable (s : State) : Tab (Option Nat) := (List.range 128).foldl (fun m i => Tab.set none m i (s.stagedOwner i)) []

/-- Every slot of the table that is taken over has the owner staged for it. -/
theorem State.get_stagedTable {i : Nat} (hi : i < 128) : Tab.get none s.stagedTable i = s.stagedOwner i :=
  Tab.get_foldl_set_of_mem none (key := id) rfl (by rw [List.map_id]; exact List.nodup_range) (List.mem_range.2 hi)

theorem exec_cycleTableActivate (hl : s.live = true) : exec .cycleTableActivate s = .next (
    if s.on F.HUB_CYCLE_CTRL.PENDING 0 && s.time % 1024000 == 0 then
      { (s.put F.HUB_CYCLE_CTRL.PENDING 0 false) with ctl := { s.ctl with table := s.stagedTable } }
    else s) :=
  State.ifLive_of_live hl

/-! ## Pool floors (R187) -/

/-- The floors of the other partitions together. -/
def State.otherFloors (s : State) (p : Nat) : Nat :=
  (((List.range 16).filter (· != p)).map fun q => s.rd F.POOL_FLOOR.FLOOR q).foldl (· + ·) 0

/-- A floor written without FLOOR_ERR's clearing bit is stored where the floors do not exceed the pool. -/
theorem State.writeFloor_of_lt {v : Nat} (hv : v < 2 ^ 25) (p : Nat) : s.writeFloor p v =
    if s.rd F.POOL_TOTAL.PAGES 0 < s.otherFloors p + v then s.put F.POOL_FLOOR.FLOOR_ERR p true else s.wr F.POOL_FLOOR.FLOOR p v := by
  have hbit : bit v 31 = false := by
    have hz : v >>> 31 = 0 := by rw [Nat.shiftRight_eq_div_pow]; omega
    rw [bit, bits, hz]
    rfl
  have hbits : bits v 0 25 = v := Nat.mod_eq_of_lt hv
  simp only [State.writeFloor, hbit, hbits, Bool.false_eq_true, if_false]
  rfl

/-! ## Batches (R314) -/

section
variable {b : Nat}

theorem State.batchEnable_of_disabled (hs : s.batchState b = 0) (hr : s.resultRingOk b = true)
    (hp : s.rd F.SEC_PART_STATE.STATE (s.rd F.SRV_BATCH_CFG.PART b) = 1) : s.batchEnable b = s.wr F.SRV_BATCH_CTRL.STATE b 1 := by
  simp only [State.batchEnable, hs, State.enableBatch, hr, hp, beq_self_eq_true, Bool.and_self, if_true]

theorem State.batchEnable_of_stopping (hs : s.batchState b = 2) :
    s.batchEnable b = (s.put F.SRV_BATCH_CTRL.ENABLE_PEND b true).setBmem b { s.bmem b with pendAt := s.time } := by
  simp only [State.batchEnable, hs]

theorem State.batchDisable_of_enabled (hs : s.batchState b = 1) : s.batchDisable b = s.wr F.SRV_BATCH_CTRL.STATE b 2 := by
  simp only [State.batchDisable, hs]

end

/-- BATCH_STOP_DONE of a STOPPING batch with no sequence, no step in flight and no ENABLE that waits. -/
theorem exec_batchStopDone_of_idle {b : BatchId} (hl : s.live = true) (hs : s.batchState b.val = 2) (hq : s.batchSeqs b.val = [])
    (hx : s.step? b.val = none) {u : State} (hu : (s.wr F.SRV_BATCH_CTRL.STATE b.val 0).raise (104 + b.val) = u)
    (hp : u.rd F.SRV_BATCH_CTRL.ENABLE_PEND b.val = 0) : exec (.batchStopDone b) s = .next u := by
  have hidle : s.batchState b.val = 2 ∧ (s.batchSeqs b.val).isEmpty ∧ (s.step? b.val).isNone := by simp [hs, hq, hx]
  have hpend : ¬u.on F.SRV_BATCH_CTRL.ENABLE_PEND b.val = true := by simp [State.on, hp]
  show execBatchStopDone b s = _
  rw [execBatchStopDone, State.ifLive_of_live hl]
  simp only [if_pos hidle, hu, if_neg hpend]

/-! ## Partitions (R296) -/

/-- PARTITION_STOP_DONE of a STOPPING partition with no command left and no ENABLE that waits. -/
theorem exec_partitionStopDone_of_idle {p : PartId} (hl : s.live = true) (hs : s.rd F.SEC_PART_STATE.STATE p.val = 2)
    (hc : ∀ e ∈ s.ctl.cmds, e.2.part ≠ p.val)
    (hp : Tab.find ((s.scrubPart p.val).wr F.SEC_PART_STATE.STATE p.val 0).ctl.partPend p.val = none) :
    exec (.partitionStopDone p) s = .next ((s.scrubPart p.val).wr F.SEC_PART_STATE.STATE p.val 0) := by
  have hidle : s.rd F.SEC_PART_STATE.STATE p.val = 2 ∧ (s.ctl.cmds.all fun e => e.2.part != p.val) = true :=
    ⟨hs, List.all_eq_true.2 fun e he => bne_iff_ne.2 (hc e he)⟩
  show execPartitionStopDone p s = _
  rw [execPartitionStopDone, State.ifLive_of_live hl]
  simp only [if_pos hidle, hp]

/-! ## The obligation -/

/-- Settles O29: each request of the host by its gate, each event by its own lemma; the active table reads as the staging table because it
is filled slot by slot. -/
theorem partitionsSlotsAndBatches : Obligations.PartitionsSlotsAndBatches := by
  refine ⟨⟨fun f s hf h0 => ?commit, fun f p v s hf h0 => ⟨?commitDenied, ?floorDenied⟩, fun s hl => ⟨?slot, ?unpended, ?pended⟩,
      fun p s hl hs hc hp => exec_partitionStopDone_of_idle hl hs hc hp, fun f p v s hf h0 hv => ⟨?floor, ?excess⟩⟩,
    fun f b s hf => ⟨fun h0 => ⟨?enable, ?pend, ?disable⟩, fun h0 => ⟨?enableDenied, ?disableDenied⟩⟩,
    fun b s hl hs hq hx => exec_batchStopDone_of_idle hl hs hq hx rfl, fun f b v s hf => ⟨fun how => ⟨?move, ?ignore⟩, ?readDenied⟩⟩
  case commit => rw [exec_commit hf, if_pos (isPF_iff.2 h0)]
  case commitDenied => rw [exec_commit hf, if_neg (mt isPF_iff.1 h0)]
  case floorDenied => rw [exec_poolFloorWrite hf, if_neg (mt isPF_iff.1 h0)]
  case slot => exact State.ifLive_of_live hl
  case unpended =>
    intro h
    rw [exec_cycleTableActivate hl, if_neg]
    rw [Bool.and_eq_true, State.on_iff rfl, beq_iff_eq]
    rintro ⟨hp, ht⟩
    exact h.elim (fun h => by omega) (absurd ht)
  case pended =>
    intro hp ht hr table
    have htable : table = s.stagedTable := rfl
    clear_value table
    subst htable
    have hgo : (s.on F.HUB_CYCLE_CTRL.PENDING 0 && s.time % 1024000 == 0) = true :=
      Bool.and_eq_true_iff.2 ⟨(State.on_iff rfl).2 hp, beq_iff_eq.2 ht⟩
    have hslot : ∀ i < 128, Tab.get none s.stagedTable i = if s.rd F.HUB_CYCLE.VALID i = 1 then some (s.rd F.HUB_CYCLE.PART i) else none :=
      fun i hi => (State.get_stagedTable hi).trans (if_congr (State.on_iff rfl) rfl rfl)
    refine ⟨?_, (State.rd_withCtl ..).trans (State.rd_wr_same hr (by decide) 0 0), hslot⟩
    rw [exec_cycleTableActivate hl, if_pos hgo]
  case floor =>
    intro (hle : s.otherFloors p.val + v.toNat ≤ s.rd F.POOL_TOTAL.PAGES 0)
    rw [exec_poolFloorWrite hf, if_pos (isPF_iff.2 h0), State.writeFloor_of_lt hv, if_neg (Nat.not_lt.2 hle)]
  case excess =>
    intro (hlt : s.rd F.POOL_TOTAL.PAGES 0 < s.otherFloors p.val + v.toNat)
    rw [exec_poolFloorWrite hf, if_pos (isPF_iff.2 h0), State.writeFloor_of_lt hv, if_pos hlt]
  case enable =>
    intro hs hr hp
    rw [exec_batchEnable hf, if_pos (isPF_iff.2 h0), State.batchEnable_of_disabled hs hr hp]
  case pend =>
    intro hs
    rw [exec_batchEnable hf, if_pos (isPF_iff.2 h0), State.batchEnable_of_stopping hs]
  case disable =>
    intro hs
    rw [exec_batchDisable hf, if_pos (isPF_iff.2 h0), State.batchDisable_of_enabled hs]
  case enableDenied => rw [exec_batchEnable hf, if_neg (mt isPF_iff.1 h0)]
  case disableDenied => rw [exec_batchDisable hf, if_neg (mt isPF_iff.1 h0)]
  case move =>
    intro hle
    rw [exec_ringReadWrite hf, if_pos how, State.moveRead]
    exact congrArg _ (if_pos hle)
  case ignore =>
    intro hlt
    rw [exec_ringReadWrite hf, if_pos how, State.moveRead]
    exact congrArg _ (if_neg (Nat.not_le.2 hlt))
  case readDenied =>
    intro how
    rw [exec_ringReadWrite hf, if_neg (Bool.eq_false_iff.1 how)]

end Sys2Proof.Machine
end

section
/-! PROOFS. LOAD, FLUSH and EVICT by residency state (R167 to R170, R189), DEFINE and FREE (R166, R169), TRD and TWR (R264), and the
obligation about them. -/

namespace Sys2Proof.Machine

variable {s : State} {p tid n hd : Nat} {t : Tensor}

/-! ## LOAD, FLUSH and EVICT of what they do not take (R169) -/

/-- LOAD, FLUSH and EVICT of no tensor are refused. -/
theorem State.try_of_no_tensor (ht : s.tensor p tid = none) (n hd task acc : Nat) :
    s.tryLoad n hd p acc tid = s.opEnd n hd (refusedWord 0 false eShape) ∧
      s.tryFlush n hd p task tid = s.opEnd n hd (refusedWord 0 false eShape) ∧
      s.tryEvict n hd p task tid = s.opEnd n hd (refusedWord 0 false eShape) := by
  simp only [State.tryLoad, State.tryFlush, State.tryEvict, ht, and_self]

section
variable (ht : s.tensor p tid = some t)
include ht

/-- LOAD of a tensor that is not main-home is refused. -/
theorem State.tryLoad_of_not_main (hm : t.main = false) (acc : Nat) :
    s.tryLoad n hd p acc tid = s.opEnd n hd (refusedWord 0 false eShape) := by
  simp only [State.tryLoad, ht, hm, Bool.not_false, if_true]

/-- A defined tensor that is vacated: its pages leave it, and it is ABSENT. -/
theorem State.vacate_of_tensor : s.vacate p tid = (s.leavePool t.frames).setTensor p tid t.gone := by
  simp only [State.vacate, ht]

variable (hm : t.main = true)
include hm

/-- FLUSH and EVICT of a tensor without a backing are refused. -/
theorem State.try_of_no_backing (hb : t.desc.back = 0) (n hd task : Nat) :
    s.tryFlush n hd p task tid = s.opEnd n hd (refusedWord tid false eConflict) ∧
      s.tryEvict n hd p task tid = s.opEnd n hd (refusedWord tid false eConflict) := by
  simp only [State.tryFlush, State.tryEvict, ht, hm, hb, Bool.not_true, Bool.false_eq_true, if_false, if_true, and_self]

/-- FLUSH and EVICT of a LOST tensor end as aborted (R195). -/
theorem State.try_of_lost (hb : t.desc.back ≠ 0) (hs : t.state = .lost) (n hd task : Nat) :
    s.tryFlush n hd p task tid = s.opEnd n hd (outcomeWord 0 false false stAborted eStateLost) ∧
      s.tryEvict n hd p task tid = s.opEnd n hd (outcomeWord 0 false false stAborted eStateLost) := by
  simp only [State.tryFlush, State.tryEvict, ht, hm, if_neg hb, hs, Bool.not_true, Bool.false_eq_true, if_false, if_true, and_self]

/-- FLUSH and EVICT of a DIRTY tensor that nothing else uses begin its write-back (R175). -/
theorem State.try_of_dirty (hb : t.desc.back ≠ 0) (hs : t.state = .dirty) {task : Nat} (hblk : s.opBlocked task p tid t = false) (n hd : Nat) :
    s.tryFlush n hd p task tid = (s.startWrite p tid .flush).opStart n hd ∧
      s.tryEvict n hd p task tid = (s.startWrite p tid .evict).opStart n hd := by
  simp [State.tryFlush, State.tryEvict, ht, hm, hb, hs, hblk]

/-! ## LOAD by residency state (R168, R170, R195) -/

/-- LOAD of a LOADING tensor joins its load. -/
theorem State.tryLoad_of_loading (hs : t.state = .loading) (acc : Nat) :
    s.tryLoad n hd p acc tid = (s.opWaits n hd).opStart n hd := by
  simp only [State.tryLoad, ht, hm, hs, Bool.not_true, Bool.false_eq_true, if_false]

/-- LOAD of a tensor that an eviction writes back gives the eviction up and waits. -/
theorem State.tryLoad_of_eviction {o : Nat} (hs : t.state = .writing) (hwb : t.wb = some (.eviction o)) (acc : Nat) :
    s.tryLoad n hd p acc tid = ((s.setTensor p tid { t with awaited := true }).opWaits n hd).opStart n hd := by
  simp only [State.tryLoad, ht, hm, hs, hwb, Bool.not_true, Bool.false_eq_true, if_false]

/-- LOAD of a LOST tensor ends as aborted. -/
theorem State.tryLoad_of_lost (hs : t.state = .lost) (acc : Nat) :
    s.tryLoad n hd p acc tid = s.opEnd n hd (outcomeWord 0 false false stAborted eStateLost) := by
  simp only [State.tryLoad, ht, hm, hs, Bool.not_true, Bool.false_eq_true, if_false]

/-- LOAD of an ABSENT tensor whose backing is LOST ends as aborted. -/
theorem State.tryLoad_of_lost_backing (hs : t.state = .absent) (hl : s.backLost p t = true) (acc : Nat) :
    s.tryLoad n hd p acc tid = s.opEnd n hd (outcomeWord 0 false false stAborted eStateLost) := by
  simp only [State.tryLoad, ht, hm, hs, hl, Bool.not_true, Bool.false_eq_true, if_false, if_true]

/-- LOAD of an ABSENT tensor whose pages are granted begins. -/
theorem State.tryLoad_of_granted {u : State} {acc : Nat} (hs : t.state = .absent) (hl : s.backLost p t = false)
    (hu : s.askLoad (reqOf n hd) p acc 0 t = (u, .granted)) : s.tryLoad n hd p acc tid = (u.beginLoad p tid).opStart n hd := by
  simp only [State.tryLoad, ht, hm, hs, hl, hu, Bool.not_true, Bool.false_eq_true, if_false]

end

/-! ## DEFINE, FREE, TRD and TWR (R166, R169, R264) -/

/-- What a tensor that stands in the main tier, not being written back, is and is not. -/
theorem TState.standing {x : TState} (hx : x = .clean ∨ x = .dirty) :
    x.resident = true ∧ x ≠ .lost ∧ x ≠ .absent ∧ x ≠ .loading ∧ x ≠ .writing := by
  rcases hx with rfl | rfl <;> decide

section
variable {h : HubId} {i : HubInstr} {c : Cmd} (hi : s.hubIssues h i) (hc : s.curCmd h = some (n, c))
include hi hc

/-- DEFINE of a descriptor that passes the checks of R166, its pages granted and its range of the banks free. -/
theorem exec_define_of_checked {b : List Byte} {d : Desc} {u : State} (ho : i.opc = 0x20)
    (hb : b = (s.hub h).scratchN (((s.hub h).reg i.ra).toNat + i.imm) 64) (hd : d = Desc.parse b) (htid : d.tid ≠ 0)
    (hfree : s.tensor c.part d.tid = none) (hkv : s.kvReserved c.part d.tid = none) (hok : s.descOk d b = true)
    (hgate : s.bulkGate (if d.back = 2 ∨ d.home = 3 then 3 else 0) = .granted) (hback : s.backingOk c.part d = true)
    (htable : s.tableFree ≠ 0)
    (hpages : (if d.home = 2 ∧ d.back = 0 then s.takePages (reqOf n 16) c.part c.acceptedAt (pagesOf d.length) else (s, .granted)) =
      (u, .granted))
    (hnear : (if d.home = 1 ∧ d.back = 0 then u.nearOwner (tkey c.part d.tid) d else none) = none) :
    let v := if d.home = 1 ∧ d.back = 0 then (u.displace (tkey c.part d.tid) d).zeroBanks d.nearRect d.nearBase d.nearLen else u
    let w := v.setTensor c.part d.tid (d.fresh c.part v.time [])
    exec (.define h) s = .next ((if d.home = 2 ∧ d.back = 0 then w.placePages c.part d.tid else w).syncEnd h i n (okWord false)) := by
  show execDefine h s = _
  rw [execDefine, hubCmdExec_of_issues hi ho hc]
  simp only [← hb, ← hd, if_neg htid, hfree, hkv, hok, hgate, hback, if_neg htable, hpages, hnear, Option.isSome_none, Bool.false_eq_true,
    Bool.true_eq_false, reduceCtorEq, if_false]

section
variable (ht : s.tensor c.part (((s.hub h).reg i.ra).toNat % 2 ^ 32) = some t)
include ht

/-- FREE of a tensor that no other names as backing, not WRITING and not held. -/
theorem exec_free_of_unheld (ho : i.opc = 0x24) :
    let tid := ((s.hub h).reg i.ra).toNat % 2 ^ 32
    s.dependant c.part tid = none → t.state ≠ .writing → s.opBlocked c.task c.part tid t = false → exec (.free h) s =
      .next (((s.modTask c.task fun w => { w with shadows := Tab.erase w.shadows (tkey c.part tid) }).dropTensor c.part tid).syncEnd h i n
        (okWord false)) := by
  intro tid hdep hs hblk
  show execFree h s = _
  rw [execFree, hubCmdExec_of_issues hi ho hc]
  simp only [State.tidOf, ht, hdep, hs, hblk, Bool.false_eq_true, or_self, if_false, tid]

section
variable (hm : t.main = true) (hs : t.state = .clean ∨ t.state = .dirty)
  (hlen : ((s.hub h).reg i.rb).toNat + (i.aux + 1) * 32 ≤ t.desc.length)
  (hw : s.mainWaits (hubReq h) (s.readChans c.part (((s.hub h).reg i.ra).toNat % 2 ^ 32) ((s.hub h).reg i.rb).toNat
    ((i.aux + 1) * 32)) = false)
  (hg : s.engGrants 0 (s.hubAsk n c) = true)
include hm hs hlen hw hg

/-- TRD of a resident main-home tensor within its length, no channel to wait for and the engine its to use. -/
theorem exec_trd_of_resident (ho : i.opc = 0x26) :
    let tid := ((s.hub h).reg i.ra).toNat % 2 ^ 32
    let off := ((s.hub h).reg i.rb).toNat
    let len := (i.aux + 1) * 32
    let u := ((s.engServe 0 (s.hubAsk n c)).leaveMain (· == hubReq h)).mainRead c.part tid off len
    exec (.trd h) s = .next (((u.setHub h { u.hub h with
      scratch := ((s.tbytes c.task c.part tid off len).zipIdx).foldl (fun m e => Memory.write m ((i.imm % 65536 + e.2) % 65536) e.1)
        (u.hub h).scratch }).syncEnd h i n (okWord false)).mainGo) := by
  obtain ⟨hres, hlost, -⟩ := TState.standing hs
  show execTrd h s = _
  rw [execTrd, hubCmdExec_of_issues hi ho hc]
  simp only [State.tidOf, ht, if_neg hlost, hm, hres, decide_eq_true hlen, hw, hg, Bool.and_self, Bool.not_true, Bool.false_eq_true,
    Bool.true_eq_false, if_false]

/-- TWR into a resident main-home RW tensor within its length, its new shadow pages granted, no channel to wait for and the engine its to
use. -/
theorem exec_twr_of_resident (ho : i.opc = 0x27) (hrw : t.rw_ = true) :
    let tid := ((s.hub h).reg i.ra).toNat % 2 ^ 32
    let off := ((s.hub h).reg i.rb).toNat
    let len := (i.aux + 1) * 32
    let fresh := ([off / 65536, (off + len - 1) / 65536].dedup.filter fun g =>
      !(((s.taskShadow c.task c.part tid).map (·.pages)).getD []).contains g).length
    ∀ u, s.takePages (reqOf n 16) c.part c.acceptedAt fresh = (u, .granted) →
      let v := ((u.engServe 0 (u.hubAsk n c)).leaveMain (· == hubReq h)).modTask c.task fun w => { w with reserved := w.reserved + fresh }
      let w := v.shadowWrite c.task c.part tid off ((v.hub h).scratchN (i.imm % 65536) len)
      exec (.twr h) s = .next ((w.orParity n fun s => s.syncEnd h i n (okWord false)).mainGo) := by
  intro tid off len fresh u hu
  obtain ⟨-, hlost, habs, hload, hwr⟩ := TState.standing hs
  have hnow : s.lostNow c.part t = false := by simp [State.lostNow, hlost, habs]
  show execTwr h s = _
  rw [execTwr, hubCmdExec_of_issues hi ho hc]
  simp only [State.tidOf, ht, hnow, hm, hrw, decide_eq_true hlen, if_neg habs, if_neg hload, if_neg hwr, hw, hg, Bool.and_self, Bool.not_true,
    Bool.false_eq_true, Bool.true_eq_false, and_false, if_false]
  rw [hu]

end
end
end

/-- Settles O23: each state of the tensor, and each instruction, by its own lemma. -/
theorem tensorsMoveByState : Obligations.TensorsMoveByState := by
  refine ⟨fun s n hd p task acc tid => ⟨fun ht => State.try_of_no_tensor ht n hd task acc, fun t ht =>
      ⟨fun hm => State.tryLoad_of_not_main ht hm acc, fun hm => ⟨fun hs => State.tryLoad_of_resident ht hm hs acc,
        fun hs => State.tryLoad_of_loading ht hm hs acc, fun o hs hwb => State.tryLoad_of_eviction ht hm hs hwb acc,
        fun hs hl => State.tryLoad_of_lost_backing ht hm hs hl acc, fun u hs hl hu => State.tryLoad_of_granted ht hm hs hl hu,
        fun hs => State.tryLoad_of_lost ht hm hs acc, fun hb => State.try_of_no_backing ht hm hb n hd task,
        fun hb => ⟨fun hs => State.try_of_lost ht hm hb hs n hd task, fun hs hblk => State.try_of_dirty ht hm hb hs hblk n hd,
          fun hs hblk => ⟨State.tryFlush_of_clean ht hm hs hb hblk, ?evict⟩⟩⟩⟩⟩,
    fun h s i n c hi hc => ⟨fun b d ho hb hd htid hfree hkv hok hgate hback htable => ⟨fun hk => ?backed, fun u hh hk hu => ?main,
        fun hh hk hnear => ?near⟩,
      fun t ht => ⟨exec_free_of_unheld hi hc ht, fun ho hm hs hlen hw hg => exec_trd_of_resident hi hc ht hm hs hlen hw hg ho,
        fun ho hm hrw hs hlen hw hg => exec_twr_of_resident hi hc ht hm hs hlen hw hg ho hrw⟩⟩⟩
  case evict => rw [State.tryEvict_of_clean ht hm hs hb hblk, State.vacate_of_tensor ht]
  case backed =>
    have hmain : ¬(d.home = 2 ∧ d.back = 0) := by omega
    have hnear : ¬(d.home = 1 ∧ d.back = 0) := by omega
    rw [exec_define_of_checked hi hc ho hb hd htid hfree hkv hok hgate hback htable (if_neg hmain) (if_neg hnear), if_neg hmain, if_neg hnear]
  case main =>
    have hmain : d.home = 2 ∧ d.back = 0 := ⟨hh, hk⟩
    have hnear : ¬(d.home = 1 ∧ d.back = 0) := by omega
    rw [exec_define_of_checked hi hc ho hb hd htid hfree hkv hok hgate hback htable ((if_pos hmain).trans hu) (if_neg hnear), if_pos hmain,
      if_neg hnear]
  case near =>
    have hmain : ¬(d.home = 2 ∧ d.back = 0) := by omega
    have hnear' : d.home = 1 ∧ d.back = 0 := ⟨hh, hk⟩
    rw [exec_define_of_checked hi hc ho hb hd htid hfree hkv hok hgate hback htable (if_neg hmain) ((if_pos hnear').trans hnear), if_neg hmain,
      if_pos hnear']

end Sys2Proof.Machine
end

section
/-! PROOFS. Flash blocks: which one a write takes (R210), what an erase, a retirement and the parity pages leave of the map and of the erase
counts (R203, R208, R211), and the obligation about units that move (R212, R218). -/

namespace Sys2Proof.Machine

variable {s : State} {c b : Nat}

/-! ## The least of some numbers -/

/-- Folding with `min` gives a number no larger than the first one and each of the others. -/
theorem foldl_min_le (l : List Nat) (a : Nat) : l.foldl min a ≤ a ∧ ∀ x ∈ l, l.foldl min a ≤ x := by
  induction l generalizing a with
  | nil => simp
  | cons y l ih =>
    obtain ⟨ha, hl⟩ := ih (min a y)
    rw [List.foldl_cons, List.forall_mem_cons]
    exact ⟨ha.trans (min_le_left a y), ha.trans (min_le_right a y), hl⟩

/-- Folding with `min` gives the first number or one of the others. -/
theorem foldl_min_mem (l : List Nat) (a : Nat) : l.foldl min a ∈ a :: l := by
  induction l generalizing a with
  | nil => simp
  | cons y l ih =>
    have h := ih (min a y)
    rw [List.foldl_cons]
    rcases min_choice a y with hm | hm <;> rw [hm] at h ⊢ <;> simp only [List.mem_cons] at h ⊢ <;> tauto

/-! ## The block that a write takes (R210) -/

/-- Among some blocks one of the lowest erase count is taken. -/
theorem State.pickAmong_of_ne_nil {frees : List Nat} (hf : frees ≠ []) : ∃ b ∈ frees,
    s.pickAmong c frees = (some b, (s.draw 32).2) ∧ ∀ b' ∈ frees, (s.block c b).erases ≤ (s.block c b').erases := by
  obtain ⟨a, l, rfl⟩ := List.exists_cons_of_ne_nil hf
  let erases (b : Nat) : Nat := (s.block c b).erases
  let least := ((a :: l).map erases).foldl min (erases a)
  let best := (a :: l).filter fun b => erases b == least
  have hle : ∀ b' ∈ a :: l, least ≤ erases b' := fun b' hb' => (foldl_min_le _ _).2 _ (List.mem_map_of_mem hb')
  have hne : best ≠ [] := by
    have hmem : least ∈ (a :: l).map erases := by simpa [least, eq_comm] using foldl_min_mem ((a :: l).map erases) (erases a)
    obtain ⟨x, hx, he⟩ := List.mem_map.1 hmem
    exact List.ne_nil_of_mem (List.mem_filter.2 ⟨hx, beq_iff_eq.2 he⟩)
  have hlt : (s.draw 32).1 % best.length < best.length := Nat.mod_lt _ (List.length_pos_iff.2 hne)
  obtain ⟨hb, he⟩ := List.mem_filter.1 (List.getElem_mem hlt)
  exact ⟨best[(s.draw 32).1 % best.length], hb, Prod.ext (List.getElem?_eq_getElem hlt) rfl,
    fun b' hb' => (beq_iff_eq.1 he).trans_le (hle b' hb')⟩

theorem State.mem_freeBlocks : b ∈ s.freeBlocks c ↔ s.blockFree c b = true := by
  simp only [State.freeBlocks, List.mem_filter, List.mem_range, and_iff_right_iff_imp]
  intro h
  simp only [State.blockFree, Bool.and_eq_true, decide_eq_true_eq] at h
  exact h.1.1.1.1

/-- A free block holds no unit. -/
theorem State.unit_of_blockFree (h : s.blockFree c b = true) : (s.block c b).unit = none := by
  simp only [State.blockFree, Bool.and_eq_true, Option.isNone_iff_eq_none] at h
  exact h.1.2

/-! ## Blocks in the state -/

theorem State.block_congr {t : State} (h : t.blk.blocks = s.blk.blocks) (c b : Nat) : t.block c b = s.block c b := by
  rw [State.block, State.block, h]

theorem State.mapped_congr {t : State} (h : t.blk.map = s.blk.map) (u c : Nat) : t.mapped_ u c = s.mapped_ u c := by
  rw [State.mapped_, State.mapped_, h]

/-- A block reads as written. -/
theorem State.block_setBlock_same (hs : Tab.rising s.blk.blocks = true) (c b : Nat) (x : FlashBlock) : (s.setBlock c b x).block c b = x :=
  Tab.get_set_same _ hs _ _

/-- Writing a block leaves every other block of the channel as it was. -/
theorem State.block_setBlock_other (hs : Tab.rising s.blk.blocks = true) {o : Nat} (ho : o ≠ b) (x : FlashBlock) :
    (s.setBlock c b x).block c o = s.block c o :=
  Tab.get_set_other _ _ hs (by omega) _

theorem State.rising_setBlock (hs : Tab.rising s.blk.blocks = true) (c b : Nat) (x : FlashBlock) :
    Tab.rising (s.setBlock c b x).blk.blocks = true :=
  Tab.rising_set _ hs _ _

/-- A block written with as many erases as it had: no block's erase count changes. -/
theorem State.erases_setBlock (hs : Tab.rising s.blk.blocks = true) {x : FlashBlock} (hx : x.erases = (s.block c b).erases) (o : Nat) :
    ((s.setBlock c b x).block c o).erases = (s.block c o).erases := by
  rcases eq_or_ne o b with rfl | ho
  · rw [State.block_setBlock_same hs, hx]
  · rw [State.block_setBlock_other hs ho]

@[simp] theorem State.blk_raise (s : State) (n : Nat) : (s.raise n).blk = s.blk := by
  unfold State.raise State.handOver State.request
  split_ifs <;> simp

@[simp] theorem State.blk_spareRegs (s : State) (c : Nat) : (s.spareRegs c).blk = s.blk := by
  unfold State.spareRegs
  simp only
  split_ifs <;> simp

/-- A retirement is counted and shown in the registers (R211, R474). -/
def State.countRetired (s : State) (c : Nat) : State :=
  let s : State := { s with blk := { s.blk with retired := s.blk.retired + 1 } }
  ((s.wrSat F.BLK_STAT2.RETIRED 0 s.blk.retired).fault 3).spareRegs c

theorem State.map_countRetired (s : State) (c : Nat) : (s.countRetired c).blk.map = s.blk.map := by
  rw [State.countRetired, State.blk_spareRegs, State.blk_fault, State.blk_wrSat]

theorem State.blocks_countRetired (s : State) (c : Nat) : (s.countRetired c).blk.blocks = s.blk.blocks := by
  rw [State.countRetired, State.blk_spareRegs, State.blk_fault, State.blk_wrSat]

theorem State.retireBlock_of_retired (h : (s.block c b).retired = true) : s.retireBlock c b = s := if_pos h

theorem State.retireBlock_of_serving (h : ¬(s.block c b).retired = true) :
    s.retireBlock c b = (s.setBlock c b { s.block c b with retired := true }).countRetired c := if_neg h

theorem State.map_retireBlock (s : State) (c b : Nat) : (s.retireBlock c b).blk.map = s.blk.map := by
  by_cases h : (s.block c b).retired = true
  · rw [State.retireBlock_of_retired h]
  · rw [State.retireBlock_of_serving h, State.map_countRetired, State.blk_map_setBlock]

theorem State.blocks_retireBlock (h : ¬(s.block c b).retired = true) :
    (s.retireBlock c b).blk.blocks = (s.setBlock c b { s.block c b with retired := true }).blk.blocks := by
  rw [State.retireBlock_of_serving h, State.blocks_countRetired]

/-- What a change of the bulk tier leaves: the map, the tables' canonical form, and the erase count of one block. -/
structure KeepsErases (c o : Nat) (s t : State) : Prop where
  map : t.blk.map = s.blk.map
  rising : Tab.rising t.blk.blocks = true
  erases : (t.block c o).erases = (s.block c o).erases

theorem KeepsErases.trans {o : Nat} {t u : State} (h : KeepsErases c o s t) (h' : KeepsErases c o t u) : KeepsErases c o s u :=
  ⟨h'.map.trans h.map, h'.rising, h'.erases.trans h.erases⟩

section
variable (hs : Tab.rising s.blk.blocks = true)
include hs

theorem KeepsErases.refl (c o : Nat) : KeepsErases c o s s := ⟨rfl, hs, rfl⟩

theorem keepsErases_setBlock (c b : Nat) (x : FlashBlock) (hx : x.erases = (s.block c b).erases) (o : Nat) :
    KeepsErases c o s (s.setBlock c b x) :=
  ⟨rfl, State.rising_setBlock hs .., State.erases_setBlock hs hx o⟩

/-- A retirement marks the block (R211). -/
theorem State.block_retireBlock_same (c b : Nat) : (s.retireBlock c b).block c b = { s.block c b with retired := true } := by
  by_cases h : (s.block c b).retired = true
  · rw [State.retireBlock_of_retired h, ← h]
  · rw [State.block_congr (State.blocks_retireBlock h), State.block_setBlock_same hs]

/-- A retirement erases nothing. -/
theorem keepsErases_retireBlock (c b o : Nat) : KeepsErases c o s (s.retireBlock c b) := by
  by_cases h : (s.block c b).retired = true
  · rw [State.retireBlock_of_retired h]
    exact .refl hs c o
  · obtain ⟨hm, hr, he⟩ := keepsErases_setBlock hs c b { s.block c b with retired := true } rfl o
    have hb := State.blocks_retireBlock h
    exact ⟨State.map_retireBlock s c b, by rwa [hb], by rwa [State.block_congr hb]⟩

/-- An erased block counts one erase more and keeps no parity pages. -/
theorem State.block_eraseBlock_same (c b : Nat) : ((s.eraseBlock c b).block c b).erases = (s.block c b).erases + 1 ∧
    ((s.eraseBlock c b).block c b).parity = [] := by
  unfold State.eraseBlock
  simp only
  split_ifs
  · simp [State.block_retireBlock_same (State.rising_setBlock hs ..), State.block_setBlock_same hs]
  · simp [State.block_setBlock_same hs]

/-- An erase keeps the map and the tables' form. -/
theorem State.map_eraseBlock (c b : Nat) : (s.eraseBlock c b).blk.map = s.blk.map ∧ Tab.rising (s.eraseBlock c b).blk.blocks = true := by
  unfold State.eraseBlock
  simp only
  split_ifs
  · obtain ⟨hm, hr, -⟩ := keepsErases_retireBlock (State.rising_setBlock hs ..) c b b
    exact ⟨hm, hr⟩
  · exact ⟨rfl, State.rising_setBlock hs ..⟩

/-- Erasing a block leaves the erase count of every other one. -/
theorem keepsErases_eraseBlock {o : Nat} (ho : o ≠ b) : KeepsErases c o s (s.eraseBlock c b) := by
  obtain ⟨hm, hr⟩ := State.map_eraseBlock hs c b
  refine ⟨hm, hr, ?_⟩
  unfold State.eraseBlock
  simp only
  split_ifs
  · rw [(keepsErases_retireBlock (State.rising_setBlock hs ..) c b o).erases, State.block_setBlock_other hs ho]
  · rw [State.block_setBlock_other hs ho]

/-! ## The parity pages of a unit (R203) -/

/-- The block that keeps a unit's parity pages lists the unit. -/
theorem State.mem_parity_of_parityOf {u k : Nat} (h : s.parityOf u c = some k) : u ∈ (s.block c k).parity := by
  obtain ⟨e, he, rfl⟩ := Option.map_eq_some_iff.1 h
  have hp := List.find?_some he
  simp only [Bool.and_eq_true, beq_iff_eq, List.contains_iff_mem] at hp
  have hkey : c * 2 ^ 32 + e.1 % 2 ^ 32 = e.1 := by omega
  rw [State.block, hkey, Tab.get_eq_find, Tab.find_of_mem hs (List.mem_of_find?_eq_some he)]
  exact hp.2

section
variable {u o : Nat} (hu : u ∉ (s.block c o).parity)
include hu

/-- Dropping a unit's parity pages leaves the erase count of a block that keeps none of them. -/
theorem keepsErases_dropParity : KeepsErases c o s (s.dropParity u c) := by
  unfold State.dropParity
  split
  case h_1 => exact .refl hs c o
  case h_2 k hk =>
    have ho : o ≠ k := fun h => hu (h ▸ State.mem_parity_of_parityOf hs hk)
    simp only
    split_ifs
    · exact keepsErases_eraseBlock hs ho
    · exact keepsErases_setBlock hs c k _ (by rfl) o

/-- Nor does writing them elsewhere: the state `v` they are written from differs from `s` outside the bulk tier alone. -/
theorem keepsErases_rewriteParity {v : State} (hv : v.blk = s.blk) {k : Nat} {x : FlashBlock}
    (hx : x.erases = ((v.dropParity u c).block c k).erases) : KeepsErases c o s ((v.dropParity u c).setBlock c k x) := by
  have hb : v.block c o = s.block c o := State.block_congr (congrArg Blk.blocks hv) c o
  have hsame : KeepsErases c o s v := ⟨congrArg Blk.map hv, hv ▸ hs, congrArg FlashBlock.erases hb⟩
  have hdrop := hsame.trans (keepsErases_dropParity hsame.rising (by rwa [hb]))
  exact hdrop.trans (keepsErases_setBlock hdrop.rising c k x hx o)

theorem keepsErases_putParity : KeepsErases c o s (s.putParity u c) := by
  unfold State.putParity
  split
  case h_1 => exact .refl hs c o
  case h_2 b hb =>
    cases hf : (s.parityOpen c).find? (s.parityFits b) with
    | some k => exact keepsErases_rewriteParity hs hu rfl (by rfl)
    | none =>
      simp only
      split
      · exact ⟨rfl, hs, rfl⟩
      · exact keepsErases_rewriteParity hs hu (v := (s.draw 32).2) rfl (by rfl)

end

/-! ## A unit that moves (R202, R210, R212) -/

section
variable {u old : Nat} (hold : s.mapped_ u c = some old) (hu : (s.block c old).unit = some u) (hfree : ∃ b, s.blockFree c b = true)
include hold hu hfree

/-- A unit swaps its block for a free one of the lowest erase count, and the old block is erased. -/
theorem State.swapBlock_of_free : ∃ b, s.blockFree c b = true ∧
    (∀ b', s.blockFree c b' = true → (s.block c b).erases ≤ (s.block c b').erases) ∧
    (s.swapBlock u c).mapped_ u c = some b ∧ Tab.rising (s.swapBlock u c).blk.blocks = true ∧
    ((s.swapBlock u c).block c old).erases = (s.block c old).erases + 1 ∧ ((s.swapBlock u c).block c old).parity = [] := by
  obtain ⟨b₀, hb₀⟩ := hfree
  obtain ⟨b, hb, hpick, hle⟩ := State.pickAmong_of_ne_nil (s := s) (c := c) (List.ne_nil_of_mem (State.mem_freeBlocks.2 hb₀))
  have hfb := State.mem_freeBlocks.1 hb
  have hne : old ≠ b := fun h => by rw [h, State.unit_of_blockFree hfb] at hu; cases hu
  let x := { s.block c b with unit := some u, gen := (s.block c b).gen + 1, readAt := s.time }
  let v := ((s.draw 32).2.setBlock c b x).setMap (Tab.insert s.blk.map (32 * u + c) b)
  have hswap : s.swapBlock u c = v.eraseBlock c old := by
    rw [State.swapBlock, State.takeBlock, State.pickBlock, hpick]
    simp only [State.eraseOld, hold]
    rfl
  have hr : Tab.rising v.blk.blocks = true := State.rising_setBlock (s := (s.draw 32).2) hs c b x
  have hv : v.block c old = s.block c old := State.block_setBlock_other (s := (s.draw 32).2) hs hne x
  obtain ⟨hm, hr'⟩ := State.map_eraseBlock hr c old
  obtain ⟨he, hp⟩ := State.block_eraseBlock_same hr c old
  rw [hswap]
  refine ⟨b, hfb, fun b' hb' => hle b' (State.mem_freeBlocks.2 hb'), ?_, hr', by rw [he, hv], hp⟩
  rw [State.mapped_congr hm]
  exact Tab.find_insert_same _ _ _

/-- A unit that moves: its parity pages may follow, and change neither the map nor the erase count of the block it left. -/
theorem State.moveUnit_of_free : ∃ b, (s.moveUnit u c).mapped_ u c = some b ∧ s.blockFree c b = true ∧
    (∀ b', s.blockFree c b' = true → (s.block c b).erases ≤ (s.block c b').erases) ∧
    ((s.moveUnit u c).block c old).erases = (s.block c old).erases + 1 := by
  obtain ⟨b, hfb, hle, hm, hr, he, hp⟩ := State.swapBlock_of_free hs hold hu hfree
  have hkeep : KeepsErases c old (s.swapBlock u c) (s.moveUnit u c) := by
    have hput := keepsErases_putParity (u := u) (o := old) hr (by rw [hp]; exact List.not_mem_nil)
    unfold State.moveUnit
    simp only
    split
    · split_ifs
      · exact .refl hr c old
      · exact hput
    · exact hput
  exact ⟨b, (State.mapped_congr hkeep.map u c).trans hm, hfb, hle, hkeep.erases.trans he⟩

end
end

/-! ## Write-backs (R218) -/

/-- BULK_WRITE_BACK of a WRITING tensor that may land. -/
theorem exec_bulkWriteBack_of_lands {p : PartId} {tid : Word32} {t : Tensor} (hl : s.live = true) (ht : s.tensor p.val tid.toNat = some t)
    (hst : t.state = .writing) (hland : t.landed = false) (hheld : s.blkHeld = false) (hrdy : s.blkReady = true)
    (has : s.bulkAddrs p.val t ≠ []) (hturn : s.bulkTurn t (s.bulkUnits p.val t) = false)
    (htake : s.takesBack p.val s.chain t.desc = true) (hsp : ∀ a ∈ s.bulkAddrs p.val t, s.spill p.val a = true)
    (hstop : s.writeStop = false) (hq : s.hasTurn (s.backReq p.val t)) {w : State}
    (hw : (s.served (s.backReq p.val t)).writeUnits (s.bulkUnits p.val t) = some w) :
    exec (.bulkWriteBack p tid true) s =
      .next ((((s.served (s.backReq p.val t)).backPairs p.val t).foldl (fun v e => v.putBack p.val e) w).modTensor p.val tid.toNat
        fun t => { t with landed := true }) := by
  show execBulkWriteBack p tid true s = _
  rw [execBulkWriteBack, State.ifLive_of_live hl]
  simp only [ht, hst, hland, hheld, hrdy, has, hturn, htake, List.all_eq_true.2 hsp, hstop, ne_eq, not_true, Bool.false_eq_true,
    Bool.true_eq_false, or_self, if_false, Bool.not_false, Bool.and_self, if_true, State.atEngine_of_hasTurn hq]
  simp only [hw]

/-! ## The obligation -/

/-- Settles O33: the block taken is one of the lowest erase count among the free ones, and neither the parity pages that follow nor a
retirement at the rated endurance changes the count of the block that was left. -/
theorem unitsMoveToLeastWornBlocks : Obligations.UnitsMoveToLeastWornBlocks := by
  refine ⟨fun s u c old hs hold hu _ _ _ ⟨b₀, _, hb₀⟩ => ?_,
    fun p tid s t hl ht hst hland hheld hrdy has hturn htake hsp hstop hq w hw =>
    exec_bulkWriteBack_of_lands hl ht hst hland hheld hrdy has hturn htake hsp hstop hq hw⟩
  obtain ⟨b, hm, hfb, hle, he⟩ := State.moveUnit_of_free hs hold hu ⟨b₀, hb₀⟩
  exact ⟨b, hm, hfb, fun b' _ => hle b', he⟩

end Sys2Proof.Machine
end

section
/-! PROOFS. Sectors read through the ladder (R206, R207), read disturb (R208), relocations, patrols and retirements of blocks (R209 to R212),
and the obligation about them. -/

namespace Sys2Proof.Machine

variable {s : State}

/-! ## The read ladder (R206, R207) -/

/-- A page that has failed rung 4 fails again (R207). -/
theorem State.passes_of_pageBad {a : Nat} (h : s.pageBad a = true) (r : Nat) : s.passes a r = 5 := by
  simp only [State.passes, h, if_true]

/-- The rungs that reread pass a sector of a good page with a good header as they say, the part having retry levels (R206). -/
theorem State.passes_of_headerOk {a r : Nat} (hbad : s.pageBad a = false) (hhead : s.headerOk (s.unitOf a) (s.chanOf a) = true)
    (hretry : s.board.retries ≠ 0) (hr : r ≤ 3) : s.passes a r = r := by
  have hmin : min r 5 = r := by omega
  have hrung : r ≠ 4 := by omega
  simp [State.passes, hbad, hhead, hretry, hmin, hrung]

/-- What a sector read does beyond counting the page reads of the rung that passed it (R206 to R208). -/
def State.rungOutcome (s : State) (a c b rung : Nat) : State :=
  let s := if 4 ≤ rung then s.rebuildReads a else s
  let s := if 3 ≤ rung then s.schedule c b 2 else s
  let s := if 1 ≤ rung ∧ rung ≤ 4 then s.fault 0 else s
  if rung = 4 then
    let at_ := a / 4096 * 4096
    let s : State := { s with blk := { s.blk with data := s.blk.data.writeN at_ ((List.range 4096).map fun i => s.blk.rebuilt (at_ + i)) } }
    s.count F.BLK_STAT.REBUILDS 0 1
  else if rung = 5 then s.sectorLost a else s

/-- BULK_SECTOR_READ of a mapped sector: the page reads of the rung that passed it, and that rung's outcome. -/
theorem exec_bulkSectorRead_of_mapped {a r b k : Nat} (hl : s.live = true) (hrdy : s.blkReady = true)
    (hmap : s.mapped_ (s.unitOf a) (s.chanOf a) = some b) (hp : s.passes a r = k) : exec (.bulkSectorRead a r) s =
      .next (((s.rungReads k).2.countRead (s.chanOf a) b (s.rungReads k).1).rungOutcome a (s.chanOf a) b k) := by
  show execBulkSectorRead a r s = _
  rw [execBulkSectorRead, State.ifLive_of_live hl]
  simp only [hrdy, hmap, hp, Bool.true_eq_false, if_false]
  rfl

section
variable (a c b : Nat)

/-- The first read passes: no more is done. -/
theorem State.rungOutcome_first : s.rungOutcome a c b 0 = s := by simp [State.rungOutcome]

/-- Rungs 1 and 2 count a class 0 event. -/
theorem State.rungOutcome_reread {k : Nat} (hk : k = 1 ∨ k = 2) : s.rungOutcome a c b k = s.fault 0 := by
  rcases hk with rfl | rfl <;> simp [State.rungOutcome]

/-- Rung 3 schedules the block urgently too. -/
theorem State.rungOutcome_soft : s.rungOutcome a c b 3 = (s.schedule c b 2).fault 0 := by simp [State.rungOutcome]

/-- Rung 4 reads the row and its parity page too, and rebuilds the sector. -/
theorem State.rungOutcome_rebuild : s.rungOutcome a c b 4 =
    let u := ((s.rebuildReads a).schedule c b 2).fault 0
    let bytes := (List.range 4096).map fun i => u.blk.rebuilt (a / 4096 * 4096 + i)
    ({ u with blk := { u.blk with data := u.blk.data.writeN (a / 4096 * 4096) bytes } } : State).count F.BLK_STAT.REBUILDS 0 1 := rfl

/-- Past rung 4 the sector is lost. -/
theorem State.rungOutcome_lost : s.rungOutcome a c b 5 = ((s.rebuildReads a).schedule c b 2).sectorLost a := by simp [State.rungOutcome]

end

/-! ## Read disturb (R208) -/

section
variable {ch : FlashCh} {blk : Nat} (hl : s.live = true)
include hl

/-- READ_DISTURB_THRESHOLD: a block is scheduled by its page reads. -/
theorem exec_readDisturbThreshold_eq : exec (.readDisturbThreshold ch blk) s = .next (
    let n := s.rd F.BLK_RD_CFG.RD_KREADS 0 * 1000
    let r := (s.block ch.val blk).reads
    if 2 * n ≤ r then s.schedule ch.val blk 2 else if n ≤ r then s.schedule ch.val blk 1 else s) :=
  State.ifLive_of_live hl

/-! ## Relocation (R210 to R212) -/

omit hl in
/-- A unit that finds another block is moved there and read back. -/
theorem State.relocUnit_of_moved {u c b k : Nat} (hm : ((s.copyReads u c b).moveUnit u c).mapped_ u c = some k) (hk : k ≠ b) :
    s.relocUnit u c b = some (((s.copyReads u c b).moveUnit u c).countRead c k (s.rd F.BLK_GEOMETRY.PPB 0)) := by
  simp only [State.relocUnit, hm, hk, if_false]

omit hl in
/-- A unit that stays in its block has not moved. -/
theorem State.relocUnit_of_stays {u c b : Nat} (hm : ((s.copyReads u c b).moveUnit u c).mapped_ u c = some b) :
    s.relocUnit u c b = none := by
  simp only [State.relocUnit, hm, if_true]

section
variable (hheld : s.blkHeld = false) (hrdy : s.blkReady = true) (hw : (s.block ch.val blk).written = true)
include hheld hrdy hw

section
variable (hdue : (s.block ch.val blk).sched ≠ 0 ∨ s.wearDue ch.val blk = true)
include hdue

omit hl in
/-- Such a block may move now. -/
theorem State.not_relocHeld :
    ¬(s.blkHeld || !s.blkReady || !(s.block ch.val blk).written || ((s.block ch.val blk).sched == 0 && !s.wearDue ch.val blk)) = true := by
  simpa [hheld, hrdy, hw, or_iff_not_imp_left] using hdue

/-- BULK_RELOCATE of a unit's block: the unit moves, and the relocation is counted. -/
theorem exec_bulkRelocate_of_unit {u b : Nat} (hu : (s.block ch.val blk).unit = some u)
    (hm : ((s.copyReads u ch.val blk).moveUnit u ch.val).mapped_ u ch.val = some b) (hb : b ≠ blk) : exec (.bulkRelocate ch blk true) s =
      .next ((((s.copyReads u ch.val blk).moveUnit u ch.val).countRead ch.val b (s.rd F.BLK_GEOMETRY.PPB 0)).count
        F.BLK_STAT.RELOCATIONS 0 1) := by
  show execBulkRelocate ch blk true s = _
  rw [execBulkRelocate, State.ifLive_of_live hl]
  simp only [if_neg (State.not_relocHeld hheld hrdy hw hdue), hu, State.relocUnit_of_moved hm hb, if_true]

/-- BULK_RELOCATE of a block of parity pages: they move, and a relocation is counted where the block is empty after it. -/
theorem exec_bulkRelocate_of_parity (hu : (s.block ch.val blk).unit = none) : exec (.bulkRelocate ch blk true) s =
    .next (if ((s.moveParity ch.val blk).block ch.val blk).written then s.moveParity ch.val blk
      else (s.moveParity ch.val blk).count F.BLK_STAT.RELOCATIONS 0 1) := by
  show execBulkRelocate ch blk true s = _
  rw [execBulkRelocate, State.ifLive_of_live hl]
  simp only [if_neg (State.not_relocHeld hheld hrdy hw hdue), hu, if_true]

/-- A copy that does not verify retires the block chosen for it. -/
theorem exec_bulkRelocate_of_failed {b : Nat} (hb : (s.pickBlock ch.val).1 = some b) :
    exec (.bulkRelocate ch blk false) s = .next ((s.pickBlock ch.val).2.retireBlock ch.val b) := by
  show execBulkRelocate ch blk false s = _
  rw [execBulkRelocate, State.ifLive_of_live hl]
  have hpick : s.pickBlock ch.val = (some b, (s.pickBlock ch.val).2) := Prod.ext hb rfl
  simp only [if_neg (State.not_relocHeld hheld hrdy hw hdue), Bool.false_eq_true, if_false]
  rw [hpick]

end

/-- SCRUB_PATROL of a block that is due: its pages are read, and it is scheduled where it is marginal. -/
theorem exec_scrubPatrol_of_due (hdue : s.due (s.block ch.val blk).readAt (s.rd F.BLK_RD_CFG.SCRUB_DAYS 0 * 86400000000000) = true)
    (marginal : Bool) :
    let v := s.countRead ch.val blk (s.rd F.BLK_GEOMETRY.PPB 0)
    let w := v.setBlock ch.val blk { v.block ch.val blk with readAt := v.time }
    exec (.scrubPatrol ch blk marginal) s = .next (if marginal then w.schedule ch.val blk 1 else w) := by
  show execScrubPatrol ch blk marginal s = _
  rw [execScrubPatrol, State.ifLive_of_live hl]
  simp only [hheld, hrdy, hw, hdue, Bool.not_true, Bool.or_self, Bool.false_eq_true, if_false]

end

/-! ## Retirement (R211) -/

section
variable (hret : (s.block ch.val blk).retired = false) (hlt : blk < s.board.blocksPerCh)
  (hgood : blk ∉ Tab.get [] s.board.factoryBad ch.val)
include hret hlt hgood

omit hl in
/-- Such a block can be retired. -/
theorem State.not_retireSkips : ¬((s.block ch.val blk).retired || decide (s.board.blocksPerCh ≤ blk) ||
    (Tab.get [] s.board.factoryBad ch.val).contains blk) = true := by
  simpa [hret, hlt] using hgood

/-- BLOCK_RETIRE while writes are held: what the block held is to move urgently. -/
theorem exec_blockRetire_of_held (hheld : (s.retireBlock ch.val blk).blkHeld = true) :
    exec (.blockRetire ch blk) s = .next ((s.retireBlock ch.val blk).schedule ch.val blk 2) := by
  show execBlockRetire ch blk s = _
  rw [execBlockRetire, State.ifLive_of_live hl]
  simp only [if_neg (State.not_retireSkips hret hlt hgood), hheld, if_true]
  cases ((s.retireBlock ch.val blk).block ch.val blk).unit <;> rfl

section
variable (hheld : (s.retireBlock ch.val blk).blkHeld = false)
include hheld

/-- BLOCK_RETIRE of a block without a unit: the parity pages that it keeps move. -/
theorem exec_blockRetire_of_parity (hu : ((s.retireBlock ch.val blk).block ch.val blk).unit = none) :
    exec (.blockRetire ch blk) s = .next ((s.retireBlock ch.val blk).moveParity ch.val blk) := by
  show execBlockRetire ch blk s = _
  rw [execBlockRetire, State.ifLive_of_live hl]
  simp only [if_neg (State.not_retireSkips hret hlt hgood), hheld, hu, Bool.false_eq_true, if_false]

/-- BLOCK_RETIRE of a unit's block: the unit moves, or is to move urgently where it found no other block. -/
theorem exec_blockRetire_of_unit {u : Nat} (hu : ((s.retireBlock ch.val blk).block ch.val blk).unit = some u) :
    exec (.blockRetire ch blk) s = .next (((s.retireBlock ch.val blk).relocUnit u ch.val blk).getD
      ((s.retireBlock ch.val blk).schedule ch.val blk 2)) := by
  show execBlockRetire ch blk s = _
  rw [execBlockRetire, State.ifLive_of_live hl]
  simp only [if_neg (State.not_retireSkips hret hlt hgood), hheld, hu, Bool.false_eq_true, if_false]

end
end
end

/-! ## The obligation -/

/-- Settles O32: each rung, and each case of a relocation, a patrol and a retirement, by its own lemma. -/
theorem flashBlocksWear : Obligations.FlashBlocksWear := by
  refine fun s hl => ⟨fun a r b hrdy hmap => ?sector, fun ch blk => ?disturb,
    fun ch blk hheld hrdy hw => ⟨fun hdue => ⟨?unit, ?parity, ?failed⟩, ?scrub⟩,
    fun ch blk hret hlt hgood => ⟨exec_blockRetire_of_held hl hret hlt hgood,
      fun hheld => ⟨exec_blockRetire_of_parity hl hret hlt hgood hheld, ?moves, ?stays⟩⟩⟩
  case sector =>
    have read {k : Nat} (hp : s.passes a r = k) := exec_bulkSectorRead_of_mapped hl hrdy hmap hp
    refine ⟨fun hp => ?_, fun hp => ?_, fun hp => ?_, fun hp => ?_, fun hp => ?_, fun hp => ?_, fun h => State.passes_of_pageBad h r,
      State.passes_of_headerOk⟩
    · rw [read hp, State.rungOutcome_first]; rfl
    · rw [read hp, State.rungOutcome_reread _ _ _ (.inl rfl)]; rfl
    · rw [read hp, State.rungOutcome_reread _ _ _ (.inr rfl)]; rfl
    · rw [read hp, State.rungOutcome_soft]; rfl
    · rw [read hp, State.rungOutcome_rebuild]; rfl
    · rw [read hp, State.rungOutcome_lost]; rfl
  case disturb =>
    rw [exec_readDisturbThreshold_eq hl]
    refine ⟨fun h => ?_, fun h h' => ?_, fun h => ?_⟩
    · simp only [if_pos h]
    · simp only [if_neg (not_le.2 h'), if_pos h]
    · simp only [if_neg (not_le.2 h), if_neg (show ¬2 * (s.rd F.BLK_RD_CFG.RD_KREADS 0 * 1000) ≤ (s.block ch.val blk).reads by omega)]
  case unit => exact fun u b hu hm hb => exec_bulkRelocate_of_unit hl hheld hrdy hw hdue hu hm hb
  case parity =>
    intro hu
    simp only [exec_bulkRelocate_of_parity hl hheld hrdy hw hdue hu]
    exact ⟨fun h => by rw [h]; rfl, fun h => by rw [h]; rfl⟩
  case failed => exact fun b hb => exec_bulkRelocate_of_failed hl hheld hrdy hw hdue hb
  case scrub =>
    exact fun hdue => ⟨exec_scrubPatrol_of_due hl hheld hrdy hw hdue false, exec_scrubPatrol_of_due hl hheld hrdy hw hdue true⟩
  case moves =>
    intro u b hu hm hb
    rw [exec_blockRetire_of_unit hl hret hlt hgood hheld hu, State.relocUnit_of_moved hm hb]
    rfl
  case stays =>
    intro u hu hm
    rw [exec_blockRetire_of_unit hl hret hlt hgood hheld hu, State.relocUnit_of_stays hm]
    rfl

end Sys2Proof.Machine
end

section
/-! PROOFS. Registers that a raised source leaves (R404), how a mailbox request is taken (R393), and the obligation about its answers. -/

namespace Sys2Proof

/-! ## Tables that need not be in canonical form -/

section
variable {α : Type} {d : α} {m : Tab α} {k q : Nat}

/-- Listing an entry leaves every other one, in any table. -/
theorem Tab.get_insert_of_ne (hq : q ≠ k) (v : α) : Tab.get d (Tab.insert m k v) q = Tab.get d m q := by
  induction m with
  | nil => simp [Tab.insert, Tab.get, hq]
  | cons e m ih =>
    simp only [Tab.insert, Tab.get]
    rcases lt_trichotomy k e.1 with hk | rfl | hk
    · by_cases h : q < k
      · simp [Tab.get, hk, h, h.trans hk]
      · simp [Tab.get, hk, h, hq]
    · simp [Tab.get, hq]
    · simp [Tab.get, ih, hk.not_gt, hk.ne']

/-- Removing an entry leaves those below one that the table still lists below it, in any table. -/
theorem Tab.get_erase_of_lt {a : Nat} {d' : α} (hqa : q < a) (hak : a < k) (ha : Tab.get d' m a ≠ d') :
    Tab.get d (Tab.erase m k) q = Tab.get d m q := by
  induction m with
  | nil => rfl
  | cons e m ih =>
    simp only [Tab.get] at ha
    simp only [Tab.erase]
    rcases lt_trichotomy k e.1 with hk | rfl | hk
    · rw [if_pos hk]
    · exact absurd (if_pos hak) ha
    · rcases lt_trichotomy q e.1 with hq | rfl | hq
      · simp [Tab.get, hk.not_gt, hk.ne', hq]
      · simp [Tab.get, hk.not_gt, hk.ne']
      · have hae : ¬a < e.1 ∧ a ≠ e.1 := by omega
        rw [if_neg hae.1, if_neg hae.2] at ha
        simp [Tab.get, hk.not_gt, hk.ne', hq.not_gt, hq.ne', ih ha]

end

end Sys2Proof

namespace Sys2Proof.Machine

variable {s : State}

/-! ## What a raised source leaves (R404, R405) -/

section
variable {k k' : RegKind} {i i' v : Nat}

/-- Writing a register to another value than its reset value leaves every other one. -/
theorem State.reg_setReg_of_listed (hv : BitVec.ofNat 64 v ≠ BitVec.ofNat 64 (k.resetVal i)) (hk : k'.key i' ≠ k.key i) :
    (s.setReg k i v).reg k' i' = s.reg k' i' := by
  simp only [State.reg, State.setReg, Tab.set, if_neg hv, Tab.get_insert_of_ne hk]

/-- Writing a register leaves those below one that lies below it and is not at its reset value. -/
theorem State.reg_setReg_of_lt {a : RegKind} {j : Nat} (hka : k'.key i' < a.key j) (hak : a.key j < k.key i)
    (ha : s.reg a j ≠ (BitVec.ofNat 64 (a.resetVal j)).toNat) : (s.setReg k i v).reg k' i' = s.reg k' i' := by
  have ha' : Tab.get (BitVec.ofNat 64 (a.resetVal j)) s.regs (a.key j) ≠ BitVec.ofNat 64 (a.resetVal j) := fun h => ha (congrArg _ h)
  simp only [State.reg, State.setReg, Tab.set]
  split_ifs
  · rw [Tab.get_erase_of_lt hka hak ha']
  · rw [Tab.get_insert_of_ne (hka.trans hak).ne]

end

@[simp] theorem State.reg_request (s : State) (f vec : Nat) (k : RegKind) (i : Nat) : (s.request f vec).reg k i = s.reg k i := by
  unfold State.request
  split_ifs <;> rfl

/-- A source that is not masked has its mask register away from its reset value, which masks all of it. -/
theorem State.mask_not_reset {n : Nat} (h : s.bitAt F.INTC_MASK.MASK n = false) :
    s.reg .INTC_MASK (n / 32) ≠ (BitVec.ofNat 64 (RegKind.INTC_MASK.resetVal (n / 32))).toNat := by
  intro hr
  have hone : ∀ j < 32, bit (bits 4294967295 0 32) j = true := by decide
  have hmask : s.bitAt F.INTC_MASK.MASK n = bit (bits 4294967295 0 32) (n % 32) := by
    rw [State.bitAt, State.rd, hr]
    rfl
  rw [hmask, hone _ (Nat.mod_lt n (by decide))] at h
  cases h

/-- A register with one of the bits of its low word set is not zero. -/
theorem setBits_ne_zero (x y : Nat) {j : Nat} (hj : j < 32) :
    BitVec.ofNat 64 (setBits x 0 32 (setBits y j 1 1)) ≠ BitVec.ofNat 64 0 := by
  intro h
  have hx : setBits x 0 32 (setBits y j 1 1) % 2 ^ 64 = 0 := by simpa using congrArg BitVec.toNat h
  have hlow : setBits y j 1 1 % 2 ^ 32 = 0 := by
    rw [← bits_setBits_same x 0 32, ← bits_mod_two_pow (n := 64) (by decide), hx]
    rfl
  have hbit : bits (setBits y j 1 1 % 2 ^ 32) j 1 = 1 := by rw [bits_mod_two_pow (by omega), bits_setBits_same, Nat.mod_eq_of_lt (by decide)]
  rw [hlow] at hbit
  simp [bits] at hbit

section
variable {k : RegKind} {i n : Nat} (hk : k.key i < RegKind.INTC_MASK.key (n / 32))
include hk

/-- A message that is handed over leaves the registers below the mask. -/
theorem State.reg_handOver_of_lt : (s.handOver n).reg k i = s.reg k i := by
  unfold State.handOver
  split_ifs with h
  · simp only [Bool.and_eq_true, Bool.not_eq_true'] at h
    obtain ⟨⟨-, hmask⟩, -⟩ := h
    rw [State.reg_request]
    exact State.reg_setReg_of_lt hk (Nat.add_lt_add_right (by decide) _) (State.mask_not_reset hmask)
  · rfl

/-- A raised source leaves the registers below the mask. -/
theorem State.reg_raise_of_lt : (s.raise n).reg k i = s.reg k i := by
  have hne : k.key i < RegKind.INTC_PEND.key (n / 32) := hk.trans (Nat.add_lt_add_right (by decide) _)
  unfold State.raise
  split_ifs
  · rfl
  · rw [State.reg_handOver_of_lt hk]
    exact State.reg_setReg_of_listed (setBits_ne_zero _ _ (Nat.mod_lt n (by decide))) hne.ne

end

/-- The source of a request leaves every register of index 0. -/
theorem State.rd_raise_mailbox (f : Fld) : (s.raise 161).rd f 0 = s.rd f 0 := by
  have hf := f.kind.code_lt
  rw [State.rd, State.reg_raise_of_lt, State.rd]
  simp only [RegKind.key]
  omega

@[simp] theorem State.sec_raise (s : State) (n : Nat) : (s.raise n).sec = s.sec := by
  unfold State.raise State.handOver State.request
  split_ifs <;> simp

/-! ## A request comes to the mailbox (R393) -/

section
variable (hs : s.hears 0)
include hs

/-- A request of at most 4,080 bytes that the PF takes. -/
theorem State.mboxRow_of_hears {pl : List Byte} (hpl : pl.length ≤ 4080) (f : State → List Byte → Done) (op : Nat) (tag : Word32) :
    s.mboxRow f op tag pl = .next (let u := s.raise 161
      if u.on F.PCI_MBX_STATUS.BUSY 0 then u.put F.PCI_MBX_STATUS.OVERRUN 0 true
      else if u.firmwareBusy then u.holdMbox op tag.toNat pl
      else State.settle (f u pl) op tag.toNat pl) := by
  obtain ⟨hl, ht, hm⟩ := hs
  rw [State.mboxRow, if_neg (not_lt.2 hpl)]
  exact State.ifHost_of_live _ hl ht hm

/-- A request that comes while none is held is carried out. -/
theorem State.mboxRow_of_free (hbusy : s.rd F.PCI_MBX_STATUS.BUSY 0 = 0) (hfw : s.firmwareBusy = false) {pl : List Byte}
    (hpl : pl.length ≤ 4080) (f : State → List Byte → Done) (op : Nat) (tag : Word32) :
    s.mboxRow f op tag pl = .next (State.settle (f (s.raise 161) pl) op tag.toNat pl) := by
  have hon : (s.raise 161).on F.PCI_MBX_STATUS.BUSY 0 = false := by rw [State.on, State.rd_raise_mailbox, hbusy]; rfl
  have hfw' : (s.raise 161).firmwareBusy = false := by rw [← hfw, State.firmwareBusy, State.sec_raise, State.firmwareBusy]
  simp only [State.mboxRow_of_hears hs hpl, hon, hfw', Bool.false_eq_true, if_false]

/-- One that comes while another is held sets OVERRUN. -/
theorem State.mboxRow_of_busy (hbusy : s.rd F.PCI_MBX_STATUS.BUSY 0 = 1) {pl : List Byte} (hpl : pl.length ≤ 4080)
    (f : State → List Byte → Done) (op : Nat) (tag : Word32) :
    s.mboxRow f op tag pl = .next ((s.raise 161).put F.PCI_MBX_STATUS.OVERRUN 0 true) := by
  have hon : (s.raise 161).on F.PCI_MBX_STATUS.BUSY 0 = true := by rw [State.on, State.rd_raise_mailbox, hbusy]; rfl
  simp only [State.mboxRow_of_hears hs hpl, hon, if_true]

end

/-! ## Operations (R444, R455, R456, R458) -/

variable {pl : List Byte}

theorem State.off_of_rd {f : Fld} {i : Nat} (h : s.rd f i = 0) : s.on f i = false := by rw [State.on, h]; rfl

/-- ATTEST where DEBUG_SEEN is clear (R456). -/
theorem State.attest_of_unseen (h : s.rd F.SEC_FUSE_STATE.DEBUG_SEEN 0 = 0) : s.attest pl =
    let body := s.reportBody (slice pl 0 32) (fieldAt pl 32 4)
    let r := body ++ slice (Config.slhSign (s.keySeed "nmh-id-sk") (s.keySeed "nmh-id-prf") (s.keySeed "nmh-id-pk")
      (ascii "NMH-ATTEST") body) 0 17088
    ({ s with sec := { s.sec with report := s.sec.report.writeN 0 r } } : State).yes (toBytes 4 r.length) := by
  simp only [State.attest, State.off_of_rd h, Bool.false_eq_true, if_false]

/-- CERT_READ of no more bytes than a response has room for (R455). -/
theorem State.certRead_of_le (h : fieldAt pl 4 4 ≤ 4064) :
    s.certRead pl = s.yes (toBytes 4 s.sec.cert.length ++ (s.sec.cert.drop (fieldAt pl 0 4)).take (fieldAt pl 4 4)) := by
  simp only [State.certRead, if_neg (not_lt.2 h)]

/-- AUTH_PROVISION with every slot empty and two to four different keys (R458). -/
theorem State.authProvision_of_empty (happly : s.sec.apply = none) (hempty : ∀ i < 8, s.slot i = 0) (h2 : 2 ≤ fieldAt pl 0 4)
    (h4 : fieldAt pl 0 4 ≤ 4)
    (hkeys : ((List.range (fieldAt pl 0 4)).map fun i => slice pl (4 + 32 * i) 32).dedup.length = fieldAt pl 0 4) :
    let hs := (List.range (fieldAt pl 0 4)).map fun i => slice pl (4 + 32 * i) 32
    s.authProvision pl = ((hs.zipIdx).foldl (fun v e => v.register e.2 e.1) s.beginBurn).yes [] := by
  have hany : ((List.range 8).any fun i => s.slot i != 0) = false := by
    simpa [List.any_eq_false] using hempty
  have hcount : ¬(fieldAt pl 0 4 < 2 ∨ 4 < fieldAt pl 0 4) := by omega
  simp only [State.authProvision, happly, Option.isSome_none, hany, Bool.false_eq_true, if_false, if_neg hcount, hkeys, ne_eq, not_true]

/-- HALT_JOURNAL_READ of saved entries inside the journal (R444). -/
theorem State.haltJournalRead_of_saved {j : SavedJournal} (hj : s.saved = some j) (hn : fieldAt pl 4 4 ≤ 127)
    (hin : fieldAt pl 0 4 + fieldAt pl 4 4 ≤ 65536) : s.haltJournalRead pl = s.yes (j.bytes (fieldAt pl 0 4) (fieldAt pl 4 4)) := by
  have hok : ¬(127 < fieldAt pl 4 4 ∨ 65536 < fieldAt pl 0 4 + fieldAt pl 4 4) := by omega
  simp only [State.haltJournalRead, hj, if_neg hok]

/-! ## The obligation -/

/-- Settles O34: raising source 161 leaves BUSY, so each request goes its way through the mailbox, and each operation by its own lemma. -/
theorem mailboxRequestsAreAnswered : Obligations.MailboxRequestsAreAnswered := by
  refine ⟨fun s tag pl hs hpl => ⟨fun hbusy hfw => ⟨?carried, ?attest, ?cert, ?auth, ?journal⟩, ?overrun⟩,
    fun s op tag hs hop hbusy hfw => ?unknown⟩
  case carried =>
    have free := State.mboxRow_of_free hs hbusy hfw hpl
    exact ⟨free _ _ tag, free _ _ tag, free _ _ tag, free _ _ tag, free _ _ tag, free _ _ tag, free _ _ tag, free _ _ tag, free _ _ tag,
      free _ _ tag, free _ _ tag,
      State.mboxRow_of_free hs hbusy hfw (pl := []) (Nat.zero_le 4080) (fun s _ => s.updVerify) _ tag, free _ _ tag⟩
  case attest =>
    intro h
    exact (State.mboxRow_of_free hs hbusy hfw hpl ..).trans (by rw [State.attest_of_unseen h]; rfl)
  case cert =>
    intro h
    exact (State.mboxRow_of_free hs hbusy hfw hpl ..).trans (by rw [State.certRead_of_le h]; rfl)
  case auth =>
    intro n hs' happly hempty h2 h4 hkeys
    exact (State.mboxRow_of_free hs hbusy hfw hpl ..).trans (by rw [State.authProvision_of_empty happly hempty h2 h4 hkeys]; rfl)
  case journal =>
    intro j hj hn hin
    exact (State.mboxRow_of_free hs hbusy hfw hpl ..).trans (by rw [State.haltJournalRead_of_saved hj hn hin]; rfl)
  case overrun =>
    intro hbusy
    have busy := State.mboxRow_of_busy hs hbusy hpl
    simp only [List.forall_mem_cons]
    exact ⟨busy _ _ tag, busy _ _ tag, busy _ _ tag, busy _ _ tag, busy _ _ tag, busy _ _ tag, busy _ _ tag, busy _ _ tag, busy _ _ tag,
      busy _ _ tag, busy _ _ tag,
      State.mboxRow_of_busy hs hbusy (pl := []) (Nat.zero_le 4080) (fun s _ => s.updVerify) _ tag, busy _ _ tag, nofun⟩
  case unknown =>
    show execMbxUnknownOp op tag s = _
    rw [execMbxUnknownOp, hop, if_neg Bool.false_ne_true]
    exact State.mboxRow_of_free hs hbusy hfw (pl := []) (Nat.zero_le 4080) ..

end Sys2Proof.Machine
end

section
/-! PROOFS. The operations of the catalogue (R204, R213, R216) and of live updates (R480 to R482), and the obligation about them. -/

namespace Sys2Proof.Machine

variable {s : State} {pl : List Byte}

/-! ## What stays of the bulk tier (R204, R211) -/

@[simp] theorem State.blk_catCounts (s : State) : s.catCounts.blk = s.blk := by
  rw [State.catCounts, State.blk_wr, State.blk_wr]

/-- A change of the blocks and of the number retired alone. -/
def Blk.sameContents (k k' : Blk) : Prop :=
  k'.data = k.data ∧ k'.cat = k.cat ∧ k'.map = k.map ∧ k'.op = k.op ∧ k'.formats = k.formats

theorem Blk.sameContents.trans {k k' k'' : Blk} (h : k.sameContents k') (h' : k'.sameContents k'') : k.sameContents k'' := by
  obtain ⟨h1, h2, h3, h4, h5⟩ := h
  obtain ⟨g1, g2, g3, g4, g5⟩ := h'
  exact ⟨g1.trans h1, g2.trans h2, g3.trans h3, g4.trans h4, g5.trans h5⟩

theorem State.sameContents_setBlock (s : State) (c b : Nat) (x : FlashBlock) : s.blk.sameContents (s.setBlock c b x).blk :=
  ⟨rfl, rfl, rfl, rfl, rfl⟩

theorem State.sameContents_countRetired (s : State) (c : Nat) : s.blk.sameContents (s.countRetired c).blk := by
  rw [State.countRetired, State.blk_spareRegs, State.blk_fault, State.blk_wrSat]
  exact ⟨rfl, rfl, rfl, rfl, rfl⟩

theorem State.sameContents_retireBlock (s : State) (c b : Nat) : s.blk.sameContents (s.retireBlock c b).blk := by
  by_cases h : (s.block c b).retired = true
  · rw [State.retireBlock_of_retired h]
    exact ⟨rfl, rfl, rfl, rfl, rfl⟩
  · rw [State.retireBlock_of_serving h]
    exact (State.sameContents_setBlock ..).trans (State.sameContents_countRetired ..)

theorem State.sameContents_foldl_retireBlock (es : List (Nat × Nat)) (s : State) :
    s.blk.sameContents (es.foldl (fun (s : State) e => s.retireBlock e.1 e.2) s).blk := by
  induction es generalizing s with
  | nil => exact ⟨rfl, rfl, rfl, rfl, rfl⟩
  | cons e es ih => exact (s.sameContents_retireBlock e.1 e.2).trans (ih _)

theorem State.blk_foldl_spareRegs (cs : List Nat) (s : State) : (cs.foldl State.spareRegs s).blk = s.blk := by
  induction cs generalizing s with
  | nil => rfl
  | cons c cs ih => exact (ih _).trans (State.blk_spareRegs s c)

/-! ## BLK_FORMAT (R204) -/

/-- The state that BLK_FORMAT leaves before the worn-out blocks are retired. -/
def State.formatted (s : State) (op : Nat) : State :=
  let blocks := s.blk.blocks.filterMap fun e =>
    let x : FlashBlock := { FlashBlock.fresh with erases := e.2.erases, retired := e.2.retired, gen := e.2.gen }
    if x = FlashBlock.fresh then none else some (e.1, x)
  let s : State := { s with blk := {
    data := [], cat := [], map := [], copies := [], parity := [], blocks := blocks, bad := []
    formats := s.blk.formats + 1, op := op, retired := 0 } }
  let s := (((s.wr F.BLK_STATUS.OP 0 op).wr F.BLK_STAT2.RETIRED 0 0).wr F.BLK_CAP.USABLE_UNITS 0 s.usableUnits).catCounts
  (List.range 32).foldl State.spareRegs s

theorem State.contents_formatted (s : State) (op : Nat) : (s.formatted op).blk.data = [] ∧ (s.formatted op).blk.cat = [] ∧
    (s.formatted op).blk.map = [] ∧ (s.formatted op).blk.op = op ∧ (s.formatted op).blk.formats = s.blk.formats + 1 := by
  rw [State.formatted, State.blk_foldl_spareRegs, State.blk_catCounts, State.blk_wr, State.blk_wr, State.blk_wr]
  exact ⟨rfl, rfl, rfl, rfl, rfl⟩

/-! ## The catalogue in the state (R215) -/

/-- An entry in use reads as written. -/
theorem State.entry_setEntry_same (s : State) (slot : Nat) {x : CatEntry} (hx : x.state ≠ .free) : (s.setEntry slot x).entry slot = x := by
  rw [State.entry, State.setEntry, State.blk_catCounts]
  exact Tab.get_set_same_of_ne _ _ _ fun h => hx (congrArg CatEntry.state h)

/-- The units that the entry under creation has. -/
def State.createUnits (s : State) (pl : List Byte) : Nat := ceilDiv (fieldAt pl 0x10 8) (max 1 s.unitBytes)

/-- The entry that CAT_CREATE makes, its units from unit `b` on (R216). -/
def State.createEntry (s : State) (pl : List Byte) (b : Nat) : CatEntry :=
  let spill := fieldAt pl 8 4 == 1
  { modelId := fieldAt pl 4 4
    state := if spill then .ready else .installing
    kind := fieldAt pl 8 4
    grant := 0
    nunits := s.createUnits pl
    base := b * max 1 s.unitBytes
    length := fieldAt pl 0x10 8
    digest := if spill then 0 else fieldAt pl 0x18 32
    sealTime := if spill then s.time else 0
    damaged := 0
    written := 0 }

theorem State.state_createEntry (s : State) (pl : List Byte) (b : Nat) :
    (s.createEntry pl b).state = if fieldAt pl 8 4 = 1 then .ready else .installing := by
  by_cases h : fieldAt pl 8 4 = 1 <;> simp [State.createEntry, h]

theorem State.createEntry_ne_free (s : State) (pl : List Byte) (b : Nat) : (s.createEntry pl b).state ≠ .free := by
  rw [State.state_createEntry]
  split_ifs <;> decide

section
variable (hrdy : s.blkReady = true)
include hrdy

/-- BLK_FORMAT of an empty catalogue leaves nothing in it, nor in the tier. -/
theorem State.blkFormat_of_empty (hheld : s.blkHeld = false) (hop : fieldAt pl 0 4 ≤ 2) (hcat : ∀ e ∈ s.blk.cat, e.2.state = .free) :
    ∃ v : State, s.blkFormat pl = v.yes [] ∧ v.blk.data = [] ∧ v.blk.cat = [] ∧ v.blk.map = [] ∧ v.blk.op = fieldAt pl 0 4 ∧
      v.blk.formats = s.blk.formats + 1 := by
  have hfind : (s.blk.cat.find? fun e => e.2.state != .free) = none := List.find?_eq_none.2 fun e he => by simp [hcat e he]
  obtain ⟨hd, hc, hm, ho, hn⟩ := State.sameContents_foldl_retireBlock (s.formatted (fieldAt pl 0 4)).wornOut (s.formatted (fieldAt pl 0 4))
  obtain ⟨hd', hc', hm', ho', hn'⟩ := s.contents_formatted (fieldAt pl 0 4)
  refine ⟨_, (if_neg (ne_false_of_eq_true hrdy)).trans ((if_neg (not_lt.2 hop)).trans ?_), hd.trans hd', hc.trans hc',
    hm.trans hm', ho.trans ho', hn.trans hn'⟩
  rw [hfind]
  exact if_neg (ne_true_of_eq_false hheld)

/-! ## CAT_CREATE (R216) -/

section
variable (hslot : fieldAt pl 0 4 ≤ 1023) (hkind : fieldAt pl 8 4 ≤ 1)
include hslot hkind

theorem State.catCreate_of_deleting (hx : (s.entry (fieldAt pl 0 4)).state = .deleting) : s.catCreate pl = (s, none) := by
  simp [State.catCreate, hrdy, not_lt.2 hslot, not_lt.2 hkind, hx]

variable (hheld : s.blkHeld = false)
include hheld

theorem State.catCreate_of_used (hd : (s.entry (fieldAt pl 0 4)).state ≠ .deleting) (hf : (s.entry (fieldAt pl 0 4)).state ≠ .free) :
    s.catCreate pl = s.no eConflict (s.entry (fieldAt pl 0 4)).modelId := by
  simp [State.catCreate, hrdy, not_lt.2 hslot, not_lt.2 hkind, hheld, hd, hf]

section
variable (hx : (s.entry (fieldAt pl 0 4)).state = .free) (hid : fieldAt pl 4 4 ≠ 0)
  (hnew : ∀ e ∈ s.blk.cat, e.2.modelId ≠ fieldAt pl 4 4)
include hx hid hnew

omit hrdy in
/-- A create that is formed, for a free slot under a new MODEL_ID, passes the checks before its length. -/
theorem State.createPasses : ¬(1023 < fieldAt pl 0 4 ∨ 1 < fieldAt pl 8 4) ∧
    ¬((s.entry (fieldAt pl 0 4)).state = .deleting || s.blkHeld) = true ∧
    ¬(fieldAt pl 4 4 = 0 ∨ (s.blk.cat.any fun e => e.2.modelId == fieldAt pl 4 4) = true) :=
  ⟨by omega, by simp [hx, hheld], by simpa [hid] using fun k e he => hnew (k, e) he⟩

theorem State.catCreate_of_empty (hlen : fieldAt pl 0x10 8 = 0) : s.catCreate pl = s.no eShape 0 := by
  obtain ⟨hform, hwaits, hany⟩ := State.createPasses hslot hkind hheld hx hid hnew
  exact (if_neg (ne_false_of_eq_true hrdy)).trans <| (if_neg hform).trans <| (if_neg hwaits).trans <| (if_neg (not_not.2 hx)).trans <|
    (if_neg hany).trans (if_pos hlen)

variable (hlen : fieldAt pl 0x10 8 ≠ 0)
include hlen

theorem State.catCreate_of_full (hfree : s.rd F.BLK_CAP.FREE_UNITS 0 < s.createUnits pl) : s.catCreate pl = s.no eNoSpace 0 := by
  obtain ⟨hform, hwaits, hany⟩ := State.createPasses hslot hkind hheld hx hid hnew
  exact (if_neg (ne_false_of_eq_true hrdy)).trans <| (if_neg hform).trans <| (if_neg hwaits).trans <| (if_neg (not_not.2 hx)).trans <|
    (if_neg hany).trans <| (if_neg hlen).trans (if_pos hfree)

/-- A create that fits takes the lowest range. -/
theorem State.catCreate_of_fit (hfree : s.createUnits pl ≤ s.rd F.BLK_CAP.FREE_UNITS 0) {b : Nat}
    (hb : s.lowestFit (s.createUnits pl) = some b) :
    ∃ (v : State) (a : List Byte), s.catCreate pl = (v.setEntry (fieldAt pl 0 4) (s.createEntry pl b)).yes a := by
  obtain ⟨hform, hwaits, hany⟩ := State.createPasses hslot hkind hheld hx hid hnew
  rw [State.createUnits] at hb
  exact ⟨_, _, (if_neg (ne_false_of_eq_true hrdy)).trans <| (if_neg hform).trans <| (if_neg hwaits).trans <| (if_neg (not_not.2 hx)).trans <|
    (if_neg hany).trans <| (if_neg hlen).trans <| (if_neg (not_lt.2 hfree)).trans (by rw [hb]; exact rfl)⟩

end
end
/-! ## CAT_WRITE and CAT_SEAL (R216) -/

section
variable (hx : (s.entry (fieldAt pl 0 4)).state = .installing)
include hx

theorem State.catWrite_of_beyond (hlen : (s.entry (fieldAt pl 0 4)).length < (s.entry (fieldAt pl 0 4)).written + fieldAt pl 4 4) :
    s.catWrite pl = s.no eShape 0 :=
  (if_neg (ne_false_of_eq_true hrdy)).trans <| (if_neg (not_not.2 hx)).trans (if_pos hlen)

section
variable (hlen : (s.entry (fieldAt pl 0 4)).written + fieldAt pl 4 4 ≤ (s.entry (fieldAt pl 0 4)).length)
include hlen

theorem State.catWrite_of_stopped (hstop : s.writeStop = true) : s.catWrite pl = s.no eNoSpace 0 :=
  (if_neg (ne_false_of_eq_true hrdy)).trans <| (if_neg (not_not.2 hx)).trans <| (if_neg (not_lt.2 hlen)).trans (if_pos hstop)

/-- CAT_WRITE within LENGTH reads the host's bytes and writes them after those written. -/
theorem State.catWrite_of_reads (hstop : s.writeStop = false) (hheld : s.blkHeld = false) (hbus : s.busOk 0 = true) :
    let x := s.entry (fieldAt pl 0 4)
    s.catWrite pl = s.firmwareRead (fieldAt pl 8 8) (fieldAt pl 4 4) fun v =>
      (({ v with blk := v.blk.writeN (x.base + x.written) (v.hostRead (fieldAt pl 8 8) (fieldAt pl 4 4)) } : State).setEntry
        (fieldAt pl 0 4) { x with written := x.written + fieldAt pl 4 4 }).yes [] :=
  (if_neg (ne_false_of_eq_true hrdy)).trans <| (if_neg (not_not.2 hx)).trans <| (if_neg (not_lt.2 hlen)).trans <|
    (if_neg (ne_true_of_eq_false hstop)).trans (if_neg (by rw [hheld, hbus]; decide))

end

/-- CAT_SEAL of an entry that is whole and has its DIGEST. -/
theorem State.catSeal_of_whole (hw : (s.entry (fieldAt pl 0 4)).written = (s.entry (fieldAt pl 0 4)).length)
    (hd : ofBytes (sha256 (s.blk.data.readN (s.entry (fieldAt pl 0 4)).base (s.entry (fieldAt pl 0 4)).length)) =
      (s.entry (fieldAt pl 0 4)).digest) :
    s.catSeal pl = (s.setEntry (fieldAt pl 0 4) { (s.entry (fieldAt pl 0 4)) with state := .ready, sealTime := s.time }).yes [] :=
  (if_neg (ne_false_of_eq_true hrdy)).trans <| (if_neg (not_not.2 hx)).trans <| (if_neg (not_not.2 hw)).trans (if_neg (not_not.2 hd))

/-- CAT_SEAL of one that is not. -/
theorem State.catSeal_of_not (h : (s.entry (fieldAt pl 0 4)).written ≠ (s.entry (fieldAt pl 0 4)).length ∨
    ofBytes (sha256 (s.blk.data.readN (s.entry (fieldAt pl 0 4)).base (s.entry (fieldAt pl 0 4)).length)) ≠
      (s.entry (fieldAt pl 0 4)).digest) : s.catSeal pl = s.no eShape 0 := by
  refine (if_neg (ne_false_of_eq_true hrdy)).trans <| (if_neg (not_not.2 hx)).trans ?_
  by_cases hw : (s.entry (fieldAt pl 0 4)).written = (s.entry (fieldAt pl 0 4)).length
  · exact (if_neg (not_not.2 hw)).trans (if_pos (h.resolve_left (not_not.2 hw)))
  · exact if_pos hw

end

/-! ## CAT_DELETE and CAT_GRANT (R216, R466) -/

section
variable (hslot : fieldAt pl 0 4 ≤ 1023)
include hslot

theorem State.catDelete_of_tensor {k : Nat} (hk : s.tidInside (s.entry (fieldAt pl 0 4)) (fun _ => true) = some k) :
    s.catDelete pl = s.no eConflict k :=
  (if_neg (ne_false_of_eq_true hrdy)).trans <| (if_neg (not_lt.2 hslot)).trans (by rw [hk])

theorem State.catDelete_of_no_tensor (hk : s.tidInside (s.entry (fieldAt pl 0 4)) (fun _ => true) = none) :
    s.catDelete pl = (s.setEntry (fieldAt pl 0 4) { (s.entry (fieldAt pl 0 4)) with state := .deleting }).yes [] :=
  (if_neg (ne_false_of_eq_true hrdy)).trans <| (if_neg (not_lt.2 hslot)).trans (by rw [hk])

end

/-- CAT_GRANT whose token passes every check (R466). -/
theorem State.catGrant_of_passes (happly : s.sec.apply = none) {v : State} {e : TokenEnd} (he : e.error = 0)
    (hv : s.applyToken (onlyGrant (fieldAt pl 0 4) (fieldAt pl 4 4)) = (v, e)) : s.catGrant pl = (v.tokenEnds e).yes [] := by
  simp only [State.catGrant, happly, Option.isSome_none, hrdy, hv, he, Bool.false_eq_true, Bool.true_eq_false, if_false, if_true]

end

/-! ## CAT_DELETE_DONE (R213, R216) -/

theorem exec_catDeleteDone_of_deleting {slot : Nat} (hl : s.live = true) (hx : (s.entry slot).state = .deleting) (hheld : s.blkHeld = false) :
    let w := (s.entryUnits (s.entry slot)).foldl State.freeUnit s
    let v : State := { w with blk := w.blk.wipe (s.entry slot).base ((s.entry slot).nunits * w.unitBytes) }
    exec (.catDeleteDone slot) s = .next (v.setEntry slot CatEntry.free).retryMbox :=
  (State.ifLive_of_live hl).trans (congrArg _ (if_pos ⟨hx, hheld⟩))

/-! ## Host reads by firmware (R192, R396) -/

/-- What is made of either outcome of a host read is made of the read. -/
theorem State.apply_hostTry {α β : Type} (g : α → β) (f a : Nat) (fails go : State → α) :
    g (s.hostTry f a fails go) = s.hostTry f a (fun v => g (fails v)) (fun v => g (go v)) := by
  unfold State.hostTry
  simp only
  split_ifs <;> rfl

/-- A host read that a window admits, IDE up, answered as a mailbox request. -/
theorem State.settle_firmwareRead {a n : Nat} (hwin : s.window 0 a n false = true) (hide : Tab.get false s.pci.ideDown 0 = false)
    (go : State → Done) (op tag : Nat) : State.settle (s.firmwareRead a n go) op tag pl =
      s.hostTry 0 a (fun v => v.reply op tag ⟨[], stAborted, eParity, 0⟩) (fun v => State.settle (go v) op tag pl) := by
  have hread : s.firmwareRead a n go = s.hostTry 0 a (fun v => (v, some ⟨[], stAborted, eParity, 0⟩)) go :=
    (if_neg (ne_false_of_eq_true hwin)).trans (if_neg (ne_true_of_eq_false hide))
  rw [hread, State.apply_hostTry fun r => State.settle r op tag pl]
  rfl

/-! ## Live updates (R480 to R482) -/

section
variable {b : Nat} (hb : s.staging = some b)
include hb

/-- UPD_WRITE inside the bundle, with no activation in progress, reads the host's bytes and writes them there. -/
theorem State.updWrite_of_reads (hin : fieldAt pl 0 4 + fieldAt pl 4 4 ≤ 0x02000000) (hact : s.activeComp = none) (hbus : s.busOk 0 = true) :
    s.updWrite pl = s.firmwareRead (fieldAt pl 8 8) (fieldAt pl 4 4) fun v =>
      let fl := v.sec.flash.writeN (bundleBase b + fieldAt pl 0 4) (v.hostRead (fieldAt pl 8 8) (fieldAt pl 4 4))
      ({ v with sec := { v.sec with flash := fl } } : State).yes [] := by
  simp only [State.updWrite, hb, if_neg (not_lt.2 hin), hact, hbus, Bool.true_eq_false, if_false]

theorem State.updVerify_of_staging :
    s.updVerify = s.yes ([1, 2, 3, 4].flatMap fun c => toBytes 4 (s.imageCheck b c) ++ toBytes 4 (s.imageOf b c).version) := by
  simp only [State.updVerify, hb]

end

theorem State.updActivate_of_active {k : Nat} (hk : s.activeComp = some k) :
    s.updActivate pl = (s.wr F.OBS_UPD_STATUS.LAST_ERR 0 eConflict).no eConflict k := by
  simp only [State.updActivate, hk]
  rfl

/-- UPD_ACTIVATE of a component from a bundle: what is under way, shown in OBS_UPD_STATUS, and the first hub named stops (R480 to R482). -/
def State.activate (s : State) (c b mask : Nat) : State :=
  let all := if c = 2 then (List.range 8).filter (bit mask) else []
  let hubs := all.filter fun h => s.rd F.HUB_CTRL.STATE h != 0
  let v := (all.filter fun h => s.rd F.HUB_CTRL.STATE h == 0).foldl (fun v h => v.setHub h { v.hub h with loadOnEnable := true }) s
  let v : State := { v with sec := { v.sec with active := some ⟨c, hubs, BitVec.ofNat 256 (ofBytes (v.headHash b c)), s.imageOf b c⟩ } }
  let v := ((v.wr F.OBS_UPD_STATUS.STATE 0 2).wr F.OBS_UPD_STATUS.COMP 0 c).wr F.OBS_UPD_STATUS.HUBS_LEFT 0
    (hubs.foldl (fun m h => m + 2 ^ h) 0)
  v.nextHub hubs

/-- UPD_ACTIVATE of an image that passes every check and takes the hand-off. -/
theorem State.updActivate_of_accepted (hact : s.activeComp = none) (h1 : 1 ≤ fieldAt pl 0 1) (h4 : fieldAt pl 0 1 ≤ 4) {b : Nat}
    (hb : b = 1 - (Tab.get ⟨0, 0, 0, 0⟩ s.sec.running (fieldAt pl 0 1)).bundle) (hcheck : s.imageCheck b (fieldAt pl 0 1) = 0)
    (hhand : Config.handOff (fieldAt pl 0 1) (s.imageOf b (fieldAt pl 0 1)).version = true) :
    s.updActivate pl = (s.activate (fieldAt pl 0 1) b (fieldAt pl 1 1)).yes [] := by
  subst hb
  have hc : ¬(fieldAt pl 0 1 = 0 ∨ 4 < fieldAt pl 0 1) := by omega
  unfold State.updActivate
  rw [hact]
  exact (if_neg hc).trans <| (if_neg (by rw [hcheck]; decide)).trans <| (if_neg (not_not.2 hcheck)).trans (if_neg (ne_false_of_eq_true hhand))

section
variable (hl : s.live = true)
include hl

theorem exec_activationDone_of_none (ha : s.sec.active = none) : exec .activationDone s = .next s := by
  show execActivationDone s = _
  rw [execActivationDone, State.ifLive_of_live hl]
  simp only [ha]

variable {a : Activation} (ha : s.sec.active = some a)
include ha

/-- An activation of no hubs is complete. -/
theorem exec_activationDone_of_no_hubs (hh : a.hubs = []) : exec .activationDone s = .next (s.activated a) := by
  show execActivationDone s = _
  rw [execActivationDone, State.ifLive_of_live hl]
  simp only [ha, hh]

/-- The first hub of several is brought ONLINE where it is OFFLINE, and the next one follows. -/
theorem exec_activationDone_of_hubs {h g : Nat} {gs : List Nat} (hh : a.hubs = h :: g :: gs) (hst : s.rd F.HUB_CTRL.STATE h = 0) :
    let u := s.startHub h
    let v : State := { u with sec := { u.sec with active := some { a with hubs := g :: gs } } }
    exec .activationDone s =
      .next ((v.wr F.OBS_UPD_STATUS.HUBS_LEFT 0 ((g :: gs).foldl (fun m k => m + 2 ^ k) 0)).nextHub (g :: gs)) := by
  show execActivationDone s = _
  rw [execActivationDone, State.ifLive_of_live hl]
  simp only [ha, hh, hst, ne_eq, not_true, if_false, List.isEmpty_cons, Bool.false_eq_true]

end

/-! ## The obligation -/

/-- Settles O35: raising source 161 leaves BUSY, so each request goes its way through the mailbox, and each operation by its own lemma. -/
theorem catalogueAndUpdates : Obligations.CatalogueAndUpdates := by
  refine ⟨fun s tag pl hs hpl hbusy hfw hrdy hheld => ?catalogue,
    fun s tag hl => ⟨fun pl hs hpl hbusy hfw => ⟨fun b hb => ⟨?write, ?verify⟩, ?conflict, ?accepted⟩,
      exec_activationDone_of_none hl,
      fun a ha => ⟨exec_activationDone_of_no_hubs hl ha, fun h g gs => exec_activationDone_of_hubs hl ha⟩⟩⟩
  case catalogue =>
    have free := State.mboxRow_of_free hs hbusy hfw hpl
    refine ⟨?format, fun hslot hkind => ⟨?deleting, ?used, ?new⟩, fun hx => ⟨?beyond, ?within, ?whole, ?refused⟩,
      fun hslot => ⟨?tensor, ?gone⟩, ?grant, fun k => exec_catDeleteDone_of_deleting hs.1⟩
    case format =>
      intro hop hcat
      obtain ⟨v, hv, hleft⟩ := State.blkFormat_of_empty hrdy hheld hop hcat
      exact ⟨v, (free State.blkFormat _ tag).trans (by rw [hv]; rfl), hleft⟩
    case deleting => exact fun hx => (free State.catCreate _ tag).trans (by rw [State.catCreate_of_deleting hrdy hslot hkind hx]; rfl)
    case used => exact fun hd hf => (free State.catCreate _ tag).trans (by rw [State.catCreate_of_used hrdy hslot hkind hheld hd hf]; rfl)
    case new =>
      intro hx hid hnew
      refine ⟨fun hlen => ?_, fun hlen hfree => ?_, fun hlen hfree b hb => ?_⟩
      · exact (free State.catCreate _ tag).trans (by rw [State.catCreate_of_empty hrdy hslot hkind hheld hx hid hnew hlen]; rfl)
      · exact (free State.catCreate _ tag).trans (by rw [State.catCreate_of_full hrdy hslot hkind hheld hx hid hnew hlen hfree]; rfl)
      · obtain ⟨v, a, hv⟩ := State.catCreate_of_fit hrdy hslot hkind hheld hx hid hnew hlen hfree hb
        refine ⟨_, a, (free State.catCreate _ tag).trans (by rw [hv]; rfl), ?_⟩
        rw [State.entry_setEntry_same _ _ (State.createEntry_ne_free _ _ _)]
        exact ⟨rfl, rfl, rfl, State.state_createEntry ..⟩
    case beyond => exact fun hlen => (free State.catWrite _ tag).trans (by rw [State.catWrite_of_beyond hrdy hx hlen]; rfl)
    case within =>
      refine fun hlen => ⟨fun hstop => ?_, fun hstop hbus hwin hide => ?_⟩
      · exact (free State.catWrite _ tag).trans (by rw [State.catWrite_of_stopped hrdy hx hlen hstop]; rfl)
      · exact (free State.catWrite _ tag).trans (by
          rw [State.catWrite_of_reads hrdy hx hlen hstop hheld hbus, State.settle_firmwareRead hwin hide]; rfl)
    case whole => exact fun hw hd => (free State.catSeal _ tag).trans (by rw [State.catSeal_of_whole hrdy hx hw hd]; rfl)
    case refused => exact fun h => (free State.catSeal _ tag).trans (by rw [State.catSeal_of_not hrdy hx h]; rfl)
    case tensor => exact fun k hk => (free State.catDelete _ tag).trans (by rw [State.catDelete_of_tensor hrdy hslot hk]; rfl)
    case gone => exact fun hk => (free State.catDelete _ tag).trans (by rw [State.catDelete_of_no_tensor hrdy hslot hk]; rfl)
    case grant => exact fun v e happly he hv => (free State.catGrant _ tag).trans (by rw [State.catGrant_of_passes hrdy happly he hv]; rfl)
  case write =>
    intro hin hact hbus hwin hide
    exact (State.mboxRow_of_free hs hbusy hfw hpl State.updWrite _ tag).trans (by
      rw [State.updWrite_of_reads hb hin hact hbus, State.settle_firmwareRead hwin hide]; rfl)
  case verify =>
    exact (State.mboxRow_of_free hs hbusy hfw (pl := []) (Nat.zero_le 4080) (fun s _ => s.updVerify) _ tag).trans (by
      rw [State.updVerify_of_staging hb]; rfl)
  case conflict =>
    exact fun k hk => (State.mboxRow_of_free hs hbusy hfw hpl State.updActivate _ tag).trans (by rw [State.updActivate_of_active hk]; rfl)
  case accepted =>
    intro c b hact h1 h4 hcheck hhand
    exact (State.mboxRow_of_free hs hbusy hfw hpl State.updActivate _ tag).trans (by
      rw [State.updActivate_of_accepted hact h1 h4 rfl hcheck hhand]; rfl)

end Sys2Proof.Machine
end

section
/-! PROOFS. Channels of the main tier: tracking and refresh (R232, R240), retrains (R233 to R236), retirement (R237, R238) and temperature
(R241), and the obligation about them. -/

namespace Sys2Proof.Machine

variable {s : State} {c : Nat}

/-! ## Retrains that start or are asked for (R233 to R235) -/

/-- An ONLINE channel is neither being retired nor retired. -/
theorem State.not_leaving_of_online (ho : s.chanState c = cOnline) : ¬(s.chanState c = cMigrating ∨ s.chanState c = cRetired) := by
  rw [ho]
  decide

theorem State.startShort_of_room (ho : s.chanState c = cOnline) (hn : s.chansIn cShort < 4) :
    s.startShort c = (s.setChan c { s.chan c with shortPend := false }).moveChan c cShort := if_pos ⟨ho, hn⟩

theorem State.startFull_of_room (ho : s.chanState c = cOnline) (hn : s.chansIn cFull = 0) :
    s.startFull c = (s.setChan c { s.chan c with fullPend := false, leadWait := none }).moveChan c cFull := if_pos ⟨ho, hn⟩

theorem State.shortReq_of_leaving (h : s.chanState c = cMigrating ∨ s.chanState c = cRetired) : s.shortReq c = s.lpxIgnored c := if_pos h

theorem State.fullReq_of_leaving (h : s.chanState c = cMigrating ∨ s.chanState c = cRetired) : s.fullReq c = s.lpxIgnored c := if_pos h

section
variable (ho : s.chanState c = cOnline)
include ho

theorem State.shortReq_of_online : s.shortReq c = (s.setChan c { s.chan c with shortPend := true }).startShort c :=
  (if_neg (State.not_leaving_of_online ho)).trans (if_pos ho)

theorem State.fullReq_of_online : s.fullReq c = (s.setChan c { s.chan c with fullPend := true }).startFull c :=
  (if_neg (State.not_leaving_of_online ho)).trans (if_pos ho)

variable (hr : (s.chan c).retire = false) (hn : s.retiring < 4)
include hr hn

theorem State.retireTrigger_of_online : s.retireTrigger c = s.setChan c { s.chan c with retire := true } := by
  have hstays : ¬(s.chanState c = cMigrating ∨ s.chanState c = cRetired ∨ (s.chan c).retire = true) := by
    rw [ho, hr]
    decide
  exact (if_neg hstays).trans (if_neg (not_le.2 hn))

theorem State.retireReq_of_online : s.retireReq c = s.setChan c { s.chan c with retire := true } := by
  have hdue : ¬(s.chanState c = cMigrating ∨ (s.chan c).retire = true) := by
    rw [ho, hr]
    decide
  have hret : s.chanState c ≠ cRetired := by
    rw [ho]
    decide
  exact (if_neg hdue).trans <| (if_neg hret).trans <| (if_neg (not_le.2 hn)).trans (State.retireTrigger_of_online ho hr hn)

end

/-! ## The events of a channel (R232 to R234, R240) -/

section
variable {ch : LpxCh} (hl : s.live = true)
include hl

theorem exec_wck2dqTrack_of_due {ns : List Nat} (hr : s.chanRuns ch.val = true) (hn : ns.length = s.lpxRanks)
    (hd : s.due (s.chan ch.val).trackAt (s.rd F.LPX_CFG.TRACK_MS 0 * 1000000) = true) :
    exec (.wck2dqTrack ch ns) s = .next (s.setChan ch.val { s.chan ch.val with osc := ns, trackAt := s.time }) :=
  (State.ifLive_of_live hl).trans (congrArg _ (if_pos (by rw [hr, hn, hd, beq_self_eq_true]; rfl)))

theorem exec_wck2dqTrack_of_stopped (hr : s.chanRuns ch.val = false) (ns : List Nat) : exec (.wck2dqTrack ch ns) s = .next s :=
  (State.ifLive_of_live hl).trans (congrArg _ (if_neg (by rw [hr]; exact Bool.false_ne_true)))

theorem exec_refresh_of_runs (hr : s.chanRuns ch.val = true) : exec (.refresh ch) s = .next (s.setChan ch.val { s.chan ch.val with
    refreshAt := (List.range s.lpxRanks).map fun k =>
      if k = s.staleRank (s.chan ch.val) then s.time else (s.chan ch.val).refreshAt.getD k 0 }) :=
  (State.ifLive_of_live hl).trans (congrArg _ (if_pos hr))

theorem exec_refresh_of_stopped (hr : s.chanRuns ch.val = false) : exec (.refresh ch) s = .next s :=
  (State.ifLive_of_live hl).trans (congrArg _ (if_neg (ne_true_of_eq_false hr)))

theorem exec_shortRetrain_of_pending (hp : (s.chan ch.val).shortPend = true) : exec (.shortRetrain ch) s = .next (s.startShort ch.val) :=
  (State.ifLive_of_live hl).trans (congrArg _ (if_pos hp))

/-- SHORT_RETRAIN with no request that waited. -/
theorem exec_shortRetrain_of_not_pending (hp : (s.chan ch.val).shortPend = false) : exec (.shortRetrain ch) s = .next (
    if (s.chan ch.val).drifted || (s.replayTrig ch.val && !s.shortLately ch.val) then s.shortReq ch.val else s) :=
  (State.ifLive_of_live hl).trans (congrArg _ (if_neg (ne_true_of_eq_false hp)))

theorem exec_fullRetrain_of_pending (hp : (s.chan ch.val).fullPend = true) : exec (.fullRetrain ch) s = .next (s.startFull ch.val) :=
  (State.ifLive_of_live hl).trans (congrArg _ (if_pos hp))

/-- A full retrain that the device asks for, REPLAY_TRIG being reached again within 1 s of a short one: it waits while a lead-class command
holds it off. -/
theorem exec_fullRetrain_of_trigger (ho : s.chanState ch.val = cOnline) (hp : (s.chan ch.val).fullPend = false)
    (ht : s.replayTrig ch.val = true) (hlate : s.shortLately ch.val = true) :
    let since := (s.chan ch.val).leadWait.getD s.time
    let u := s.setChan ch.val { s.chan ch.val with leadWait := some since }
    exec (.fullRetrain ch) s = .next (if u.leadHolds since then u else u.startFull ch.val) := by
  have hasked : ((s.chan ch.val).leadWait.isSome || (s.replayTrig ch.val && s.shortLately ch.val)) = true := by
    rw [ht, hlate]
    exact Bool.or_true _
  exact (State.ifLive_of_live hl).trans <| congrArg _ <| (if_neg (ne_true_of_eq_false hp)).trans <| (if_pos hasked).trans (if_pos ho)

theorem exec_retrainDone_of_ends {ok : Bool} {v : State} (hv : s.retrainEnds ch.val ok = v) :
    exec (.retrainDone ch ok) s = .next v.mainGo :=
  hv ▸ State.ifLive_of_live hl

end

/-! ## Retrains that end (R234 to R237) -/

/-- A short retrain, with no full one of the device due, takes its baseline from the last tracking; a full one that pends follows. -/
theorem State.retrainEnds_of_short (hst : s.chanState c = cShort) (hw : (s.chan c).leadWait = none) (ok : Bool) :
    let u := (s.setChan c { s.chan c with base := (s.chan c).osc, shortAt := some s.time, events := [] }).moveChan c cOnline
    s.retrainEnds c ok = if (s.chan c).fullPend then u.startFull c else u.retireStep c := by
  refine (if_pos hst).trans (if_congr ?_ rfl rfl)
  rw [hw, Option.any_none, Bool.or_false]

/-- The times of a channel's full retrains within the last hour, with one that ends now. -/
def State.fullsNow (s : State) (c : Nat) : List Nat :=
  s.time :: (s.chan c).fulls.filter fun t => decide (s.time ≤ timeAdd t 3600000000000)

/-- A full retrain has passed: ONLINE with new baselines and DBI as LPX_CFG has it, and counted. -/
def State.fullPassed (s : State) (c : Nat) : State :=
  (((s.oscBases c).2.setChan c { s.chan c with
    base := (s.oscBases c).1, osc := (s.oscBases c).1, events := [], fulls := s.fullsNow c, shortPend := false, fullPend := false
    dbiWr := s.on F.LPX_CFG.DBI_WR 0, dbiRd := s.on F.LPX_CFG.DBI_RD 0 }).count F.LPX_CH_STATE.FULL_RETRAINS c 1).moveChan c cOnline

section
variable (hst : s.chanState c = cFull)
include hst

theorem State.not_short_of_full : s.chanState c ≠ cShort := by
  rw [hst]
  decide

theorem State.retrainEnds_of_passed : s.retrainEnds c true =
    (if 3 ≤ (s.fullsNow c).length then (s.fullPassed c).retireTrigger c else s.fullPassed c).retireStep c :=
  (if_neg (State.not_short_of_full hst)).trans <| (if_pos hst).trans (if_pos rfl)

theorem State.retrainEnds_of_failed : s.retrainEnds c false =
    (if (s.chan c).retire then (s.moveChan c cOnline).retireStep c else s).latchFatal 1 c :=
  (if_neg (State.not_short_of_full hst)).trans <| (if_pos hst).trans (if_neg Bool.false_ne_true)

end

/-! ## Requests of the host (R235, R237) -/

section
variable {f : FnId} {ch : LpxCh} (hf : s.hears f.val)
include hf

theorem exec_lpxShortReq : exec (.lpxShortReq f ch) s = .next (if isPF f.val then s.shortReq ch.val else s.deny f.val) :=
  State.ifHost_of_hears hf ..

theorem exec_lpxFullReq : exec (.lpxFullReq f ch) s = .next (if isPF f.val then s.fullReq ch.val else s.deny f.val) :=
  State.ifHost_of_hears hf ..

theorem exec_lpxRetireReq : exec (.lpxRetireReq f ch) s = .next (if isPF f.val then s.retireReq ch.val else s.deny f.val) :=
  State.ifHost_of_hears hf ..

end

/-! ## Retirement (R238) -/

/-- A channel that is due to be retired becomes MIGRATING. -/
def State.retireBegins (s : State) (c : Nat) : State :=
  (((s.setChan c { s.chan c with retire := false }).moveChan c cMigrating).fault 3).raise 136

/-- The remap pages of a MIGRATING channel are granted: they leave the pool at its top, what stood there moves into it, and the copy
begins. -/
def State.copyBegins (s : State) (c m : Nat) : State :=
  let top := s.topWithout m
  let holes := s.lpx.retired.filter fun n => decide (top ≤ n ∧ n < s.lpx.top)
  let z := ({ s with lpx := { s.lpx with top := top, remaps := s.lpx.remaps ++ [(c, top, holes)] } } : State).moveTop
  let w := z.wr F.POOL_TOTAL.PAGES 0 (z.rd F.POOL_TOTAL.PAGES 0 - m)
  (w.setChan c { w.chan c with copying := true, moved := [] }).put F.LPX_CH_STATE.MIGR_WAIT c false

/-- A MIGRATING channel asks for its remap pages. -/
def State.seekRemap (s : State) (c : Nat) : State :=
  match s.takePages (lpxReq c) 16 timeMax s.remapPages with
  | (v, .granted) => v.copyBegins c s.remapPages
  | (v, _) => v.put F.LPX_CH_STATE.MIGR_WAIT c true

theorem State.seekRemap_of_granted {v : State} (hv : s.takePages (lpxReq c) 16 timeMax s.remapPages = (v, .granted)) :
    s.seekRemap c = v.copyBegins c s.remapPages := by
  rw [State.seekRemap, hv]

theorem State.seekRemap_of_not_granted {v : State} {g : Grant} (hv : s.takePages (lpxReq c) 16 timeMax s.remapPages = (v, g))
    (hg : g ≠ .granted) : s.seekRemap c = v.put F.LPX_CH_STATE.MIGR_WAIT c true := by
  rw [State.seekRemap, hv]
  cases g with
  | granted => exact absurd rfl hg
  | waits => rfl
  | refused => rfl

/-- The retirement of a channel that is due, or that waits for its pages, goes on from the state in which it is MIGRATING. -/
theorem State.retireStep_of_acts (h : (s.chanState c = cOnline ∧ (s.chan c).retire = true) ∨
    (s.chanState c = cMigrating ∧ (s.chan c).copying = false)) :
    s.retireStep c = (if s.chanState c = cOnline then s.retireBegins c else s).seekRemap c := by
  simp only [State.retireStep, State.seekRemap, State.retireBegins, if_pos h]
  generalize State.takePages _ _ _ _ _ = r
  obtain ⟨v, g⟩ := r
  cases g <;> rfl

section
variable {ch : LpxCh} (hl : s.live = true)
include hl

/-- CHANNEL_RETIRE, from the state `u` in which the channel is MIGRATING. -/
theorem exec_channelRetire {u : State} (hu : (s.chanState ch.val = cOnline ∧ (s.chan ch.val).retire = true ∧ u = s.retireBegins ch.val) ∨
    (s.chanState ch.val = cMigrating ∧ (s.chan ch.val).copying = false ∧ u = s)) :
    exec (.channelRetire ch) s = .next (u.seekRemap ch.val) := by
  refine (State.ifLive_of_live hl).trans (congrArg _ ?_)
  rcases hu with ⟨ho, hr, rfl⟩ | ⟨hm, hc, rfl⟩
  · rw [State.retireStep_of_acts (.inl ⟨ho, hr⟩), if_pos ho]
  · rw [State.retireStep_of_acts (.inr ⟨hm, hc⟩), if_neg (by rw [hm]; decide)]

theorem exec_channelRetireSwitch_of_copied (hm : s.chanState ch.val = cMigrating) (hc : (s.chan ch.val).copying = true) :
    exec (.channelRetireSwitch ch) s = .next (((s.setChan ch.val { s.chan ch.val with copying := false, moved := [] }).moveChan ch.val
      cRetired).wr F.LPX_STATUS.RETIRED 0 (s.rd F.LPX_STATUS.RETIRED 0 + 1)) :=
  (State.ifLive_of_live hl).trans (congrArg _ (if_pos ⟨hm, hc⟩))

end

/-! ## Temperature (R241) -/

/-- The hottestCode of the readings of a channel's ranks, the first of equals. -/
def hottestCode (v0 : Nat) (vs : List Nat) : Nat := vs.foldl (fun b y => if mr4Code b < mr4Code y then y else b) v0

/-- A reading of a channel is stored. -/
def State.heatStored (s : State) (c v : Nat) : State := (s.setChan c { s.chan c with pollAt := s.time }).wr F.LPX_CH_STATE.MR4 c v

/-- The readings in range of a channel count from 0 again. -/
def State.heatAgain (s : State) (c : Nat) : State := s.setChan c { s.chan c with cool := 0 }

/-- A stored reading acts on HOT. -/
def State.heatActs (s : State) (c v : Nat) : State :=
  if mr4Code v = 31 then
    if (s.heatAgain c).on F.LPX_CH_STATE.HOT c then s.heatAgain c
    else (((s.heatAgain c).put F.LPX_CH_STATE.HOT c true).raise 136).hotCount
  else if s.on F.LPX_CH_STATE.HOT c then
    if 3 ≤ (s.chan c).cool + 1 then ((s.heatAgain c).put F.LPX_CH_STATE.HOT c false).hotCount
    else s.setChan c { s.chan c with cool := (s.chan c).cool + 1 }
  else s

/-- A channel's own state holds no register. -/
theorem State.on_heatAgain (f : Fld) (i : Nat) : (s.heatAgain c).on f i = s.on f i := by
  rw [State.on, State.heatAgain, State.rd_of_setChan, State.on]

theorem exec_mr4Poll_of_due {ch : LpxCh} {v0 : Nat} {vs : List Nat} (hl : s.live = true) (hr : s.chanRuns ch.val = true)
    (hn : vs.length + 1 = s.lpxRanks) (hd : s.due (s.chan ch.val).pollAt 4000000 = true) :
    exec (.mr4Poll ch (v0 :: vs)) s = .next ((s.heatStored ch.val (hottestCode v0 vs)).heatActs ch.val (hottestCode v0 vs)) := by
  have hpolls : (s.chanRuns ch.val && (v0 :: vs).length == s.lpxRanks && s.due (s.chan ch.val).pollAt 4000000) = true := by
    rw [List.length_cons, hr, hn, hd, beq_self_eq_true]
    rfl
  show execMr4Poll ch (v0 :: vs) s = _
  rw [execMr4Poll, State.ifLive_of_live hl]
  exact congrArg _ (if_pos hpolls)

section
variable {v : Nat}

theorem State.heatActs_of_hot (hv : mr4Code v = 31) : s.heatActs c v =
    if s.on F.LPX_CH_STATE.HOT c then s.heatAgain c
    else (((s.heatAgain c).put F.LPX_CH_STATE.HOT c true).raise 136).hotCount := by
  rw [State.heatActs, if_pos hv, State.on_heatAgain]

theorem State.heatActs_of_cool (hv : mr4Code v ≠ 31) (hh : s.on F.LPX_CH_STATE.HOT c = false) : s.heatActs c v = s :=
  (if_neg hv).trans (if_neg (ne_true_of_eq_false hh))

/-- A reading in range on a HOT channel. -/
theorem State.heatActs_of_cooling (hv : mr4Code v ≠ 31) (hh : s.on F.LPX_CH_STATE.HOT c = true) : s.heatActs c v =
    if 3 ≤ (s.chan c).cool + 1 then ((s.heatAgain c).put F.LPX_CH_STATE.HOT c false).hotCount
    else s.setChan c { s.chan c with cool := (s.chan c).cool + 1 } :=
  (if_neg hv).trans (if_pos hh)

end

/-! ## The obligation -/

/-- Settles O36: each event and each request of a channel by its own lemma. -/
theorem mainTierChannels : Obligations.MainTierChannels := by
  refine ⟨fun ch s hl => ⟨fun hr => ⟨fun ns hn hd => exec_wck2dqTrack_of_due hl hr hn hd, exec_refresh_of_runs hl hr⟩,
      fun hr => ⟨exec_wck2dqTrack_of_stopped hl hr, exec_refresh_of_stopped hl hr⟩, fun ho hn hp => ?shortStarts,
      fun hp => ⟨fun h => ?shortAsked, fun hd h => ?shortIdle⟩, fun ho hn hp => ?fullStarts, fun ho hp ht hlate => ?fullAsked,
      fun hst hw ok => ?shortEnds, fun hst => ⟨?fullPasses, fun hr => ?fullFails, fun hr => ?fullFailsDue⟩,
      fun f hf => ⟨fun h0 => ⟨fun h => ?ignored, fun ho => ?requested⟩, fun h0 => ?denied⟩⟩,
    fun ch s hl => ⟨fun u hu => ⟨fun v hv => ?granted, fun v g hv hg => ?waits⟩, exec_channelRetireSwitch_of_copied hl,
      fun v0 vs hr hn hd => ?heat⟩⟩
  case shortStarts => rw [exec_shortRetrain_of_pending hl hp, State.startShort_of_room ho hn]
  case shortAsked =>
    have hasked : ((s.chan ch.val).drifted || (s.replayTrig ch.val && !s.shortLately ch.val)) = true := by
      rcases h with hd | ⟨ht, hlate⟩
      · rw [hd, Bool.true_or]
      · rw [ht, hlate]
        exact Bool.or_true _
    rw [exec_shortRetrain_of_not_pending hl hp, if_pos hasked]
  case shortIdle =>
    have hidle : ((s.chan ch.val).drifted || (s.replayTrig ch.val && !s.shortLately ch.val)) = false := by
      rw [hd, Bool.false_or]
      rcases h with ht | hlate
      · rw [ht, Bool.false_and]
      · rw [hlate]
        exact Bool.and_false _
    rw [exec_shortRetrain_of_not_pending hl hp, if_neg (ne_true_of_eq_false hidle)]
  case fullStarts => rw [exec_fullRetrain_of_pending hl hp, State.startFull_of_room ho hn]
  case fullAsked =>
    have hfull := exec_fullRetrain_of_trigger hl ho hp ht hlate
    exact ⟨fun h => hfull.trans (congrArg _ (if_neg (ne_true_of_eq_false h))), fun h => hfull.trans (congrArg _ (if_pos h))⟩
  case shortEnds =>
    have hends := State.retrainEnds_of_short hst hw ok
    exact ⟨fun h => exec_retrainDone_of_ends hl (hends.trans (if_neg (ne_true_of_eq_false h))),
      fun h => exec_retrainDone_of_ends hl (hends.trans (if_pos h))⟩
  case fullPasses =>
    have hends := State.retrainEnds_of_passed hst
    exact ⟨fun h => exec_retrainDone_of_ends hl (hends.trans (congrArg (State.retireStep · ch.val) (if_neg (not_le.2 h)))),
      fun h => exec_retrainDone_of_ends hl (hends.trans (congrArg (State.retireStep · ch.val) (if_pos h)))⟩
  case fullFails =>
    exact exec_retrainDone_of_ends hl ((State.retrainEnds_of_failed hst).trans
      (congrArg (State.latchFatal · 1 ch.val) (if_neg (ne_true_of_eq_false hr))))
  case fullFailsDue =>
    exact exec_retrainDone_of_ends hl ((State.retrainEnds_of_failed hst).trans (congrArg (State.latchFatal · 1 ch.val) (if_pos hr)))
  case ignored =>
    rw [exec_lpxShortReq hf, exec_lpxFullReq hf, if_pos (isPF_iff.2 h0), if_pos (isPF_iff.2 h0), State.shortReq_of_leaving h,
      State.fullReq_of_leaving h]
    exact ⟨rfl, rfl⟩
  case requested =>
    rw [exec_lpxShortReq hf, exec_lpxFullReq hf, exec_lpxRetireReq hf, if_pos (isPF_iff.2 h0), if_pos (isPF_iff.2 h0),
      if_pos (isPF_iff.2 h0), State.shortReq_of_online ho, State.fullReq_of_online ho]
    exact ⟨rfl, rfl, fun hr hn => congrArg _ (State.retireReq_of_online ho hr hn)⟩
  case denied =>
    have hpf := mt isPF_iff.1 h0
    rw [exec_lpxShortReq hf, exec_lpxFullReq hf, exec_lpxRetireReq hf, if_neg hpf, if_neg hpf, if_neg hpf]
    exact ⟨rfl, rfl, rfl⟩
  case granted => exact (exec_channelRetire hl hu).trans (congrArg _ (State.seekRemap_of_granted hv))
  case waits => exact (exec_channelRetire hl hu).trans (congrArg _ (State.seekRemap_of_not_granted hv hg))
  case heat =>
    have hpoll := exec_mr4Poll_of_due (v0 := v0) hl hr hn hd
    refine ⟨fun hv hh => ?_, fun hv hh => ?_, fun hv hh => ?_, fun hv hh => ⟨fun hc => ?_, fun hc => ?_⟩⟩
    · exact hpoll.trans (congrArg _ ((State.heatActs_of_hot hv).trans (if_neg (ne_true_of_eq_false hh))))
    · exact hpoll.trans (congrArg _ ((State.heatActs_of_hot hv).trans (if_pos hh)))
    · exact hpoll.trans (congrArg _ (State.heatActs_of_cool hv hh))
    · exact hpoll.trans (congrArg _ ((State.heatActs_of_cooling hv hh).trans (if_neg (Nat.not_le.2 (Nat.succ_lt_succ hc)))))
    · exact hpoll.trans (congrArg _ ((State.heatActs_of_cooling hv hh).trans (if_pos (Nat.succ_le_succ hc))))

end Sys2Proof.Machine
end

section
/-! PROOFS. The windows of BAR2 (R385 to R388), their mappings (R386), faulty traffic (R396), and the obligation about them. -/

namespace Sys2Proof.Machine

variable {s : State}

/-! ## Fields of a written register (R403) -/

/-- Writing a field leaves a field of the same register apart from it as it was. -/
theorem State.rd_wr_apart (hs : Tab.rising s.regs = true) {k : RegKind} {lo w lo' w' : Nat} (hw : lo' + w' ≤ 64)
    (h : lo + w ≤ lo' ∨ lo' + w' ≤ lo) (i v : Nat) : (s.wr ⟨k, lo, w⟩ i v).rd ⟨k, lo', w'⟩ i = s.rd ⟨k, lo', w'⟩ i := by
  rw [State.rd, State.rd, State.wr, State.reg_setReg_same s hs, bits_mod_two_pow hw, bits_setBits_apart h]

/-- Writing a field keeps the register file in canonical form. -/
theorem State.rising_wr (hs : Tab.rising s.regs = true) (f : Fld) (i v : Nat) : Tab.rising (s.wr f i v).regs = true :=
  State.rising_setReg s hs ..

/-! ## Accesses through a window (R385, R387, R388) -/

/-- A live device serves reads of BAR2. -/
theorem State.servesReads_of_live (hl : s.live = true) : s.servesReads = true := by
  obtain ⟨hclocks, hpor⟩ := State.clocks_of_live hl
  obtain ⟨-, hhalted, hbooted⟩ := State.flags_of_live hl
  rw [State.servesReads, hclocks, hpor, hhalted, hbooted]
  rfl

section
variable {f : FnId} {off : Nat} (hf : s.hears f.val) (hm : s.mainUp = true)
include hf hm

section
variable {len : Nat} (hfit : bar2Fits off len = true)
include hfit

/-- A function that takes a read looks for its window. -/
theorem not_bar2Read_idle : ¬bar2Form off len = false ∧ ¬(s.servesReads = false ∨ s.mainUp = false) := by
  refine ⟨ne_false_of_eq_true hfit, ?_⟩
  rw [State.servesReads_of_live hf.left, hm]
  decide

theorem exec_bar2Read_of_window {p tid o : Nat} (hwin : s.windowAt f.val off len false = some (p, tid, o)) :
    exec (.bar2Read f off len) s = .next (s.readAsk f.val off p tid o len) := by
  obtain ⟨hform, hserves⟩ := not_bar2Read_idle hf hm hfit
  obtain ⟨-, ht, -⟩ := hf
  show execBar2Read f off len s = _
  rw [execBar2Read, if_neg hform, if_neg hserves]
  simp only [ht, hwin]

theorem exec_bar2Read_of_no_window (hwin : s.windowAt f.val off len false = none) :
    exec (.bar2Read f off len) s = .next ((s.pciEvent 4 f.val off).sendTlp f.val 2 (.unsupported f.val)) := by
  obtain ⟨hform, hserves⟩ := not_bar2Read_idle hf hm hfit
  obtain ⟨hl, ht, -⟩ := hf
  obtain ⟨hfatal, -⟩ := State.flags_of_live hl
  show execBar2Read f off len s = _
  rw [execBar2Read, if_neg hform, if_neg hserves]
  simp only [ht, hwin, if_neg (ne_true_of_eq_false hfatal)]

end

section
variable {bs : List Byte} (hfit : bar2Fits off bs.length = true)
include hfit

theorem exec_bar2Write_of_window {p tid o : Nat} (hwin : s.windowAt f.val off bs.length true = some (p, tid, o)) :
    exec (.bar2Write f off bs) s = .next (s.mainPut p tid o bs false) := by
  have hform : ¬bar2Form off bs.length = false := ne_false_of_eq_true hfit
  show execBar2Write f off bs s = _
  rw [execBar2Write, if_neg hform, State.ifHost_of_hears hf, if_neg (ne_false_of_eq_true hm)]
  simp only [hwin]

theorem exec_bar2Write_of_no_window (hwin : s.windowAt f.val off bs.length true = none) :
    exec (.bar2Write f off bs) s = .next (s.pciEvent 4 f.val off) := by
  have hform : ¬bar2Form off bs.length = false := ne_false_of_eq_true hfit
  show execBar2Write f off bs s = _
  rw [execBar2Write, if_neg hform, State.ifHost_of_hears hf, if_neg (ne_false_of_eq_true hm)]
  simp only [hwin]

end
end

section
variable {p tid o : Nat} {t : Tensor} (ht : s.tensor p tid = some t)
include ht

/-- A read of a window waits where it has to, and is answered else. -/
theorem State.readAsk_of_tensor (f off len : Nat) : s.readAsk f off p tid o len =
    if s.mainWaits (heldReq s.lpx.heldNo) (s.tensorChans t o len) then s.holdMain (s.tensorChans t o len) (.read f off p tid o len)
    else s.readSlot f off p tid o len := by
  simp only [State.readAsk, ht, Option.map_some, Option.getD_some]

theorem State.readSlot_of_empty (f off : Nat) : s.readSlot f off p tid o 0 = s.sendTlp f 2 (.readData f []) := by
  simp only [State.readSlot, ht, if_true]

/-- A read of bytes is answered once the bus has brought them and a free value says whether it finds a failed word. -/
theorem State.readSlot_of_bytes (f off : Nat) {len : Nat} (hlen : len ≠ 0) {v : Nat} {w : State}
    (hw : (s.busErrors false (s.burstsOf t.frames o len)).draw 1 = (v, w)) : s.readSlot f off p tid o len =
      if w.meetsFailure p tid o len then w.poison f off
      else if v = 1 then (w.poison f off).storedFailure p tid (o / 65536) 0
      else w.sendTlp f 2 (.readData f (t.data.readN o len)) := by
  simp only [State.readSlot, ht, if_neg hlen, hw]

/-- Bytes of the host for a tensor wait where they have to, and are written else. -/
theorem State.mainPut_of_tensor (bs : List Byte) : s.mainPut p tid o bs false =
    if s.mainWaits (heldReq s.lpx.heldNo) (s.tensorChans t o bs.length) then
      s.holdMain (s.tensorChans t o bs.length) (.put p tid o bs false)
    else s.tensorPut p tid o bs := by
  simp only [State.mainPut, ht, Option.map_some, Option.getD_some, Bool.false_eq_true, if_false]

theorem State.tensorPut_of_tensor (bs : List Byte) : s.tensorPut p tid o bs = (s.setTensor p tid { t with
    data := t.data.writeN o bs, state := if t.state = .clean then .dirty else t.state }).mainWritten t o bs.length := by
  simp only [State.tensorPut, ht]

end

/-! ## Mappings (R386, R403) -/

/-- A mapping stored in slot register `j`. -/
def State.mapStored (s : State) (j v : Nat) : State :=
  ((((s.put F.PCI_WIN_MAP.VALID j (bit v 63)).put F.PCI_WIN_MAP.WR j (bit v 62)).wr F.PCI_WIN_MAP.PART j (bits v 52 4)).wr
    F.PCI_WIN_MAP.PAGE j (bits v 32 20)).wr F.PCI_WIN_MAP.TID j (bits v 0 32)

/-- MAP_ERR is cleared where it is written with 1. -/
def State.mapErrCleared (s : State) (j v : Nat) : State := if bit v 61 then s.put F.PCI_WIN_MAP.MAP_ERR j false else s

theorem State.rising_mapErrCleared (hs : Tab.rising s.regs = true) (j v : Nat) : Tab.rising (s.mapErrCleared j v).regs = true := by
  unfold State.mapErrCleared
  split_ifs
  · exact State.rising_wr hs ..
  · exact hs

/-- A mapping's slot holds its VALID, TID and PAGE. -/
theorem State.rd_mapStored (hs : Tab.rising s.regs = true) (j v : Nat) : (s.mapStored j v).rd F.PCI_WIN_MAP.VALID j = bits v 63 1 ∧
    (s.mapStored j v).rd F.PCI_WIN_MAP.TID j = bits v 0 32 ∧ (s.mapStored j v).rd F.PCI_WIN_MAP.PAGE j = bits v 32 20 := by
  have hvalid := State.rising_wr hs F.PCI_WIN_MAP.VALID j (b2n (bit v 63))
  have hwr := State.rising_wr hvalid F.PCI_WIN_MAP.WR j (b2n (bit v 62))
  have hpart := State.rising_wr hwr F.PCI_WIN_MAP.PART j (bits v 52 4)
  have hpage := State.rising_wr hpart F.PCI_WIN_MAP.PAGE j (bits v 32 20)
  unfold State.mapStored State.put
  refine ⟨?_, ?_, ?_⟩
  · rw [State.rd_wr_apart hpage (by decide) (by decide), State.rd_wr_apart hpart (by decide) (by decide),
      State.rd_wr_apart hwr (by decide) (by decide), State.rd_wr_apart hvalid (by decide) (by decide),
      State.rd_wr_same hs (by decide), Nat.mod_eq_of_lt (b2n_lt_two _), bit_eq_iff.1 rfl]
  · rw [State.rd_wr_same hpage (by decide), Nat.mod_eq_of_lt (bits_lt v 0 32)]
  · rw [State.rd_wr_apart hpage (by decide) (by decide), State.rd_wr_same hpart (by decide), Nat.mod_eq_of_lt (bits_lt v 32 20)]

/-- A written mapping is refused where it is VALID and R386 does not allow it, and else stored. -/
theorem State.writeWinMap_eq (g slot v : Nat) : s.writeWinMap g slot v =
    let j := RegKind.idx .PCI_WIN_MAP g slot
    let u := s.mapErrCleared j v
    if bit v 63 && !u.mapOk g v then u.put F.PCI_WIN_MAP.MAP_ERR j true else u.mapStored j v := rfl

theorem exec_winMapWrite_of_hears {f g : FnId} {slot : Nat} (hf : s.hears f.val) (hslot : slot < 16) (v : Word64) :
    exec (.winMapWrite f g slot v) s = .next (if isPF f.val || f == g then s.writeWinMap g.val slot v.toNat else s.deny f.val) :=
  (if_neg (not_le.2 hslot)).trans (State.ifHost_of_hears hf ..)

/-- The PF and the function itself may write a function's mappings (R403). -/
theorem mayMap_iff {f g : FnId} : (isPF f.val || f == g) = true ↔ f.val = 0 ∨ f = g := by
  rw [Bool.or_eq_true, isPF_iff, beq_iff_eq]

/-! ## Faulty traffic (R396, R397) -/

/-- FAULTY_TLP of a kind that R397 lists: an ECRC mismatch is nothing where ECRC is not checked; every other is logged, and answered where
R396 answers it. -/
theorem exec_faultyTlp_of_kind {kind : Nat} (hl : s.live = true) (hk : [1, 2, 3, 4, 5, 6, 10].contains kind = true) (f : FnId) (addr : Nat)
    (read : Bool) : exec (.faultyTlp f kind addr read) s = .next (
      if kind = 2 ∧ bit (Tab.get Aer.start s.pci.aer f.val).cap 8 = false then s
      else if read && [3, 4, 6].contains kind then (s.pciEvent kind f.val addr).sendTlp f.val 2 (.unsupported f.val)
      else s.pciEvent kind f.val addr) := by
  show execFaultyTlp f kind addr read s = _
  rw [execFaultyTlp, if_neg (by rw [hk]; decide), State.ifLive_of_live hl]

/-! ## The obligation -/

/-- Settles O42: each access by the window that serves it, and each mapping and faulty TLP by its own lemma. -/
theorem hostWindows : Obligations.HostWindows := by
  refine ⟨fun f s off hf hm => ⟨fun len hfit => ⟨fun p tid o t hwin ht => ⟨fun hwait => ?held, fun hgo => ⟨fun hlen => ?empty,
        fun hlen v w hw => ?bytes⟩⟩, fun hwin => ?unsupported⟩,
      fun bs hfit => ⟨fun p tid o t hwin ht => ⟨fun hwait => ?putHeld, fun hgo => ?put⟩, fun hwin => ?unmapped⟩⟩,
    fun f g slot v s hf hslot => ⟨fun hfg => ⟨fun hv hok => ?refused, fun h => ⟨?stored, fun hs => ?reads⟩⟩, fun h0 hfg => ?denied⟩,
    fun f kind addr s hl hk => ⟨fun h2 hcap read => ?unchecked, fun h => ?logged, fun h => ?answered⟩⟩
  case held =>
    exact (exec_bar2Read_of_window hf hm hfit hwin).trans (congrArg _ ((State.readAsk_of_tensor ht ..).trans (if_pos hwait)))
  case empty =>
    subst hlen
    rw [exec_bar2Read_of_window hf hm hfit hwin, State.readAsk_of_tensor ht, if_neg (ne_true_of_eq_false hgo), State.readSlot_of_empty ht]
  case bytes =>
    rw [exec_bar2Read_of_window hf hm hfit hwin, State.readAsk_of_tensor ht, if_neg (ne_true_of_eq_false hgo),
      State.readSlot_of_bytes ht _ _ hlen hw]
    refine ⟨fun hmet => ?_, fun hmet hv => ?_, fun hmet hv => ?_⟩
    · rw [if_pos hmet]
    · rw [if_neg (ne_true_of_eq_false hmet), if_pos hv]
    · rw [if_neg (ne_true_of_eq_false hmet), if_neg hv]
  case unsupported => exact exec_bar2Read_of_no_window hf hm hfit hwin
  case putHeld =>
    exact (exec_bar2Write_of_window hf hm hfit hwin).trans (congrArg _ ((State.mainPut_of_tensor ht _).trans (if_pos hwait)))
  case put =>
    rw [exec_bar2Write_of_window hf hm hfit hwin, State.mainPut_of_tensor ht, if_neg (ne_true_of_eq_false hgo),
      State.tensorPut_of_tensor ht]
  case unmapped => exact exec_bar2Write_of_no_window hf hm hfit hwin
  case refused =>
    have hbad : (bit v.toNat 63 && !(s.mapErrCleared (RegKind.idx .PCI_WIN_MAP g.val slot) v.toNat).mapOk g.val v.toNat) = true := by
      rw [hv, Bool.true_and, Bool.not_eq_true']
      exact hok
    rw [exec_winMapWrite_of_hears hf hslot, if_pos (mayMap_iff.2 hfg), State.writeWinMap_eq]
    exact congrArg _ (if_pos hbad)
  case stored =>
    have hgood : (bit v.toNat 63 && !(s.mapErrCleared (RegKind.idx .PCI_WIN_MAP g.val slot) v.toNat).mapOk g.val v.toNat) = false := by
      rw [Bool.and_eq_false_iff, Bool.not_eq_false']
      exact h
    rw [exec_winMapWrite_of_hears hf hslot, if_pos (mayMap_iff.2 hfg), State.writeWinMap_eq]
    exact congrArg _ (if_neg (ne_true_of_eq_false hgood))
  case reads => exact State.rd_mapStored (State.rising_mapErrCleared hs ..) ..
  case denied => rw [exec_winMapWrite_of_hears hf hslot, if_neg (mt mayMap_iff.1 (not_or.2 ⟨h0, hfg⟩))]
  case unchecked => rw [exec_faultyTlp_of_kind hl hk, if_pos ⟨h2, hcap⟩]
  case logged =>
    have hseen : ¬(kind = 2 ∧ bit (Tab.get Aer.start s.pci.aer f.val).cap 8 = false) := by
      rintro ⟨h2, hcap⟩
      exact h.elim (absurd h2) (ne_true_of_eq_false hcap)
    rw [exec_faultyTlp_of_kind hl hk, if_neg hseen]
    rfl
  case answered =>
    have hseen : ¬(kind = 2 ∧ bit (Tab.get Aer.start s.pci.aer f.val).cap 8 = false) := by omega
    have hask : (true && [3, 4, 6].contains kind) = true := by simpa using h
    rw [exec_faultyTlp_of_kind hl hk, if_neg hseen, if_pos hask]

end Sys2Proof.Machine
end

section
/-! PROOFS. The encoding of hub instructions (R263), the register file of a hub (R243), and what its instructions on registers, scratch and
the program counter do and leave unchanged (R264, R277). -/

namespace Sys2Proof.Machine

/-! ## The encoding (R263) -/

/-- The fields of a hub instruction word from bit 0 upward: the encoding table of R263. -/
def HubInstr.fields (i : HubInstr) : List (Nat × Nat) :=
  [(32, i.imm), (8, i.aux), (1, b2n i.tr), (5, i.rb), (5, i.ra), (5, i.rd), (8, i.opc)]

theorem HubInstr.fields_width (i : HubInstr) : (i.fields.map Prod.fst).sum = 64 := rfl

theorem HubInstr.fieldsFit_iff (i : HubInstr) : fieldsFit i.fields ↔
    i.imm < 2 ^ 32 ∧ i.aux < 2 ^ 8 ∧ i.rb < 2 ^ 5 ∧ i.ra < 2 ^ 5 ∧ i.rd < 2 ^ 5 ∧ i.opc < 2 ^ 8 := by
  simp only [HubInstr.fields, fieldsFit, b2n_lt_two, true_and, and_true]

/-- The encoding of an instruction whose fields fit is made up of them. -/
theorem hubEncode_eq {i : HubInstr} (hi : fieldsFit i.fields) : hubEncode i = BitVec.ofNat 64 (packFields i.fields) := by
  obtain ⟨himm, haux, hrb, hra, hrd, hopc⟩ := i.fieldsFit_iff.1 hi
  simp only [hubEncode, HubInstr.fields, packFields]
  refine congrArg (BitVec.ofNat 64) ?_
  omega

/-- A word decodes to the instruction whose fields it holds. -/
theorem hubDecode_eq_iff {w : Word64} {i : HubInstr} : hubDecode w = i ↔ holdsFields w.toNat 0 i.fields := by
  cases i
  simp only [hubDecode, HubInstr.mk.injEq, bit_eq_iff, HubInstr.fields, holdsFields, Nat.reduceAdd, and_true]
  tauto

/-- Decoding and encoding are inverse on instructions whose fields fit. -/
theorem hubDecode_eq_iff_hubEncode {w : Word64} {i : HubInstr} : hubDecode w = i ↔ fieldsFit i.fields ∧ hubEncode i = w := by
  have hw : w.toNat / 2 ^ 0 < 2 ^ (i.fields.map Prod.fst).sum := by
    rw [i.fields_width, pow_zero, Nat.div_one]
    exact w.isLt
  rw [hubDecode_eq_iff, ← packFields_eq_iff hw, pow_zero, Nat.div_one]
  refine and_congr_right fun hfit => ?_
  have hlt := i.fields_width ▸ packFields_lt hfit
  rw [hubEncode_eq hfit, ← BitVec.toNat_inj, BitVec.toNat_ofNat, Nat.mod_eq_of_lt hlt]

/-- Settles O18: a word decodes to an instruction exactly where the instruction's fields fit and it encodes to the word. -/
theorem hubInstructionsRoundTrip : Obligations.HubInstructionsRoundTrip :=
  ⟨fun i hopc hrd hra hrb haux himm => hubDecode_eq_iff_hubEncode.2 ⟨i.fieldsFit_iff.2 ⟨himm, haux, hrb, hra, hrd, hopc⟩, rfl⟩,
    fun _ => (hubDecode_eq_iff_hubEncode.1 rfl).2⟩

/-! ## The register file (R243) -/

section
variable {x : Hub}

@[simp] theorem Hub.reg_zero : x.reg 0 = 0 := rfl

@[simp] theorem Hub.setReg_zero (v : Word64) : x.setReg 0 v = x := rfl

/-- A register other than h0 stands in the register table. -/
theorem Hub.reg_of_ne_zero {r : Nat} (hr : r ≠ 0) : x.reg r = Tab.get 0 x.regs r := if_neg hr

theorem Hub.regs_setReg {r : Nat} (hr : r ≠ 0) (v : Word64) : (x.setReg r v).regs = Tab.set 0 x.regs r v := by
  rw [Hub.setReg, if_neg hr]

theorem Hub.reg_setReg_same (hx : Tab.rising x.regs = true) {r : Nat} (hr : r ≠ 0) (v : Word64) : (x.setReg r v).reg r = v := by
  rw [Hub.reg_of_ne_zero hr, Hub.regs_setReg hr, Tab.get_set_same 0 hx]

theorem Hub.reg_setReg_other (hx : Tab.rising x.regs = true) {r q : Nat} (hq : q ≠ r) (v : Word64) : (x.setReg r v).reg q = x.reg q := by
  by_cases hr : r = 0
  · rw [hr, Hub.setReg_zero]
  · by_cases hq0 : q = 0
    · rw [hq0, Hub.reg_zero, Hub.reg_zero]
    · rw [Hub.reg_of_ne_zero hq0, Hub.reg_of_ne_zero hq0, Hub.regs_setReg hr, Tab.get_set_other 0 0 hx hq]

/-- Settles O17: h0 by its definition, the others by the laws of tables. -/
theorem hubRegisterFile : Obligations.HubRegisterFile := by
  refine fun x v => ⟨Hub.reg_zero, Hub.setReg_zero v, fun hx r hr => ?_⟩
  have hrise : Tab.rising x.regs = true := (Bool.and_eq_true_iff.1 hx).1
  exact ⟨Hub.reg_setReg_same hrise hr v, fun q hq => Hub.reg_setReg_other hrise hq v, by
    rw [Hub.regs_setReg hr]
    exact Tab.wf_set 0 hx r v⟩

end

/-! ## What a hub's instruction leaves unchanged (R243, R264) -/

section
variable {s t : State} {h : Nat}

theorem HubOnly.refl (h : Nat) (s : State) : HubOnly h s s :=
  ⟨rfl, rfl, rfl, rfl, rfl, rfl, rfl, ⟨rfl, rfl⟩, fun _ _ _ => rfl,
    rfl, rfl, rfl, rfl, rfl, rfl, rfl, rfl, rfl, rfl, rfl, rfl, rfl, rfl, rfl⟩

theorem State.rising_setHub (hs : Tab.rising s.ctl.hubs = true) (h : Nat) (x : Hub) : Tab.rising (s.setHub h x).ctl.hubs = true :=
  Tab.rising_set _ hs _ _

/-- The hub itself may change. -/
theorem HubOnly.setHub (ht : HubOnly h s t) (hr : Tab.rising s.ctl.hubs = true → Tab.rising t.ctl.hubs = true) (x : Hub) :
    HubOnly h s (t.setHub h x) :=
  { ht with
    others := fun hs h' hh => (State.hub_setHub_other t (hr hs) hh x).trans (ht.others hs h' hh) }

theorem State.hubOnly_setHub (s : State) (h : Nat) (x : Hub) : HubOnly h s (s.setHub h x) := (HubOnly.refl h s).setHub id x

/-- ST, which writes scratch and then moves on, changes its hub twice. -/
theorem State.hubOnly_setHub_hubNext (s : State) (h : Nat) (x : Hub) : HubOnly h s ((s.setHub h x).hubNext h) :=
  (s.hubOnly_setHub h x).setHub (fun hs => State.rising_setHub hs h x) _

end

/-- Each instruction on registers, scratch and the program counter is `hubExec` with an effect on its hub only. -/
theorem exec_of_hubLocalOp {i : Instr} {h : HubId} {opc : Nat} (hi : hubLocalOp i = some (h, opc)) (s : State) :
    ∃ f : HubInstr → State, exec i s = hubExec h opc s f ∧ ∀ d, HubOnly h s (f d) := by
  unfold hubLocalOp at hi
  split at hi <;> cases hi
  all_goals try exact ⟨_, rfl, fun d => s.hubOnly_setHub h _⟩
  · exact ⟨_, rfl, fun d => s.hubOnly_setHub_hubNext h _⟩
  · refine ⟨_, rfl, fun d => ?_⟩
    dsimp only
    split_ifs
    · exact s.hubOnly_setHub h _
    · exact s.hubOnly_setHub h _

/-- Settles O21: the effect of each such instruction is on its hub, and without the instruction there is none. -/
theorem hubInstructionFrame : Obligations.HubInstructionFrame := by
  intro i h opc s hi
  obtain ⟨f, he, hf⟩ := exec_of_hubLocalOp hi s
  exact ⟨fun d hd ho => ⟨f d, he.trans (hubExec_of_issues hd ho f), hf d⟩, fun hF => he.trans (hubExec_of_no_fetch hF f)⟩

end Sys2Proof.Machine
end

section
/-! PROOFS. What hub instructions on registers, scratch, branches, calls and ends answer (R243, R257, R263, R264), the return from an
interrupt handler (R277, R409, R410), and the obligation about them. -/

namespace Sys2Proof.Machine

variable {s : State} {h : HubId} {i : HubInstr}

/-! ## Hub instructions that are next -/

section
variable (hi : s.hubIssues h i)
include hi

/-- BR where its condition holds, to a target that there is (R263). -/
theorem exec_hubBr_of_holds (ho : i.opc = 0x10) (hc : condHolds (i.aux % 8) ((s.hub h).reg i.ra) ((s.hub h).reg i.rb) = some true)
    {t : Nat} (ht : s.target h i = some t) : exec (.hubBr h) s = .next (s.setHub h { s.hub h with pc := t }) := by
  refine (hubExec_of_issues hi ho _).trans ?_
  dsimp only
  rw [if_pos hc, ht, Option.getD_some]

theorem exec_hubBr_of_not (ho : i.opc = 0x10) (hc : condHolds (i.aux % 8) ((s.hub h).reg i.ra) ((s.hub h).reg i.rb) = some false) :
    exec (.hubBr h) s = .next (s.hubNext h) := by
  refine (hubExec_of_issues hi ho _).trans (congrArg _ (if_neg ?_))
  rw [hc]
  decide

/-- CALL to a target that there is (R263). -/
theorem exec_call_of_target (ho : i.opc = 0x11) {t : Nat} (ht : s.target h i = some t) :
    exec (.call h) s = .next (s.setHub h { (s.hub h).setReg 31 (BitVec.ofNat 64 ((s.hub h).pc + 1)) with pc := t }) := by
  refine (hubExec_of_issues hi ho _).trans ?_
  dsimp only
  rw [ht, Option.getD_some]

end

/-! ## IRET (R277, R409, R410) -/

/-- The hub as the return to level 0 leaves it: the saved program counter and wait, and the interrupt bank switched out. -/
def Hub.leaveHandler (x : Hub) (pc : Nat) (w : Option HubWait) : Hub := ({ x with stack := [], pc := pc, wait := w } : Hub).swapBank

section
variable (hi : s.hubIssues h i) (ho : i.opc = 0x15) {src pc : Nat} {w : Option HubWait} (hx : (s.hub h).stack = [(src, pc, w)])
include hi ho hx

/-- IRET at level 1 on a hub that interrupted no command. -/
theorem exec_iret_of_idle (hc : (s.hub h).cur = none) :
    exec (.iret h) s = .next ((s.setHub h ((s.hub h).leaveHandler pc w)).writeCpl h src) := by
  refine (hubExec_of_issues hi ho _).trans ?_
  simp only [hx, hc, List.isEmpty_nil, if_true, Hub.leaveHandler]

/-- IRET at level 1 on a hub that interrupted command `n`. -/
theorem exec_iret_of_cmd {n : Nat} (hc : (s.hub h).cur = some n) : let u := (s.setHub h ((s.hub h).leaveHandler pc w)).writeCpl h src
    exec (.iret h) s = .next (u.modCmd n fun c => c.exclude (s.hub h).irqSince u.work) := by
  refine (hubExec_of_issues hi ho _).trans ?_
  simp only [hx, hc, List.isEmpty_nil, if_true, Hub.leaveHandler]

end

/-! ## The obligation -/

/-- Settles O15: each instruction by its effect where it is next. -/
theorem hubRegisterAndControlInstructions : Obligations.HubRegisterAndControlInstructions := by
  constructor
  · intro h s i hi x a b ext
    exact ⟨fun ho => hubExec_of_issues hi ho _, fun ho => hubExec_of_issues hi ho _, fun ho => hubExec_of_issues hi ho _,
      fun ho => hubExec_of_issues hi ho _, fun ho => hubExec_of_issues hi ho _, fun ho => hubExec_of_issues hi ho _,
      fun ho => hubExec_of_issues hi ho _, fun ho => hubExec_of_issues hi ho _, fun ho => hubExec_of_issues hi ho _,
      fun ho => hubExec_of_issues hi ho _, fun ho => hubExec_of_issues hi ho _, fun ho => hubExec_of_issues hi ho _,
      fun ho => hubExec_of_issues hi ho _, fun ho => hubExec_of_issues hi ho _, Hub.setReg_zero⟩
  · intro h s i hi x a b
    refine ⟨fun ho => hubExec_of_issues hi ho _, fun ho hc t ht => exec_hubBr_of_holds hi ho hc ht,
      fun ho hc => exec_hubBr_of_not hi ho hc, fun ho t ht => exec_call_of_target hi ho ht, fun ho => hubExec_of_issues hi ho _,
      fun n c hc => ⟨fun ho => hubCmdExec_of_issues hi ho hc _, fun ho => hubCmdExec_of_issues hi ho hc _⟩, ?iret⟩
    case iret =>
      intro src pc w ho hx
      exact ⟨fun hc => exec_iret_of_idle hi ho hx hc, fun n hc => exec_iret_of_cmd hi ho hx hc⟩

end Sys2Proof.Machine
end

section
/-! PROOFS. Waits, events, NOTIFY, END and illegal instructions of a hub (R264, R266, R272, R275, R276), the ends of waits (R265, R309),
and the obligation about them. -/

namespace Sys2Proof.Machine

variable {s : State} {h : HubId} {n : Nat} {c : Cmd}

/-! ## Instructions of a hub with a command -/

section
variable {i : HubInstr} (hi : s.hubIssues h i) (hc : s.curCmd h = some (n, c))
include hi hc

/-- A hub with a command acts on that command's partition. -/
theorem hubPartExec_of_issues {opc : Nat} (ho : i.opc = opc) (f : HubInstr → Nat → State) : hubPartExec h opc s f = .next (f i c.part) := by
  simp only [hubPartExec, hubExec_of_issues hi ho, State.hubPart, hc]

/-- EVWAIT that tests once (R276). -/
theorem exec_evwait_of_zero (ho : i.opc = 0x43) (hz : i.imm = 0) : exec (.evwait h) s = .next (s.hubWith h i.rd (BitVec.ofNat 64
    (if s.eventMet c.part (((s.hub h).reg i.ra).toNat % 256) (((s.hub h).reg i.rb).toNat % 2 ^ 32) then 0 else 1))) :=
  (hubPartExec_of_issues hi hc ho _).trans (congrArg _ (if_pos hz))

/-- EVWAIT that waits (R276). -/
theorem exec_evwait_of_ne_zero (ho : i.opc = 0x43) (hz : i.imm ≠ 0) : exec (.evwait h) s = .next (s.enterWait h
    (.event (((s.hub h).reg i.ra).toNat % 256) (((s.hub h).reg i.rb).toNat % 2 ^ 32)) i.rd (timeAdd s.time (i.imm * 1000))) :=
  (hubPartExec_of_issues hi hc ho _).trans (congrArg _ (if_neg hz))

/-- END of a command whose handles have their outcomes (R273). -/
theorem exec_hubEnd_of_settled (ho : i.opc = 0x13) (hset : c.settled = true) : exec (.hubEnd h) s = .next (s.endCommand h n) :=
  (hubCmdExec_of_issues hi ho hc _).trans (congrArg _ (if_pos hset))

/-- END that waits for handles (R273). -/
theorem exec_hubEnd_of_unsettled (ho : i.opc = 0x13) (hset : c.settled = false) :
    exec (.hubEnd h) s = .next (s.enterWait h .finish 0 timeNone) :=
  (hubCmdExec_of_issues hi ho hc _).trans (congrArg _ (if_neg (Bool.eq_false_iff.1 hset)))

end

/-! ## Illegal instructions (R266) -/

theorem exec_illegalInstruction_of_cmd (hl : s.live = true) (hr : s.hubRuns h = true) (hi : s.illegal h = true)
    (hc : (s.hub h).cur = some n) : exec (.illegalInstruction h) s = .next (s.abortCmd n eAborted (detailAt 0xFE (s.hub h).pc)) := by
  have hgo : (s.live && s.hubRuns h && s.illegal h) = true := by rw [hl, hr, hi]; rfl
  show execIllegalInstruction h s = _
  simp only [execIllegalInstruction, if_pos hgo, hc]

/-! ## Waits that end (R265, R276) -/

section
variable {w : HubWait}

/-- A command that leaves a wait other than END's goes on, the word in RD. -/
theorem State.leaveWait_of_not_finish (hk : w.kind ≠ .finish) (word : Nat) (met : Bool) :
    let c' := c.exclude (c.waitSpan w s.work).1 (c.waitSpan w s.work).2
    s.leaveWait h n c w word met = (s.setCmd n (if met then c'.afterWait w else c')).setHub h
      (({ s.hub h with wait := none } : Hub).setReg w.rd (BitVec.ofNat 64 word)) :=
  if_neg hk

/-- A command that leaves END's wait ends. -/
theorem State.leaveWait_of_finish (hk : w.kind = .finish) (word : Nat) :
    s.leaveWait h n c w word true = (s.setCmd n ((c.exclude (c.waitSpan w s.work).1 (c.waitSpan w s.work).2).afterWait w)).endCommand h n :=
  if_pos hk

variable (hl : s.live = true) (hc : s.curCmd h = some (n, c)) (hw : (s.hub h).wait = some w)
include hl hc hw

/-- A wait of the running command that was met no later than its limit. -/
theorem exec_handleWaitDone_of_inTime (ht : w.inTime = true) :
    exec (.handleWaitDone h none) s = .next (s.leaveWait h n c w (c.waitWord w) true) := by
  show execHandleWaitDone h none s = _
  simp only [execHandleWaitDone, State.ifLive_of_live hl, hc, hw, if_pos ht]

/-- A wait of the running command whose limit ran out before it was met. -/
theorem exec_handleWaitTimeout_of_late (ht : w.inTime = false) (hlim : w.limit ≠ timeNone) (hlate : w.limit ≤ s.time) :
    exec (.handleWaitTimeout h none) s = .next (s.leaveWait h n c w w.timeoutWord false) := by
  have hgo : w.limit ≠ timeNone ∧ w.limit ≤ s.time ∧ w.inTime = false := ⟨hlim, hlate, ht⟩
  show execHandleWaitTimeout h none s = _
  simp only [execHandleWaitTimeout, State.ifLive_of_live hl, hc, hw, if_pos hgo]

end

/-! ## The obligation -/

/-- Settles O16: each instruction by its effect where it is next, the illegal one and the ends of waits by their own lemmas. -/
theorem hubWaitsAndEvents : Obligations.HubWaitsAndEvents := by
  intro h s n c hl hc x
  refine ⟨fun i hi => ?issues, fun hr hill => ?illegal, fun w hw => ?ends⟩
  case issues =>
    exact ⟨fun ho => hubCmdExec_of_issues hi ho hc _, fun ho => hubCmdExec_of_issues hi ho hc _, fun ho => hubCmdExec_of_issues hi ho hc _,
      fun ho => hubPartExec_of_issues hi hc ho _, fun ho hz => exec_evwait_of_zero hi hc ho hz,
      fun ho hz => exec_evwait_of_ne_zero hi hc ho hz, fun ho => hubPartExec_of_issues hi hc ho _,
      fun ho hset => exec_hubEnd_of_settled hi hc ho hset, fun ho hset => exec_hubEnd_of_unsettled hi hc ho hset⟩
  case illegal => exact exec_illegalInstruction_of_cmd hl hr hill (State.curCmd_eq_some.1 hc).1
  case ends =>
    exact ⟨fun ht hk => (exec_handleWaitDone_of_inTime hl hc hw ht).trans (congrArg _ (State.leaveWait_of_not_finish hk _ true)),
      fun ht hk => (exec_handleWaitDone_of_inTime hl hc hw ht).trans (congrArg _ (State.leaveWait_of_finish hk _)),
      fun ht hlim hlate hk =>
        (exec_handleWaitTimeout_of_late hl hc hw ht hlim hlate).trans (congrArg _ (State.leaveWait_of_not_finish hk _ false))⟩

end Sys2Proof.Machine
end

section
/-! PROOFS. Doorbells (R247, R248), the acceptance of commands (R249 to R255), their readiness (R259, R303), and the obligation about them. -/

namespace Sys2Proof.Machine

variable {s : State}

/-! ## Doorbells (R247, R248) -/

theorem exec_doorbell {f : FnId} (hf : s.hears f.val) (hm : s.mainUp = true) (q : QueueId) (tail : Word32) :
    exec (.doorbell f q tail) s = .next (if ownFn f.val (qPart q.val) then s.ring q.val tail.toNat else s.deny f.val) :=
  (State.ifHost_of_hears hf ..).trans (congrArg _ (if_neg (ne_false_of_eq_true hm)))

section
variable {q tail : Nat}

theorem State.ring_of_fits (hsize : posDiff tail (s.queue q).head ≤ s.qSize q) (hback : posDiff tail (s.queue q).tail < 2 ^ 31) :
    s.ring q tail = s.setQueue q { s.queue q with tail := tail } :=
  if_neg (not_or.2 ⟨Nat.not_lt.2 hsize, Nat.not_le.2 hback⟩)

theorem State.ring_of_not (h : s.qSize q < posDiff tail (s.queue q).head ∨ 2 ^ 31 ≤ posDiff tail (s.queue q).tail) :
    s.ring q tail = ((s.count F.Q_STATE.DB_IGNORED q 1).put F.Q_STATE.DB_ERR q true).raise (88 + qPart q) :=
  if_pos h

end

/-! ## Acceptance (R249 to R255) -/

/-- The journal entry that records command `n` with header `h` of queue `q` as it is accepted or refused. -/
def State.acceptEntry (s : State) (q n pos : Nat) (h : Header) (code : Nat) (st : JState) (status : Nat) : JEntry :=
  ⟨h.kind % 2, h.link, s.qClass q, 1, st, n, pos, code, status, qPart q, q, 0, 0, h.cookie⟩

/-- The queue past a command with header `h` that has been read. -/
def Queue.past (x : Queue) (h : Header) : Queue := { x with accept := (x.accept + 1 + h.nslot) % 2 ^ 32, linkPrev := h.link }

section
variable {q : QueueId} {u : State} {n : Nat} (hl : s.live = true) (ha : s.accepts q.val = true)
  (hlink : (s.queue q.val).linkPrev = false) (hseq : s.takeSeq = (u, n))
include hl ha hlink hseq

/-- A command that follows no LINK = 1 command: refused with the code of the first failed check, or a task of its own. -/
theorem exec_commandAccept_of_unlinked :
    let x := s.queue q.val
    let b := s.ringSlot q.val x.accept
    let h := Header.parse b
    let code := headerCheck b false
    let v := u.setCmd n (Cmd.new q.val x.accept (h.safe code) u.time n)
    let w := ((v.setQueue q.val (x.past h)).jput n (u.acceptEntry q.val n x.accept h code .refused stRefused)).finish n .refused stRefused code 0
    exec (.commandAccept q) s = .next (
      if code ≠ 0 then w.setQueue q.val { w.queue q.val with doomed := h.link }
      else (((v.jset n (u.acceptEntry q.val n x.accept h code .accepted 0)).setTask n ⟨q.val, [n], [], 0, [], [], none⟩).setQueue q.val
        { x.past h with taskSeq := n, taskOpen := true, doomed := false }).moveHead q.val) := by
  intro x b h code v w
  have hopen : ¬(x.doomed && x.linkPrev) = true := by rw [hlink, Bool.and_false]; decide
  show execCommandAccept q s = _
  rw [execCommandAccept, State.ifLive_of_live hl]
  refine congrArg _ ((if_neg (ne_false_of_eq_true ha)).trans ?_)
  -- The number taken stands in the term before its parts are named: nothing then evaluates the search for a free one.
  rw [hseq]
  dsimp -zeta only
  extract_lets code₁ inTask task v' e x' _ w' _ z _ z'
  have hcode : code₁ = code := congrArg (headerCheck b) hlink
  have hin : inTask = false := by rw [show inTask = (x.linkPrev && !x.doomed) from rfl, hlink, Bool.false_and]
  clear_value inTask code₁
  subst hin hcode
  by_cases hc : code = 0
  · have he : e = u.acceptEntry q.val n x.accept h code .accepted 0 := by simp only [e, if_pos hc]; rfl
    have hz' : z' = (v'.jset n e).setTask n ⟨q.val, [n], [], 0, [], [], none⟩ := by
      simp only [z']
      refine congrArg (State.setTask z task) ?_
      cases z.task task <;> rfl
    rw [if_neg (not_not.2 hc), if_neg (not_not.2 hc), if_neg hopen, hz', he]
    rfl
  · have he : e = u.acceptEntry q.val n x.accept h code .refused stRefused := by simp only [e, if_neg hc]; rfl
    have hw' : w' = w := by simp only [w', he]; rfl
    rw [if_pos hc, if_pos hc, if_neg Bool.false_ne_true]
    exact congrArg (fun t : State => t.setQueue q.val { t.queue q.val with doomed := h.link }) hw'

end

/-! ## Readiness (R259, R303) -/

/-- COMMAND_READY of a queue with a ready command, in no deque and continued by no hub, its ready time not yet recorded. -/
theorem exec_commandReady_of_new {q : QueueId} {n : Nat} {c : Cmd} {h : Nat} (hl : s.live = true) (hr : s.readyCmd q.val = some (n, c))
    (hd : (s.queue q.val).inDeque = false) (hcont : ∀ g < 8, (s.hub g).cont ≠ some q.val) (hn : (s.queue q.val).readySeq ≠ n)
    (hh : s.homeHub q.val = some h) (hu : s.dropUnserved q.val = s) :
    exec (.commandReady q) s = .next ((s.setQueue q.val { s.queue q.val with
      readySeq := n, readyTime := s.time, adrift := false, home := (s.homeOf q.val).getD (s.queue q.val).home, inDeque := true }).setHub h
        ((s.hub h).setDeque (s.qClass q.val) ((s.hub h).deque (s.qClass q.val) ++ [q.val]))) := by
  have hfree : ((s.queue q.val).inDeque || (List.range 8).any fun g => (s.hub g).cont == some q.val) = false := by
    rw [hd, Bool.false_or, List.any_eq_false]
    exact fun g hg => by simpa using hcont g (List.mem_range.1 hg)
  show execCommandReady q s = _
  rw [execCommandReady, State.ifLive_of_live hl]
  simp only [hr, hu, hfree, Bool.false_eq_true, if_false, if_neg hn, hh, Option.some_or]

/-! ## The obligation -/

/-- Settles O25: a doorbell by what it finds, acceptance and readiness by their own lemmas. -/
theorem commandsAreSubmitted : Obligations.CommandsAreSubmitted := by
  refine ⟨fun f q tail s hf hm => ⟨fun how hsize hback => ?stored, fun how h => ?ignored, fun how => ?denied⟩,
    fun q s u n hl ha hlink hseq => ⟨fun hcode => ?accepted, fun hcode => ?refused⟩,
    fun q s n c h hl hr hd hcont hn hh hu => exec_commandReady_of_new hl hr hd hcont hn hh hu⟩
  case stored => rw [exec_doorbell hf hm, if_pos how, State.ring_of_fits hsize hback]
  case ignored => rw [exec_doorbell hf hm, if_pos how, State.ring_of_not h]
  case denied =>
    rw [exec_doorbell hf hm, if_neg (Bool.eq_false_iff.1 how)]
    rfl
  case accepted =>
    refine (exec_commandAccept_of_unlinked hl ha hlink hseq).trans (congrArg _ ((if_neg (not_not.2 hcode)).trans ?_))
    rw [hcode]
    rfl
  case refused => exact (exec_commandAccept_of_unlinked hl ha hlink hseq).trans (congrArg _ (if_pos hcode))

end Sys2Proof.Machine
end

section
/-! PROOFS. Queues and hubs that are enabled, disabled, cancelled, stopped and cleared (R244, R246, R285, R286, R298, R475), and the
obligation about them. -/

namespace Sys2Proof.Machine

variable {s : State}

/-! ## Requests of the host (R275, R287, R298) -/

section
variable {f : FnId} (hf : s.hears f.val)
include hf

theorem exec_queueEnable (q : QueueId) :
    exec (.queueEnable f q) s = .next (if ownFn f.val (qPart q.val) then s.askEnable q.val else s.deny f) :=
  State.ifHost_of_hears hf ..

theorem exec_queueDisable (q : QueueId) :
    exec (.queueDisable f q) s = .next (if ownFn f.val (qPart q.val) then s.askDisable q.val else s.deny f) :=
  State.ifHost_of_hears hf ..

theorem exec_queueCancel (q : QueueId) :
    exec (.queueCancel f q) s = .next (if ownFn f.val (qPart q.val) then s.cancelQueue q.val else s.deny f) :=
  State.ifHost_of_hears hf ..

theorem exec_hubEventAdd (p : PartId) (e : EventId) (v : Word32) :
    exec (.hubEventAdd f p e v) s = .next (if ownFn f.val p.val then s.eventAdd p.val e.val v.toNat else s.deny f) :=
  State.ifHost_of_hears hf ..

theorem exec_hubDisable (h : HubId) : exec (.hubDisable f h) s = .next (if isPF f.val then s.askHubOff h.val else s.deny f) :=
  State.ifHost_of_hears hf ..

theorem exec_hubEnable (h : HubId) : exec (.hubEnable f h) s = .next (if isPF f.val then s.askHubOn h.val else s.deny f) :=
  State.ifHost_of_hears hf ..

end

/-! ## Queues by their state (R246, R285, R286) -/

section
variable {q : Nat}

theorem State.askEnable_of_ringOk (hs : s.rd F.Q_STATE.STATE q = 0) (hr : s.ringOk q = true) :
    s.askEnable q = s.wr F.Q_STATE.STATE q 1 := by
  simp only [State.askEnable, hs, State.enableQueue, if_pos hr]

theorem State.askEnable_of_ringBad (hs : s.rd F.Q_STATE.STATE q = 0) (hr : s.ringOk q = false) :
    s.askEnable q = (s.put F.Q_STATE.CFG_ERR q true).raise (88 + qPart q) := by
  simp only [State.askEnable, hs, State.enableQueue, if_neg (Bool.eq_false_iff.1 hr)]

theorem State.askEnable_of_stopping (hs : s.rd F.Q_STATE.STATE q = 2) :
    s.askEnable q = (s.put F.Q_STATE.ENABLE_PEND q true).setQueue q { s.queue q with pendAt := s.time } := by
  simp only [State.askEnable, hs]

theorem State.askDisable_of_enabled (hs : s.rd F.Q_STATE.STATE q = 1) : s.askDisable q = s.wr F.Q_STATE.STATE q 2 := by
  simp only [State.askDisable, hs]

theorem State.askDisable_of_stopping (hs : s.rd F.Q_STATE.STATE q = 2) : s.askDisable q = s.put F.Q_STATE.ENABLE_PEND q false := by
  simp only [State.askDisable, hs]

theorem State.cancelQueue_of_disabled (hs : s.rd F.Q_STATE.STATE q = 0) : s.cancelQueue q = s := by
  simp only [State.cancelQueue, hs]

theorem State.cancelQueue_of_not_disabled (hs : s.rd F.Q_STATE.STATE q ≠ 0) : s.cancelQueue q =
    ((s.put F.Q_STATE.ENABLE_PEND q false).wr F.Q_STATE.STATE q 2).abortQueue q eAborted 0xFF := by
  unfold State.cancelQueue
  split
  next h => exact absurd h hs
  next => rfl

end

/-! ## A queue that has stopped (R285, R286) -/

/-- Leaving the deques changes hubs only. -/
theorem State.undeque_eq (s : State) (q : Nat) : ∃ hubs, s.undeque q = { s with ctl := { s.ctl with hubs := hubs } } := by
  unfold State.undeque
  generalize List.range 8 = hs
  induction hs generalizing s with
  | nil => exact ⟨s.ctl.hubs, rfl⟩
  | cons h hs ih => exact ih (s.setHub h _)

/-- The context of a queue that has stopped: its positions alone. -/
def Queue.stopped (x : Queue) : Queue := { Queue.clear with accept := x.accept, head := x.head, tail := x.tail }

/-- The state after a queue has stopped. -/
def State.queueStopped (s : State) (q : Nat) : State := ((s.setQueue q (s.queue q).stopped).undeque q).wr F.Q_STATE.STATE q 0

theorem State.rd_queueStopped (hr : Tab.rising s.regs = true) (q : Nat) : (s.queueStopped q).rd F.Q_STATE.STATE q = 0 ∧
    (s.queueStopped q).rd F.Q_STATE.ENABLE_PEND q = s.rd F.Q_STATE.ENABLE_PEND q := by
  obtain ⟨hubs, hu⟩ := (s.setQueue q (s.queue q).stopped).undeque_eq q
  rw [State.queueStopped, hu]
  exact ⟨State.rd_wr_same hr (by decide) q 0, State.rd_wr_apart hr (by decide) (by decide) q 0⟩

theorem State.queue_queueStopped (hq : Tab.rising s.ctl.queues = true) (q : Nat) : (s.queueStopped q).queue q = (s.queue q).stopped := by
  obtain ⟨hubs, hu⟩ := (s.setQueue q (s.queue q).stopped).undeque_eq q
  rw [State.queueStopped, hu]
  exact State.queue_setQueue_same s hq q _

/-- QUEUE_STOP_DONE of a STOPPING queue with no command left and no ENABLE that waits. -/
theorem exec_queueStopDone_of_idle {q : QueueId} (hl : s.live = true) (hs : s.rd F.Q_STATE.STATE q.val = 2)
    (hc : ∀ e ∈ s.ctl.cmds, e.2.queue ≠ q.val) (hp : s.rd F.Q_STATE.ENABLE_PEND q.val = 0) (hr : Tab.rising s.regs = true) :
    exec (.queueStopDone q) s = .next (s.queueStopped q.val) := by
  have hidle : s.rd F.Q_STATE.STATE q.val = 2 ∧ (s.queueCmds q.val).isEmpty := by
    refine ⟨hs, List.isEmpty_iff.2 (List.filter_eq_nil_iff.2 fun e he => ?_)⟩
    simpa using hc e he
  have hpend : ¬(s.queueStopped q.val).on F.Q_STATE.ENABLE_PEND q.val = true := by
    rw [State.on_iff rfl, (State.rd_queueStopped hr _).2, hp]
    decide
  show execQueueStopDone q s = _
  rw [execQueueStopDone, State.ifLive_of_live hl]
  exact congrArg _ ((if_pos hidle).trans (if_neg hpend))

/-! ## Hubs by their state (R298, R481) -/

section
variable {h : Nat} (hh : s.hubHeld h = false)
include hh

theorem State.askHubOff_of_online (hs : s.rd F.HUB_CTRL.STATE h = 1) : s.askHubOff h = s.stopHub h := by
  simp only [State.askHubOff, hh, hs, Bool.false_eq_true, if_false]

theorem State.askHubOn_of_offline (hs : s.rd F.HUB_CTRL.STATE h = 0) : s.askHubOn h = s.startHub h := by
  simp only [State.askHubOn, hh, hs, Bool.false_eq_true, if_false]

theorem State.askHubOn_of_stopping (hs : s.rd F.HUB_CTRL.STATE h = 2) :
    s.askHubOn h = (s.put F.HUB_CTRL.ENABLE_PEND h true).setHub h { s.hub h with pendAt := s.time } := by
  simp only [State.askHubOn, hh, hs, Bool.false_eq_true, if_false]

end

/-! ## A hub that clears itself (R244, R298, R475) -/

theorem RegKind.key_ne_of_ne {k k' : RegKind} (h : k' ≠ k) (i i' : Nat) : k'.key i' ≠ k.key i := fun he =>
  h (RegKind.code_injective (by rw [← k'.key_mod i', he, k.key_mod]))

/-- Writing a field leaves every other register. -/
theorem State.rd_wr_other (hr : Tab.rising s.regs = true) {f g : Fld} (h : g.kind ≠ f.kind) (i j v : Nat) :
    (s.wr f i v).rd g j = s.rd g j := by
  rw [State.rd, State.rd, State.wr, State.reg_setReg_other s hr (RegKind.key_ne_of_ne h _ _)]

/-- Clearing bits of one register leaves every other. -/
theorem State.rd_foldl_putBit {α : Type} (hr : Tab.rising s.regs = true) {f g : Fld} (h : g.kind ≠ f.kind) (l : List α) (n : α → Nat)
    (j : Nat) : let u := l.foldl (fun s a => s.putBit f (n a) false) s
    Tab.rising u.regs = true ∧ u.rd g j = s.rd g j := by
  induction l generalizing s with
  | nil => exact ⟨hr, rfl⟩
  | cons a l ih =>
    obtain ⟨hrise, hrd⟩ := ih (State.rising_wr hr f (n a / 32) _)
    exact ⟨hrise, hrd.trans (State.rd_wr_other hr h ..)⟩

/-- A hub that clears itself leaves every register but the active sources. -/
theorem State.rd_clearHub (hr : Tab.rising s.regs = true) {g : Fld} (hg : g.kind ≠ F.INTC_ACTIVE.BITS.kind) (h j : Nat) :
    Tab.rising (s.clearHub h).regs = true ∧ (s.clearHub h).rd g j = s.rd g j := by
  unfold State.clearHub
  extract_lets x v clear u gone w intc
  have hfold := State.rd_foldl_putBit (s := u) hr hg gone (fun a => a.2.1) j
  exact hfold

/-- HUB_OFFLINE_DONE of a STOPPING hub that runs and parks nothing, is in no handler and has no ENABLE that waits. -/
theorem exec_hubOfflineDone_of_idle {h : HubId} (hl : s.live = true) (hs : s.rd F.HUB_CTRL.STATE h.val = 2) (hc : (s.hub h.val).cur = none)
    (hk : (s.hub h.val).park = []) (hst : (s.hub h.val).stack = []) (hp : s.rd F.HUB_CTRL.ENABLE_PEND h.val = 0)
    (hr : Tab.rising s.regs = true) : exec (.hubOfflineDone h) s = .next ((s.clearHub h.val).wr F.HUB_CTRL.STATE h.val 0) := by
  have hidle : s.rd F.HUB_CTRL.STATE h.val = 2 ∧ (s.hub h.val).cur.isNone ∧ (s.hub h.val).park.isEmpty ∧ (s.hub h.val).stack.isEmpty := by
    simp [hs, hc, hk, hst]
  have hpend : ¬((s.clearHub h.val).wr F.HUB_CTRL.STATE h.val 0).on F.HUB_CTRL.ENABLE_PEND h.val = true := by
    obtain ⟨hrise, hrd⟩ := State.rd_clearHub hr (g := F.HUB_CTRL.ENABLE_PEND) (by decide) h.val h.val
    rw [State.on_iff rfl, State.rd_wr_apart hrise (by decide) (by decide), hrd, hp]
    decide
  show execHubOfflineDone h s = _
  rw [execHubOfflineDone, State.ifLive_of_live hl]
  exact congrArg _ ((if_pos hidle).trans (if_neg hpend))

/-- The times of a hub's parity failures within the hour, this one first (R475). -/
def State.hubFails (s : State) (h : Nat) : List Nat := s.time :: (s.hub h).fails.filter fun t => decide (s.time - t ≤ 3600000000000)

/-- A hub after a parity failure: its commands' tasks aborted, itself clear, the failure counted and remembered (R474, R475). -/
def State.hubFailed (s : State) (h : Nat) : State :=
  let u := ((((s.hub h).cur.toList ++ (s.hub h).park.map (·.seq)).foldl (fun s n => s.abortCmd n eParity 0) s).clearHub h).fault 3
  u.setHub h { u.hub h with fails := s.hubFails h }

theorem exec_hubParityFail (hl : s.live = true) (h : HubId) : exec (.hubParityFail h) s = .next (
    if 3 ≤ (s.hubFails h.val).length ∧ (s.hubFailed h.val).rd F.HUB_CTRL.STATE h.val = 1 then (s.hubFailed h.val).stopHub h.val
    else s.hubFailed h.val) :=
  State.ifLive_of_live hl

/-! ## The obligation -/

/-- Settles O28: each request of the host by its gate and the state of its queue or hub, each event by its own lemma. -/
theorem queuesAndHubsTurnOnAndOff : Obligations.QueuesAndHubsTurnOnAndOff := by
  refine ⟨⟨fun f q s hf how => ⟨fun hs => ⟨fun hr => ?enable, fun hr => ?cfgErr⟩, fun hs => ?pend, fun hs => ?disable, fun hs => ?unpend,
      fun hs => ?cancel, fun hs => ?cancelNone⟩, fun q s hl hs hc hp hr hq => ?stopped, fun f p e v s hf how => ?event⟩,
    fun f h s hf => ⟨fun h0 hh => ⟨fun hs => ?hubOff, fun hs => ?hubOn, fun hs => ?hubPend⟩, fun h0 => ⟨?offDenied, ?onDenied⟩⟩,
    fun h s hl hs hc hk hst hp hr => exec_hubOfflineDone_of_idle hl hs hc hk hst hp hr, fun h s hl => ⟨?fails, ?third⟩⟩
  case enable => rw [exec_queueEnable hf, if_pos how, State.askEnable_of_ringOk hs hr]
  case cfgErr => rw [exec_queueEnable hf, if_pos how, State.askEnable_of_ringBad hs hr]
  case pend => rw [exec_queueEnable hf, if_pos how, State.askEnable_of_stopping hs]
  case disable => rw [exec_queueDisable hf, if_pos how, State.askDisable_of_enabled hs]
  case unpend => rw [exec_queueDisable hf, if_pos how, State.askDisable_of_stopping hs]
  case cancel => rw [exec_queueCancel hf, if_pos how, State.cancelQueue_of_not_disabled hs]
  case cancelNone => rw [exec_queueCancel hf, if_pos how, State.cancelQueue_of_disabled hs]
  case stopped => exact ⟨exec_queueStopDone_of_idle hl hs hc hp hr, (State.rd_queueStopped hr _).1, State.queue_queueStopped hq _⟩
  case event => rw [exec_hubEventAdd hf, if_pos how]
  case hubOff => rw [exec_hubDisable hf, if_pos (isPF_iff.2 h0), State.askHubOff_of_online hh hs]
  case hubOn =>
    rw [exec_hubEnable hf, if_pos (isPF_iff.2 h0), State.askHubOn_of_offline hh hs]
    rfl
  case hubPend => rw [exec_hubEnable hf, if_pos (isPF_iff.2 h0), State.askHubOn_of_stopping hh hs]
  case offDenied => rw [exec_hubDisable hf, if_neg (mt isPF_iff.1 h0)]
  case onDenied => rw [exec_hubEnable hf, if_neg (mt isPF_iff.1 h0)]
  case fails => exact fun hn => (exec_hubParityFail hl h).trans (congrArg _ (if_neg fun hgo => absurd hgo.1 (Nat.not_le.2 hn)))
  case third => exact fun hn hs => (exec_hubParityFail hl h).trans (congrArg _ (if_pos ⟨hn, hs⟩))

end Sys2Proof.Machine
end

section
/-! PROOFS. Sampling of a step's sequences (R327, R338), the drain of a step (R319, R329 to R332), the records of a batch (R281, R345), and
the obligation about them. -/

namespace Sys2Proof.Machine

variable {s : State} {b : BatchId}

/-! ## SAMPLE_SEQUENCE (R327, R338) -/

@[simp] theorem State.srv_engServe (s : State) (e : Nat) (q : EngReq) : (s.engServe e q).srv = s.srv := by
  unfold State.engServe
  dsimp only
  split_ifs <;> rfl

/-- A waiting sampled participant whose logits are complete can be sampled. -/
theorem Step.samples_of_waiting {x : Step} {row : Nat} {q : Participant} (hq : x.sampledOrder[row]? = some q) (hw : q.got = .waiting)
    (hedge : x.edge = true → row < x.tokens.length) (hran : x.edge = false → x.ran = true) : x.samples row = true := by
  have hlogits : (if x.edge then decide (row < x.tokens.length) else x.ran) = true := by
    cases he : x.edge with
    | false => exact hran he
    | true => exact decide_eq_true (hedge he)
  simp only [Step.samples, hq, Option.any_some, hw, beq_self_eq_true, Bool.true_and, hlogits]

/-- A participant that can be sampled, the sampler's engine being its to use, takes what its logits give. -/
theorem exec_sampleSequence_of_turn {row : Nat} {x : Step} {q : Participant} {y : Seq} (hl : s.live = true) (hx : s.step? b.val = some x)
    (hq : x.sampledOrder[row]? = some q) (hs : x.samples row = true) (hy : Tab.find s.srv.seqs (seqKey b.val q.slot) = some y)
    (ht : s.hasTurn (some (3, s.sampleReq x))) :
    let v := s.served (some (3, s.sampleReq x))
    let got := v.sample y (v.rd F.SRV_BATCH_CFG.VOCAB b.val) q.rows (v.logitOf b.val x row)
    let u : State := if x.edge then { v with fresh := v.fresh + v.rd F.SRV_BATCH_CFG.VOCAB b.val } else v
    exec (.sampleSequence b row) s = .next (u.setStep b.val { x with
      parts := x.parts.map fun r => if r.slot = q.slot then { r with got := got } else r }) := by
  intro v got u
  have hy' : Tab.find v.srv.seqs (seqKey b.val q.slot) = some y := (congrArg (fun r : Srv => Tab.find r.seqs _) (s.srv_engServe ..)).trans hy
  show execSampleSequence b row s = _
  rw [execSampleSequence, State.ifLive_of_live hl]
  simp only [hx, hq, hs, Bool.true_eq_false, if_false]
  refine congrArg _ ((State.atEngine_of_hasTurn ht _).trans ?_)
  simp only [v] at hy'
  simp only [hy']
  rfl

/-! ## STEP_DRAIN (R319, R329 to R332, R490) -/

/-- A drained step counted, and its measured time in the estimate of its band where it ran a row (R319). -/
def State.stepCounted (s : State) (b : Nat) (x : Step) : State :=
  let k := RegKind.idx .SRV_COST b (bandOf x.rows)
  let v := s.count F.SRV_STEP_CNT.STEPS b 1
  if x.rows = 0 then v else v.wrSat F.SRV_COST.STEP_NS k (ewma (v.rd F.SRV_COST.STEP_NS k) (v.time - x.tf))

/-- The step itself is not part of what its batch remembers. -/
theorem State.setBmem_dropStep (w : State) (b : Nat) : (w.dropStep b).setBmem b { w.bmem b with drainAt := some w.time } =
    (w.dropStep b).setBmem b { (w.dropStep b).bmem b with drainAt := some (w.dropStep b).time } := rfl

/-- A step whose phases are over and whose sampled participants are sampled drains. -/
theorem exec_stepDrain_of_sampled {u : State} {x : Step} {recs : List (List Byte)} {ends : List SeqEnd} {late : Nat} (hl : s.live = true)
    (hx : s.step? b.val = some x) (hran : x.ran = true) (hgot : ∀ q ∈ x.parts, q.samples = true → q.got ≠ .waiting)
    (hu : (s.stepCounted b.val x).drainAll b.val x x.parts = (u, recs, ends, late)) :
    let w := ((u.count F.SRV_STEP_CNT.LATE b.val late).trace 0x08 x.seq b.val late).dropStep b.val
    let w := w.setBmem b.val { w.bmem b.val with drainAt := some w.time }
    exec (.stepDrain b) s =
      .next ((if recs.isEmpty then w else w.pushGroup b.val recs ends).opEnd x.seq x.handle (okWord false)) := by
  have hgo : ¬(x.ran = false ∨ (x.parts.any fun q => q.samples && q.got == .waiting) = true) := by
    simp only [hran, Bool.true_eq_false, false_or, List.any_eq_true, Bool.and_eq_true, beq_iff_eq, not_exists]
    exact fun q ⟨hq, hs, hw⟩ => hgot q hq hs hw
  show execStepDrain b s = _
  rw [execStepDrain, State.ifLive_of_live hl]
  simp only [hx]
  refine congrArg _ ((if_neg hgo).trans ?_)
  simp only [State.stepCounted] at hu
  rw [hu]
  exact congrArg (fun w : State => (if recs.isEmpty then w else w.pushGroup b.val recs ends).opEnd x.seq x.handle (okWord false))
    (State.setBmem_dropStep ..)

/-! ## RECORD_WRITE (R281, R345, R404) -/

/-- What becomes of a batch's oldest waiting records: too many for the ring, kept from it by the bus, or written. -/
theorem exec_recordWrite_of_group {g : RecordGroup} (hl : s.live = true)
    (hg : (s.srv.groups.find? fun g => g.batch == b.val) = some g) : exec (.recordWrite b) s = .next (
    let p := s.rd F.SRV_BATCH_CFG.PART b.val
    if 2 ^ s.rd F.SRV_RING_CFG.SIZE_LOG2 b.val <
        posDiff (s.rd F.SRV_RING_POS.WRITE b.val) (s.rd F.SRV_RING_POS.READ b.val) + g.recs.length then
      if g.counted then s
      else (({ s with srv := { s.srv with groups := s.srv.groups.map fun h => if h = g then { h with counted := true } else h } } : State).count
        F.SRV_BATCH_STAT.OVERRUN b.val 1).raise (104 + b.val)
    else if s.on F.SRV_RING_CFG.LOC b.val = false ∧ s.busOk (p + 1) = false then s
    else
      let u := ({ s with srv := { s.srv with groups := s.srv.groups.erase g } } : State).putRecords b.val g.recs
      let u := u.wr F.SRV_RING_POS.WRITE b.val (u.rd F.SRV_RING_POS.WRITE b.val + g.recs.length)
      g.ends.foldl State.endRequest (u.requestVec (p + 1) (u.rd F.SRV_BATCH_CFG.VEC b.val))) := by
  show execRecordWrite b s = _
  rw [execRecordWrite, State.ifLive_of_live hl]
  simp only [hg]

/-- A ring in the main tier, or on a bus that its function may master, is not kept from its records. -/
theorem State.not_ringBlocked {p : Nat} (h : s.rd F.SRV_RING_CFG.LOC b.val = 1 ∨ s.busOk p = true) :
    ¬(s.on F.SRV_RING_CFG.LOC b.val = false ∧ s.busOk p = false) := by
  rintro ⟨hoff, hbus⟩
  rcases h with h | h
  · exact ne_false_of_eq_true ((State.on_iff rfl).2 h) hoff
  · exact ne_false_of_eq_true h hbus

/-! ## The obligation -/

/-- Settles O30: a sample, the drain and the writing of records by their own lemmas. -/
theorem stepsSampleDrainAndRecord : Obligations.StepsSampleDrainAndRecord := by
  refine ⟨fun b row s x q y hl hx hq hw hedge hran hy ht =>
      exec_sampleSequence_of_turn hl hx hq (Step.samples_of_waiting hq hw hedge hran) hy ht,
    fun b s u x recs ends late hl hx hran hgot hu => exec_stepDrain_of_sampled hl hx hran hgot hu,
    fun b s g hl hg => ⟨fun hroom hloc => ?written, fun hfull => ⟨fun hc => ?again, fun hc => ?overrun⟩⟩⟩
  case written =>
    exact (exec_recordWrite_of_group hl hg).trans (congrArg _ ((if_neg (Nat.not_lt.2 hroom)).trans (if_neg (State.not_ringBlocked hloc))))
  case again => exact (exec_recordWrite_of_group hl hg).trans (congrArg _ ((if_pos hfull).trans (if_pos hc)))
  case overrun =>
    exact (exec_recordWrite_of_group hl hg).trans (congrArg _ ((if_pos hfull).trans (if_neg (Bool.eq_false_iff.1 hc))))

end Sys2Proof.Machine
end

section
/-! PROOFS. The words of frames and of trailers (R350, R351), and the obligation about them. -/

namespace Sys2Proof

/-! ## Parity (R31, R350) -/

/-- The parity of one bit more. -/
theorem oddParity_add_bit {n w : Nat} (hw : w < 2 ^ n) (b : Nat) : oddParity (n + 1) (w + b * 2 ^ n) = (oddParity n w ^^ b % 2 == 1) := by
  induction n generalizing w with
  | zero =>
    obtain rfl : w = 0 := by omega
    simp [oddParity]
  | succ n ih =>
    have hsplit : w + b * 2 ^ (n + 1) = w + (b * 2 ^ n) * 2 := by ring
    have hhalf : w / 2 < 2 ^ n := by omega
    rw [hsplit, oddParity, Nat.add_mul_mod_self_right, Nat.add_mul_div_right _ _ two_pos, ih hhalf, oddParity, Bool.xor_assoc]

/-- A word with its parity bit on top has even parity. -/
theorem oddParity_with_parityBit {n w : Nat} (hw : w < 2 ^ n) : oddParity (n + 1) (w + parityBit n w * 2 ^ n) = false := by
  rw [oddParity_add_bit hw, parityBit]
  cases oddParity n w <;> rfl

/-- Fields that fit are held by the number they make up. -/
theorem holdsFields_packFields {fs : List (Nat × Nat)} (h : fieldsFit fs) : holdsFields (packFields fs) 0 fs := by
  have hlt := packFields_lt h
  rw [← Nat.div_one (packFields fs), ← pow_zero 2] at hlt
  exact (packFields_eq_iff hlt).1 ⟨h, by rw [pow_zero, Nat.div_one]⟩

end Sys2Proof

namespace Sys2Proof.Machine

/-! ## Header words (R350) -/

/-- The fields of a frame's header, POISON first. -/
def Frame.fields (f : Frame) : List (Nat × Nat) :=
  [(1, b2n f.poison), (1, b2n f.last), (1, b2n f.first), (2, f.vc), (20, f.src), (20, f.dst), (12, f.slice), (4, f.hops), (3, f.type)]

theorem Frame.header_eq {f : Frame} (hf : fieldsFit f.fields) : f.header = packFields f.fields := by
  simp only [Frame.fields, fieldsFit] at hf
  simp only [Frame.header, Frame.fields, packFields]
  omega

theorem Frame.parse_of_holdsFields {f : Frame} {h : Nat} (hh : holdsFields h 0 f.fields) : Frame.parse h f.words = f := by
  cases f
  simp only [Frame.parse, Frame.mk.injEq, bit_eq_iff, and_true]
  simp only [Frame.fields, holdsFields, Nat.reduceAdd, and_true] at hh
  tauto

/-! ## Trailer words (R350) -/

/-- The fields of a trailer under its parity bit, PAR first. -/
def Trailer.fields (t : Trailer) : List (Nat × Nat) :=
  [(31, t.par), (12, t.lseq), (12, t.ack), (5, t.crcnt), (2, t.crvc), (1, b2n t.nak)]

/-- A trailer word is its fields with their parity bit on top. -/
theorem Trailer.word_eq {t : Trailer} (ht : fieldsFit t.fields) :
    t.word = packFields t.fields + parityBit 63 (packFields t.fields) * 2 ^ 63 := by
  have hbody : t.par % 2 ^ 31 + t.lseq % 2 ^ 12 * 2 ^ 31 + t.ack % 2 ^ 12 * 2 ^ 43 + t.crcnt % 32 * 2 ^ 55 + t.crvc % 4 * 2 ^ 60 +
      b2n t.nak * 2 ^ 62 = packFields t.fields := by
    simp only [Trailer.fields, fieldsFit] at ht
    simp only [Trailer.fields, packFields]
    omega
  rw [Trailer.word, hbody]

/-- What is read of a trailer word is below its parity bit. -/
theorem Trailer.parse_add (w b : Nat) : Trailer.parse (w + b * 2 ^ 63) = Trailer.parse w := by
  have hbits {lo n : Nat} (h : lo + n ≤ 63) : bits (w + b * 2 ^ 63) lo n = bits w lo n := by
    rw [← bits_mod_two_pow h, Nat.add_mul_mod_self_right, bits_mod_two_pow h]
  simp (disch := decide) only [Trailer.parse, bit, hbits]

theorem Trailer.parse_of_holdsFields {t : Trailer} {w : Nat} (hw : holdsFields w 0 t.fields) : Trailer.parse w = t := by
  cases t
  simp only [Trailer.parse, Trailer.mk.injEq, bit_eq_iff]
  simp only [Trailer.fields, holdsFields, Nat.reduceAdd, and_true] at hw
  tauto

/-! ## The obligation -/

/-- Settles O37: both words are made up of fields that fit, a trailer's with their parity bit on top. -/
theorem framesAndTrailersRoundTrip : Obligations.FramesAndTrailersRoundTrip := by
  refine ⟨fun f htype hhops hslice hdst hsrc hvc => ?frame, fun t hcrvc hcrcnt hack hlseq hpar => ?trailer⟩
  case frame =>
    have hfit : fieldsFit f.fields := ⟨b2n_lt_two _, b2n_lt_two _, b2n_lt_two _, hvc, hsrc, hdst, hslice, hhops, htype, trivial⟩
    rw [Frame.header_eq hfit]
    exact ⟨packFields_lt hfit, Frame.parse_of_holdsFields (holdsFields_packFields hfit)⟩
  case trailer =>
    have hfit : fieldsFit t.fields := ⟨hpar, hlseq, hack, hcrcnt, hcrvc, b2n_lt_two _, trivial⟩
    have hlt : packFields t.fields < 2 ^ 63 := packFields_lt hfit
    have htpar : parityBit 63 (packFields t.fields) < 2 ^ 1 := b2n_lt_two _
    rw [Trailer.word_eq hfit]
    refine ⟨by omega, ?_, oddParity_with_parityBit hlt⟩
    rw [Trailer.parse_add]
    exact Trailer.parse_of_holdsFields (holdsFields_packFields hfit)

end Sys2Proof.Machine
end

section
/-! PROOFS. Which commands run (R348, R379, R385, R386, R393, R414, R485), and the obligation about them. -/

namespace Sys2Proof.Machine

variable {s : State} {wf : Bool} {r r' : Result}

/-! ## Commands that a sender can form -/

/-- What a command may answer: a next state where it is well formed, and the fault illFormed where it is not. -/
def runsIf (wf : Bool) (r : Result) : Prop := (wf = true → ∃ t, r = .next t) ∧ (wf = false → r = .fault .illFormed)

theorem runsIf_next (t : State) : runsIf true (.next t) := ⟨fun _ => ⟨t, rfl⟩, nofun⟩

theorem runsIf_ite {p : Prop} [Decidable p] (h : runsIf wf r) (h' : runsIf wf r') : runsIf wf (if p then r else r') := by
  split_ifs
  · exact h
  · exact h'

/-- A command that checks its form and then does what always answers. -/
theorem runsIf_form {p : Prop} [Decidable p] (h : runsIf true r) : runsIf (decide p) (if p then r else .fault .illFormed) := by
  by_cases hp : p
  · rwa [if_pos hp, decide_eq_true hp]
  · rw [if_neg hp, decide_eq_false hp]
    exact ⟨nofun, fun _ => rfl⟩

theorem runsIf_check {p : Prop} [Decidable p] (hp : p ↔ ¬wf = true) (h : runsIf true r) :
    runsIf wf (if p then .fault .illFormed else r) := by
  have hwf : wf = decide ¬p := by simp [hp]
  rw [hwf, ← ite_not]
  exact runsIf_form h

/-- Every instruction of a hub answers: its effect where it is next, the same state where it is not (R262, R264). -/
theorem runsIf_hubExec (h opc : Nat) (s : State) (f : HubInstr → State) : runsIf true (hubExec h opc s f) := by
  unfold hubExec
  split
  · exact runsIf_next _
  · exact runsIf_next _

/-- A mailbox request answers where its payload has at most 4,080 bytes (R393). -/
theorem runsIf_mboxRow (s : State) (f : State → List Byte → Done) (op : Nat) (tag : Word32) (pl : List Byte) :
    runsIf (decide (pl.length ≤ 4080)) (s.mboxRow f op tag pl) :=
  runsIf_check (by simp) (runsIf_next _)

theorem runsIf_illegalInstruction (h : HubId) (s : State) : runsIf true (execIllegalInstruction h s) := by
  unfold execIllegalInstruction
  refine runsIf_ite ?_ (runsIf_next _)
  cases (s.hub h).cur with
  | some n => exact runsIf_next _
  | none => exact runsIf_next _

/-- A register write answers in its three address spaces (R384, log 91, log 93). -/
theorem runsIf_registerWrite (f : FnId) (bar off size : Nat) (v : Word64) (s : State) :
    runsIf (decide (bar = 7 ∧ off < 0x1000 ∧ size = 4) || decide (bar = 8 ∧ off < 0x4000000 ∧ off % 4 = 0 ∧ size = 4) ||
      decide (bar = 0 ∧ off + size ≤ 0x4000000) || decide (bar = 4 ∧ off + size ≤ 0x400000)) (execRegisterWrite f bar off size v s) := by
  unfold execRegisterWrite
  by_cases hcfg : bar = 7 ∧ off < 0x1000 ∧ size = 4
  · rw [if_pos hcfg, decide_eq_true hcfg, Bool.true_or, Bool.true_or, Bool.true_or]
    exact runsIf_next _
  by_cases hcore : bar = 8 ∧ off < 0x4000000 ∧ off % 4 = 0 ∧ size = 4
  · rw [if_neg hcfg, if_pos hcore, decide_eq_true hcore, Bool.or_true, Bool.true_or, Bool.true_or]
    exact runsIf_next _
  · rw [if_neg hcfg, if_neg hcore, decide_eq_false hcfg, decide_eq_false hcore, Bool.false_or, Bool.false_or]
    exact runsIf_check (Bool.not_eq_true _ ▸ (Bool.not_eq_true' _).to_iff) (runsIf_next _)

/-! ## The obligation -/

/-- Settles O55: hub instructions, mailbox requests and commands that check their form by their own lemmas; every other command answers
whatever its state. -/
theorem formedCommandsRun : Obligations.FormedCommandsRun := by
  intro c s
  show runsIf c.wf (exec c s)
  cases c with
  | hubNop | li | lih | add | sub | hubAnd | hubOr | hubXor | shl | shr | mul | setc | ld | st | time | hubBr | call | ret | hubEnd | abort
  | iret | jnote | define | load | flush | evict | free | copy | trd | twr | gload | shift | shiftResume | run | drain | wait | fence | evsig
  | evwait | notify | step | seqend | hlib => exact runsIf_hubExec ..
  | blkFormat | catCreate | catWrite | catSeal | catGrant | catDelete | haltJournalRead | attest | certRead | authProvision | updWrite
  | updActivate => exact runsIf_mboxRow ..
  | mbxUnknownOp op tag => exact runsIf_ite (runsIf_next _) (runsIf_mboxRow _ _ _ _ [])
  | illegalInstruction h => exact runsIf_illegalInstruction h s
  | registerWrite f bar off size v => exact runsIf_registerWrite f bar off size v s
  | frameReceive p bs fec => exact runsIf_form (runsIf_next _)
  | bar2Read f off len => exact runsIf_check (Bool.not_eq_true _).symm.to_iff (runsIf_ite (runsIf_next _) (runsIf_next _))
  | bar2Write f off bs => exact runsIf_check (Bool.not_eq_true _).symm.to_iff (runsIf_next _)
  | winMapWrite f g slot v => exact runsIf_check (by simp [Instr.wf]) (runsIf_next _)
  | faultyTlp f kind addr read => exact runsIf_check Bool.not_iff_not (runsIf_next _)
  | pcieLinkTrain speed width flit retrain => exact runsIf_check Bool.not_iff_not (runsIf_next _)
  | msixSend f vec => exact runsIf_check (by simp [Instr.wf]) (runsIf_next _)
  | warmDeviceReset cause => exact runsIf_check (by simp [Instr.wf]; omega) (runsIf_next _)
  | sensorCheck readings => exact runsIf_check (by simp [Instr.wf]) (runsIf_next _)
  | boundaryScan | gpioEdge | intcCpl => exact runsIf_ite (runsIf_next _) (runsIf_next _)
  | _ => exact runsIf_next _

end Sys2Proof.Machine
end

section
/-! PROOFS. Frames that a Ralet port receives (R349 to R351) and sends (R350, R352, R357), and the obligation about them. -/

namespace Sys2Proof.Machine

variable {s : State}

/-! ## Receiving (R349, R351) -/

/-- The trailer of a frame's 256 bytes. -/
def trailerOf (bs : List Byte) : Trailer := Trailer.parse ((wordsOf bs).getD 31 0).toNat
/-- The frame of its 256 bytes. -/
def frameOf (bs : List Byte) : Frame := Frame.parse ((wordsOf bs).getD 0 0).toNat (((wordsOf bs).drop 1).take 30)
/-- PAR of the words of a frame's 256 bytes. -/
def parOfBytes (bs : List Byte) : Nat := parOf (((wordsOf bs).take 31).map (·.toNat))

/-- A port asks for the frame it misses (R351). -/
def State.askAgain (s : State) (p : Nat) : State := s.setPort p { s.port p with waiting := true, nak := true }

theorem State.not_off_of_carrying {p : Nat} (hc : s.carrying p = true) :
    ¬(s.portState p = pDisabled ∨ s.portState p = pDown ∨ s.portState p = pQuarantined) := by
  simp only [State.carrying, Bool.or_eq_true, beq_iff_eq] at hc
  rcases hc with h | h <;> rw [h] <;> decide

section
variable {p : PortId} {bs : List Byte} (hl : s.live = true) (hlen : bs.length = 256)
include hl hlen

theorem exec_frameReceive (fec : Nat) : exec (.frameReceive p bs fec) s = .next (s.receiveFrame p.val bs fec) :=
  (if_pos hlen).trans (State.ifLive_of_live hl)

variable (hc : s.carrying p.val = true) (h1 : 1 ≤ (frameOf bs).type) (h3 : (frameOf bs).type ≤ 3)
include hc h1 h3

/-- A sequenced frame with a FEC fault, out of alignment or with trailer parity odd is asked for again, its trailer not used. -/
theorem exec_frameReceive_of_unsound {fec : Nat} (hbad : fec % 8 ≠ 0 ∨ oddParity 64 ((wordsOf bs).getD 31 0).toNat = true) :
    let v := s.corrected p.val (fec / 8)
    let w := if bit fec 2 then v.count F.RLT_PORT_ERR.FEC_UNCORR p.val 1 else v
    w.carrying p.val = true → exec (.frameReceive p bs fec) s = .next (w.askAgain p.val) := by
  intro v w hw
  have hsound : (!oddParity 64 ((wordsOf bs).getD 31 0).toNat && fec % 8 == 0) = false := by
    rcases hbad with h | h
    · rw [beq_eq_false_iff_ne.2 h, Bool.and_false]
    · rw [h, Bool.not_true, Bool.false_and]
  rw [exec_frameReceive hl hlen, State.receiveFrame, if_neg (State.not_off_of_carrying hc)]
  simp only [hsound, Bool.false_and, Bool.false_eq_true, if_false, if_true]
  exact congrArg _ (if_pos ⟨h1, h3, hw⟩)

/-- Of a sound frame the trailer is used; then the frame is accepted in its turn, passed over out of it, or asked for again (R350, R356). -/
theorem exec_frameReceive_of_sound (hodd : oddParity 64 ((wordsOf bs).getD 31 0).toNat = false) :
    let u := (s.corrected p.val 0).useTrailer p.val (trailerOf bs)
    u.carrying p.val = true → exec (.frameReceive p bs 0) s = .next (
      if parOfBytes bs = (trailerOf bs).par then
        if (trailerOf bs).lseq = ((u.port p.val).ack + 1) % 4096 then u.accept p.val (trailerOf bs).lseq (frameOf bs) else u
      else u.askAgain p.val) := by
  intro u hu
  have hsound : (!oddParity 64 ((wordsOf bs).getD 31 0).toNat && 0 % 8 == 0) = true := by rw [hodd]; rfl
  have h0 : (frameOf bs).type ≠ 0 := by omega
  have h4 : (frameOf bs).type ≠ 4 := by omega
  have h5 : ¬5 ≤ (frameOf bs).type := by omega
  have hfec : ¬bit 0 2 = true := by decide
  rw [exec_frameReceive hl hlen, State.receiveFrame, if_neg (State.not_off_of_carrying hc)]
  simp only [hsound, Bool.true_and, if_true, if_neg hfec]
  refine congrArg _ ?_
  by_cases hpar : parOfBytes bs = (trailerOf bs).par
  · have hgood : ¬(parOfBytes bs == (trailerOf bs).par) = false := by simp [hpar]
    refine (if_neg hgood).trans ((if_neg h0).trans ((if_neg h4).trans ((if_neg h5).trans ?_)))
    rw [if_pos hpar]
    have hturn := or_iff_right (ne_false_of_eq_true hu) (b := (trailerOf bs).lseq ≠ ((u.port p.val).ack + 1) % 4096)
    exact (ite_congr (propext hturn) (fun _ => rfl) fun _ => rfl).trans (ite_not ..)
  · have hbad : (parOfBytes bs == (trailerOf bs).par) = false := beq_eq_false_iff_ne.2 hpar
    refine (if_pos hbad).trans ((if_pos ⟨h1, h3, hu⟩).trans ?_)
    rw [if_neg hpar]
    rfl

end

/-! ## Sending (R350, R352, R357) -/

section
variable {port : PortId} (hl : s.live = true)
include hl

theorem exec_frameTransmit_of_off
    (h : s.portState port.val = pDisabled ∨ s.portState port.val = pDown ∨ s.portState port.val = pQuarantined) :
    exec (.frameTransmit port) s = .next s := by
  have hsends : (s.carrying port.val || (s.portState port.val == pTest && (s.port port.val).test == 1)) = false := by
    rcases h with h | h | h <;> rw [State.carrying, h] <;> rfl
  have htrains : ¬(s.portState port.val = pTraining ∧ (s.port port.val).trained = true) := by
    rcases h with h | h | h <;> rw [h] <;> exact fun h => absurd h.1 (by decide)
  show execFrameTransmit port s = _
  rw [execFrameTransmit, State.ifLive_of_live hl]
  simp only [hsends, Bool.false_eq_true, if_false, if_neg htrains]

variable (hc : s.carrying port.val = true)
include hc

/-- A waiting LINK frame goes first (log 50). -/
theorem exec_frameTransmit_of_link {ws : List Word64} {rest : List (List Word64)} (hx : (s.port port.val).links = ws :: rest) :
    exec (.frameTransmit port) s = .next ((s.setPort port.val { s.port port.val with links := rest }).putPlain port.val 4 ws) := by
  show execFrameTransmit port s = _
  rw [execFrameTransmit, State.ifLive_of_live hl]
  simp only [hc, Bool.true_or, if_true, hx]

section
variable (hx : (s.port port.val).links = [])
include hx

/-- Then the oldest frame still to be replayed. -/
theorem exec_frameTransmit_of_replay {l : Nat} {q : Queued} (hr : 0 < (s.port port.val).resend)
    (hq : (s.port port.val).sent[(s.port port.val).sent.length - (s.port port.val).resend]? = some (l, q)) :
    exec (.frameTransmit port) s = .next ((s.setPort port.val { s.port port.val with
      resend := (s.port port.val).resend - 1 }).putFrame port.val q.frame.header l q.frame.words) := by
  show execFrameTransmit port s = _
  rw [execFrameTransmit, State.ifLive_of_live hl]
  simp only [hc, Bool.true_or, if_true, hx, if_pos hr, hq]

/-- Then a new one from the VC that is served, while fewer than 512 frames are unacknowledged; else IDLE. -/
theorem exec_frameTransmit_of_no_replay (hr : (s.port port.val).resend = 0) : exec (.frameTransmit port) s = .next (
    if 512 ≤ (s.port port.val).sent.length then s.putPlain port.val 0 []
    else (s.port port.val).nextVc.elim (s.putPlain port.val 0 []) (s.putNew port.val)) := by
  show execFrameTransmit port s = _
  rw [execFrameTransmit, State.ifLive_of_live hl]
  simp only [hc, Bool.true_or, if_true, hx, hr, Nat.lt_irrefl, if_false]
  cases (s.port port.val).nextVc <;> rfl

end

theorem exec_replayTimeout_of_due (hd : s.due (s.port port.val).ackAt (s.rd F.RLT_PORT_CFG.REPLAY_NS port.val) = true)
    (hs : (s.port port.val).sent ≠ []) : exec (.replayTimeout port) s = .next (((s.setPort port.val { s.port port.val with
      resend := (s.port port.val).sent.length, replays := (s.port port.val).replays + 1, ackAt := s.time }).count
        F.RLT_PORT_ERR.REPLAYS port.val 1).fault 0) := by
  show execReplayTimeout port s = _
  rw [execReplayTimeout, State.ifLive_of_live hl]
  simp only [hc, hd, Bool.true_and, if_true]
  exact congrArg _ (if_neg (by simpa using hs))

theorem exec_replayTimeout_of_early (hd : s.due (s.port port.val).ackAt (s.rd F.RLT_PORT_CFG.REPLAY_NS port.val) = false) :
    exec (.replayTimeout port) s = .next s := by
  show execReplayTimeout port s = _
  rw [execReplayTimeout, State.ifLive_of_live hl]
  simp only [hc, hd, Bool.and_false, Bool.false_eq_true, if_false]

end

/-! ## The obligation -/

/-- Settles O38: a received frame by whether it is sound, intact and in its turn; a sent one by what waits at its port. -/
theorem framesCrossPorts : Obligations.FramesCrossPorts := by
  refine ⟨fun p bs s hl hlen => ⟨fun hoff fec => ?off, fun hc hrise h1 h3 => ⟨fun hodd hu =>
      ⟨fun hpar => ⟨fun hseq => ?inTurn, fun hseq => ?outOfTurn⟩, fun hpar => ?badPar⟩,
      fun fec hbad => exec_frameReceive_of_unsound hl hlen hc h1 h3 hbad⟩⟩,
    fun port s hl => ⟨fun hc => ⟨fun ws rest hx => exec_frameTransmit_of_link hl hc hx,
      fun hx => ⟨fun l q hr hq => exec_frameTransmit_of_replay hl hc hx hr hq,
        fun hr hlt => ⟨fun vc hvc => ?fresh, fun hvc => ?idle⟩, fun hr hfull => ?full⟩,
      fun hd hs => exec_replayTimeout_of_due hl hc hd hs, fun hd => exec_replayTimeout_of_early hl hc hd⟩,
    fun hoff => exec_frameTransmit_of_off hl hoff⟩⟩
  case off => exact (exec_frameReceive hl hlen fec).trans (congrArg _ (if_pos hoff))
  case inTurn => exact (exec_frameReceive_of_sound hl hlen hc h1 h3 hodd hu).trans (congrArg _ ((if_pos hpar).trans (if_pos hseq)))
  case outOfTurn => exact (exec_frameReceive_of_sound hl hlen hc h1 h3 hodd hu).trans (congrArg _ ((if_pos hpar).trans (if_neg hseq)))
  case badPar => exact (exec_frameReceive_of_sound hl hlen hc h1 h3 hodd hu).trans (congrArg _ (if_neg hpar))
  case fresh =>
    rw [exec_frameTransmit_of_no_replay hl hc hx hr, if_neg (Nat.not_le.2 hlt), hvc]
    rfl
  case idle =>
    rw [exec_frameTransmit_of_no_replay hl hc hx hr, if_neg (Nat.not_le.2 hlt), hvc]
    rfl
  case full => rw [exec_frameTransmit_of_no_replay hl hc hx hr, if_pos hfull]

end Sys2Proof.Machine
end

section
/-! PROOFS. Ralet links that retrain, go DOWN and come UP by HELLO (R347, R353, R359), report credits (R354, R355) and agree on tests (R376),
and the obligation about them. -/

namespace Sys2Proof.Machine

variable {s : State}

/-! ## Retraining and failure (R347, R353, R375) -/

section
variable {port : PortId} (hl : s.live = true)
include hl

/-- PORT_RETRAIN acts on an UP port whose oldest frame has been replayed eight times. -/
theorem exec_portRetrain : exec (.portRetrain port) s = .next (
    if s.portState port.val = pUp ∧ 8 ≤ (s.port port.val).replays then
      ((s.setPort port.val { s.port port.val with retrain := true, replays := 0 }).count
        F.RLT_PORT_STATE.RETRAINS port.val 1).startTraining port.val
    else s) :=
  State.ifLive_of_live hl

theorem exec_portDownTimeout : exec (.portDownTimeout port) s = .next (
    if s.portState port.val = pTraining ∧ (s.port port.val).retrain = true ∧ s.due (s.port port.val).since 100000000 = true then
      s.failPort port.val pDown 0
    else s) :=
  State.ifLive_of_live hl

theorem exec_portDownRetry : exec (.portDownRetry port) s = .next (
    if s.portState port.val = pDown ∧ s.due (s.port port.val).since 1000000000 = true then s.startTraining port.val else s) :=
  State.ifLive_of_live hl

theorem exec_pmdTrainingDone (half : Bool) : exec (.pmdTrainingDone port half) s = .next (
    if s.portState port.val = pTraining then
      (s.setPort port.val { s.port port.val with trained := true }).put F.RLT_PORT_STATE.HALF_RATE port.val half
    else s) :=
  State.ifLive_of_live hl

end

/-! ## HELLO (R359, log 50) -/

/-- The peer's ID and kind, as its HELLO gives them. -/
def State.peerNamed (s : State) (p w : Nat) : State :=
  (s.wr F.RLT_PORT_STATE.PEER_ID p (bits w 12 20)).wr F.RLT_PORT_STATE.PEER_KIND p (bits w 8 1)

/-- The lowest version that both ends run. -/
def lowVersion (w : Nat) : Nat := max 2 (bits w 0 4)
/-- The highest version that both ends run. -/
def State.highVersion (s : State) (p w : Nat) : Nat := min (s.rd F.RLT_PORT_CFG.VER_MAX p) (bits w 4 4)

/-- The port of a link that comes UP: with the credits of the peer's HELLO, and what is unacknowledged to be sent again. -/
def Port.greeted (x : Port) (bs : List Byte) (high now : Nat) : Port := { x with
  granted := (List.range 4).foldl (fun m c => Tab.set 0 m c (fieldAt bs (16 + 2 * c) 2)) []
  heardAt := (List.range 4).foldl (fun m c => Tab.set 0 m c now) []
  ackAt := now, resend := x.sent.length, replays := 0, retrain := false, ver := high, creditAt := now, heard := none }

/-- A table filled for the four VCs reads as what each was given. -/
theorem get_foldl_vcs {m : Tab Nat} (hm : Tab.rising m = true) (f : Nat → Nat) {c : Nat} (hc : c < 4) :
    Tab.get 0 ((List.range 4).foldl (fun m v => Tab.set 0 m v (f v)) m) c = f c :=
  Tab.get_foldl_set_of_mem 0 (key := id) (val := f) hm (by decide) (List.mem_range.2 hc)

theorem Port.get_granted_greeted (x : Port) (bs : List Byte) (high now : Nat) {c : Nat} (hc : c < 4) :
    Tab.get 0 (x.greeted bs high now).granted c = fieldAt bs (16 + 2 * c) 2 :=
  get_foldl_vcs (m := []) rfl (fun c => fieldAt bs (16 + 2 * c) 2) hc

/-- What a HELLO settles: no common version, roles that do not fit, or a link that is UP. -/
theorem State.settleHello_eq (s : State) (p : Nat) (bs : List Byte) : s.settleHello p bs =
    let w := fieldAt bs 8 8
    let u := s.peerNamed p w
    if s.highVersion p w < lowVersion w then u.failPort p pDown eVersion
    else if (s.port p).role ≠ bit w 8 then u.failPort p pDown eConflict
    else ((u.setPort p ((s.port p).greeted bs (s.highVersion p w) u.time)).movePort p pUp).wr F.RLT_PORT_STATE.VER p (s.highVersion p w) := rfl

section
variable {port : PortId} (hl : s.live = true) (hst : s.portState port.val = pTraining) (htr : (s.port port.val).trained = true)
include hl hst htr

/-- A HELLO on trained lanes settles the port once this device has an ID, and waits there before. -/
theorem exec_hello_of_trained (bs : List Byte) : exec (.hello port bs) s = .next (
    if s.on F.RLT_DEV_ID.VALID 0 then s.settleHello port.val bs else s.setPort port.val { s.port port.val with heard := some bs }) := by
  have hgo : ¬(s.portState port.val ≠ pTraining ∨ (s.port port.val).trained = false) := by simp [hst, htr]
  exact (State.ifLive_of_live hl).trans (congrArg _ (if_neg hgo))

theorem exec_hello_of_valid (hv : s.rd F.RLT_DEV_ID.VALID 0 = 1) (bs : List Byte) :
    exec (.hello port bs) s = .next (s.settleHello port.val bs) := by
  rw [exec_hello_of_trained hl hst htr, if_pos ((State.on_iff rfl).2 hv)]

end

/-! ## Credits and tests (R354, R355, R376) -/

/-- The port whose freed entries a CREDIT frame sets. -/
def Port.credited (x : Port) (bs : List Byte) (now : Nat) : Port :=
  (List.range 4).foldl (fun (x : Port) v =>
    let n := fieldAt bs (8 + 8 * v) 4
    { x with freed := Tab.set 0 x.freed v n, report := Tab.set 0 x.report v (n % 32), heardAt := Tab.set 0 x.heardAt v now }) x

/-- A CREDIT frame sets the count of every VC. -/
theorem Port.get_freed_credited {x : Port} (hx : Tab.rising x.freed = true) (bs : List Byte) (now : Nat) {c : Nat} (hc : c < 4) :
    Tab.get 0 (x.credited bs now).freed c = fieldAt bs (8 + 8 * c) 4 :=
  get_foldl_vcs hx (fun c => fieldAt bs (8 + 8 * c) 4) hc

section
variable {port : PortId} (hl : s.live = true)
include hl

theorem exec_creditReq_of_carrying (hc : s.carrying port.val = true) :
    exec (.creditReq port) s = .next (s.sendLink port.val (s.port port.val).creditWords) :=
  (State.ifLive_of_live hl).trans (congrArg _ (if_pos hc))

theorem exec_credit_of_carrying (hc : s.carrying port.val = true) (bs : List Byte) :
    exec (.credit port bs) s = .next (s.setPort port.val ((s.port port.val).credited bs s.time)) :=
  (State.ifLive_of_live hl).trans (congrArg _ (if_pos hc))

theorem exec_testReq_of_on (h0 : s.portState port.val ≠ pDisabled) (h3 : s.portState port.val ≠ pDown)
    (h6 : s.portState port.val ≠ pQuarantined) (bs : List Byte) : exec (.testReq port bs) s = .next (
      if s.portState port.val = pTest ∧ s.devId < s.rd F.RLT_PORT_STATE.PEER_ID port.val then s.sendLink port.val (linkWords 6 [])
      else s.sendLink port.val (linkWords 5 [])) :=
  (State.ifLive_of_live hl).trans (congrArg _ (if_pos ⟨h0, h3, h6⟩))

theorem exec_creditPeriodic : exec (.creditPeriodic port) s = .next (
    if s.portState port.val = pUp ∧ s.due (s.port port.val).creditAt 100000 = true then
      (s.setPort port.val { s.port port.val with creditAt := s.time }).sendLink port.val (s.port port.val).creditWords
    else s) :=
  State.ifLive_of_live hl

theorem exec_creditReportStale (vc : Nat) : exec (.creditReportStale port vc) s = .next (
    if s.portState port.val = pUp ∧ vc < 4 ∧ s.due (Tab.get 0 (s.port port.val).heardAt vc) (s.twelvePeriods port.val) = true then
      (s.setPort port.val { s.port port.val with
        heardAt := Tab.set 0 (s.port port.val).heardAt vc s.time }).sendLink port.val (linkWords 2 [])
    else s) :=
  State.ifLive_of_live hl

theorem exec_testAgreeTimeout : exec (.testAgreeTimeout port) s = .next (
    if s.due (s.port port.val).since 10000000 then s.testFail port.val else s) :=
  State.ifLive_of_live hl

end

section
variable {p : Nat} (hst : s.portState p = pTest) (ht : (s.port p).test = 1)
include hst ht

theorem State.asking_of_test : s.asking p = true := by rw [State.asking, hst, ht]; rfl

theorem State.testAgree_of_asking : s.testAgree p = s.setPort p { s.port p with test := 2, since := s.time } :=
  if_pos (State.asking_of_test hst ht)

theorem State.testFail_of_asking : s.testFail p = (s.put F.RLT_PORT_STATE.FAIL p true).endTest p := if_pos (State.asking_of_test hst ht)

end

/-! ## The obligation -/

/-- Settles O39: each event of a port by its condition, a HELLO by what it settles, LINK frames by their own lemmas. -/
theorem linksComeUpAndRetrain : Obligations.LinksComeUpAndRetrain := by
  refine ⟨fun port s hl => ⟨fun hst hr => ?retrain, fun hr => ?noRetrain, fun hst hr hd => ?down, fun hst hd => ?retry, fun hd => ?noDown,
      fun hst half => ?trained⟩,
    fun port s hl => ⟨fun bs hst htr hv => ?waits, fun bs hst htr hv => ⟨fun hver => ?version, fun hver hrole => ?conflict,
        fun hver hrole => ⟨?up, fun c hc => Port.get_granted_greeted _ bs _ _ hc⟩⟩,
      fun hc => ⟨exec_creditReq_of_carrying hl hc, fun bs => ⟨exec_credit_of_carrying hl hc bs, rfl, rfl,
        fun hx c hc => Port.get_freed_credited hx bs _ hc⟩⟩,
      fun h0 h3 h6 bs => ⟨fun hlow => ?refuses, fun hlow => ?agrees⟩,
      fun hst => ⟨fun hd => ?credit, fun hd => ?noCredit, fun vc hvc hd => ?stale⟩,
      fun hst ht => ⟨?agreed, ?refused, fun hd => ?timeout, fun hd => ?early⟩⟩⟩
  case retrain => rw [exec_portRetrain hl, if_pos ⟨hst, hr⟩]
  case noRetrain => rw [exec_portRetrain hl, if_neg fun h => absurd h.2 (Nat.not_le.2 hr)]
  case down => rw [exec_portDownTimeout hl, if_pos ⟨hst, hr, hd⟩]
  case noDown => rw [exec_portDownTimeout hl, if_neg fun h => ne_false_of_eq_true h.2.2 hd]
  case retry => rw [exec_portDownRetry hl, if_pos ⟨hst, hd⟩]
  case trained => rw [exec_pmdTrainingDone hl, if_pos hst]
  case waits => rw [exec_hello_of_trained hl hst htr, if_neg (Bool.eq_false_iff.1 (State.off_of_rd hv))]
  case version =>
    rw [exec_hello_of_valid hl hst htr hv, State.settleHello_eq]
    exact congrArg _ (if_pos hver)
  case conflict =>
    rw [exec_hello_of_valid hl hst htr hv, State.settleHello_eq]
    exact congrArg _ ((if_neg (Nat.not_lt.2 hver)).trans (if_pos hrole))
  case up =>
    rw [exec_hello_of_valid hl hst htr hv, State.settleHello_eq]
    exact congrArg _ ((if_neg (Nat.not_lt.2 hver)).trans (if_neg (not_not.2 hrole)))
  case refuses => rw [exec_testReq_of_on hl h0 h3 h6, if_pos hlow]
  case agrees => rw [exec_testReq_of_on hl h0 h3 h6, if_neg hlow]
  case credit => rw [exec_creditPeriodic hl, if_pos ⟨hst, hd⟩]
  case noCredit => rw [exec_creditPeriodic hl, if_neg fun h => ne_false_of_eq_true h.2 hd]
  case stale => rw [exec_creditReportStale hl, if_pos ⟨hst, hvc, hd⟩]
  case agreed => exact (State.ifLive_of_live hl).trans (congrArg _ (State.testAgree_of_asking hst ht))
  case refused => exact (State.ifLive_of_live hl).trans (congrArg _ (State.testFail_of_asking hst ht))
  case timeout => rw [exec_testAgreeTimeout hl, if_pos hd, State.testFail_of_asking hst ht]
  case early => rw [exec_testAgreeTimeout hl, if_neg (Bool.eq_false_iff.1 hd)]

end Sys2Proof.Machine
end

section
/-! PROOFS. Ralet ports that are enabled, disabled, tested and stopped (R375, R376, R378), and the obligation about them. -/

namespace Sys2Proof.Machine

variable {s : State}

/-! ## Requests of the host (R378) -/

section
variable {f : FnId} (hf : s.hears f.val) (port : PortId)
include hf

theorem exec_portEnable : exec (.portEnable f port) s = .next (if isPF f.val then s.enablePort port.val else s.deny f.val) :=
  State.ifHost_of_hears hf ..

theorem exec_portDisable : exec (.portDisable f port) s = .next (if isPF f.val then s.disablePort port.val else s.deny f.val) :=
  State.ifHost_of_hears hf ..

theorem exec_portTest : exec (.portTest f port) s = .next (if isPF f.val then s.testPort port.val else s.deny f.val) :=
  State.ifHost_of_hears hf ..

end

/-! ## Ports by their state (R375) -/

section
variable {p : Nat}

theorem State.enablePort_of_off (h : s.portState p = pDisabled ∨ s.portState p = pDown ∨ s.portState p = pQuarantined) :
    s.enablePort p = s.startTraining p := if_pos h

theorem State.enablePort_of_busy (h : s.portState p = pStopping ∨ s.portState p = pTest) :
    s.enablePort p = (s.put F.RLT_PORT_CTRL.ENABLE_PEND p true).setPort p { s.port p with pendAt := s.time } := by
  have hoff : ¬(s.portState p = pDisabled ∨ s.portState p = pDown ∨ s.portState p = pQuarantined) := by
    rcases h with h | h <;> rw [h] <;> decide
  rw [State.enablePort, if_neg hoff, if_pos h]

theorem State.disablePort_of_on (hp : s.rd F.RLT_PORT_CTRL.ENABLE_PEND p = 0)
    (h : s.portState p = pTraining ∨ s.portState p = pUp ∨ s.portState p = pDown) :
    s.disablePort p = (s.setPort p { s.port p with toTest := false }).movePort p pStopping := by
  rw [State.disablePort, if_neg (Bool.eq_false_iff.1 (State.off_of_rd hp)), if_pos h]

theorem State.testPort_of_settled (h : s.portState p = pUp ∨ s.portState p = pDown ∨ s.portState p = pDisabled) :
    s.testPort p = (s.setPort p { s.port p with toTest := true }).movePort p pStopping := if_pos h

end

/-! ## Ends of a drain and of a test (R375, R376) -/

section
variable {port : PortId} (hl : s.live = true)
include hl

/-- A STOPPING port that has drained, or has had its 100 µs, loses what is left; then it asks for a test or is DISABLED. -/
theorem exec_portStopDone_of_drained (hs : s.portState port.val = pStopping)
    (hd : (s.port port.val).drained = true ∨ s.due (s.port port.val).since 100000 = true) :
    let u := s.losePort port.val
    exec (.portStopDone port) s = .next (if (s.port port.val).toTest = true then
        ((u.setPort port.val { u.port port.val with test := 1 }).movePort port.val pTest).sendLink port.val (linkWords 4 [])
      else if (u.movePort port.val pDisabled).on F.RLT_PORT_CTRL.ENABLE_PEND port.val = true then
        ((u.movePort port.val pDisabled).portWaited port.val).startTraining port.val
      else u.movePort port.val pDisabled) := by
  show execPortStopDone port s = _
  rw [execPortStopDone, State.ifLive_of_live hl]
  exact congrArg _ (if_pos ⟨hs, hd⟩)

theorem exec_portTestDone_of_due (hs : s.portState port.val = pTest) (ht : (s.port port.val).test = 2)
    (hd : s.due (s.port port.val).since (s.rd F.RLT_PORT_CFG.TEST_S port.val * 1000000000) = true) (errors checked : List Nat) :
    exec (.portTestDone port errors checked) s = .next (((List.range 4).foldl (fun (s : State) n =>
      s.storeLane port.val n (errors.getD n 0) (checked.getD n 0)) s).endTest port.val) := by
  show execPortTestDone port errors checked s = _
  rw [execPortTestDone, State.ifLive_of_live hl]
  exact congrArg _ (if_pos ⟨hs, ht, hd⟩)

end

/-! ## The obligation -/

/-- Settles O40: each request by its gate and the state of its port, the ends of a drain and of a test by their own lemmas. -/
theorem portsAreControlled : Obligations.PortsAreControlled := by
  refine fun port s => ⟨fun f hf => ⟨fun h0 => ⟨fun h => ?enable, fun h => ?pend, fun hp h => ?disable, fun h => ?test⟩,
      fun h0 => ⟨?enableDenied, ?disableDenied, ?testDenied⟩⟩,
    fun hl => ⟨fun hs hd => ⟨fun ht => ?asks, fun ht hp => ?disabled⟩, fun hs ht hd => exec_portTestDone_of_due hl hs ht hd⟩⟩
  case enable => rw [exec_portEnable hf, if_pos (isPF_iff.2 h0), State.enablePort_of_off h]
  case pend => rw [exec_portEnable hf, if_pos (isPF_iff.2 h0), State.enablePort_of_busy h]
  case disable => rw [exec_portDisable hf, if_pos (isPF_iff.2 h0), State.disablePort_of_on hp h]
  case test => rw [exec_portTest hf, if_pos (isPF_iff.2 h0), State.testPort_of_settled h]
  case enableDenied => rw [exec_portEnable hf, if_neg (mt isPF_iff.1 h0)]
  case disableDenied => rw [exec_portDisable hf, if_neg (mt isPF_iff.1 h0)]
  case testDenied => rw [exec_portTest hf, if_neg (mt isPF_iff.1 h0)]
  case asks => exact (exec_portStopDone_of_drained hl hs hd).trans (congrArg _ (if_pos ht))
  case disabled =>
    exact (exec_portStopDone_of_drained hl hs hd).trans (congrArg _ ((if_neg (Bool.eq_false_iff.1 ht)).trans
      (if_neg (Bool.eq_false_iff.1 (State.off_of_rd hp)))))

end Sys2Proof.Machine
end

section
/-! PROOFS. Ralet messages that a device has received (R360, R368, R372, R373), the tokens of the east edge (R369) and the transfer rings
(R371, R378), and the obligation about them. -/

namespace Sys2Proof.Machine

variable {s : State} {n : Nat} {m : Msg}

/-! ## PUT (R372) -/

/-- A message of an OP is the one that a command for that OP finds. -/
theorem filter_op {op : Nat} (hm : s.rlt.msgs[n]? = some m) (hop : m.op = op) : (s.rlt.msgs[n]?).filter (fun m => m.op == op) = some m := by
  rw [hm, Option.filter_some, if_pos (beq_iff_eq.2 hop)]

theorem State.putGoes_of_open (ho : m.isOpen = true) : s.putGoes n m = s.setMsg n { m with begun := true } := if_pos ho

theorem State.putGoes_of_whole (ho : m.isOpen = false) (hb : m.bad = false) : s.putGoes n m = (s.dropMsg n).commitPut m :=
  (if_neg (Bool.eq_false_iff.1 ho)).trans (if_neg (Bool.eq_false_iff.1 hb))

theorem State.putGoes_of_bad (ho : m.isOpen = false) (hb : m.bad = true) : s.putGoes n m = (s.dropMsg n).answerPut m xRefused eParity :=
  (if_neg (Bool.eq_false_iff.1 ho)).trans (if_pos hb)

/-- A tensor that a PUT may write: main, RW and of its length. -/
theorem not_unfit {t : Tensor} (hmain : t.main = true) (hrw : t.rw_ = true) (hlen : t.desc.length = m.arg) :
    ¬(!t.main || !t.rw_ || t.desc.length != m.arg) = true := by simp [hmain, hrw, hlen]

section
variable (hl : s.live = true) (hm : s.rlt.msgs[n]? = some m) (hop : m.op = 1)
include hl hm hop

/-- A PUT that holds its tensor goes on. -/
theorem exec_put_of_begun (hb : m.begun = true) : exec (.put n) s = .next (s.putGoes n m) := by
  show execPut n s = _
  rw [execPut, State.ifLive_of_live hl]
  simp only [filter_op hm hop, hb, if_true]

section
variable (hb : m.begun = false)
include hb

theorem exec_put_of_no_tensor (ht : s.tensor m.part m.tid = none) :
    exec (.put n) s = .next ((s.dropMsg n).answerPut m xRefused eShape) := by
  show execPut n s = _
  rw [execPut, State.ifLive_of_live hl]
  simp only [filter_op hm hop, hb, Bool.false_eq_true, if_false, ht]

section
variable {t : Tensor} (ht : s.tensor m.part m.tid = some t)
include ht

theorem exec_put_of_lost (hs : t.state = .lost) : exec (.put n) s = .next ((s.dropMsg n).answerPut m xRefused eStateLost) := by
  show execPut n s = _
  rw [execPut, State.ifLive_of_live hl]
  simp only [filter_op hm hop, hb, Bool.false_eq_true, if_false, ht, if_pos hs]

variable (hs : t.state ≠ .lost)
include hs

theorem exec_put_of_unfit (hfit : t.main = false ∨ t.rw_ = false ∨ t.desc.length ≠ m.arg) :
    exec (.put n) s = .next ((s.dropMsg n).answerPut m xRefused eShape) := by
  have hunfit : (!t.main || !t.rw_ || t.desc.length != m.arg) = true := by
    rcases hfit with h | h | h <;> simp [h]
  show execPut n s = _
  rw [execPut, State.ifLive_of_live hl]
  simp only [filter_op hm hop, hb, Bool.false_eq_true, if_false, ht, if_neg hs, if_pos hunfit]

variable (hmain : t.main = true) (hrw : t.rw_ = true) (hlen : t.desc.length = m.arg)
include hmain hrw hlen

theorem exec_put_of_written (hw : s.putWrites m.part m.tid = true) :
    exec (.put n) s = .next ((s.dropMsg n).answerPut m xRefused eConflict) := by
  have hunfit := not_unfit hmain hrw hlen
  show execPut n s = _
  rw [execPut, State.ifLive_of_live hl]
  simp only [filter_op hm hop, hb, Bool.false_eq_true, if_false, ht, if_neg hs, if_neg hunfit, hw, Bool.true_or, if_true]

/-- A PUT whose tensor nothing holds or moves begins as its pages are granted. -/
theorem exec_put_of_granted (hw : s.putWrites m.part m.tid = false) (hh : ∀ e ∈ s.ctl.cmds, e.2.holds m.part m.tid false = false)
    (hload : t.state ≠ .loading) (hwr : t.state ≠ .writing) {u : State}
    (hu : s.takePages (putReq m.part m.tid) m.part m.came (pagesOf t.desc.length) = (u, .granted)) :
    exec (.put n) s = .next (u.putGoes n m) := by
  have hunfit := not_unfit hmain hrw hlen
  have hany : (s.ctl.cmds.any fun e => e.2.holds m.part m.tid false) = false :=
    List.any_eq_false.2 fun e he => ne_true_of_eq_false (hh e he)
  show execPut n s = _
  rw [execPut, State.ifLive_of_live hl]
  simp only [filter_op hm hop, hb, Bool.false_eq_true, if_false, ht, if_neg hs, if_neg hunfit, hw, hany, Bool.or_false,
    if_neg (not_or.2 ⟨hload, hwr⟩), hu]

end

end

end

/-! ## EVENT and COMPLETION (R372, R373) -/

section
variable (hl : s.live = true)
include hl

theorem exec_event_of_msg (hm : s.msg n 2 = some m) : exec (.event n) s = .next (
    if m.bad then s.dropMsg n
    else ((s.dropMsg n).eventAdd m.part m.evt (m.arg % 2 ^ 32)).sendCompletion m xOK 0 m.tid) := by
  show execEvent n s = _
  rw [execEvent, State.ifLive_of_live hl]
  simp only [hm]

section
variable (hm : s.msg n 3 = some m) (hb : m.bad = false)
include hm hb

theorem exec_completion_of_own {x : Xfer} (hx : (s.dropMsg n).xfer m.part m.tid = some x) (hd : x.dst = m.flow.src) :
    exec (.completion n) s = .next ((s.dropMsg n).finishXfer x (bits m.head 48 8) (m.arg % 256)) := by
  show execCompletion n s = _
  rw [execCompletion, State.ifLive_of_live hl]
  simp only [hm, hb, Bool.false_eq_true, if_false, hx, if_pos hd]

theorem exec_completion_of_other (hx : ∀ x, (s.dropMsg n).xfer m.part m.tid = some x → x.dst ≠ m.flow.src) :
    exec (.completion n) s = .next ((s.dropMsg n).count F.RLT_XFER_CFG.LATE_DONE m.part 1) := by
  show execCompletion n s = _
  rw [execCompletion, State.ifLive_of_live hl]
  simp only [hm, hb, Bool.false_eq_true, if_false]
  cases h : (s.dropMsg n).xfer m.part m.tid with
  | none => rfl
  | some x => exact congrArg _ (if_neg (hx x h))

end

end

/-! ## Time limits (R360, R372) -/

section
variable (hl : s.live = true)
include hl

theorem exec_messageTimeout_of_msg (hm : s.rlt.msgs[n]? = some m) : exec (.messageTimeout n) s = .next (
    if m.isOpen && s.due m.at_ (s.msgTimeout m.port) then s.setMsg n { m with bad := true } else s) := by
  show execMessageTimeout n s = _
  rw [execMessageTimeout, State.ifLive_of_live hl]
  simp only [hm]

theorem exec_putTimeout_of_sent {p : PartId} {x : Xfer} (hx : s.xfer p.val n = some x) (hs : x.started = true) (h0 : x.left = 0)
    (hd : s.due x.sentAt (s.msgTimeout x.port) = true) : exec (.putTimeout p n) s = .next (s.finishXfer x xTimeout 0) := by
  show execPutTimeout p n s = _
  rw [execPutTimeout, State.ifLive_of_live hl]
  simp only [hx, hs, h0, hd, beq_self_eq_true, Bool.and_self, if_true]

end

/-! ## TOKEN (R369) -/

section
variable (hl : s.live = true) (hm : s.rlt.msgs[n]? = some m) (hop : m.op = 0x10)
include hl hm hop

theorem exec_token_of_foreign (he : s.eastOf m.part m.link = false) :
    exec (.token n) s = .next ((s.dropMsg n).countDrop m.port .noPart) := by
  show execToken n s = _
  rw [execToken, State.ifLive_of_live hl]
  simp only [filter_op hm hop, he, if_true]

variable (he : s.eastOf m.part m.link = true)
include he

theorem exec_token_of_bad (hb : m.bad = true) : exec (.token n) s = .next ((s.dropMsg n).badToken m.link m) := by
  show execToken n s = _
  rw [execToken, State.ifLive_of_live hl]
  simp only [filter_op hm hop, he, hb, Bool.true_eq_false, if_false, if_true]

/-- A whole TOKEN that its link has room for: its remaining flits, EOT on the last. -/
theorem exec_token_of_whole (hb : m.bad = false) (hd : m.done = true)
    (hroom : ceilDiv (m.data.drop m.given).length 32 ≤ 2048 - (s.eastIn m.link).flits.length) :
    exec (.token n) s = .next ((((s.setEast m.link { s.eastIn m.link with
      flits := (s.eastIn m.link).flits ++ flitsOf (m.data.drop m.given) true }).note (eastCog m.link) false).dropMsg n).eastFrees m.link) := by
  have hlen : m.data.length - m.given = (m.data.drop m.given).length := List.length_drop.symm
  have hwhole : (m.done && decide (ceilDiv (m.data.drop m.given).length 32 ≤ 2048 - (s.eastIn m.link).flits.length)) = true := by
    rw [hd, decide_eq_true hroom, Bool.true_and]
  show execToken n s = _
  rw [execToken, State.ifLive_of_live hl]
  simp only [filter_op hm hop, he, hb, Bool.true_eq_false, Bool.false_eq_true, if_false, hlen, hwhole, if_true, List.take_length]

end

/-! ## EAST_TOKEN_OUT (R369) -/

/-- The flits of the first token at the edge, as far as it has left the array. -/
def State.edgeToken (s : State) (l : Nat) : List Flit :=
  (s.sinkAt (eastCog l) .e).take (((s.sinkAt (eastCog l) .e).takeWhile fun f => !f.eot).length + 1)

/-- The state with that token taken off the edge. -/
def State.edgeTaken (s : State) (l : Nat) : State := s.setSinkAt (eastCog l) .e ((s.sinkAt (eastCog l) .e).drop (s.edgeToken l).length)

/-- The frames of a TOKEN message of a partition with these flits, as the link's binding names them. -/
def State.edgeFrames (s : State) (l p : Nat) (fs : List Flit) : List Frame :=
  let bs := fs.flatMap fun f => toBytes 32 f.data.toNat
  s.msgFrames p 1 (s.rd F.RLT_EDGE_BIND.VC l) (s.rd F.RLT_EDGE_BIND.DST l)
    (msgHead 0x10 0 0 false (s.rd F.RLT_EDGE_BIND.REMOTE_LINK l) 0) bs.length bs

section
variable {l : Nat} (hl : s.live = true)
include hl

/-- No flit has left. -/
theorem exec_eastTokenOut_of_empty (hfs : s.sinkAt (eastCog l) .e = []) : exec (.eastTokenOut l) s = .next s := by
  show execEastTokenOut l s = _
  rw [execEastTokenOut, State.ifLive_of_live hl]
  simp only [hfs, List.isEmpty_nil, or_true, if_true]

theorem exec_eastTokenOut_of_unbound (hlt : l < 128) (hfs : s.sinkAt (eastCog l) .e ≠ []) (hv : s.rd F.RLT_EDGE_BIND.VALID l = 0) :
    exec (.eastTokenOut l) s = .next (((s.setSinkAt (eastCog l) .e []).count F.RLT_PORT_DROP.UNBOUND (l / 8)
      (s.sinkAt (eastCog l) .e).length).raise 138) := by
  have hgo : ¬(128 ≤ l ∨ (s.sinkAt (eastCog l) .e).isEmpty = true) := by simp [hfs, hlt]
  show execEastTokenOut l s = _
  rw [execEastTokenOut, State.ifLive_of_live hl]
  simp only [if_neg hgo, State.off_of_rd hv, if_true]

section
variable (hv : s.rd F.RLT_EDGE_BIND.VALID l = 1)
include hv

/-- On a bound link a token that has not left whole waits. -/
theorem exec_eastTokenOut_of_partial
    (hk : ((s.sinkAt (eastCog l) .e).takeWhile fun f => !f.eot).length = (s.sinkAt (eastCog l) .e).length) :
    exec (.eastTokenOut l) s = .next s := by
  have hon : ¬s.on F.RLT_EDGE_BIND.VALID l = false := ne_false_of_eq_true ((State.on_iff rfl).2 hv)
  show execEastTokenOut l s = _
  rw [execEastTokenOut, State.ifLive_of_live hl]
  simp only [if_neg hon, if_pos hk, ite_self]

/-- A whole token leaves as a TOKEN message of its partition, by the link's own port where that is UP. -/
theorem exec_eastTokenOut_of_whole (hlt : l < 128)
    (hk : ((s.sinkAt (eastCog l) .e).takeWhile fun f => !f.eot).length < (s.sinkAt (eastCog l) .e).length) {p : Nat}
    (hp : (s.edgeTaken l).partOfBlock (blockOf (eastCog l)) = some p) : exec (.eastTokenOut l) s = .next (
      let u := s.edgeTaken l
      let frames := u.edgeFrames l p (s.edgeToken l)
      if u.portState (l / 8) = pUp then
        frames.foldl (fun s f =>
          if s.allowed (l / 8) f.slice then s.enqueue (l / 8) ⟨f, 0, none⟩ else s.dropFrame 16 .sliceDeny ⟨f, 0, none⟩) u
      else u.originate frames none) := by
  have hgo : ¬(128 ≤ l ∨ (s.sinkAt (eastCog l) .e).isEmpty = true) := by
    rw [not_or, List.isEmpty_iff_length_eq_zero]
    omega
  have hon : ¬s.on F.RLT_EDGE_BIND.VALID l = false := ne_false_of_eq_true ((State.on_iff rfl).2 hv)
  show execEastTokenOut l s = _
  rw [execEastTokenOut, State.ifLive_of_live hl]
  refine congrArg _ ((if_neg hgo).trans ((if_neg hon).trans ((if_neg hk.ne).trans ?_)))
  simp only [State.edgeTaken, State.edgeToken] at hp
  simp only [hp]
  rfl

end

end

/-! ## Transfer rings (R378) -/

section
variable {f : FnId} {p : PartId} (hf : s.hears f.val)
include hf

theorem exec_xferCfgEnable (v : Word64) : exec (.xferCfgEnable f p v) s =
    .next (if ownFn f.val p.val then s.writeXferCfg p.val v.toNat else s.deny f.val) :=
  State.ifHost_of_hears hf ..

end

section
variable {p v : Nat}

/-- The ring's fields as RLT_XFER_CFG stores them. -/
def State.ringStored (s : State) (p v : Nat) : State :=
  ((s.wr F.RLT_XFER_CFG.SIZE_LOG2 p (clampTo 4 12 (bits v 56 4))).wr F.RLT_XFER_CFG.EVT p (bits v 48 8)).wr F.RLT_XFER_CFG.TID p (bits v 0 32)

/-- The ring tensor is main, RW and of the ring's size. -/
def State.ringFits (s : State) (p tid : Nat) : Prop :=
  ∃ t, s.mainTensor p tid = some t ∧ t.rw_ = true ∧ t.desc.length = 2 ^ s.rd F.RLT_XFER_CFG.SIZE_LOG2 p * 64

theorem State.writeXferCfg_of_enabled (he : s.rd F.RLT_XFER_CFG.ENABLE p = 1) :
    s.writeXferCfg p v = s.put F.RLT_XFER_CFG.ENABLE p (bit v 63) := if_pos ((State.on_iff rfl).2 he)

section
variable (he : s.rd F.RLT_XFER_CFG.ENABLE p = 0)
include he

theorem State.writeXferCfg_of_fits (hb : bit v 63 = true) (hfit : (s.ringStored p v).ringFits p (bits v 0 32)) :
    let u := s.ringStored p v
    s.writeXferCfg p v = ({ u with rlt := { u.rlt with xpos := Tab.set 0 u.rlt.xpos p 0 } } : State).put F.RLT_XFER_CFG.ENABLE p true := by
  obtain ⟨t, ht, hrw, hlen⟩ := hfit
  refine (if_neg (Bool.eq_false_iff.1 (State.off_of_rd he))).trans ?_
  simp only [ringStored] at ht hlen
  simp only [hb, ht, hrw, hlen, beq_self_eq_true, Bool.and_self, if_true]
  rfl

/-- Without ENABLE asked for, or without a ring that fits, the fields are stored and no more. -/
theorem State.writeXferCfg_of_not (h : bit v 63 = false ∨ ¬(s.ringStored p v).ringFits p (bits v 0 32)) :
    s.writeXferCfg p v = s.ringStored p v := by
  refine (if_neg (Bool.eq_false_iff.1 (State.off_of_rd he))).trans (if_neg ?_)
  rw [Bool.and_eq_true]
  rintro ⟨hb, hring⟩
  refine h.elim (ne_false_of_eq_true hb) fun hfit => hfit ?_
  split at hring
  next t ht =>
    rw [Bool.and_eq_true, beq_iff_eq] at hring
    exact ⟨t, ht, hring⟩
  next => cases hring

end

end

/-! ## The obligation -/

/-- Settles O41: each message by its OP and what it finds, the limits of time, the tokens of the east edge and the ring's register by their
own lemmas. -/
theorem messagesAndTokens : Obligations.MessagesAndTokens := by
  refine ⟨fun n s hl => ⟨fun m hm hop hb => ⟨fun ho => ?goesOpen, fun ho hw => ?goesWhole, fun ho hw => ?goesBad⟩,
      fun m hm hop hb => ⟨fun ht => exec_put_of_no_tensor hl hm hop hb ht, fun t ht => ⟨fun hs => exec_put_of_lost hl hm hop hb ht hs,
        fun hs hfit => exec_put_of_unfit hl hm hop hb ht hs hfit,
        fun hs hmain hrw hlen hw => exec_put_of_written hl hm hop hb ht hs hmain hrw hlen hw,
        fun hs hmain hrw hlen hw hh hload hwr u hu => ⟨fun ho => ?holds, fun ho hbad => ?whole, fun ho hbad => ?bad⟩⟩⟩,
      fun m hm => ⟨fun hb => ?lostEvent, fun hb => ?event⟩,
      fun m hm hb => ⟨fun x hx hd => exec_completion_of_own hl hm hb hx hd, fun hx => exec_completion_of_other hl hm hb hx⟩,
      fun m hm => ⟨fun hop he => exec_token_of_foreign hl hm hop he, fun hop he hb => exec_token_of_bad hl hm hop he hb,
        fun ho hd => ?timeout, fun h => ?inTime⟩,
      fun p x hx hs h0 hd => exec_putTimeout_of_sent hl hx hs h0 hd⟩,
    fun n s m hl hm hop hb hd he hroom => exec_token_of_whole hl hm hop he hb hd hroom,
    fun l s hl hlt => ⟨fun hfs => exec_eastTokenOut_of_empty hl hfs, fun hfs hv => exec_eastTokenOut_of_unbound hl hlt hfs hv,
      fun hv => ⟨fun hk => exec_eastTokenOut_of_partial hl hv hk, fun hk p hp => ⟨fun hup => ?ownPort, fun hup => ?core⟩⟩⟩,
    fun f p v s hf => ⟨fun how => ⟨fun he => ?enabled, fun he => ⟨fun hb hfit => ?starts, fun h => ?stores⟩⟩, fun how => ?denied⟩⟩
  case goesOpen => rw [exec_put_of_begun hl hm hop hb, State.putGoes_of_open ho]
  case goesWhole => rw [exec_put_of_begun hl hm hop hb, State.putGoes_of_whole ho hw]
  case goesBad => rw [exec_put_of_begun hl hm hop hb, State.putGoes_of_bad ho hw]
  case holds => rw [exec_put_of_granted hl hm hop hb ht hs hmain hrw hlen hw hh hload hwr hu, State.putGoes_of_open ho]
  case whole => rw [exec_put_of_granted hl hm hop hb ht hs hmain hrw hlen hw hh hload hwr hu, State.putGoes_of_whole ho hbad]
  case bad => rw [exec_put_of_granted hl hm hop hb ht hs hmain hrw hlen hw hh hload hwr hu, State.putGoes_of_bad ho hbad]
  case lostEvent => rw [exec_event_of_msg hl hm, if_pos hb]
  case event => rw [exec_event_of_msg hl hm, if_neg (Bool.eq_false_iff.1 hb)]
  case timeout => rw [exec_messageTimeout_of_msg hl hm, ho, hd, Bool.and_self, if_pos rfl]
  case inTime => rw [exec_messageTimeout_of_msg hl hm, if_neg (by rcases h with h | h <;> simp [h])]
  case ownPort => exact (exec_eastTokenOut_of_whole hl hv hlt hk hp).trans (congrArg _ (if_pos hup))
  case core => exact (exec_eastTokenOut_of_whole hl hv hlt hk hp).trans (congrArg _ (if_neg hup))
  case enabled => rw [exec_xferCfgEnable hf, if_pos how, State.writeXferCfg_of_enabled he]
  case starts => exact (exec_xferCfgEnable hf v).trans (congrArg _ ((if_pos how).trans (State.writeXferCfg_of_fits he hb hfit)))
  case stores => exact (exec_xferCfgEnable hf v).trans (congrArg _ ((if_pos how).trans (State.writeXferCfg_of_not he h)))
  case denied => rw [exec_xferCfgEnable hf, if_neg (Bool.eq_false_iff.1 how)]

end Sys2Proof.Machine
end

section
/-! PROOFS. What a block without clocks answers (R398, R443, R508), and the obligation that it stays dead until a cold reset. -/

namespace Sys2Proof.Machine

variable {s u : State} {r r' : Result}

/-! ## What stands while the clocks stand -/

/-- The two states differ at most in registers, in pins other than POR_N, in the counter of free values and in what has left the package. -/
def Stands (s t : State) : Prop := ∃ regs pins fresh out, pins.porLow = s.pins.porLow ∧
  t = { s with regs := regs, pins := pins, fresh := fresh, out := out }

theorem Stands.refl (s : State) : Stands s s := ⟨s.regs, s.pins, s.fresh, s.out, rfl, rfl⟩

theorem Stands.clocks (h : Stands s u) : u.clocks = s.clocks := by
  obtain ⟨-, -, -, -, -, rfl⟩ := h
  rfl

/-- A register may change. -/
theorem Stands.put (h : Stands s u) (f : Fld) (i : Nat) (b : Bool) : Stands s (u.put f i b) := by
  obtain ⟨-, pins, fresh, out, hpins, rfl⟩ := h
  exact ⟨_, pins, fresh, out, hpins, rfl⟩

/-- A pin other than POR_N may change. -/
theorem Stands.ofPins {x : Pins} (hx : x.porLow = s.pins.porLow) : Stands s { s with pins := x } := ⟨s.regs, x, s.fresh, s.out, hx, rfl⟩

/-- A next state, if there is one, differs from `s` at most so. -/
def standsIn (s : State) (r : Result) : Prop := ∀ t, r = .next t → Stands s t

theorem standsIn_next (h : Stands s u) : standsIn s (.next u) := by
  rintro t ⟨⟩
  exact h

theorem standsIn_same (s : State) : standsIn s (.next s) := standsIn_next (.refl s)

theorem standsIn_fault (s : State) (x : Fault) : standsIn s (.fault x) := by
  rintro t ⟨⟩

theorem standsIn_ite {p : Prop} [Decidable p] (h : standsIn s r) (h' : standsIn s r') : standsIn s (if p then r else r') := by
  split_ifs
  · exact h
  · exact h'

/-! ## The gates without clocks -/

section
variable (hc : s.clocks = false)
include hc

theorem State.live_of_stopped : s.live = false := by
  simp only [State.live, hc, Bool.false_and]

/-- What needs a live device does nothing. -/
theorem standsIn_ifLive (h : Stands s u) (t : State) : standsIn s (u.ifLive t) := by
  rw [State.ifLive_of_not_live (State.live_of_stopped (h.clocks.trans hc))]
  exact standsIn_next h

theorem standsIn_ifClocked (t : State) : standsIn s (s.ifClocked t) := by
  simp only [State.ifClocked, hc, Bool.false_and, Bool.false_eq_true, if_false]
  exact standsIn_same s

/-- The governor does nothing. -/
theorem standsIn_ifGoverned (h : Stands s u) (t : State) : standsIn s (u.ifGoverned t) := by
  simp only [State.ifGoverned, h.clocks.trans hc, Bool.false_and, Bool.false_eq_true, if_false]
  exact standsIn_next h

/-- A pin is driven, and nobody samples it. -/
theorem standsIn_drives {g : Pins → Pins} (hg : (g s.pins).porLow = s.pins.porLow) (f : State → State) : standsIn s (s.drives g f) :=
  standsIn_ifGoverned hc (.ofPins hg) _

/-- No cog issues. -/
theorem standsIn_cogStepWith (c opc : Nat) (skip : CogInstr → Cog → Cog) (f : CogInstr → List Nat → Cog → Cog) :
    standsIn s (.next (s.cogStepWith c opc skip f)) := by
  have hfetch : s.cogFetch c opc = none := by
    rw [State.cogFetch, State.live_of_stopped hc]
    rfl
  rw [State.cogStepWith_of_no_fetch hfetch]
  exact standsIn_same s

/-- No hub executes. -/
theorem standsIn_hubExec (h opc : Nat) (f : HubInstr → State) : standsIn s (hubExec h opc s f) := by
  have hfetch : s.hubFetch h opc = none := by
    rw [State.hubFetch, State.live_of_stopped hc]
    rfl
  rw [hubExec_of_no_fetch hfetch]
  exact standsIn_same s

theorem standsIn_illegalInstruction (h : HubId) : standsIn s (execIllegalInstruction h s) := by
  rw [execIllegalInstruction, State.live_of_stopped hc]
  exact standsIn_same s

/-- No request reaches the mailbox. -/
theorem standsIn_mboxRow (f : State → List Byte → Done) (op : Nat) (tag : Word32) (pl : List Byte) :
    standsIn s (s.mboxRow f op tag pl) :=
  standsIn_ite (standsIn_fault s _) (standsIn_ifLive hc (.refl s) _)

theorem standsIn_bar2Read (f : FnId) (off len : Nat) : standsIn s (execBar2Read f off len s) := by
  have hserves : s.servesReads = false := by simp only [State.servesReads, hc, Bool.false_and]
  rw [execBar2Read, if_pos (Or.inl hserves)]
  exact standsIn_ite (standsIn_fault s _) (standsIn_same s)

/-- No register is written, in any of the three address spaces. -/
theorem standsIn_registerWrite (f : FnId) (bar off size : Nat) (v : Word64) : standsIn s (execRegisterWrite f bar off size v s) :=
  standsIn_ite (standsIn_ifClocked hc _) (standsIn_ite (standsIn_ifLive hc (.refl s) _)
    (standsIn_ite (standsIn_fault s _) (standsIn_ifLive hc (.refl s) _)))

/-- A GPIO pin shows its new level and raises nothing. -/
theorem standsIn_gpioEdge (n : GpioId) (level : Bool) : standsIn s (execGpioEdge n level s) := by
  have hpin : Stands s { s with pins := { s.pins with gpio := Tab.set false s.pins.gpio n.val level } } := .ofPins rfl
  exact standsIn_ite (standsIn_same s) (standsIn_ifLive hc (hpin.put F.OBS_GPIO_CFG.LEVEL n.val level) _)

end

/-- The TAP has its own clock (R512). -/
theorem standsIn_boundaryScan (code : Nat) (s : State) : standsIn s (execBoundaryScan code s) :=
  standsIn_ite (standsIn_next ⟨s.regs, { s.pins with jtag := code % 256 }, s.fresh + 1, _, rfl, rfl⟩)
    (standsIn_next ⟨s.regs, { s.pins with jtag := code % 256 }, s.fresh, _, rfl, rfl⟩)

/-- The boot ROM starts at the rise of POR_N only, or where the clocks run (R450). -/
theorem exec_bootRom_of_stopped (hc : s.clocks = false) (hp : s.pins.porLow = false) : exec .bootRom s = .next s := by
  show execBootRom s = _
  rw [execBootRom, hc, hp]
  rfl

/-- Without clocks, and with POR_N high, no command but a cold reset changes more than registers, pins and what has left the package. -/
theorem standsIn_exec (hc : s.clocks = false) (hp : s.pins.porLow = false) {c : Instr} (hne : c ≠ .coldReset) : standsIn s (exec c s) := by
  cases c with
  | coldReset => exact absurd rfl hne
  | bootRom =>
    rw [exec_bootRom_of_stopped hc hp]
    exact standsIn_same s
  | nop | loop | br | cogEnd | stop | aimm | aadd | aaddr | pcmp | pset | acnt | mma | accrd | accz | vmov | vadd | vsub | vmul | vfma | vmax
  | vmin | vcmp | vsel | vcvt | vred | vexp2 | vrcp | vrsq | vbcast | vimm | vtst | uread | uwrite => exact standsIn_cogStepWith hc _ _ _ _
  | hubNop | li | lih | add | sub | hubAnd | hubOr | hubXor | shl | shr | mul | setc | ld | st | time | hubBr | call | ret | hubEnd | abort
  | iret | jnote | define | load | flush | evict | free | copy | trd | twr | gload | shift | shiftResume | run | drain | wait | fence | evsig
  | evwait | notify | step | seqend | hlib => exact standsIn_hubExec hc _ _ _
  | illegalInstruction h => exact standsIn_illegalInstruction hc h
  | blkFormat | catCreate | catWrite | catSeal | catGrant | catDelete | haltJournalRead | attest | certRead | authProvision | updWrite
  | updActivate => exact standsIn_mboxRow hc _ _ _ _
  | mbxUnknownOp op tag => exact standsIn_ite (standsIn_same s) (standsIn_mboxRow hc _ _ _ _)
  | throttleN low => exact standsIn_drives hc (g := fun x => { x with throttle := low }) rfl (·.throttleSeen low)
  | coolantAlertN low => exact standsIn_drives hc (g := fun x => { x with coolant := low }) rfl (·.coolantSeen low)
  | pwrStepChange code => exact standsIn_drives hc (g := fun x => { x with step := code % 8 }) rfl (·.stepSeen (code % 8))
  | governorSample | governorEval | divisorChange | brakeRelease | throttleRelease | coolantCeilingLift | cap | ramp | pldmMode | heartbeat
  | kickstandEnter | kickstandSafe | tempSample | marginTrim => exact standsIn_ifGoverned hc (.refl s) _
  | sensorCheck readings => exact standsIn_ite (standsIn_fault s _) (standsIn_ifGoverned hc (.refl s) _)
  | hardwareTrip | refclkLoss | debugInstruction | fatalJournalSave | ideKm | busMasterChange | dStateChange =>
    exact standsIn_ifClocked hc _
  | pcieLinkTrain | msixSend => exact standsIn_ite (standsIn_fault s _) (standsIn_ifClocked hc _)
  | registerWrite f bar off size v => exact standsIn_registerWrite hc f bar off size v
  | bar2Read f off len => exact standsIn_bar2Read hc f off len
  | bar2Write | winMapWrite | faultyTlp | warmDeviceReset => exact standsIn_ite (standsIn_fault s _) (standsIn_ifLive hc (.refl s) _)
  | frameReceive => exact standsIn_ite (standsIn_ifLive hc (.refl s) _) (standsIn_fault s _)
  | intcCpl => exact standsIn_ite (standsIn_ifLive hc (.refl s) _) (standsIn_ifLive hc (.refl s) _)
  | gpioEdge n level => exact standsIn_gpioEdge hc n level
  | boundaryScan code => exact standsIn_boundaryScan code s
  | _ => exact standsIn_ifLive hc (.refl s) _

/-! ## Steps without clocks -/

/-- Device time stands without clocks. -/
theorem State.tick_of_stopped (hc : s.clocks = false) : s.tick = s := by
  rw [State.tick, hc]
  rfl

/-- A step of a dead block takes the front command, if one waits, and changes no more than such a command does. -/
theorem stands_step {t : State} (hd : s.dead) (h : step s = .next t) : Stands { s with pending := s.pending.tail } t := by
  obtain ⟨hc, hp, hq⟩ := hd
  cases hpend : s.pending with
  | nil =>
    rw [step_nil hpend, State.tick_of_stopped hc] at h
    obtain rfl := Host.Outcome.next.inj h
    rw [List.tail_nil, ← hpend]
    exact .refl s
  | cons c rest =>
    rw [step_cons hpend] at h
    have hne : c ≠ .coldReset := fun hcold => hq (hpend ▸ hcold ▸ List.mem_cons_self)
    exact standsIn_exec (s := { s with pending := rest }) hc hp hne t h

/-! ## The obligation -/

/-- Settles O53: a step of a dead block changes at most registers, pins other than POR_N, free values and what has left the package. -/
theorem deadBlocksStayDead : Obligations.DeadBlocksStayDead := by
  intro s t hd hstep
  obtain ⟨regs, pins, fresh, out, hpins, rfl⟩ := stands_step hd hstep
  obtain ⟨hc, hp, hq⟩ := hd
  exact ⟨⟨hc, hpins.trans hp, fun hcold => hq (List.mem_of_mem_tail hcold)⟩, rfl, rfl, rfl, rfl, rfl, rfl, rfl, rfl, rfl, rfl, rfl, rfl⟩

end Sys2Proof.Machine
end

section
/-! PROOFS. DMA reads that complete, fail and time out (R396, R397, R399), configuration writes (R391, R401, R402), the link (R379), IDE (R394,
R395) and MSI-X messages (R414), and the obligation about them. -/

namespace Sys2Proof.Machine

variable {s : State} {f : FnId} {tag : Nat} {e : Dma}

/-! ## DMA reads (R396, R397, R399) -/

/-- A read that fails for the second time has failed as a host read (R192). -/
theorem State.dmaFails_of_again (h : e.again = true) : s.dmaFails tag e = (s.pciEvent 8 e.f e.addr).readFails tag e := by
  rw [State.dmaFails, h]
  rfl

/-- A read that fails for the first time: logged, and due to be requested again. -/
def State.asksAgain (s : State) (tag : Nat) (e : Dma) : State :=
  let v := s.pciEvent 8 e.f e.addr
  ({ v with pci := { v.pci with dma := Tab.insert v.pci.dma tag { e with again := true, sent := false } } } : State).fault 0

/-- It is requested again at once where its function may master the bus (R391). -/
theorem State.dmaFails_of_first (h : e.again = false) : s.dmaFails tag e =
    if (s.asksAgain tag e).busOk e.f then (s.asksAgain tag e).sendHeld tag { e with again := true, sent := false }
    else s.asksAgain tag e := by
  rw [State.dmaFails, h]
  rfl

section
variable (hl : s.live = true)
include hl

theorem exec_dmaCompletion_of_refused (hr : s.ideRefuses f.val = true) (ok : Bool) :
    exec (.dmaCompletion f tag ok) s = .next (s.pciEvent 10 f.val (((s.dmaOf tag).map (·.addr)).getD 0)) :=
  (State.ifLive_of_live hl).trans (congrArg _ (if_pos hr))

/-- A completion that no read of its function awaits. -/
theorem exec_dmaCompletion_of_stray (hr : s.ideRefuses f.val = false) (h : ∀ e, s.dmaOf tag = some e → e.f ≠ f.val) (ok : Bool) :
    exec (.dmaCompletion f tag ok) s = .next (s.pciEvent 7 f.val 0) := by
  have hnone : (s.dmaOf tag).filter (fun e => e.f == f.val) = none := by
    simpa [Option.filter_eq_none_iff] using h
  show execDmaCompletion f tag ok s = _
  rw [execDmaCompletion, State.ifLive_of_live hl, if_neg (ne_true_of_eq_false hr), hnone]

/-- A completion of a read of its function. -/
theorem exec_dmaCompletion_of_own (hr : s.ideRefuses f.val = false) (he : s.dmaOf tag = some e) (hf : e.f = f.val) (ok : Bool) :
    exec (.dmaCompletion f tag ok) s = .next (if e.dropped then s.dropDma tag else if ok then s.dropDma tag else s.dmaFails tag e) := by
  have hown : (s.dmaOf tag).filter (fun e => e.f == f.val) = some e := by
    rw [he, Option.filter_some, if_pos (beq_iff_eq.2 hf)]
  show execDmaCompletion f tag ok s = _
  rw [execDmaCompletion, State.ifLive_of_live hl, if_neg (ne_true_of_eq_false hr), hown]

theorem exec_completionTimeout_of_none (h : s.dmaOf tag = none) : exec (.completionTimeout tag) s = .next s := by
  show execCompletionTimeout tag s = _
  rw [execCompletionTimeout, State.ifLive_of_live hl, h]

theorem exec_completionTimeout_of_sent (he : s.dmaOf tag = some e) (hd : e.dropped = false) :
    exec (.completionTimeout tag) s = .next (s.dmaFails tag e) := by
  show execCompletionTimeout tag s = _
  rw [execCompletionTimeout, State.ifLive_of_live hl, he]
  exact congrArg _ (if_neg (ne_true_of_eq_false hd))

end

/-! ## The link (R379, R380) -/

/-- What a link that settles leaves: its speed, its width and its mode, and whether it is degraded. -/
def State.linkSettled (s : State) (speed width : Nat) (flit retrain : Bool) : State :=
  let u := ((s.wr F.PCI_LINK_STATUS.SPEED 0 speed).wr F.PCI_LINK_STATUS.WIDTH 0 width).put F.PCI_LINK_STATUS.FLIT 0 flit
  (if retrain then u.count F.PCI_LINK_STATUS.RETRAINS 0 1 else u).put F.PCI_LINK_STATUS.DEGRADED 0 (decide (speed < 4 ∨ width < 8))

/-- A link that settles at a speed and a width of R379, not before 20 ms after the rise of POR_N. -/
theorem exec_pcieLinkTrain_of_due (hc : s.clocks = true) (hp : s.pins.porLow = false) {speed width : Nat} {flit : Bool} (hlo : 1 ≤ speed)
    (hhi : speed ≤ 6) (hflit : speed = 6 → flit = true) (hw : width ∈ [1, 2, 4, 8, 16]) (hd : s.due 0 20000000 = true) (retrain : Bool) :
    exec (.pcieLinkTrain speed width flit retrain) s = .next (
      if s.on F.PCI_LINK_STATUS.DEGRADED 0 = decide (speed < 4 ∨ width < 8) then s.linkSettled speed width flit retrain
      else (s.linkSettled speed width flit retrain).raise 155) := by
  have hmode : (speed != 6 || flit) = true := by
    rw [Bool.or_eq_true, bne_iff_ne]
    exact (ne_or_eq speed 6).imp_right hflit
  have hform : (decide (1 ≤ speed ∧ speed ≤ 6) && [1, 2, 4, 8, 16].contains width && (speed != 6 || flit)) = true := by
    rw [Bool.and_eq_true, Bool.and_eq_true, decide_eq_true_eq, List.contains_iff_mem]
    exact ⟨⟨⟨hlo, hhi⟩, hw⟩, hmode⟩
  show execPcieLinkTrain speed width flit retrain s = _
  rw [execPcieLinkTrain, hform, if_neg (by decide), State.ifClocked_of_clocks hc hp, if_neg (ne_false_of_eq_true hd)]
  rfl

/-! ## IDE (R395, R474) -/

theorem exec_ideIntegrityFail_of_insecure (hl : s.live = true) (h : s.rd F.PCI_IDE_STATE.SECURE f.val = 0) :
    exec (.ideIntegrityFail f) s = .next s := by
  have hoff : s.on F.PCI_IDE_STATE.SECURE f.val = false := by rw [State.on, h]; rfl
  exact (State.ifLive_of_live hl).trans (congrArg _ (if_neg (ne_true_of_eq_false hoff)))

/-- A Secure stream that fails: Insecure, counted, and its keys gone. -/
def State.ideFailed (s : State) (f : Nat) : State :=
  let u := ((s.put F.PCI_IDE_STATE.SECURE f false).count F.PCI_IDE_STATE.FAILS f 1).fault 3
  { u with pci := { u.pci with ideKeys := Tab.erase u.pci.ideKeys f, ideDown := Tab.set false u.pci.ideDown f true } }

/-- The load that an outstanding read is for fails. -/
def State.failLoadOf (s : State) (e : Nat × Dma) : State :=
  match s.tensor e.2.part e.2.tid with
  | some t => if t.state = .loading then s.loadFails e.2.part e.2.tid t else s
  | none => s

/-- The failure is logged at an address that is a free value (log 67), and the loads that its function's reads are for fail. -/
theorem exec_ideIntegrityFail_of_secure (hl : s.live = true) (h : s.rd F.PCI_IDE_STATE.SECURE f.val = 1) :
    exec (.ideIntegrityFail f) s = .next (
      let w := ((s.ideFailed f.val).draw 48).2.pciEvent 10 f.val ((s.ideFailed f.val).draw 48).1
      (w.pci.dma.filter fun e => e.2.f == f.val && !e.2.dropped).foldl State.failLoadOf w) := by
  have hon : s.on F.PCI_IDE_STATE.SECURE f.val = true := by rw [State.on, h]; rfl
  exact (State.ifLive_of_live hl).trans (congrArg _ (if_pos hon))

/-! ## MSI-X (R391, R414) -/

/-- The MSI-X sender may send a message: it is pending, neither it nor its function is masked, and its function may master the bus. -/
def State.msixReady (s : State) (f vec : Nat) : Bool :=
  s.msix.contains (f * 64 + vec) && s.busOk f && Tab.get false s.pci.msixEn f && !Tab.get false s.pci.fnMask f &&
    (Tab.get (0, 0, false) s.pci.msixTab (f * 64 + vec)).2.2

theorem exec_msixSend_of_clocks (hc : s.clocks = true) (hp : s.pins.porLow = false) {vec : Nat} (hv : vec < 64) :
    exec (.msixSend f vec) s = .next (if s.msixReady f.val vec then
      ({ s with msix := s.msix.filter (· != f.val * 64 + vec) } : State).sendTlp f.val 0 (.msix f.val vec) else s) :=
  (if_neg (not_le.2 hv)).trans (State.ifClocked_of_clocks hc hp)

/-! ## The obligation -/

/-- Settles O43: each completion by the read that awaits it, configuration writes by the gate of R401 and R451, the link, IDE and MSI-X by their
own lemmas. -/
theorem hostLinkAndFunctions : Obligations.HostLinkAndFunctions := by
  refine ⟨fun f tag s hl => ⟨fun hr ok => exec_dmaCompletion_of_refused hl hr ok,
      fun hr => ⟨fun h ok => exec_dmaCompletion_of_stray hl hr h ok, fun e he hf => ⟨fun hd ok => ?stale, fun hd => ⟨?good, ?bad⟩⟩⟩,
      fun h => exec_completionTimeout_of_none hl h,
      fun e he hd => ⟨fun hagain => ?second, fun hagain => ⟨State.dmaFails_of_first hagain, exec_completionTimeout_of_sent hl he hd⟩⟩⟩,
    fun f b s hc hp => ⟨fun hr => ⟨State.ifConfig_of_inReset hc hp hr _, State.ifConfig_of_inReset hc hp hr _⟩,
      fun hr hn hu => ⟨State.ifConfig_of_not_ready hc hp hr hn hu _, State.ifConfig_of_not_ready hc hp hr hn hu _⟩,
      fun hr h => ⟨State.ifConfig_of_ready hc hp hr h _, State.ifConfig_of_ready hc hp hr h _⟩⟩,
    fun speed width flit retrain s hc hp hlo hhi hflit hw hd => exec_pcieLinkTrain_of_due hc hp hlo hhi hflit hw hd retrain,
    fun f key s hc hp => State.ifClocked_of_clocks hc hp,
    fun f s hl => ⟨exec_ideIntegrityFail_of_insecure hl, fun h => exec_ideIntegrityFail_of_secure hl h⟩,
    fun f vec s hc hp hv => ⟨fun hready => ?sent, fun hready => ?waits⟩⟩
  case stale => exact (exec_dmaCompletion_of_own hl hr he hf ok).trans (congrArg _ (if_pos hd))
  case good =>
    rw [exec_dmaCompletion_of_own hl hr he hf, if_neg (ne_true_of_eq_false hd), if_pos rfl]
    rfl
  case bad => rw [exec_dmaCompletion_of_own hl hr he hf, if_neg (ne_true_of_eq_false hd), if_neg Bool.false_ne_true]
  case second => rw [exec_completionTimeout_of_sent hl he hd, State.dmaFails_of_again hagain]
  case sent => exact (exec_msixSend_of_clocks hc hp hv).trans (congrArg _ (if_pos hready))
  case waits => exact (exec_msixSend_of_clocks hc hp hv).trans (congrArg _ (if_neg (ne_true_of_eq_false hready)))

end Sys2Proof.Machine
end

section
/-! PROOFS. What a cold reset keeps (R398, R470, R509, R516), warm and function-level resets (R398 to R400), the boot ROM (R450) and firmware
boot (R451), and the obligation about them. -/

namespace Sys2Proof.Machine

variable {s t : State}

/-! ## States alike but for registers, and but for fuses -/

/-- A state without its registers, its free values and the time of its nonce. -/
def State.noRegs (s : State) : State := { s with regs := [], fresh := 0, sec := { s.sec with nonceAt := 0 } }

/-- The same without the authorities' hashes, which fuses hold too. -/
def State.noFuses (s : State) : State := { s.noRegs with sec := { s.noRegs.sec with authHash := [] } }

theorem State.noRegs_wr (s : State) (f : Fld) (i v : Nat) : (s.wr f i v).noRegs = s.noRegs := rfl

theorem State.noRegs_newNonce (s : State) : s.newNonce.noRegs = s.noRegs := rfl

theorem State.noFuses_of_noRegs (h : s.noRegs = t.noRegs) : s.noFuses = t.noFuses :=
  congrArg (fun u : State => { u with sec := { u.sec with authHash := [] } }) h

theorem State.noRegs_foldl {α : Type} {g : State → α → State} (hg : ∀ u a, (g u a).noRegs = u.noRegs) (l : List α) (s : State) :
    (l.foldl g s).noRegs = s.noRegs :=
  List.foldlRecOn (motive := fun u : State => u.noRegs = s.noRegs) _ _ rfl fun u hu a _ => (hg u a).trans hu

theorem State.noFuses_foldl {α : Type} {g : State → α → State} (hg : ∀ u a, (g u a).noFuses = u.noFuses) (l : List α) (s : State) :
    (l.foldl g s).noFuses = s.noFuses :=
  List.foldlRecOn (motive := fun u : State => u.noFuses = s.noFuses) _ _ rfl fun u hu a _ => (hg u a).trans hu

/-! ## Cold reset (R398) -/

/-- What a burn of field fuses that a power loss cuts short leaves is a matter of fuses alone (R470). -/
theorem State.noFuses_cutBurn (s t : State) (b : Burn) : (s.cutBurn b t).noFuses = t.noFuses := by
  refine (State.noFuses_foldl (fun u e => ?_) _ _).trans rfl
  split_ifs
  · rfl
  · rfl
  · rfl

theorem State.burnLoss_of_none (h : s.sec.burn = none) (t : State) : s.burnLoss t = t := by
  simp only [State.burnLoss, h]

theorem State.noFuses_burnLoss (s t : State) : (s.burnLoss t).noFuses = t.noFuses := by
  unfold State.burnLoss
  split
  · rfl
  · split_ifs
    · rfl
    · exact State.noFuses_cutBurn ..

/-- A power loss may cost the saved journal, where it falls between JOURNAL_FINAL and SAVED, and nothing else (log 68). -/
theorem State.saveLoss_eq (s t : State) : ∃ fresh saved, s.saveLoss t = { t with fresh := fresh, saved := saved } ∧
    (saved = t.saved ∨ saved = none) ∧
    (s.rd F.OBS_FATAL.JOURNAL_FINAL 0 = 0 ∨ s.rd F.OBS_FATAL.SAVED 0 = 1 → saved = t.saved) := by
  unfold State.saveLoss
  split
  next hcut =>
    have hnot : ¬(s.rd F.OBS_FATAL.JOURNAL_FINAL 0 = 0 ∨ s.rd F.OBS_FATAL.SAVED 0 = 1) := by
      rintro (h | h) <;> simp [State.on, h] at hcut
    by_cases hlost : (t.draw 1).1 = 1
    · exact ⟨_, none, if_pos hlost, .inr rfl, fun h => absurd h hnot⟩
    · exact ⟨_, t.saved, if_neg hlost, .inl rfl, fun _ => rfl⟩
  next => exact ⟨t.fresh, t.saved, rfl, .inl rfl, fun _ => rfl⟩

/-- The same part on the same board, before the registers that it keeps or samples are set. -/
def State.coldPart (s : State) : State :=
  { State.reset with
    regs := s.regs.filter fun e => fuseRegs.any fun k => k.code == e.1 % 256
    blk := s.blk.lossOf
    lpx := { State.reset.lpx with retired := s.lpx.retired }
    sec := { State.reset.sec with uid := s.sec.uid, seed := s.sec.seed, trims := s.sec.trims, fuseCrc := s.sec.fuseCrc, flash := s.sec.flash,
                                  cert := s.sec.cert, authHash := s.sec.authHash, fuseFails := s.sec.fuseFails }
    pins := { s.pins with porLow := true, thermTrip := false, devFault := false, pulses := [] }
    board := s.board
    saved := s.saved
    fresh := s.fresh
    out := s.out
    hostMem := s.hostMem
    pending := s.pending }

/-- Those registers set. -/
def State.coldRegs (s : State) : State :=
  let t := (List.range 64).foldl (fun t c => t.wr F.LPX_CH_STATE.RETIRED_PAGES c (s.rd F.LPX_CH_STATE.RETIRED_PAGES c)) s.coldPart
  let t := (t.wr F.LPX_PG_CNT.RETIRED 0 s.lpx.retired.length).wr F.BLK_RD_CFG.RD_KREADS 0 (if s.board.cell = 2 then 1000 else 4000)
  (List.range 16).foldl (fun t n => t.put F.OBS_GPIO_CFG.LEVEL n (Tab.get false s.pins.gpio n)) t

theorem State.noRegs_coldRegs (s : State) : s.coldRegs.noRegs = s.coldPart.noRegs := by
  unfold State.coldRegs
  rw [State.noRegs_foldl, State.noRegs_wr, State.noRegs_wr, State.noRegs_foldl]
  · exact fun _ _ => rfl
  · exact fun _ _ => rfl

/-- Then what a burn under way leaves of the fuses, DEBUG_SEEN clear and a new nonce. -/
def State.coldFuses (s : State) : State := ((s.burnLoss s.coldRegs).put F.SEC_FUSE_STATE.DEBUG_SEEN 0 false).newNonce

theorem State.coldReset_eq (s : State) : s.coldReset = s.saveLoss s.coldFuses := rfl

theorem State.noFuses_coldFuses (s : State) : s.coldFuses.noFuses = s.coldPart.noFuses :=
  (State.noFuses_burnLoss s _).trans (State.noFuses_of_noRegs s.noRegs_coldRegs)

theorem State.noRegs_coldFuses (h : s.sec.burn = none) : s.coldFuses.noRegs = s.coldPart.noRegs := by
  rw [State.coldFuses, State.burnLoss_of_none h, State.noRegs_newNonce, State.put, State.noRegs_wr, State.noRegs_coldRegs]

/-! ## The boot ROM (R450) -/

/-- Reset is released, and the checks of component 1 of both bundles are recorded. -/
def State.romChecked (s : State) : State :=
  (s.release_.wr F.SEC_BOOT_STATUS.FAIL_A 0 (s.release_.imageCheck 0 1)).wr F.SEC_BOOT_STATUS.FAIL_B 0 (s.release_.imageCheck 1 1)

section
variable (hp : s.pins.porLow = true)
include hp

/-- A fuse group that fails its CRC leaves RECOVERY. -/
theorem exec_bootRom_of_bad_fuses (hcrc : s.release_.sec.fuseCrc = false) :
    exec .bootRom s = .next (s.release_.wr F.SEC_BOOT_STATUS.STATE 0 3) := by
  show execBootRom s = _
  simp only [execBootRom, hp, Bool.true_or, if_true, hcrc]

/-- With neither copy accepted the ROM leaves RECOVERY. -/
theorem exec_bootRom_of_no_image (hcrc : s.release_.sec.fuseCrc = true)
    (hk : s.romChecked.romPick (s.release_.imageCheck 0 1) (s.release_.imageCheck 1 1) = none) :
    exec .bootRom s = .next (s.romChecked.wr F.SEC_BOOT_STATUS.STATE 0 3) := by
  unfold State.romChecked at hk
  show execBootRom s = _
  simp only [execBootRom, hp, Bool.true_or, if_true, hcrc, Bool.true_eq_false, if_false, hk, State.romChecked]

/-- The copy that the ROM takes is measured and runs. -/
theorem exec_bootRom_of_image (hcrc : s.release_.sec.fuseCrc = true) {k : Nat}
    (hk : s.romChecked.romPick (s.release_.imageCheck 0 1) (s.release_.imageCheck 1 1) = some k) : exec .bootRom s = .next (
      (((s.romChecked.romMeasure (s.release_.imageCheck 0 1) (s.release_.imageCheck 1 1)).setRunning 1 (s.romChecked.imageOf k 1)).wr
        F.SEC_BOOT_STATUS.BUNDLE 0 k).wr F.SEC_BOOT_STATUS.VERSION 0 (s.romChecked.imageOf k 1).version) := by
  unfold State.romChecked at hk
  show execBootRom s = _
  simp only [execBootRom, hp, Bool.true_or, if_true, hcrc, Bool.true_eq_false, if_false, hk, State.romChecked]

end

/-! ## Firmware boot (R451) -/

/-- The components that firmware takes, from its own bundle `b` where it can. -/
def State.bootComps (s : State) (b : Nat) : State := [2, 3, 4].foldl (fun (s : State) c => s.bootComp b c) s

/-- The tiers are trained. -/
def State.trained (s : State) : State := s.trainMain.trainBulk

/-- The device becomes ready. -/
def State.booted (s : State) : State :=
  (({ s with pci := { s.pci with ready := true } } : State).wr F.SEC_BOOT_STATUS.STATE 0 1).samplePins

section
variable {x : Running} (hl : s.live = true) (hx : Tab.find s.sec.running 1 = some x) (h0 : s.rd F.SEC_BOOT_STATUS.STATE 0 = 0)
  (hr : s.pci.ready = false)
include hl hx h0 hr

/-- Firmware boots once, after the ROM has started it; where a component has no copy that is accepted, the boot ends there. -/
theorem exec_firmwareBoot_of_bad_image (hbad : (s.bootComps x.bundle).unbooted = true) :
    exec .firmwareBoot s = .next (s.bootComps x.bundle) := by
  unfold State.bootComps at hbad
  show execFirmwareBoot s = _
  simp only [execFirmwareBoot, State.ifLive_of_live hl, hx, h0, hr, hbad, ne_eq, not_true_eq_false, Bool.false_eq_true, or_self, if_false,
    if_true, State.bootComps]

theorem exec_firmwareBoot_of_record (hgood : (s.bootComps x.bundle).unbooted = false) {r : List Byte}
    (hrec : (s.bootComps x.bundle).trained.boardRecord = some r) : exec .firmwareBoot s = .next
      ((List.range 16).foldl (fun (v : State) n => v.bootPin r n) (s.bootComps x.bundle).trained).booted := by
  unfold State.trained State.bootComps at *
  show execFirmwareBoot s = _
  simp only [execFirmwareBoot, State.ifLive_of_live hl, hx, h0, hr, hgood, hrec, ne_eq, not_true_eq_false, Bool.false_eq_true, or_self,
    if_false, State.booted]

theorem exec_firmwareBoot_of_no_record (hgood : (s.bootComps x.bundle).unbooted = false)
    (hrec : (s.bootComps x.bundle).trained.boardRecord = none) : exec .firmwareBoot s = .next (s.bootComps x.bundle).trained.booted := by
  unfold State.trained State.bootComps at *
  show execFirmwareBoot s = _
  simp only [execFirmwareBoot, State.ifLive_of_live hl, hx, h0, hr, hgood, hrec, ne_eq, not_true_eq_false, Bool.false_eq_true, or_self,
    if_false, State.booted]

end

/-! ## Warm and function-level resets (R398 to R400) -/

section
variable (hl : s.live = true)
include hl

theorem exec_warmDeviceReset_of_cause {cause : Nat} (hlo : cause ≠ 0) (hhi : cause ≤ 4) : exec (.warmDeviceReset cause) s =
    .next (if cause = 1 ∧ s.pci.ready = false then s else s.warmReset cause) :=
  (if_neg (by omega)).trans (State.ifLive_of_live hl)

theorem exec_functionLevelReset_of_live (f : FnId) : exec (.functionLevelReset f) s = .next (
    if f.val = 0 then s.warmReset 4
    else if s.present f.val = false then s
    else if s.inReset f.val then { s with pci := { s.pci with flrPend := s.pci.flrPend ++ [f.val] } }
    else s.flr (f.val - 1)) :=
  State.ifLive_of_live hl

end

/-! ## The obligation -/

/-- Settles O44: a cold reset by what registers and fuses leave alone, each other reset and boot by the ways it can go. -/
theorem resetsAndBoot : Obligations.ResetsAndBoot := by
  refine ⟨fun s => ⟨rfl, ?cold⟩, fun s hl => ⟨fun cause hlo hhi => ?warm, fun hr => ?notReady, fun hr => ?ready,
      fun f => ⟨fun h0 => ?pf, fun h0 hp => ?absent, fun h0 hp => ⟨fun hn => ?vf, fun hi => ?pends⟩⟩⟩,
    fun s hp => ⟨rfl, rfl, fun hcrc => ?badFuse, fun hcrc => ⟨fun hnone => ?noImage, fun k hk => ?image⟩⟩,
    fun s x hl hx h0 hr => ⟨fun hbad => ?bootFails, fun hgood => ?boots⟩⟩
  case cold =>
    obtain ⟨fresh, saved, heq, hsaved, hkept⟩ := s.saveLoss_eq s.coldFuses
    have hpart := s.noFuses_coldFuses
    have hregs : s.sec.burn = none → s.coldFuses.noRegs = s.coldPart.noRegs := State.noRegs_coldFuses
    rw [State.coldReset_eq, heq]
    generalize s.coldFuses = u at *
    have hjournal : u.saved = s.saved := (congrArg State.saved hpart :)
    exact ⟨(congrArg (·.pins.porLow) hpart :), (congrArg State.time hpart :), (congrArg State.mem hpart :), (congrArg State.ctl hpart :),
      (congrArg State.arr hpart :), (congrArg State.srv hpart :), (congrArg State.rlt hpart :), (congrArg State.pci hpart :),
      (congrArg State.pwr hpart :), (congrArg State.board hpart :), fun h => (hkept h).trans hjournal, hsaved.imp_left (·.trans hjournal),
      (congrArg (·.sec.flash) hpart :), (congrArg (·.sec.uid) hpart :), fun hb => (congrArg (·.sec.authHash) (hregs hb) :),
      (congrArg (·.sec.running) hpart :), (congrArg State.hostMem hpart :)⟩
  case warm => rw [exec_warmDeviceReset_of_cause hl (by omega) hhi, if_neg (by omega)]
  case notReady => rw [exec_warmDeviceReset_of_cause hl (by decide) (by decide), if_pos ⟨rfl, hr⟩]
  case ready =>
    rw [exec_warmDeviceReset_of_cause hl (by decide) (by decide), if_neg fun h => ne_true_of_eq_false h.right hr]
  case pf => rw [exec_functionLevelReset_of_live hl, if_pos h0]
  case absent => rw [exec_functionLevelReset_of_live hl, if_neg h0, if_pos hp]
  case vf => rw [exec_functionLevelReset_of_live hl, if_neg h0, if_neg (ne_false_of_eq_true hp), if_neg (ne_true_of_eq_false hn)]
  case pends => rw [exec_functionLevelReset_of_live hl, if_neg h0, if_neg (ne_false_of_eq_true hp), if_pos hi]
  case badFuse => exact exec_bootRom_of_bad_fuses hp hcrc
  case noImage => exact exec_bootRom_of_no_image hp hcrc hnone
  case image => exact exec_bootRom_of_image hp hcrc hk
  case bootFails => exact exec_firmwareBoot_of_bad_image hl hx h0 hr hbad
  case boots =>
    cases hrec : (s.bootComps x.bundle).trained.boardRecord with
    | some r =>
      rw [exec_firmwareBoot_of_record hl hx h0 hr hgood hrec]
      unfold State.trained State.bootComps at hrec
      simp only [hrec]
      rfl
    | none =>
      rw [exec_firmwareBoot_of_no_record hl hx h0 hr hgood hrec]
      unfold State.trained State.bootComps at hrec
      simp only [hrec]
      rfl

end Sys2Proof.Machine
end

section
/-! PROOFS. Interrupt deliveries that are selected, land and are withdrawn (R407 to R409), completions (R410), masks and software sources
(R404, R412, R413, R416), and the obligation about them. -/

namespace Sys2Proof.Machine

variable {s : State}

/-! ## The source selected for a target (R407) -/

/-- The source selected is the first of those eligible whose PRIO is the greatest. -/
theorem State.selected_eq_argmax (t : Nat) :
    s.selected t = ((List.range 512).filter (s.eligible t)).argmax (s.rd F.INTC_SRC_CFG.PRIO) := by
  unfold State.selected List.argmax
  congr 1
  funext m n
  cases m with
  | none => rfl
  | some k => rfl

/-- In a list of rising numbers, the numbers before one are the lesser ones. -/
theorem le_of_idxOf_le {l : List Nat} (hl : l.Pairwise (· ≤ ·)) {m n : Nat} (hm : m ∈ l) (hn : n ∈ l) (h : l.idxOf n ≤ l.idxOf m) :
    n ≤ m := by
  have hle := hl.rel_get_of_le (a := ⟨l.idxOf n, List.idxOf_lt_length_of_mem hn⟩) (b := ⟨l.idxOf m, List.idxOf_lt_length_of_mem hm⟩) h
  simpa using hle

/-- The eligible sources rise. -/
theorem State.pairwise_eligible (t : Nat) : ((List.range 512).filter (s.eligible t)).Pairwise (· ≤ ·) :=
  (List.pairwise_lt_range.imp Nat.le_of_lt).filter _

theorem State.mem_eligible {t n : Nat} : n ∈ (List.range 512).filter (s.eligible t) ↔ n < 512 ∧ s.eligible t n = true := by
  rw [List.mem_filter, List.mem_range]

section
variable {t n : Nat} (hn : s.selected t = some n)
include hn

theorem State.eligible_of_selected : s.eligible t n = true :=
  (State.mem_eligible.1 (List.argmax_mem (State.selected_eq_argmax t ▸ hn))).2

/-- No eligible source goes before the one selected: none has a higher PRIO, and none of the same has a lower number. -/
theorem State.selected_precedes {m : Nat} (hm : m < 512) (he : s.eligible t m = true) :
    s.rd F.INTC_SRC_CFG.PRIO m < s.rd F.INTC_SRC_CFG.PRIO n ∨ (s.rd F.INTC_SRC_CFG.PRIO m = s.rd F.INTC_SRC_CFG.PRIO n ∧ n ≤ m) := by
  rw [State.selected_eq_argmax, List.argmax_eq_some_iff] at hn
  obtain ⟨hmem, hmax, hfirst⟩ := hn
  have hm' := State.mem_eligible.2 ⟨hm, he⟩
  refine (hmax m hm').lt_or_eq.imp_right fun heq => ⟨heq, ?_⟩
  exact le_of_idxOf_le (State.pairwise_eligible t) hm' hmem (hfirst m hm' heq.ge)

end

/-! ## Deliveries (R407 to R409) -/

/-- The delivery that INTC_SELECT puts in flight. -/
def State.fly (s : State) (t n : Nat) : State :=
  { s with intc := { s.intc with flight := Tab.insert s.intc.flight t (n, s.rd F.INTC_SRC_CFG.PRIO n, s.time) } }

section
variable {t : TgtId} (hl : s.live = true)
include hl

section
variable (hf : Tab.find s.intc.flight t.val = none)
include hf

theorem exec_intcSelect_of_none (hn : s.selected t.val = none) : exec (.intcSelect t) s = .next s := by
  refine (State.ifLive_of_live hl).trans ?_
  simp only [hf, hn, Option.isSome_none, Bool.false_eq_true, if_false]

theorem exec_intcSelect_of_some {n : Nat} (hn : s.selected t.val = some n) : exec (.intcSelect t) s = .next (s.fly t.val n) := by
  refine (State.ifLive_of_live hl).trans ?_
  simp only [hf, hn, Option.isSome_none, Bool.false_eq_true, if_false, State.fly]

end

section
variable {n prio sel : Nat} (hf : Tab.find s.intc.flight t.val = some (n, prio, sel))
include hf

theorem exec_intcLand_of_flight : exec (.intcLand t) s = .next (
    if s.canLand t.val && s.routable n t.val && decide (s.time ≤ timeAdd sel 8) then s.land t.val n prio else s) := by
  refine (State.ifLive_of_live hl).trans ?_
  simp only [hf]
  rfl

theorem exec_intcLand_of_lands (hc : s.canLand t.val = true) (hr : s.routable n t.val = true) (ht : s.time ≤ timeAdd sel 8) :
    exec (.intcLand t) s = .next (s.land t.val n prio) := by
  rw [exec_intcLand_of_flight hl hf, hc, hr, decide_eq_true ht, Bool.and_self, Bool.and_self, if_pos rfl]

/-- A target that cannot take a delivery, a source that does not go to it, or the time that is up. -/
theorem exec_intcLand_of_not (h : s.canLand t.val = false ∨ s.routable n t.val = false ∨ timeAdd sel 8 < s.time) :
    exec (.intcLand t) s = .next s := by
  rw [exec_intcLand_of_flight hl hf, if_neg]
  simp only [Bool.and_eq_true, decide_eq_true_eq]
  rintro ⟨⟨hc, hr⟩, ht⟩
  rcases h with h | h | h
  · exact ne_false_of_eq_true hc h
  · exact ne_false_of_eq_true hr h
  · exact Nat.not_le.2 h ht

theorem exec_intcWithdraw_of_flight :
    exec (.intcWithdraw t) s = .next (if timeAdd sel 8 ≤ s.time then s.withdraw t.val else s) := by
  refine (State.ifLive_of_live hl).trans ?_
  simp only [hf, State.due, decide_eq_true_eq]
  rfl

end

/-- A management core's completion (log 52). -/
theorem exec_intcCpl_of_core {f : FnId} (ht : 8 ≤ t.val) {n : Nat} (hn : n < 512) :
    exec (.intcCpl f t n) s = .next (s.writeCpl t.val n) := by
  refine (if_pos ht).trans ((State.ifLive_of_live hl).trans ?_)
  rw [Nat.mod_eq_of_lt hn]

end

/-! ## Requests of the host (R404, R410, R412, R416) -/

/-- The word of masks as a host write leaves it: the bits of the management cores' own sources stay (R404). -/
def State.maskWord (s : State) (w v : Nat) : Nat := if w = 5 then setBits v 0 4 (bits (s.rd F.INTC_MASK.MASK 5) 0 4) else v

theorem State.writeMask_eq (w v : Nat) (lands : Bool) : s.writeMask w v lands = s.putMask w (s.maskWord w v) lands := by
  unfold State.writeMask State.maskWord
  split_ifs with hw
  · rw [hw]
  · rfl

section
variable {f : FnId} (hf : s.hears f.val)
include hf

theorem exec_intcCpl_of_hub {t : TgtId} (ht : t.val < 8) (n : Nat) :
    exec (.intcCpl f t n) s = .next (if isPF f.val then s.writeCpl t.val (n % 512) else s.deny f.val) :=
  (if_neg (Nat.not_le.2 ht)).trans (State.ifHost_of_hears hf ..)

/-- A completion that its target takes: a management core's own (log 52), or one through the PF. -/
theorem exec_intcCpl_of_taken {t : TgtId} (h : 8 ≤ t.val ∨ f.val = 0) {n : Nat} (hn : n < 512) :
    exec (.intcCpl f t n) s = .next (s.writeCpl t.val n) := by
  by_cases ht : 8 ≤ t.val
  · exact exec_intcCpl_of_core hf.1 ht hn
  · rw [exec_intcCpl_of_hub hf (Nat.not_le.1 ht), if_pos (isPF_iff.2 (h.resolve_left ht)), Nat.mod_eq_of_lt hn]

theorem exec_intcMask (w : MaskId) (v : Word32) (lands : Bool) : exec (.intcMask f w v lands) s =
    .next (if isPF f.val then s.writeMask w.val v.toNat lands else s.deny f.val) :=
  State.ifHost_of_hears hf ..

theorem exec_intcSwset (p : PartId) (v : Word32) :
    exec (.intcSwset f p v) s = .next (if ownFn f.val p.val then s.writeSwset p.val v.toNat else s.deny f.val) :=
  State.ifHost_of_hears hf ..

end

/-! ## Completions (R410, R412, R413) -/

theorem State.writeCpl_of_active {t n : Nat} (ha : (s.intc.active.any fun a => a.1 == t && a.2.1 == n) = true) :
    s.writeCpl t n = s.complete t n :=
  if_pos ha

section
variable {t n : Nat} (ha : (s.intc.active.any fun a => a.1 == t && a.2.1 == n) = false)
include ha

/-- On a relaxed target a stray completion is counted. -/
theorem State.writeCpl_of_relaxed (hm : s.rd F.INTC_TGT_CFG.MODE t = 1) : s.writeCpl t n = s.count F.INTC_STRAY_COUNT.COUNT t 1 :=
  (if_neg (ne_true_of_eq_false ha)).trans (if_pos ((State.on_iff rfl).2 hm))

/-- On a strict target it is an error. -/
theorem State.writeCpl_of_strict (hm : s.rd F.INTC_TGT_CFG.MODE t = 0) : s.writeCpl t n =
    (((s.wr F.INTC_ERR_LOG.TARGET 0 t).wr F.INTC_ERR_LOG.SOURCE 0 n).wr F.INTC_ERR_LOG.TIME 0 s.time).raise 156 :=
  (if_neg (ne_true_of_eq_false ha)).trans (if_neg (ne_true_of_eq_false (State.off_of_rd hm)))

end

/-! ## The obligation -/

/-- Settles O45: the source selected is the first of the greatest PRIO, and each command answers by the ways it can go. -/
theorem interruptsAreDelivered : Obligations.InterruptsAreDelivered := by
  refine ⟨fun t s hl => ⟨fun hf => ⟨fun hn => ?none, fun n hn => ⟨?flies, ?eligible, fun m hm he => ?precedes⟩⟩,
      fun n prio sel hf => ⟨fun hc hr ht => ?lands, fun h => ?stays, fun ht => ?withdrawn, fun ht => ?early⟩⟩,
    fun f s hf => ⟨fun t n hn h => ⟨fun ha => ?active, fun ha => ⟨fun hm => ?relaxed, fun hm => ?strict⟩⟩,
      fun w v lands => ⟨fun h0 => ?mask, fun h0 => ?maskDenied⟩, fun t n ht h0 => ?cplDenied,
      fun p v => ⟨fun hp => ?swset, fun hp => ?swsetDenied⟩⟩⟩
  case none => exact exec_intcSelect_of_none hl hf hn
  case flies => exact exec_intcSelect_of_some hl hf hn
  case eligible => exact State.eligible_of_selected hn
  case precedes => exact State.selected_precedes hn hm he
  case lands => exact exec_intcLand_of_lands hl hf hc hr ht
  case stays => exact exec_intcLand_of_not hl hf h
  case withdrawn =>
    rw [exec_intcWithdraw_of_flight hl hf, if_pos ht]
    rfl
  case early => rw [exec_intcWithdraw_of_flight hl hf, if_neg (Nat.not_le.2 ht)]
  case active => rw [exec_intcCpl_of_taken hf h hn, State.writeCpl_of_active ha]
  case relaxed => rw [exec_intcCpl_of_taken hf h hn, State.writeCpl_of_relaxed ha hm]
  case strict => rw [exec_intcCpl_of_taken hf h hn, State.writeCpl_of_strict ha hm]
  case mask =>
    rw [exec_intcMask hf, if_pos (isPF_iff.2 h0), State.writeMask_eq]
    rfl
  case maskDenied => rw [exec_intcMask hf, if_neg (mt isPF_iff.1 h0)]
  case cplDenied => rw [exec_intcCpl_of_hub hf ht, if_neg (mt isPF_iff.1 h0)]
  case swset =>
    rw [exec_intcSwset hf, if_pos hp]
    rfl
  case swsetDenied => rw [exec_intcSwset hf, if_neg (ne_true_of_eq_false hp)]

end Sys2Proof.Machine
end

section
/-! PROOFS. The governor's samples, evaluations and divisors (R418, R424, R425, R427), the brake and the power pins (R431, R436, R437, R445,
R516), kickstand (R438), Idle-serve (R422, R423), and the obligation about them. -/

namespace Sys2Proof.Machine

variable {s : State}

/-! ## Sampling and choosing a setting (R418, R424, R427) -/

/-- The settings from the fastest allowed on, each with its fused estimate. -/
def State.choices (s : State) (est : List Nat) : List ((Nat × Nat) × Nat) := (settings.filter fun e => decide (s.fastest ≤ e.1)).zip est

/-- The setting that the governor chooses: the first at or below its goal, the last one if none is (R427). -/
def State.choice (s : State) (est : List Nat) : Option ((Nat × Nat) × Nat) :=
  ((s.choices est).find? fun e => decide (e.2 ≤ min (s.rd F.PWR_STATUS.CAP_EFF 0) (s.pwr.ramp.level s.time))).or
    (s.choices est).getLast?

/-- The setting of divisor code `d` takes effect: its duty at once. -/
def State.choose (s : State) (d duty w : Nat) : State :=
  ({ (s.wr F.PWR_STATUS.DUTY 0 duty) with pwr := { s.pwr with wantDiv := d, est := some w } } : State).slewCore

/-- The newest 1,000 samples are kept. -/
def State.sampled (s : State) (w : Nat) : State :=
  { s.beat beatSample with pwr := { s.pwr with samples := (w :: s.pwr.samples).take 1000 } }

/-- The readings of a sample, and the average of the samples kept, are stored. -/
def State.showSample (s : State) (w mv a : Nat) : State :=
  (((s.wrSat F.PWR_MEAS.INST_W 0 w).wrSat F.PWR_MEAS.AVG_W 0 (s.pwr.sum / s.pwr.samples.length)).wrSat F.PWR_MEAS.CORE_MV 0 mv).wrSat
    F.PWR_MEAS.CORE_A 0 a

section
variable (hc : s.clocks = true) (hp : s.pins.porLow = false) (hh : s.halted = false)
include hc hp hh

theorem exec_governorSample_of_early (hd : s.beatDue beatSample 1000 = false) (w mv a : Nat) :
    exec (.governorSample w mv a) s = .next s :=
  (State.ifGoverned_of_governed hc hp hh _).trans (congrArg _ (if_pos hd))

theorem exec_governorSample_of_due (hd : s.beatDue beatSample 1000 = true) (w mv a : Nat) :
    exec (.governorSample w mv a) s = .next ((s.sampled w).showSample w mv a).windowStep :=
  (State.ifGoverned_of_governed hc hp hh _).trans (congrArg _ (if_neg (ne_false_of_eq_true hd)))

theorem exec_governorEval_of_early (hd : s.beatDue beatEval 10000 = false) (est : List Nat) :
    exec (.governorEval est) s = .next s :=
  (State.ifGoverned_of_governed hc hp hh _).trans (congrArg _ (if_pos hd))

theorem exec_governorEval_of_due (hd : s.beatDue beatEval 10000 = true) {est : List Nat} {d duty w : Nat}
    (hw : (s.beat beatEval).capRegs.choice est = some ((d, duty), w)) :
    exec (.governorEval est) s = .next ((s.beat beatEval).capRegs.choose d duty w) := by
  refine (State.ifGoverned_of_governed hc hp hh _).trans (congrArg _ ((if_neg (ne_false_of_eq_true hd)).trans ?_))
  unfold State.choice State.choices at hw
  simp only [hw]
  rfl

/-! ### The divisor (R418, R421) -/

/-- A new divisor is applied. -/
def State.divide (s : State) (d mv : Nat) : State :=
  (((s.wr F.PWR_STATUS.ACLK_DIV 0 d).count F.CLK_STATUS.DIV_CHANGES 0 1).wrSat F.PWR_MEAS.CORE_MV 0 mv).slewCore

theorem exec_divisorChange_eq (mv : Nat) : exec (.divisorChange mv) s = .next (
    if s.rd F.PWR_STATUS.ACLK_DIV 0 = s.nextDiv then s
    else if s.nextDiv < s.rd F.PWR_STATUS.ACLK_DIV 0 ∧ s.vdd < s.volt s.nextDiv then s.slewCore
    else s.divide s.nextDiv mv) :=
  State.ifGoverned_of_governed hc hp hh _

theorem exec_divisorChange_of_low_vdd (hd : s.nextDiv < s.rd F.PWR_STATUS.ACLK_DIV 0) (hv : s.vdd < s.volt s.nextDiv) (mv : Nat) :
    exec (.divisorChange mv) s = .next s.slewCore := by
  rw [exec_divisorChange_eq hc hp hh, if_neg hd.ne', if_pos ⟨hd, hv⟩]

/-- A slower divisor, or a faster one for which VDD_CORE is high enough. -/
theorem exec_divisorChange_of_ready (hne : s.rd F.PWR_STATUS.ACLK_DIV 0 ≠ s.nextDiv)
    (h : s.rd F.PWR_STATUS.ACLK_DIV 0 < s.nextDiv ∨ s.volt s.nextDiv ≤ s.vdd) (mv : Nat) :
    exec (.divisorChange mv) s = .next (s.divide s.nextDiv mv) := by
  rw [exec_divisorChange_eq hc hp hh, if_neg hne, if_neg fun hlow => h.elim hlow.1.not_gt hlow.2.not_ge]

end

/-! ## The brake (R431, R436, R437, R445) -/

theorem State.capReleased_of_none (h : s.pwr.brakeCap = none) : s.capReleased = false := by
  simp only [State.capReleased, h]

theorem State.coolReleased_of_none (h : s.pwr.brakeCool = none) : s.coolReleased = false := by
  simp only [State.coolReleased, h]

/-- The brake is released with its last cause, and the stored MODE reaches the ceiling. -/
theorem State.brakeOff_of_no_cause (hcap : s.pwr.brakeCap = none) (hcool : s.pwr.brakeCool = none) (hthr : s.pwr.brakeThr = false)
    (hb : s.on F.PWR_STATUS.BRAKE 0 = true) :
    s.brakeOff = (({ s with pwr := { s.pwr with judged := none } } : State).put F.PWR_STATUS.BRAKE 0 false).applyMode := by
  unfold State.brakeOff
  rw [hcap, hcool, hthr, hb, if_neg (by decide)]

/-- THROTTLE_N going low applies the brake. -/
def State.throttled (s : State) : State :=
  let u := (s.put F.PWR_STATUS.THROTTLE 0 true).raise 160
  ({ u with pwr := { u.pwr with brakeThr := true, throttleUp := none } } : State).brakeOn

theorem State.throttleSeen_low (h : s.on F.PWR_STATUS.THROTTLE 0 = false) : s.throttleSeen true = s.throttled := by
  simp only [State.throttleSeen, State.throttled, h, Bool.false_eq_true, if_false, if_true]

/-- COOLANT_ALERT_N going low applies the brake and the coolant ceiling. -/
def State.coolantLow (s : State) : State :=
  let u := ({ s with pwr := { s.pwr with coolLow := true } } : State).raise 160
  ((({ u with pwr := { u.pwr with brakeCool := some u.time, coolUp := none } } : State).put F.PWR_STATUS.COOLANT 0 true).brakeOn).evalCaps none

theorem State.coolantSeen_low (h : s.pwr.coolLow = false) : s.coolantSeen true = s.coolantLow := by
  simp only [State.coolantSeen, State.coolantLow, h, Bool.false_eq_true, if_false, if_true]

/-- The throttle no longer holds the brake. -/
def State.unthrottled (s : State) : State :=
  ({ s with pwr := { s.pwr with brakeThr := false, throttleUp := none } } : State).brakeOff

/-- Power rises from the average to CAP_EFF where it lies below it. -/
def State.riseBack (s : State) : State :=
  if s.rd F.PWR_MEAS.AVG_W 0 < s.rd F.PWR_STATUS.CAP_EFF 0 then s.riseTo (s.rd F.PWR_MEAS.AVG_W 0) (s.rd F.PWR_STATUS.CAP_EFF 0) else s

section
variable (hc : s.clocks = true) (hp : s.pins.porLow = false) (hh : s.halted = false)
include hc hp hh

theorem exec_brakeRelease_of_no_cause (hcap : s.pwr.brakeCap = none) (hcool : s.pwr.brakeCool = none) (hthr : s.pwr.brakeThr = false)
    (hb : s.rd F.PWR_STATUS.BRAKE 0 = 1) : exec .brakeRelease s =
      .next (({ s with pwr := { s.pwr with judged := none } } : State).put F.PWR_STATUS.BRAKE 0 false).applyMode := by
  refine (State.ifGoverned_of_governed hc hp hh _).trans (congrArg _ ?_)
  rw [State.capReleased_of_none hcap, State.coolReleased_of_none hcool]
  exact State.brakeOff_of_no_cause hcap hcool hthr ((State.on_iff rfl).2 hb)

theorem exec_throttleN (low : Bool) :
    exec (.throttleN low) s = .next (({ s with pins := { s.pins with throttle := low } } : State).throttleSeen low) :=
  State.drives_of_governed (g := fun x => { x with throttle := low }) (f := (·.throttleSeen low)) hc hp hh

theorem exec_coolantAlertN (low : Bool) :
    exec (.coolantAlertN low) s = .next (({ s with pins := { s.pins with coolant := low } } : State).coolantSeen low) :=
  State.drives_of_governed (g := fun x => { x with coolant := low }) (f := (·.coolantSeen low)) hc hp hh

theorem exec_throttleRelease_of_due {t : Nat} (ht : s.pwr.throttleUp = some t) (hb : s.pwr.brakeThr = true)
    (hd : s.due t 100000 = true) : exec .throttleRelease s = .next s.unthrottled.riseBack := by
  refine (State.ifGoverned_of_governed hc hp hh _).trans (congrArg _ ?_)
  simp only [ht]
  exact if_pos ⟨hb, hd⟩

theorem exec_coolantCeilingLift_of_cool (hlow : s.pwr.coolLow = false) {t : Nat} (ht : s.pwr.coolUp = some t)
    (hd : s.due t 10000000000 = true) (htj : s.rd F.PWR_TEMP.TJ 0 < 8 * s.rd F.PWR_THERM_CFG.T_WARN 0) : exec .coolantCeilingLift s =
      .next ((({ s with pwr := { s.pwr with coolUp := none } } : State).put F.PWR_STATUS.COOLANT 0 false).evalCaps none) := by
  refine (State.ifGoverned_of_governed hc hp hh _).trans (congrArg _ ?_)
  simp only [ht]
  refine if_pos ?_
  rw [hlow, hd, decide_eq_true htj]
  rfl

/-! ## Kickstand (R438) -/

/-- The kickstand input is set to the rack manager's cap. -/
def State.kickstand (s : State) : State :=
  ((({ s with pwr := { s.pwr with kick := some (s.rd F.PWR_STATUS.CAP_RM 0, s.time) } } : State).put F.PWR_STATUS.KICKSTAND 0 true).raise
    158).evalCaps none

/-- The kickstand input falls to the safe cap. -/
def State.kickSafe (s : State) (w t : Nat) : State :=
  (({ s with pwr := { s.pwr with kick := some (min w (s.rd F.PWR_RM_CFG.SAFE_CAP 0), t) } } : State).put F.PWR_STATUS.KICK_SAFE 0
    true).evalCaps none

theorem exec_kickstandEnter_of_monitored {t : Nat} (ht : s.pwr.lastMsg = some t) (hen : s.rd F.PWR_RM_CFG.HB_EN 0 = 1)
    (heid : s.rd F.PWR_RM_CFG.RM_EID 0 ≠ 0) (hk : s.rd F.PWR_STATUS.KICKSTAND 0 = 0) :
    exec .kickstandEnter s = .next (if s.due t 500000001 = true then s.kickstand else s) := by
  refine (State.ifGoverned_of_governed hc hp hh _).trans (congrArg _ ?_)
  rw [State.kickstand]
  split
  next u hu =>
    obtain rfl : u = t := Option.some.inj (hu.symm.trans ht)
    simp only [(State.on_iff rfl).2 hen, bne_iff_ne.2 heid, State.off_of_rd hk, Bool.not_false, Bool.true_and]
  next hu => exact absurd (ht.symm.trans hu) (Option.some_ne_none _)

theorem exec_kickstandSafe_of_kick {w t : Nat} (hk : s.pwr.kick = some (w, t)) (h0 : s.rd F.PWR_STATUS.KICK_SAFE 0 = 0) :
    exec .kickstandSafe s = .next (if s.due t 5000000000 = true then s.kickSafe w t else s) := by
  refine (State.ifGoverned_of_governed hc hp hh _).trans (congrArg _ ?_)
  simp only [hk, State.off_of_rd h0, Bool.not_false, Bool.true_and]
  rfl

end

/-! ## Idle-serve (R422, R423) -/

/-- The array, idle, enters Idle-serve. -/
def State.idles (s : State) : State := ({ (s.put F.PWR_STATUS.IDLE 0 true) with pwr := { s.pwr with wake := none } } : State).slewCore

/-- VDD_CORE is made to rise for the array to wake. -/
def State.wakes (s : State) : State := ({ s with pwr := { s.pwr with wake := some s.time } } : State).slewCore

/-- The array is awake, and what waited starts. -/
def State.awake (s : State) : State :=
  let u : State := { (s.put F.PWR_STATUS.IDLE 0 false).wakePhases with pwr := { s.pwr with wake := none } }
  (u.ctl.ops.filter fun e => e.2.sleeps).foldl (fun (v : State) e => v.wakeRun (e.1 / 16) (e.1 % 16) e.2) u

section
variable (hl : s.live = true)
include hl

theorem exec_idleServeEnter_of_idle (hen : s.rd F.PWR_CFG.IDLE_EN 0 = 1) (ha : s.asleep = false) (hb : s.arrayBusy = false)
    (hd : s.due s.pwr.idleFrom (s.rd F.PWR_CFG.IDLE_US 0 * 1000) = true) : exec .idleServeEnter s = .next s.idles := by
  refine (State.ifLive_of_live hl).trans (congrArg _ (if_pos ?_))
  rw [(State.on_iff rfl).2 hen, ha, hb, hd]
  rfl

theorem exec_idleServeEnter_of_busy (hb : s.arrayBusy = true) : exec .idleServeEnter s = .next s := by
  refine (State.ifLive_of_live hl).trans (congrArg _ (if_neg ?_))
  simp only [hb, Bool.not_true, Bool.and_false, Bool.false_and, Bool.false_eq_true, not_false_iff]

theorem exec_idleServeWake_of_quiet (hb : s.arrayBusy = false) : exec .idleServeWake s = .next s := by
  refine (State.ifLive_of_live hl).trans (congrArg _ (if_neg ?_))
  rw [hb, Bool.and_false]
  exact Bool.false_ne_true

/-- Until VDD_CORE has risen the array does not wake. -/
theorem exec_idleServeWake_of_asleep (ha : s.asleep = true) (hb : s.arrayBusy = true) : exec .idleServeWake s = .next (
    if s.vdd < s.volt (s.rd F.PWR_STATUS.ACLK_DIV 0) then if s.pwr.wake.isSome then s else s.wakes else s.awake) :=
  (State.ifLive_of_live hl).trans (congrArg _ (if_pos (Bool.and_eq_true_iff.2 ⟨ha, hb⟩)))

end

/-! ## The obligation -/

/-- Settles O48: the samples, the setting and the divisor, the brake and the pins, kickstand and Idle-serve, each command by the ways it can
go. -/
theorem governorActs : Obligations.GovernorActs := by
  refine ⟨fun s hc hp hh => ⟨fun w mv a => ⟨fun hd => ?tooSoon, fun hd => ?sample⟩,
      fun est d duty w => ⟨fun hd => ?evalSoon, fun hd hw => ?eval⟩,
      fun mv => ⟨fun heq => ?sameDivisor, fun hd hv => ?vddRises, fun hne h => ?divisor⟩,
      fun hcap hcool hthr hb => exec_brakeRelease_of_no_cause hc hp hh hcap hcool hthr hb,
      fun h0 => ⟨?throttleLow, ?throttleSame⟩, fun t ht hb hd => exec_throttleRelease_of_due hc hp hh ht hb hd,
      fun h0 => ⟨?coolantLow, fun t ht hd htj => exec_coolantCeilingLift_of_cool hc hp hh h0 ht hd htj⟩,
      fun t ht hen heid hk => ⟨fun hd => ?kickstand, fun hd => ?message⟩, fun w t hk h0 => ⟨fun hd => ?safe, fun hd => ?notYet⟩⟩,
    fun s hp => ⟨fun v => ?stepPin, fun low => ⟨?throttlePin, ?coolantPin⟩⟩,
    fun s hl => ⟨fun hen ha hb hd => exec_idleServeEnter_of_idle hl hen ha hb hd, exec_idleServeEnter_of_busy hl,
      fun ha hb => ⟨fun hv hw => ?wakes, fun hv hw => ?waking, fun hv => ?awake⟩, exec_idleServeWake_of_quiet hl⟩⟩
  case tooSoon => exact exec_governorSample_of_early hc hp hh hd w mv a
  case sample => exact exec_governorSample_of_due hc hp hh hd w mv a
  case evalSoon => exact exec_governorEval_of_early hc hp hh hd est
  case eval => exact exec_governorEval_of_due hc hp hh hd hw
  case sameDivisor => exact (exec_divisorChange_eq hc hp hh mv).trans (congrArg _ (if_pos heq))
  case vddRises => exact exec_divisorChange_of_low_vdd hc hp hh hd hv mv
  case divisor => exact exec_divisorChange_of_ready hc hp hh hne h mv
  case throttleLow =>
    exact (exec_throttleN hc hp hh true).trans (congrArg _ (State.throttleSeen_low (State.off_of_rd h0)))
  case throttleSame =>
    exact (exec_throttleN hc hp hh false).trans (congrArg _ (State.throttleSeen_same (State.off_of_rd h0)))
  case coolantLow => exact (exec_coolantAlertN hc hp hh true).trans (congrArg _ (State.coolantSeen_low h0))
  case kickstand => exact (exec_kickstandEnter_of_monitored hc hp hh ht hen heid hk).trans (congrArg _ (if_pos hd))
  case message =>
    exact (exec_kickstandEnter_of_monitored hc hp hh ht hen heid hk).trans (congrArg _ (if_neg (ne_true_of_eq_false hd)))
  case safe => exact (exec_kickstandSafe_of_kick hc hp hh hk h0).trans (congrArg _ (if_pos hd))
  case notYet => exact (exec_kickstandSafe_of_kick hc hp hh hk h0).trans (congrArg _ (if_neg (ne_true_of_eq_false hd)))
  case stepPin => exact State.drives_of_porLow (g := fun x => { x with step := v % 8 }) (f := (·.stepSeen (v % 8))) hp
  case throttlePin => exact State.drives_of_porLow (g := fun x => { x with throttle := low }) (f := (·.throttleSeen low)) hp
  case coolantPin => exact State.drives_of_porLow (g := fun x => { x with coolant := low }) (f := (·.coolantSeen low)) hp
  case wakes =>
    rw [exec_idleServeWake_of_asleep hl ha hb, if_pos hv, hw, if_neg (by decide)]
    rfl
  case waking => rw [exec_idleServeWake_of_asleep hl ha hb, if_pos hv, if_pos (Option.isSome_iff_ne_none.2 hw)]
  case awake =>
    rw [exec_idleServeWake_of_asleep hl ha hb, if_neg (Nat.not_lt.2 hv)]
    rfl

end Sys2Proof.Machine
end

section
/-! PROOFS. Temperature samples (R440, R442), the thermal trip (R443), the loss of REFCLK (R508), device-fatal causes (R476, R477), and the
obligation about them. -/

namespace Sys2Proof.Machine

variable {s : State}

/-! ## Temperature (R440, R442) -/

/-- The readings of a sample are stored: the highest one, its sensor, and the highest of all. -/
def State.showHeat (s : State) (tj k : Nat) : State :=
  let u := (s.wrSat F.PWR_TEMP.TJ 0 tj).wr F.PWR_TEMP.SENSOR 0 k
  u.wrSat F.PWR_TEMP.TJ_PEAK 0 (max tj (u.rd F.PWR_TEMP.TJ_PEAK 0))

/-- Source 159 is raised where TJ crosses T_WARN, from the one that `s` holds to `tj`, and the thermal input moves; `u` holds the new
readings. -/
def State.warnHeat (s u : State) (tj : Nat) : State :=
  let warn := 8 * s.rd F.PWR_THERM_CFG.T_WARN 0
  (if decide (warn ≤ s.rd F.PWR_TEMP.TJ 0) != decide (warn ≤ tj) then u.raise 159 else u).thermalStep tj

/-- A sample taken in time follows the highest reading, and halts the device from 105 °C on. -/
theorem exec_tempSample_of_due (hc : s.clocks = true) (hp : s.pins.porLow = false) (hh : s.halted = false) {rs : List Nat} {tj k : Nat}
    (hr : hottest (rs.take 80) s.pwr.excluded = some (tj, k)) (hd : s.beatDue beatTemp 10000 = true) :
    exec (.tempSample rs) s = .next (
      if 840 ≤ tj then (s.warnHeat ((s.beat beatTemp).showHeat tj k) tj).halt else s.warnHeat ((s.beat beatTemp).showHeat tj k) tj) := by
  have hr' : hottest (rs.take 80) (s.beat beatTemp).pwr.excluded = some (tj, k) := hr
  refine (State.ifGoverned_of_governed hc hp hh _).trans (congrArg _ ((if_neg (ne_false_of_eq_true hd)).trans ?_))
  simp only [hr']
  rfl

/-! ## The trip and REFCLK (R443, R508) -/

section
variable (hc : s.clocks = true) (hp : s.pins.porLow = false)
include hc hp

/-- Below 115 °C the trip does nothing. -/
theorem exec_hardwareTrip_of_cool {tj : Nat} (ht : tj < 920) : exec (.hardwareTrip tj) s = .next s :=
  (State.ifClocked_of_clocks hc hp).trans (congrArg _ (if_neg (Nat.not_le.2 ht)))

theorem exec_refclkLoss_of_clocks : exec .refclkLoss s =
    .next { (s.put F.CLK_STATUS.ROOT_LOCK 0 false) with clocks := false, pins := { s.pins with devFault := true } } :=
  State.ifClocked_of_clocks hc hp

end

/-! ## Device-fatal causes (R476, R477) -/

section
variable (hl : s.live = true)
include hl

theorem exec_fatalLatch_of_cause {cause : Nat} (hlo : 1 ≤ cause) (hhi : cause ≤ 6) (detail : Nat) :
    exec (.fatalLatch cause detail) s = .next (s.latchFatal cause detail) :=
  (State.ifLive_of_live hl).trans (congrArg _ (if_pos ⟨hlo, hhi⟩))

theorem exec_mgmtWatchdogExpire_of_live : exec .mgmtWatchdogExpire s = .next (s.latchFatal 5 0) := State.ifLive_of_live hl

theorem exec_railOutOfRange_of_live (sram : Bool) : exec (.railOutOfRange sram) s = .next (s.latchFatal 6 (if sram then 2 else 1)) :=
  State.ifLive_of_live hl

end

section
variable (hf : s.fatal = true)
include hf

theorem State.not_live_of_fatal : s.live = false :=
  Bool.eq_false_iff.2 fun hl => ne_true_of_eq_false (State.flags_of_live hl).1 hf

/-- Only the first cause is latched. -/
theorem State.latchFatal_of_fatal (cause detail : Nat) : s.latchFatal cause detail = s := if_pos hf

end

section
variable (hc : s.clocks = true) (hp : s.pins.porLow = false)
include hc hp

theorem exec_fatalJournalSave_of_final (hj : s.rd F.OBS_FATAL.JOURNAL_FINAL 0 = 1) (hr : s.rd F.BLK_STATUS.READY 0 = 1)
    (hcause : s.rd F.OBS_FATAL.CAUSE 0 ≠ 5) : exec .fatalJournalSave s =
      .next { (s.put F.OBS_FATAL.SAVED 0 true) with saved := some s.journalCopy } := by
  refine (State.ifClocked_of_clocks hc hp).trans (congrArg _ (if_pos ?_))
  rw [(State.on_iff rfl).2 hj, (State.on_iff rfl).2 hr, bne_iff_ne.2 hcause]
  rfl

theorem exec_fatalJournalSave_of_not_final (hj : s.rd F.OBS_FATAL.JOURNAL_FINAL 0 = 0) : exec .fatalJournalSave s = .next s := by
  refine (State.ifClocked_of_clocks hc hp).trans (congrArg _ (if_neg ?_))
  rw [State.off_of_rd hj, Bool.false_and, Bool.false_and]
  exact Bool.false_ne_true

end

/-! ## The obligation -/

/-- Settles O49: the sample, the trip and the loss of REFCLK, and the causes on a live device and in the fatal state. -/
theorem heatClocksAndFatalCauses : Obligations.HeatClocksAndFatalCauses := by
  refine ⟨⟨fun rs tj k s hc hp hh hr hd => ⟨fun ht => ?cool, fun ht => ?halts⟩,
      fun tj s hc hp => ⟨exec_hardwareTrip_of_hot hc hp, exec_hardwareTrip_of_cool hc hp, exec_refclkLoss_of_clocks hc hp⟩⟩,
    fun s detail hl => ⟨fun cause hlo hhi => exec_fatalLatch_of_cause hl hlo hhi detail, exec_mgmtWatchdogExpire_of_live hl,
      exec_railOutOfRange_of_live hl true, exec_railOutOfRange_of_live hl false⟩,
    fun s cause detail hf => ⟨State.latchFatal_of_fatal hf cause detail, ?latch, ?watchdog, fun b => ?rail⟩,
    fun s hc hp => ⟨exec_fatalJournalSave_of_final hc hp, exec_fatalJournalSave_of_not_final hc hp⟩⟩
  case cool =>
    rw [exec_tempSample_of_due hc hp hh hr hd, if_neg (Nat.not_le.2 ht)]
    rfl
  case halts =>
    rw [exec_tempSample_of_due hc hp hh hr hd, if_pos ht]
    rfl
  case latch => exact State.ifLive_of_not_live (State.not_live_of_fatal hf)
  case watchdog => exact State.ifLive_of_not_live (State.not_live_of_fatal hf)
  case rail => exact State.ifLive_of_not_live (State.not_live_of_fatal hf)

end Sys2Proof.Machine
end

section
/-! PROOFS. The governor's cap: the lowest of the limits (R425, R426), and the obligation about it. -/

namespace Sys2Proof.Machine

variable {s : State}

/-! ## The lowest of a list of limits (R425) -/

/-- The lower of two limits, the first on a tie: the step of `lowest`. -/
def lower (b e : Nat × Nat) : Nat × Nat := if e.2 < b.2 then e else b

/-- The limit that a scan keeps is one of those scanned, none lies below it, and of those equal to it none has a lower code, where the codes
rise. -/
theorem foldl_lower_spec {l : List (Nat × Nat)} {b : Nat × Nat} (hl : (b :: l).Pairwise (·.1 ≤ ·.1)) : let r := l.foldl lower b
    r ∈ b :: l ∧ (∀ e ∈ b :: l, r.2 ≤ e.2) ∧ ∀ e ∈ b :: l, e.2 = r.2 → r.1 ≤ e.1 := by
  induction l generalizing b with
  | nil => simp
  | cons a l ih =>
    obtain ⟨hb, ha⟩ := List.pairwise_cons.1 hl
    obtain ⟨hba, hbl⟩ := List.forall_mem_cons.1 hb
    rw [List.foldl_cons, lower]
    split_ifs with hlow
    · obtain ⟨hmem, hle, htie⟩ := ih ha
      have hr := (List.forall_mem_cons.1 hle).1
      exact ⟨List.mem_cons_of_mem _ hmem, List.forall_mem_cons.2 ⟨hr.trans hlow.le, hle⟩,
        List.forall_mem_cons.2 ⟨fun h => absurd (h ▸ hr) hlow.not_ge, htie⟩⟩
    · obtain ⟨hmem, hle, htie⟩ := ih (List.pairwise_cons.2 ⟨hbl, (List.pairwise_cons.1 ha).2⟩)
      obtain ⟨hr, hle'⟩ := List.forall_mem_cons.1 hle
      obtain ⟨hcode, htie'⟩ := List.forall_mem_cons.1 htie
      have hra := hr.trans (not_lt.1 hlow)
      refine ⟨?_, List.forall_mem_cons.2 ⟨hr, List.forall_mem_cons.2 ⟨hra, hle'⟩⟩,
        List.forall_mem_cons.2 ⟨hcode, List.forall_mem_cons.2 ⟨fun h => ?_, htie'⟩⟩⟩
      · exact List.mem_cons.2 ((List.mem_cons.1 hmem).imp_right (List.mem_cons_of_mem a))
      · exact (hcode (le_antisymm (h ▸ not_lt.1 hlow) hr)).trans hba

/-! ## The limits of the governor (R421, R425) -/

theorem State.limits_codes_rise (s : State) : s.limits.Pairwise (·.1 < ·.1) := by
  unfold State.limits
  cases s.pwr.kick <;> cases s.thermalInput <;> simp

theorem State.limits_code_le {e : Nat × Nat} (he : e ∈ s.limits) : e.1 ≤ 5 := by
  unfold State.limits at he
  simp only [List.mem_append, List.mem_cons, List.mem_map, List.not_mem_nil, or_false] at he
  rcases he with ((((rfl | rfl) | ⟨k, -, rfl⟩) | (rfl | rfl)) | ⟨w, -, rfl⟩) <;> simp

/-- The limits as they count: held up to 350 W (R426). -/
def State.heldLimits (s : State) : List (Nat × Nat) := s.limits.map fun e => (e.1, max 350 e.2)

/-- The limit that sets CAP_EFF, with its code. -/
def State.capLimit (s : State) : Nat × Nat := lowest s.heldLimits

theorem State.mem_heldLimits {e : Nat × Nat} (he : e ∈ s.limits) : (e.1, max 350 e.2) ∈ s.heldLimits := List.mem_map.2 ⟨e, he, rfl⟩

/-- A limit that counts is one of the limits, held up. -/
theorem State.exists_of_mem_heldLimits {x : Nat × Nat} (hx : x ∈ s.heldLimits) : ∃ e ∈ s.limits, e.1 = x.1 ∧ max 350 e.2 = x.2 := by
  obtain ⟨e, he, rfl⟩ := List.mem_map.1 hx
  exact ⟨e, he, rfl, rfl⟩

/-- The mode's limit counts. -/
theorem State.mode_mem_heldLimits (s : State) : (0, max 350 (modeLimit s.ceiling)) ∈ s.heldLimits :=
  State.mem_heldLimits (e := (0, modeLimit s.ceiling)) List.mem_cons_self

theorem modeLimit_le (m : Nat) : modeLimit m ≤ 1200 := by
  match m with
  | 0 | 1 | 2 => decide
  | _ + 3 => exact (by decide : 650 ≤ 1200)

theorem State.capLimit_spec (s : State) : s.capLimit ∈ s.heldLimits ∧ (∀ e ∈ s.heldLimits, s.capLimit.2 ≤ e.2) ∧
    ∀ e ∈ s.heldLimits, e.2 = s.capLimit.2 → s.capLimit.1 ≤ e.1 := by
  have hrise : s.heldLimits.Pairwise (·.1 ≤ ·.1) := List.pairwise_map.2 (s.limits_codes_rise.imp le_of_lt)
  obtain ⟨hmem, hle, htie⟩ := foldl_lower_spec (b := (0, 65535)) (List.pairwise_cons.2 ⟨fun e _ => Nat.zero_le _, hrise⟩)
  refine ⟨(List.mem_cons.1 hmem).resolve_left fun h => ?_, (List.forall_mem_cons.1 hle).2, (List.forall_mem_cons.1 htie).2⟩
  have hlow : (s.heldLimits.foldl lower (0, 65535)).2 ≤ max 350 (modeLimit s.ceiling) :=
    (List.forall_mem_cons.1 hle).2 _ s.mode_mem_heldLimits
  have hmode := modeLimit_le s.ceiling
  rw [h] at hlow
  omega

theorem State.capLimit_le (s : State) : s.capLimit.2 ≤ 1200 := by
  have hle := s.capLimit_spec.2.1 _ s.mode_mem_heldLimits
  have hmode := modeLimit_le s.ceiling
  omega

/-! ## CAP_EFF, LIMITER and MODE_EFF (R425, R426) -/

/-- MIN_CLAMP is set where some limit lies below 350 W (R426). -/
def State.clampSeen (s : State) : State := if s.limits.any fun e => decide (e.2 < 350) then s.put F.PWR_STATUS.MIN_CLAMP 0 true else s

theorem State.capRegs_eq (s : State) : s.capRegs = ((s.clampSeen.wr F.PWR_STATUS.CAP_EFF 0 s.capLimit.2).wr F.PWR_STATUS.LIMITER 0
    s.capLimit.1).wr F.PWR_STATUS.MODE_EFF 0 s.clampSeen.ceiling := rfl

section
variable (hr : Tab.rising s.regs = true)
include hr

theorem State.rising_clampSeen : Tab.rising s.clampSeen.regs = true := by
  unfold State.clampSeen
  split_ifs
  · exact State.rising_wr hr ..
  · exact hr

theorem State.ceiling_clampSeen : s.clampSeen.ceiling = s.ceiling := by
  unfold State.clampSeen
  split_ifs
  · rw [State.ceiling, State.pwr_put, State.on, State.put, State.rd_wr_apart hr (by decide) (by decide)]
    rfl
  · rfl

/-- The three fields read as written. -/
theorem State.rd_capRegs (hceil : s.ceiling < 4) : s.capRegs.rd F.PWR_STATUS.CAP_EFF 0 = s.capLimit.2 ∧
    s.capRegs.rd F.PWR_STATUS.LIMITER 0 = s.capLimit.1 ∧ s.capRegs.rd F.PWR_STATUS.MODE_EFF 0 = s.ceiling := by
  have hclamp := State.rising_clampSeen hr
  have hcap := State.rising_wr hclamp F.PWR_STATUS.CAP_EFF 0 s.capLimit.2
  have hlim := State.rising_wr hcap F.PWR_STATUS.LIMITER 0 s.capLimit.1
  obtain ⟨e, he, hcode, -⟩ := State.exists_of_mem_heldLimits s.capLimit_spec.1
  have hcode' : s.capLimit.1 ≤ 5 := hcode ▸ State.limits_code_le he
  rw [State.capRegs_eq]
  refine ⟨?_, ?_, ?_⟩
  · rw [State.rd_wr_apart hlim (by decide) (by decide), State.rd_wr_apart hcap (by decide) (by decide), State.rd_wr_same hclamp (by decide)]
    exact Nat.mod_eq_of_lt (s.capLimit_le.trans_lt (by decide))
  · rw [State.rd_wr_apart hlim (by decide) (by decide), State.rd_wr_same hcap (by decide)]
    exact Nat.mod_eq_of_lt (hcode'.trans_lt (by decide))
  · rw [State.rd_wr_same hlim (by decide), State.ceiling_clampSeen hr]
    exact Nat.mod_eq_of_lt hceil

end

/-! ## The obligation -/

/-- Settles O47: the scan of the limits keeps the lowest one, and the fields that it is written to hold it. -/
theorem capEffIsTheLowestLimit : Obligations.CapEffIsTheLowestLimit := by
  intro s hr hceil
  obtain ⟨hcap, hlimiter, hmode⟩ := State.rd_capRegs hr hceil
  obtain ⟨hmem, hle, htie⟩ := s.capLimit_spec
  obtain ⟨e, he, hcode, hwatts⟩ := State.exists_of_mem_heldLimits hmem
  rw [hcap, hlimiter, hmode]
  exact ⟨s.capLimit_le, hwatts ▸ le_max_left .., fun d hd => hle _ (State.mem_heldLimits hd), ⟨e, he, hcode, hwatts⟩,
    fun d hd => htie _ (State.mem_heldLimits hd), rfl⟩

end Sys2Proof.Machine
end

section
/-! PROOFS. Messages of the rack manager (R433, R434, R438), the power pins' cap (R435), caps that arrive (R428, R431) and the PF's power
writes (R420, R446), and the obligation about them. -/

namespace Sys2Proof.Machine

variable {s : State}

/-! ## Messages (R434, R438) -/

/-- What a valid message leaves: its time, while HB_EN is set, and no kickstand. -/
def State.messaged (s : State) : State :=
  let m : State := if s.rd F.PWR_RM_CFG.HB_EN 0 ≠ 0 then { s with pwr := { s.pwr with lastMsg := some s.time } } else s
  if m.rd F.PWR_STATUS.KICKSTAND 0 ≠ 0 then ((({ m with pwr := { m.pwr with kick := none } } : State).put
    F.PWR_STATUS.KICKSTAND 0 false).put F.PWR_STATUS.KICK_SAFE 0 false).raise 158 else m

theorem State.heard_eq (s : State) : s.heard = s.messaged := by
  simp only [State.heard, State.messaged, State.on, bne_iff_ne]

/-- A cap of the rack manager arrives with the ramp held (R426, R433). -/
def State.takeCap (s : State) (v : Nat) : State :=
  ((s.clampCap v).wr F.PWR_STATUS.CAP_RM 0 (clampTo 350 1200 v)).capArrives (s.rd F.PWR_STATUS.CAP_RM 0) (clampTo 350 1200 v) s.pwr.rampMs

/-- A ramp time is held for the caps to come (R433). -/
def State.takeRamp (s : State) (v : Nat) : State :=
  { s.evalCaps none with pwr := { (s.evalCaps none).pwr with rampMs := min v 10000 } }

/-- A mode of the rack manager is stored and applied (R421, R433). -/
def State.takeMode (s : State) (v : Nat) : State := ((s.evalCaps none).wr F.PWR_CFG.MODE 0 (min 2 v)).applyMode

section
variable (hc : s.clocks = true) (hp : s.pins.porLow = false) (hh : s.halted = false)
include hc hp hh

/-- A valid message has its effect on what hearing it leaves. -/
theorem State.packet_of_valid {eid : Nat} (hv : (s.raise 162).validEid eid = true) (t : State → State) :
    s.packet eid t = .next (t (s.raise 162).messaged) := by
  rw [State.packet, State.ifGoverned_of_governed hc hp hh, if_pos hv, State.heard_eq]

/-- A message of another endpoint only raises its source. -/
theorem State.packet_of_other {eid : Nat} (hv : (s.raise 162).validEid eid = false) (t : State → State) :
    s.packet eid t = .next (s.raise 162) := by
  rw [State.packet, State.ifGoverned_of_governed hc hp hh, if_neg (ne_true_of_eq_false hv)]

theorem exec_message_of_valid {eid : Nat} (hv : (s.raise 162).validEid eid = true) (v : Nat) : let u := (s.raise 162).messaged
    exec (.cap eid v) s = .next (u.takeCap v) ∧ exec (.ramp eid v) s = .next (u.takeRamp v) ∧
      exec (.pldmMode eid v) s = .next (u.takeMode v) ∧ exec (.heartbeat eid) s = .next (u.evalCaps none) :=
  have h := State.packet_of_valid hc hp hh hv
  ⟨h (·.takeCap v), h (·.takeRamp v), h (·.takeMode v), h (·.evalCaps none)⟩

theorem exec_message_of_other {eid : Nat} (hv : (s.raise 162).validEid eid = false) (v : Nat) :
    ∀ c ∈ [Instr.cap eid v, .ramp eid v, .pldmMode eid v, .heartbeat eid], exec c s = .next (s.raise 162) := by
  simp only [List.forall_mem_cons, List.not_mem_nil, false_imp_iff, implies_true, and_true]
  have h := State.packet_of_other hc hp hh hv
  exact ⟨h (·.takeCap v), h (·.takeRamp v), h (·.takeMode v), h (·.evalCaps none)⟩

/-! ## The pins' cap (R435) -/

theorem exec_pwrStepChange (v : Nat) :
    exec (.pwrStepChange v) s = .next (({ s with pins := { s.pins with step := v % 8 } } : State).stepSeen (v % 8)) :=
  State.drives_of_governed (g := fun x => { x with step := v % 8 }) (f := (·.stepSeen (v % 8))) hc hp hh

end

/-- A new code of PWR_STEP takes effect. -/
theorem State.stepSeen_of_ne {code : Nat} (h : s.rd F.PWR_STATUS.PIN_CODE 0 ≠ code) : s.stepSeen code =
    (s.wr F.PWR_STATUS.PIN_CODE 0 code).capArrives (max 350 (s.rd F.PWR_STEP_CAP.CAP (s.rd F.PWR_STATUS.PIN_CODE 0)))
      (max 350 (s.rd F.PWR_STEP_CAP.CAP code)) 0 := if_neg h

/-! ## Caps that arrive (R428, R431, log 30) -/

section
variable {old c ramp : Nat}

/-- The brake is applied for a lower cap that leaves CAP_EFF where it was, with the mean power too far above it, where no cap was judged at
that time. -/
theorem State.capArrives_eq (s : State) (old c ramp : Nat) : s.capArrives old c ramp = let t := s.evalCaps (some ramp)
    if (∀ j, s.pwr.judged = some j → j.at_ ≠ s.time) ∧ c < old ∧ s.rd F.PWR_STATUS.CAP_EFF 0 ≤ t.rd F.PWR_STATUS.CAP_EFF 0 ∧
        t.above (c + 200 * ramp + t.rd F.PWR_CFG.BRAKE_TOL 0) = true then
      t.brakeFor (t.rd F.PWR_STATUS.CAP_EFF 0)
    else t := by
  simp only [State.capArrives, Bool.and_eq_true, Option.all_eq_true, bne_iff_ne, decide_eq_true_eq, and_assoc]

theorem State.capArrives_of_not_lower (h : old ≤ c) : s.capArrives old c ramp = s.evalCaps (some ramp) := by
  rw [State.capArrives_eq]
  exact if_neg fun ⟨_, hlow, _⟩ => hlow.not_ge h

theorem State.capArrives_of_fall (h : (s.evalCaps (some ramp)).rd F.PWR_STATUS.CAP_EFF 0 < s.rd F.PWR_STATUS.CAP_EFF 0) :
    s.capArrives old c ramp = s.evalCaps (some ramp) := by
  rw [State.capArrives_eq]
  exact if_neg fun ⟨_, _, hle, _⟩ => hle.not_gt h

end

/-! ## The PF's power writes (R420, R446) -/

section
variable {f : FnId} (hf : s.hears f.val)
include hf

theorem exec_hostCapWrite (v : Word32) :
    exec (.hostCapWrite f v) s = .next (if isPF f.val then s.writeHostCap v.toNat else s.deny f.val) :=
  State.ifHost_of_hears hf ..

theorem exec_capture : exec (.capture f) s = .next (if isPF f.val then s.captureTime else s.deny f.val) :=
  State.ifHost_of_hears hf ..

theorem exec_modeWrite (v : Word32) : exec (.modeWrite f v) s = .next (if isPF f.val then s.writePwrCfg v.toNat else s.deny f.val) :=
  State.ifHost_of_hears hf ..

theorem exec_powerWrite_of_other (h0 : f.val ≠ 0) (v : Word32) :
    ∀ c ∈ [Instr.hostCapWrite f v, .capture f, .modeWrite f v], exec c s = .next (s.deny f.val) := by
  have hpf := mt isPF_iff.1 h0
  simp only [List.forall_mem_cons, List.not_mem_nil, false_imp_iff, implies_true, and_true]
  exact ⟨(exec_hostCapWrite hf v).trans (congrArg _ (if_neg hpf)), (exec_capture hf).trans (congrArg _ (if_neg hpf)),
    (exec_modeWrite hf v).trans (congrArg _ (if_neg hpf))⟩

end

/-! ## The obligation -/

/-- Settles O46: a message by its endpoint, a code of the pins by whether it is new, a cap that arrives by the conditions of its brake, and
each write by its function. -/
theorem powerLimitsAreSet : Obligations.PowerLimitsAreSet := by
  refine ⟨fun eid v s hc hp hh => ⟨fun hv => ?valid, fun hv => exec_message_of_other hc hp hh hv v,
      fun now hnow hne => ?newCode, fun hsame => ?sameCode⟩,
    fun s old c ramp => ⟨State.capArrives_of_not_lower, State.capArrives_of_fall, fun hlow hle hj => ?lower⟩,
    fun f v s hf => ⟨fun h0 => ?pf, fun h0 => exec_powerWrite_of_other hf h0 v⟩⟩
  case valid => exact exec_message_of_valid hc hp hh hv v
  case newCode =>
    subst hnow
    exact (exec_pwrStepChange hc hp hh v).trans (congrArg _ (State.stepSeen_of_ne hne))
  case sameCode => exact (exec_pwrStepChange hc hp hh v).trans (congrArg _ (State.stepSeen_same hsame))
  case lower =>
    rw [State.capArrives_eq]
    exact ⟨fun ha => if_pos ⟨hj, hlow, hle, ha⟩, fun ha => if_neg fun ⟨_, _, _, hb⟩ => ne_true_of_eq_false ha hb⟩
  case pf =>
    have hpf := isPF_iff.2 h0
    refine ⟨?_, (exec_capture hf).trans (congrArg _ (if_pos hpf)), (exec_modeWrite hf v).trans (congrArg _ (if_pos hpf))⟩
    rintro x rfl
    exact (exec_hostCapWrite hf v).trans (congrArg _ (if_pos hpf))

end Sys2Proof.Machine
end

section
/-! PROOFS. Margins and sensors (R484, R485), observation streams (R489, R491, R492), pins (R487, R502) and the TAP (R512), and the
obligation about them. -/

namespace Sys2Proof.Machine

variable {s : State}

/-! ## Margins and sensors (R484, R485) -/

section
variable (hc : s.clocks = true) (hp : s.pins.porLow = false) (hh : s.halted = false)
include hc hp hh

theorem exec_marginTrim_of_early (hd : s.beatDue beatMargin 1000000000 = false) (b : Bool) : exec (.marginTrim b) s = .next s :=
  (State.ifGoverned_of_governed hc hp hh _).trans (congrArg _ (if_pos hd))

/-- What a short margin is met with: 5 mV of trim up to 30 mV, then a divisor step, up to 3. -/
def State.trim (s : State) : State :=
  if s.rd F.OBS_CAL_STATUS.TRIM_MV 0 < 30 then (s.count F.OBS_CAL_STATUS.TRIM_MV 0 5).slewCore
  else if s.rd F.OBS_CAL_STATUS.DIV_STEPS 0 < 3 then
    ((s.wr F.OBS_CAL_STATUS.DIV_STEPS 0 (s.rd F.OBS_CAL_STATUS.DIV_STEPS 0 + 1)).evalCaps none).powerEvent
  else s

theorem exec_marginTrim_of_due (hd : s.beatDue beatMargin 1000000000 = true) (b : Bool) :
    exec (.marginTrim b) s = .next (if b then (s.beat beatMargin).trim else s.beat beatMargin) := by
  refine (State.ifGoverned_of_governed hc hp hh _).trans (congrArg _ ((if_neg (ne_false_of_eq_true hd)).trans ?_))
  cases b <;> rfl

theorem exec_sensorCheck {rs : List Nat} (hlen : rs.length = 80) : exec (.sensorCheck rs) s = .next (
    if s.beatDue beatSensors 10000000000 then
      (List.range 80).foldl (fun (u : State) k => u.checkSensor rs k) (s.beat beatSensors) else s) :=
  (if_neg (not_not.2 hlen)).trans (State.ifGoverned_of_governed hc hp hh _)

end

/-! ## Streams and tachometers of a live device (R489, R491, R492, R502) -/

section
variable (hl : s.live = true)
include hl

theorem exec_queueDepthSample_of_due (hon : s.rd F.OBS_SAMPLE_CTRL.STATE 0 = 1)
    (hd : s.beatDue beatDepth (s.rd F.OBS_SAMPLE_CTRL.PERIOD_US 0 * 1000) = true) : exec .queueDepthSample s =
      .next ((s.sampleScope.map s.depthRecord).foldl (fun (u : State) r => u.captureRec r) (s.beat beatDepth)) :=
  (State.ifLive_of_live hl).trans (congrArg _ (if_pos ⟨hon, hd⟩))

theorem exec_queueDepthSample_of_off (hoff : s.rd F.OBS_SAMPLE_CTRL.STATE 0 ≠ 1) : exec .queueDepthSample s = .next s :=
  (State.ifLive_of_live hl).trans (congrArg _ (if_neg fun h => hoff h.1))

/-- A stream that stops with nothing pended is OFF once the FIFO holds no record of it. -/
theorem exec_obsStreamStopDone_of_stopping {tr : Bool} (hst : s.rd (fState tr) 0 = 2) (hp : s.on (fPend tr) 0 = false) :
    exec (.obsStreamStopDone tr) s = .next (
      if s.drainFifo.obs.fifo.any fun r => r.1 == streamNo tr then s.drainFifo else s.drainFifo.streamOff tr) := by
  refine (State.ifLive_of_live hl).trans (congrArg _ ((if_pos hst).trans ?_))
  simp only [hp, Bool.false_eq_true, if_false]

theorem exec_tachWindow_of_due {n : GpioId} (hf : s.rd F.OBS_GPIO_CLAIM.FUNC n.val = 1)
    (hd : s.beatDue (beatTach n) 1000000000 = true) (pulses : Nat) :
    exec (.tachWindow n pulses) s = .next ((s.beat (beatTach n)).wrSat F.OBS_GPIO_CFG.TACH n.val pulses) :=
  (State.ifLive_of_live hl).trans (congrArg _ (if_pos ⟨hf, hd⟩))

end

/-! ## The host's requests (R487, R494) -/

section
variable {f : FnId} (hf : s.hears f.val)
include hf

theorem exec_obsStreamEnable (tr : Bool) (v : Word32) :
    exec (.obsStreamEnable f tr v) s = .next (if isPF f.val then s.writeStream tr v.toNat else s.deny f.val) :=
  State.ifHost_of_hears hf ..

theorem exec_gpioClaim (n : GpioId) (v : Word32) :
    exec (.gpioClaim f n v) s = .next (if isPF f.val then s.claimPin n.val (bits v.toNat 0 4) else s.deny f.val) :=
  State.ifHost_of_hears hf ..

end

/-! ## Pins (R502) -/

/-- A pin that holds the level it had changes nothing. -/
theorem exec_gpioEdge_same (n : GpioId) (s : State) : exec (.gpioEdge n (Tab.get false s.pins.gpio n.val)) s = .next s := if_pos rfl

/-- The level of a pin that has gone high is stored. -/
def State.pinHigh (s : State) (n : Nat) : State :=
  ({ s with pins := { s.pins with gpio := Tab.set false s.pins.gpio n true } } : State).put F.OBS_GPIO_CFG.LEVEL n true

theorem exec_gpioEdge_rises {n : GpioId} (hlow : Tab.get false s.pins.gpio n.val = false) (hl : (s.pinHigh n.val).live = true) :
    exec (.gpioEdge n true) s = .next (
      if bit ((s.pinHigh n.val).rd F.OBS_GPIO_CFG.EDGE n.val) 0 then (s.pinHigh n.val).raise (164 + n.val) else s.pinHigh n.val) :=
  (if_neg (ne_true_of_eq_false hlow)).trans (State.ifLive_of_live hl)

/-! ## The TAP (R512) -/

/-- An instruction is loaded into the TAP. -/
def State.tapLoaded (s : State) (code : Nat) : State := { s with pins := { s.pins with jtag := code } }

/-- SAMPLE/PRELOAD shifts out a free value. -/
theorem exec_boundaryScan_sample : exec (.boundaryScan 2) s = .next
    (({ s.tapLoaded 2 with fresh := s.fresh + 1 } : State).send (.boundary 2 (Config.freeValue s.fresh))) := rfl

/-- What an instruction of the TAP that acts as another one answers. -/
theorem exec_boundaryScan_of_acts {code a : Nat} (hcode : code < 256) (ha : s.tapActs code = a) (h2 : a ≠ 2) :
    exec (.boundaryScan code) s = .next ((s.tapLoaded code).send (.boundary a (if a = 1 then idcode else 0))) := by
  subst ha
  show execBoundaryScan code s = _
  rw [execBoundaryScan, Nat.mod_eq_of_lt hcode]
  exact if_neg h2

/-! ## The obligation -/

/-- Settles O50: each event by its condition, each request by its function, an edge by the level of its pin and an instruction of the TAP by
what it acts as. -/
theorem observationAndPins : Obligations.ObservationAndPins := by
  refine ⟨fun s hc hp hh => ⟨exec_marginTrim_of_early hc hp hh, fun hd => ⟨?enough, fun h30 => ?trim, fun h30 hdiv => ?divisor, fun h30 hdiv => ?spent⟩,
      fun rs hlen => ⟨fun hd => ?sensorsSoon, fun hd => ?sensors⟩⟩,
    fun s hl => ⟨exec_queueDepthSample_of_due hl, exec_queueDepthSample_of_off hl, fun tr hst hp => ⟨fun hw => ?off, fun hw => ?waits⟩,
      fun n pulses hf hd => exec_tachWindow_of_due hl hf hd pulses⟩,
    fun f s hf => ⟨fun h0 => ⟨fun tr v => ?stream, fun n v => ?claim⟩, fun h0 => ⟨fun tr v => ?streamDenied, fun n v => ?claimDenied⟩⟩,
    fun n s => ⟨exec_gpioEdge_same n s, exec_gpioEdge_rises⟩,
    fun code s hcode => ⟨fun h1 => ?id, fun h0 hpor => ?extest, fun h2 => ?sample, fun h3 => ?bypass⟩⟩
  case enough => exact exec_marginTrim_of_due hc hp hh hd false
  case trim => exact (exec_marginTrim_of_due hc hp hh hd true).trans (congrArg _ (if_pos h30))
  case divisor => exact (exec_marginTrim_of_due hc hp hh hd true).trans (congrArg _ ((if_neg (not_lt.2 h30)).trans (if_pos hdiv)))
  case spent =>
    exact (exec_marginTrim_of_due hc hp hh hd true).trans (congrArg _ ((if_neg (not_lt.2 h30)).trans (if_neg (not_lt.2 hdiv))))
  case sensorsSoon => exact (exec_sensorCheck hc hp hh hlen).trans (congrArg _ (if_neg (ne_true_of_eq_false hd)))
  case sensors => exact (exec_sensorCheck hc hp hh hlen).trans (congrArg _ (if_pos hd))
  case off => exact (exec_obsStreamStopDone_of_stopping hl hst hp).trans (congrArg _ (if_neg (ne_true_of_eq_false hw)))
  case waits => exact (exec_obsStreamStopDone_of_stopping hl hst hp).trans (congrArg _ (if_pos hw))
  case stream => exact (exec_obsStreamEnable hf tr v).trans (congrArg _ (if_pos (isPF_iff.2 h0)))
  case claim => exact (exec_gpioClaim hf n v).trans (congrArg _ (if_pos (isPF_iff.2 h0)))
  case streamDenied => exact (exec_obsStreamEnable hf tr v).trans (congrArg _ (if_neg (mt isPF_iff.1 h0)))
  case claimDenied => exact (exec_gpioClaim hf n v).trans (congrArg _ (if_neg (mt isPF_iff.1 h0)))
  case id =>
    subst h1
    exact exec_boundaryScan_of_acts hcode rfl (by decide)
  case extest => exact exec_boundaryScan_of_acts hcode (if_pos ⟨h0, hpor⟩) (by decide)
  case sample =>
    subst h2
    exact ⟨_, exec_boundaryScan_sample⟩
  case bypass =>
    have hacts : s.tapActs code = 0xFF := by rw [State.tapActs, if_neg (by omega), if_neg (by omega), if_neg (by omega)]
    exact exec_boundaryScan_of_acts hcode hacts (by decide)

end Sys2Proof.Machine
end

section
/-! PROOFS. Approval tokens that begin and that fail (R461, R463, R467), nonces and measurements (R453, R462), refused writes of RWA fields
(R464), the debug instructions (R471, R472), and the obligation about them. -/

namespace Sys2Proof

theorem length_toBytes (n x : Nat) : (toBytes n x).length = n := by
  induction n generalizing x with
  | zero => rfl
  | succ n ih => rw [toBytes, List.length_cons, ih]

/-- A record no longer than a slice from its start is filled up with zeros. -/
theorem slice_of_length_le {bs : List Byte} {n : Nat} (h : bs.length ≤ n) : slice bs 0 n = bs ++ List.replicate (n - bs.length) 0 := by
  rw [slice, List.drop_zero, List.take_of_length_le h]

end Sys2Proof

namespace Sys2Proof.Machine

variable {s t : State}

/-! ## What the token engine is asked for (R461, R462, R467) -/

section
variable {f : FnId} (hf : s.hears f.val)
include hf

theorem exec_apply : exec (.apply f) s = .next (if isPF f.val then s.goApply else s.deny f.val) := State.ifHost_of_hears hf ..

theorem exec_newNonce : exec (.newNonce f) s = .next (if isPF f.val then s.askNonce else s.deny f.val) := State.ifHost_of_hears hf ..

theorem exec_measExtend (p : PartId) : exec (.measExtend f p) s = .next (if ownFn f.val p.val then s.measGo p.val else s.deny f.val) :=
  State.ifHost_of_hears hf ..

/-- A direct write of a register with RWA fields is refused for those, or denied. -/
theorem exec_rwaWriteRefused {off : Nat} {k : RegKind} {i o : Nat} (hr : regAt 0 off = some (k, i, o)) (v : Word64) :
    exec (.rwaWriteRefused f off v) s =
      .next (if rwaMask k = 0 then s else if isPF f.val then s.writeRwa k i off v.toNat else s.deny f.val) := by
  refine (State.ifHost_of_hears hf _ _).trans (congrArg _ ?_)
  simp only [hr]

end

/-- A token that has left `t`, to end as `e` says, is under way until `d` ns from now (R461, log 46). -/
def State.tokenBegins (s t : State) (e : TokenEnd) (d : Nat) : State :=
  (({ t with fresh := t.fresh + 1, sec := { t.sec with apply := some { e with until_ := timeAdd s.time d } } } : State).put
    F.SEC_TOKEN_STATUS.BUSY 0 true).tokenDue

theorem State.tokenBusy_of_free (h : s.sec.apply = none) (t : State) : s.tokenBusy t = t := by
  rw [State.tokenBusy, h]
  rfl

theorem State.tokenBusy_of_busy (h : s.sec.apply ≠ none) (t : State) : s.tokenBusy t = s.put F.SEC_TOKEN_STATUS.OVERRUN 0 true :=
  if_pos (Option.isSome_iff_ne_none.2 h)

/-- A token ends at a time that a free value picks within its limit, and what it changes stands from its start (log 46). -/
theorem State.goApply_of_free (h : s.sec.apply = none) {e : TokenEnd} (he : s.applyToken (fun _ => true) = (t, e)) :
    ∃ d, d ≤ e.until_ - s.time ∧ s.goApply = s.tokenBegins t e d := by
  refine ⟨(t.draw 28).1 % (e.until_ - s.time + 1), Nat.le_of_lt_succ (Nat.mod_lt _ (Nat.succ_pos _)), ?_⟩
  rw [State.goApply, State.tokenBusy_of_free h, he]
  rfl

/-! ## The debug instructions (R471, R472) -/

section
variable (hc : s.clocks = true) (hp : s.pins.porLow = false)
include hc hp

/-- With debug closed, or once seen, they act as BYPASS. -/
theorem exec_debugInstruction_of_done (h : s.rd F.SEC_FUSE_STATE.DEBUG_CLOSED 0 = 1 ∨ s.rd F.SEC_FUSE_STATE.DEBUG_SEEN 0 = 1) :
    exec .debugInstruction s = .next s :=
  (State.ifClocked_of_clocks hc hp).trans (congrArg _ (if_pos
    (Bool.or_eq_true_iff.2 (h.imp (State.on_iff rfl).2 (State.on_iff rfl).2))))

/-- The first one is seen and measured. -/
theorem exec_debugInstruction_of_first (hclosed : s.rd F.SEC_FUSE_STATE.DEBUG_CLOSED 0 = 0)
    (hseen : s.rd F.SEC_FUSE_STATE.DEBUG_SEEN 0 = 0) : ∃ code, code < 256 ∧
      exec .debugInstruction s = .next ((({ s with fresh := s.fresh + 1 } : State).put F.SEC_FUSE_STATE.DEBUG_SEEN 0 true).extend 7
        (toBytes 16 s.sec.uid ++ toBytes 8 s.time ++ toBytes 1 code ++ List.replicate 7 0)) := by
  have hopen : ¬(s.on F.SEC_FUSE_STATE.DEBUG_CLOSED 0 || s.on F.SEC_FUSE_STATE.DEBUG_SEEN 0) = true := by
    rw [State.off_of_rd hclosed, State.off_of_rd hseen]
    decide
  refine ⟨(s.draw 8).1, Nat.mod_lt _ (by decide), (State.ifClocked_of_clocks hc hp).trans (congrArg _ ((if_neg hopen).trans ?_))⟩
  have hlen : (toBytes 16 s.sec.uid ++ toBytes 8 s.time ++ toBytes 1 (s.draw 8).1).length = 25 := by
    simp only [List.length_append, length_toBytes]
  have hslice := slice_of_length_le (n := 32) (hlen.trans_le (by decide))
  rw [hlen] at hslice
  exact congrArg (State.extend _ 7) hslice

end

/-! ## Tokens that fail (R461, R463) -/

/-- The two states differ at most in registers, and there, where the register file is canonical, at most in those of one kind. -/
def WritesOnly (k : RegKind) (s t : State) : Prop := ∃ regs, t = { s with regs := regs } ∧
  (Tab.rising s.regs = true → Tab.rising t.regs = true ∧ ∀ k' i, k' ≠ k → t.reg k' i = s.reg k' i)

theorem WritesOnly.refl (k : RegKind) (s : State) : WritesOnly k s s := ⟨s.regs, rfl, fun h => ⟨h, fun _ _ _ => rfl⟩⟩

/-- A field of such a register may change. -/
theorem WritesOnly.wr {k : RegKind} (h : WritesOnly k s t) {f : Fld} (hf : f.kind = k) (i v : Nat) : WritesOnly k s (t.wr f i v) := by
  obtain ⟨regs, rfl, hregs⟩ := h
  refine ⟨_, rfl, fun hr => ?_⟩
  obtain ⟨hrise, hreg⟩ := hregs hr
  exact ⟨State.rising_wr hrise f i v, fun k' j hk => (State.reg_setReg_other _ hrise (RegKind.key_ne_of_ne (hf ▸ hk) _ _) _).trans (hreg k' j hk)⟩

/-- The partition whose map a refused action names takes the error. -/
theorem WritesOnly.mapFails (h : WritesOnly .SEC_PART_STATE s t) (a : TokAct) (error owner : Nat) :
    WritesOnly .SEC_PART_STATE s (t.mapFails a error owner) := by
  have herr := h.wr (f := F.SEC_PART_STATE.LAST_ERR) rfl
  unfold State.mapFails
  by_cases hk : a.kind = 1
  · rw [if_pos hk]
    split
    next p _ =>
      by_cases hown : error = eConflict
      · exact if_pos hown ▸ (herr p error).wr rfl p owner
      · exact if_neg hown ▸ herr p error
    next => exact h
  · exact if_neg hk ▸ h

theorem State.writesOnly_mapsFail (s : State) (c error : Nat) (acts : List TokAct) :
    WritesOnly .SEC_PART_STATE s (s.mapsFail c error acts) := by
  unfold State.mapsFail
  split_ifs
  · exact .refl _ s
  · exact List.foldlRecOn (motive := WritesOnly .SEC_PART_STATE s) _ _ (.refl _ s) fun u hu a _ => hu.mapFails a error 0

/-- A token that fails one of the checks 1 to 5 ends with that check, and the maps it names take the error. -/
theorem State.applyToken_of_failed (h : s.tokenCheck ≠ 0) (fits : List TokAct → Bool) : s.applyToken fits =
    (s.mapsFail s.tokenCheck eApproval ((tokActs s.tokBody).map TokAct.parse), ⟨timeAdd s.time 20000000, s.tokenCheck, 0, eApproval, 0⟩) := by
  unfold State.applyToken
  extract_lets c soon
  exact if_pos h

theorem State.tokenCheck_le (s : State) : s.tokenCheck ≤ 5 := by
  unfold State.tokenCheck
  dsimp only
  split_ifs <;> decide

theorem State.rd_request (s : State) (f vec : Nat) (g : Fld) (i : Nat) : (s.request f vec).rd g i = s.rd g i :=
  congrArg (bits · g.lo g.w) (State.reg_request ..)

/-- What SEC_TOKEN_STATUS holds at the end of a token. -/
theorem State.rd_tokenEnds (hr : Tab.rising s.regs = true) (e : TokenEnd) : (s.tokenEnds e).rd F.SEC_TOKEN_STATUS.CHECK 0 = e.check % 2 ^ 8 ∧
    (s.tokenEnds e).rd F.SEC_TOKEN_STATUS.ERROR 0 = e.error % 2 ^ 8 ∧ (s.tokenEnds e).rd F.SEC_TOKEN_STATUS.BUSY 0 = 0 ∧
    (s.tokenEnds e).rd F.SEC_TOKEN_STATUS.DONE 0 = 1 := by
  have hsec : Tab.rising ({ s with sec := { s.sec with apply := none } } : State).regs = true := hr
  have hcheck := State.rising_wr hsec F.SEC_TOKEN_STATUS.CHECK 0 e.check
  have haction := State.rising_wr hcheck F.SEC_TOKEN_STATUS.ACTION 0 e.action
  have herror := State.rising_wr haction F.SEC_TOKEN_STATUS.ERROR 0 e.error
  have howner := State.rising_wr herror F.SEC_TOKEN_STATUS.OWNER 0 e.owner
  have hbusy := State.rising_wr howner F.SEC_TOKEN_STATUS.BUSY 0 (b2n false)
  simp only [State.tokenEnds, State.rd_request, State.put]
  refine ⟨?_, ?_, ?_, ?_⟩
  · rw [State.rd_wr_apart hbusy (by decide) (by decide), State.rd_wr_apart howner (by decide) (by decide),
      State.rd_wr_apart herror (by decide) (by decide), State.rd_wr_apart haction (by decide) (by decide),
      State.rd_wr_apart hcheck (by decide) (by decide), State.rd_wr_same hsec (by decide)]
  · rw [State.rd_wr_apart hbusy (by decide) (by decide), State.rd_wr_apart howner (by decide) (by decide),
      State.rd_wr_apart herror (by decide) (by decide), State.rd_wr_same haction (by decide)]
  · rw [State.rd_wr_apart hbusy (by decide) (by decide), State.rd_wr_same howner (by decide)]
    rfl
  · rw [State.rd_wr_same hbusy (by decide)]
    rfl

/-! ## The obligation -/

/-- Settles O52: each request by its function and whether a token is under way, the debug instructions by what was seen, and a failed token by
the one kind of register that its refusal writes. -/
theorem tokensNoncesAndMeasurements : Obligations.TokensNoncesAndMeasurements := by
  refine ⟨⟨fun f s hf => ⟨fun h0 => ⟨fun hfree => ⟨?apply, ?nonce⟩, fun hbusy => ⟨?applyBusy, ?nonceBusy⟩,
        fun off v k i o hr => ⟨fun hk => ?refused, fun hk => ?noRwa⟩⟩,
      fun h0 => ⟨?applyDenied, ?nonceDenied, fun off v k i o hr hk => ?rwaDenied⟩, fun p => ⟨fun ho => ?extend, fun ho => ?extendDenied⟩⟩,
    fun s hc hp => ⟨exec_debugInstruction_of_done hc hp, exec_debugInstruction_of_first hc hp⟩⟩, fun s fits hfail => ?failed⟩
  case apply =>
    rcases he : s.applyToken fun _ => true with ⟨t, e⟩
    obtain ⟨d, hd, hgo⟩ := State.goApply_of_free hfree he
    exact ⟨d, hd, (exec_apply hf).trans (congrArg _ ((if_pos (isPF_iff.2 h0)).trans hgo))⟩
  case nonce =>
    exact ⟨_, (exec_newNonce hf).trans (congrArg _ ((if_pos (isPF_iff.2 h0)).trans (State.tokenBusy_of_free hfree _)))⟩
  case applyBusy => exact (exec_apply hf).trans (congrArg _ ((if_pos (isPF_iff.2 h0)).trans (State.tokenBusy_of_busy hbusy _)))
  case nonceBusy => exact (exec_newNonce hf).trans (congrArg _ ((if_pos (isPF_iff.2 h0)).trans (State.tokenBusy_of_busy hbusy _)))
  case refused => exact (exec_rwaWriteRefused hf hr v).trans (congrArg _ ((if_neg hk).trans (if_pos (isPF_iff.2 h0))))
  case noRwa => exact (exec_rwaWriteRefused hf hr v).trans (congrArg _ (if_pos hk))
  case applyDenied => exact (exec_apply hf).trans (congrArg _ (if_neg (mt isPF_iff.1 h0)))
  case nonceDenied => exact (exec_newNonce hf).trans (congrArg _ (if_neg (mt isPF_iff.1 h0)))
  case rwaDenied => exact (exec_rwaWriteRefused hf hr v).trans (congrArg _ ((if_neg hk).trans (if_neg (mt isPF_iff.1 h0))))
  case extend => exact (exec_measExtend hf p).trans (congrArg _ (if_pos ho))
  case extendDenied => exact (exec_measExtend hf p).trans (congrArg _ (if_neg (ne_true_of_eq_false ho)))
  case failed =>
    have hcheck : s.tokenCheck % 2 ^ 8 = s.tokenCheck := Nat.mod_eq_of_lt (s.tokenCheck_le.trans_lt (by decide))
    have hmaps := s.writesOnly_mapsFail s.tokenCheck eApproval ((tokActs s.tokBody).map TokAct.parse)
    rw [State.applyToken_of_failed hfail]
    generalize s.mapsFail _ _ _ = t at hmaps ⊢
    obtain ⟨regs, rfl, hregs⟩ := hmaps
    refine ⟨rfl, rfl, rfl, rfl, rfl, rfl, rfl, fun hr => ?_, fun hfew => if_pos hfew⟩
    obtain ⟨hrise, hreg⟩ := hregs hr
    obtain ⟨hends, hrest⟩ := State.rd_tokenEnds hrise ⟨timeAdd s.time 20000000, s.tokenCheck, 0, eApproval, 0⟩
    exact ⟨fun k i => hreg k i, hends.trans hcheck, hrest⟩

end Sys2Proof.Machine
end

section
/-! PROOFS. What the fatal state still does to registers, pins, power and the host interface (R445, R450, R477, R479), and how far the obligation
that it serves no work holds. -/

namespace Sys2Proof.Machine

variable {s t u : State} {r r' : Result}

/-! ## States that agree in their work -/

/-- The two states agree in the array, the tensors, the commands and journal, the serving engine, the fabric, the bulk tier and the interrupt
deliveries. -/
structure SameWork (s t : State) : Prop where
  arr : t.arr = s.arr
  mem : t.mem = s.mem
  ctl : t.ctl = s.ctl
  srv : t.srv = s.srv
  rlt : t.rlt = s.rlt
  blk : t.blk = s.blk
  intc : t.intc = s.intc

theorem SameWork.refl (s : State) : SameWork s s := ⟨rfl, rfl, rfl, rfl, rfl, rfl, rfl⟩

theorem SameWork.ite {p : Prop} [Decidable p] (h : SameWork s t) (h' : SameWork s u) : SameWork s (if p then t else u) := by
  split_ifs
  · exact h
  · exact h'

theorem SameWork.foldl {α : Type} (h : SameWork s u) {g : State → α → State} (hg : ∀ v a, SameWork s v → SameWork s (g v a)) (l : List α) :
    SameWork s (l.foldl g u) :=
  List.foldlRecOn (motive := SameWork s) _ _ h fun v hv a _ => hg v a hv

section
variable (h : SameWork s u)
include h

theorem SameWork.tensor (p tid : Nat) : u.tensor p tid = s.tensor p tid := by
  rw [State.tensor, State.tensor, h.mem]

theorem SameWork.setReg (k : RegKind) (i v : Nat) : SameWork s (u.setReg k i v) :=
  let ⟨arr, mem, ctl, srv, rlt, blk, intc⟩ := h
  ⟨arr, mem, ctl, srv, rlt, blk, intc⟩

theorem SameWork.withClocks (x : Bool) : SameWork s { u with clocks := x } :=
  let ⟨arr, mem, ctl, srv, rlt, blk, intc⟩ := h
  ⟨arr, mem, ctl, srv, rlt, blk, intc⟩

theorem SameWork.withObs (x : Obs) : SameWork s { u with obs := x } :=
  let ⟨arr, mem, ctl, srv, rlt, blk, intc⟩ := h
  ⟨arr, mem, ctl, srv, rlt, blk, intc⟩

theorem SameWork.withLpx (x : Lpx) : SameWork s { u with lpx := x } :=
  let ⟨arr, mem, ctl, srv, rlt, blk, intc⟩ := h
  ⟨arr, mem, ctl, srv, rlt, blk, intc⟩

theorem SameWork.withPci (x : Pci) : SameWork s { u with pci := x } :=
  let ⟨arr, mem, ctl, srv, rlt, blk, intc⟩ := h
  ⟨arr, mem, ctl, srv, rlt, blk, intc⟩

theorem SameWork.withPwr (x : Pwr) : SameWork s { u with pwr := x } :=
  let ⟨arr, mem, ctl, srv, rlt, blk, intc⟩ := h
  ⟨arr, mem, ctl, srv, rlt, blk, intc⟩

theorem SameWork.withSec (x : Sec) : SameWork s { u with sec := x } :=
  let ⟨arr, mem, ctl, srv, rlt, blk, intc⟩ := h
  ⟨arr, mem, ctl, srv, rlt, blk, intc⟩

theorem SameWork.withPins (x : Pins) : SameWork s { u with pins := x } :=
  let ⟨arr, mem, ctl, srv, rlt, blk, intc⟩ := h
  ⟨arr, mem, ctl, srv, rlt, blk, intc⟩

theorem SameWork.withClocksPins (x : Bool) (y : Pins) : SameWork s { u with clocks := x, pins := y } := (h.withClocks x).withPins y

theorem SameWork.withSaved (x : Option SavedJournal) : SameWork s { u with saved := x } :=
  let ⟨arr, mem, ctl, srv, rlt, blk, intc⟩ := h
  ⟨arr, mem, ctl, srv, rlt, blk, intc⟩

theorem SameWork.withFresh (x : Nat) : SameWork s { u with fresh := x } :=
  let ⟨arr, mem, ctl, srv, rlt, blk, intc⟩ := h
  ⟨arr, mem, ctl, srv, rlt, blk, intc⟩

theorem SameWork.beat (k : Nat) : SameWork s (u.beat k) :=
  let ⟨arr, mem, ctl, srv, rlt, blk, intc⟩ := h
  ⟨arr, mem, ctl, srv, rlt, blk, intc⟩

theorem SameWork.withMsix (x : List Nat) : SameWork s { u with msix := x } :=
  let ⟨arr, mem, ctl, srv, rlt, blk, intc⟩ := h
  ⟨arr, mem, ctl, srv, rlt, blk, intc⟩

theorem SameWork.send (m : Sent) : SameWork s (u.send m) :=
  let ⟨arr, mem, ctl, srv, rlt, blk, intc⟩ := h
  ⟨arr, mem, ctl, srv, rlt, blk, intc⟩

/-! ### Registers, sources and records (R404, R414, R490) -/

theorem SameWork.wr (f : Fld) (i v : Nat) : SameWork s (u.wr f i v) := h.setReg ..
theorem SameWork.put (f : Fld) (i : Nat) (b : Bool) : SameWork s (u.put f i b) := h.wr ..
theorem SameWork.count (f : Fld) (i n : Nat) : SameWork s (u.count f i n) := h.wr ..
theorem SameWork.wrSat (f : Fld) (i v : Nat) : SameWork s (u.wrSat f i v) := h.wr ..
theorem SameWork.putBit (f : Fld) (n : Nat) (b : Bool) : SameWork s (u.putBit f n b) := h.wr ..
theorem SameWork.request (f vec : Nat) : SameWork s (u.request f vec) := .ite h (h.withMsix _)
theorem SameWork.handOver (n : Nat) : SameWork s (u.handOver n) := .ite ((h.putBit ..).request ..) h
theorem SameWork.raise (n : Nat) : SameWork s (u.raise n) := .ite h ((h.putBit ..).handOver n)
theorem SameWork.trace (event seq a b : Nat) : SameWork s (u.trace event seq a b) := .ite (.ite (h.withObs _) (h.count ..)) h
theorem SameWork.powerEvent : SameWork s u.powerEvent := (h.trace ..).raise 157

/-! ### Caps and the brake (R425 to R431, R445) -/

theorem SameWork.brakeOn : SameWork s u.brakeOn := .ite h (h.put ..).powerEvent
theorem SameWork.fallTo (p c us : Nat) : SameWork s (u.fallTo p c us) := h.withPwr _
theorem SameWork.riseTo (p c : Nat) : SameWork s (u.riseTo p c) := h.withPwr _
theorem SameWork.brakeFor (c : Nat) : SameWork s (u.brakeFor c) := (h.fallTo c c 0).brakeOn.withPwr _
theorem SameWork.slewCore : SameWork s u.slewCore := h.withPwr _

theorem SameWork.capRegs : SameWork s u.capRegs := (((SameWork.ite (h.put ..) h).wr ..).wr ..).wr ..

/-- An overshoot window goes on against the lowest cap. -/
def State.lowerWindow (s : State) (c : Nat) : State :=
  match s.pwr.window with
  | some (t, e, w) => { s with pwr := { s.pwr with window := some (t, e, min w c) } }
  | none => s

theorem SameWork.lowerWindow (c : Nat) : SameWork s (u.lowerWindow c) := by
  unfold State.lowerWindow
  split
  · exact h.withPwr _
  · exact h

theorem SameWork.judgeCaps (old : Nat) (ramp : Option Nat) : SameWork s (u.judgeCaps old ramp) := by
  have hv := h.lowerWindow (u.rd F.PWR_STATUS.CAP_EFF 0)
  refine .ite (.ite (.ite (hv.riseTo ..) (hv.fallTo ..)) ?_) (.ite (h.riseTo ..) h)
  cases ramp with
  | none => exact hv.fallTo ..
  | some r => exact .ite (hv.fallTo ..) (hv.brakeFor _)

theorem SameWork.unjudge (j : Judged) : SameWork s (u.unjudge j) := (h.put ..).withPwr _

theorem SameWork.evalCaps (ramp : Option Nat) : SameWork s (u.evalCaps ramp) := by
  unfold State.evalCaps
  extract_lets was
  split
  · exact ((h.capRegs.withPwr _).unjudge _).judgeCaps ..
  · exact (h.withPwr _).capRegs.judgeCaps ..

theorem SameWork.capArrives (old c ramp : Nat) : SameWork s (u.capArrives old c ramp) :=
  .ite ((h.evalCaps _).brakeFor _) (h.evalCaps _)

theorem SameWork.applyMode : SameWork s u.applyMode := .ite h (.ite h ((h.withPwr _).evalCaps none).powerEvent)

theorem SameWork.brakeOff : SameWork s u.brakeOff := .ite h ((h.withPwr _).put ..).applyMode

theorem SameWork.windowStep : SameWork s u.windowStep := by
  unfold State.windowStep
  split
  · exact h
  · exact .ite ((((((h.withPwr _).count ..).wrSat ..).wrSat ..).wr ..).powerEvent) (h.withPwr _)

/-! ### Pins and messages (R434 to R438) -/

theorem SameWork.throttleSeen (low : Bool) : SameWork s (u.throttleSeen low) :=
  .ite h (.ite (((h.put ..).raise 160).withPwr _).brakeOn (((h.put ..).raise 160).withPwr _))

theorem SameWork.coolantSeen (low : Bool) : SameWork s (u.coolantSeen low) :=
  have hlow := (h.withPwr _).raise 160
  .ite h (.ite (((hlow.withPwr _).put ..).brakeOn.evalCaps none) (hlow.withPwr _))

theorem SameWork.stepSeen (code : Nat) : SameWork s (u.stepSeen code) := .ite h ((h.wr ..).capArrives ..)

theorem SameWork.heard : SameWork s u.heard :=
  have hkept := SameWork.ite (h.withPwr _) h
  .ite ((((hkept.withPwr _).put ..).put ..).raise 158) hkept

theorem SameWork.clampCap (w : Nat) : SameWork s (u.clampCap w) := .ite (h.put ..) h

theorem SameWork.checkSensor (rs : List Nat) (k : Nat) : SameWork s (u.checkSensor rs k) :=
  .ite h (.ite (.ite (h.withPwr _) ((((h.withPwr _).count ..).raise 159).evalCaps none)) (h.withPwr _))

/-! ### The host interface and reads of BAR2 (R387, R388, R396, R397) -/

theorem SameWork.sendTlp (f sub : Nat) (m : Sent) : SameWork s (u.sendTlp f sub m) := h.send _

theorem SameWork.report (kind f : Nat) : SameWork s (u.report kind f) := by
  unfold State.report
  extract_lets x put
  have hput (v : State) (hv : SameWork s v) (x : Aer) : SameWork s (put v x) := hv.withPci _
  refine .ite h (.ite (.ite (hput u h _) ((hput u h _).sendTlp ..)) (.ite (hput u h _) ?_))
  split
  next n v hv =>
    have hv : SameWork s v := by
      split_ifs at hv
      · exact (Prod.mk.inj hv).2 ▸ h.withFresh _
      · exact (Prod.mk.inj hv).2 ▸ h
    exact .ite ((hput v hv _).sendTlp ..) (hput v hv _)

theorem SameWork.pciEvent (kind f addr : Nat) : SameWork s (u.pciEvent kind f addr) :=
  ((((((((h.count ..).setReg ..).put ..).wr ..).wr ..).wr ..).wr ..).wr ..).count .. |>.report kind f

theorem SameWork.setChan (c : Nat) (x : LpxChan) : SameWork s (u.setChan c x) := h.withLpx _

theorem SameWork.busErrors (write : Bool) (bs : List (Nat × Nat)) : SameWork s (u.busErrors write bs) :=
  h.foldl (fun _ _ hv => (((hv.withFresh _).setChan ..).count ..).count ..) bs

theorem SameWork.holdMain (chs : List Nat) (x : MainReq) : SameWork s (u.holdMain chs x) :=
  (h.withLpx _).foldl (fun _ _ hv => .ite hv (hv.setChan ..)) chs

theorem SameWork.poison (f off : Nat) : SameWork s (u.poison f off) := (((h.pciEvent 0 f off).withFresh _).wr ..).sendTlp ..

end

/-! ## Answers that leave the work as it was -/

/-- A next state, if there is one, agrees with `s` in its work. -/
def keepsWork (s : State) (r : Result) : Prop := ∀ t, r = .next t → SameWork s t

theorem keepsWork_next (h : SameWork s u) : keepsWork s (.next u) := by
  rintro t ⟨⟩
  exact h

theorem keepsWork_same (s : State) : keepsWork s (.next s) := keepsWork_next (.refl s)

theorem keepsWork_fault (s : State) (x : Fault) : keepsWork s (.fault x) := by
  rintro t ⟨⟩

theorem keepsWork_ite {p : Prop} [Decidable p] (h : keepsWork s r) (h' : keepsWork s r') : keepsWork s (if p then r else r') := by
  split_ifs
  · exact h
  · exact h'

theorem keepsWork_ifClocked (h : SameWork s t) : keepsWork s (s.ifClocked t) := keepsWork_next (.ite h (.refl s))

/-- The governor works on in the fatal state (R445). -/
theorem keepsWork_ifGoverned (h : SameWork s u) (ht : SameWork s t) : keepsWork s (u.ifGoverned t) := keepsWork_next (.ite ht h)

theorem keepsWork_drives {g : Pins → Pins} {f : State → State} (hf : ∀ u, SameWork s u → SameWork s (f u)) : keepsWork s (s.drives g f) :=
  have hpins := (SameWork.refl s).withPins (g s.pins)
  keepsWork_ifGoverned hpins (hf _ hpins)

theorem keepsWork_packet (eid : Nat) {f : State → State} (hf : ∀ u, SameWork s u → SameWork s (f u)) : keepsWork s (s.packet eid f) :=
  have hrx := (SameWork.refl s).raise 162
  keepsWork_ifGoverned (.refl s) (.ite (hf _ hrx.heard) hrx)

/-! ### The governor, sensors and the TAP (R424 to R443, R484, R485, R512) -/

theorem keepsWork_governorSample (w mv a : Nat) (s : State) : keepsWork s (execGovernorSample w mv a s) :=
  have h := (SameWork.refl s).beat beatSample
  keepsWork_ifGoverned (.refl s) (.ite (.refl s) (((((h.withPwr _).wrSat ..).wrSat ..).wrSat ..).wrSat ..).windowStep)

theorem keepsWork_governorEval (est : List Nat) (s : State) : keepsWork s (execGovernorEval est s) := by
  have h := ((SameWork.refl s).beat beatEval).capRegs
  refine keepsWork_ifGoverned (.refl s) (.ite (.refl s) ?_)
  dsimp only
  split
  · exact h
  · exact ((h.wr ..).withPwr _).slewCore

theorem keepsWork_divisorChange (mv : Nat) (s : State) : keepsWork s (execDivisorChange mv s) :=
  have h := SameWork.refl s
  keepsWork_ifGoverned h (.ite h (.ite h.slewCore (((h.wr ..).count ..).wrSat ..).slewCore))

theorem keepsWork_brakeRelease (s : State) : keepsWork s (execBrakeRelease s) :=
  keepsWork_ifGoverned (.refl s) ((SameWork.refl s).withPwr _).brakeOff

theorem keepsWork_throttleRelease (s : State) : keepsWork s (execThrottleRelease s) := by
  refine keepsWork_ifGoverned (.refl s) ?_
  split
  · have h := fun x => ((SameWork.refl s).withPwr x).brakeOff
    exact .ite (.ite ((h _).riseTo ..) (h _)) (.refl s)
  · exact .refl s

theorem keepsWork_coolantCeilingLift (s : State) : keepsWork s (execCoolantCeilingLift s) := by
  refine keepsWork_ifGoverned (.refl s) ?_
  split
  · exact .ite ((((SameWork.refl s).withPwr _).put ..).evalCaps none) (.refl s)
  · exact .refl s

theorem keepsWork_kickstandEnter (s : State) : keepsWork s (execKickstandEnter s) := by
  refine keepsWork_ifGoverned (.refl s) ?_
  split
  · exact .ite (((((SameWork.refl s).withPwr _).put ..).raise 158).evalCaps none) (.refl s)
  · exact .refl s

theorem keepsWork_kickstandSafe (s : State) : keepsWork s (execKickstandSafe s) := by
  refine keepsWork_ifGoverned (.refl s) ?_
  split
  · exact .ite ((((SameWork.refl s).withPwr _).put ..).evalCaps none) (.refl s)
  · exact .refl s

theorem keepsWork_cap (eid v : Nat) (s : State) : keepsWork s (execCap eid v s) := by
  unfold execCap
  exact keepsWork_packet eid fun u h => ((h.clampCap v).wr F.PWR_STATUS.CAP_RM 0 (clampTo 350 1200 v)).capArrives
    (u.rd F.PWR_STATUS.CAP_RM 0) (clampTo 350 1200 v) u.pwr.rampMs

theorem keepsWork_ramp (eid v : Nat) (s : State) : keepsWork s (execRamp eid v s) := by
  unfold execRamp
  exact keepsWork_packet eid fun u h => (h.evalCaps none).withPwr { (u.evalCaps none).pwr with rampMs := min v 10000 }

theorem keepsWork_marginTrim (b : Bool) (s : State) : keepsWork s (execMarginTrim b s) :=
  have h := (SameWork.refl s).beat beatMargin
  keepsWork_ifGoverned (.refl s) (.ite (.refl s) (.ite h (.ite (h.count ..).slewCore (.ite ((h.wr ..).evalCaps none).powerEvent h))))

theorem keepsWork_sensorCheck (rs : List Nat) (s : State) : keepsWork s (execSensorCheck rs s) :=
  have h := (SameWork.refl s).beat beatSensors
  keepsWork_ite (keepsWork_fault s _) (keepsWork_ifGoverned (.refl s) (.ite (h.foldl (fun _ k hv => hv.checkSensor rs k) _) (.refl s)))

theorem keepsWork_hardwareTrip (tj : Nat) (s : State) : keepsWork s (execHardwareTrip tj s) :=
  keepsWork_ifClocked (.ite (((SameWork.refl s).put ..).withClocksPins _ _) (.refl s))

theorem keepsWork_refclkLoss (s : State) : keepsWork s (execRefclkLoss s) :=
  keepsWork_ifClocked (((SameWork.refl s).put ..).withClocksPins _ _)

theorem keepsWork_boundaryScan (code : Nat) (s : State) : keepsWork s (execBoundaryScan code s) :=
  have h := (SameWork.refl s).withPins
  keepsWork_ite (keepsWork_next (((h _).withFresh _).send _)) (keepsWork_next ((h _).send _))

/-! ### Boot, measurements and the saved journal (R450, R452, R472, R477) -/

theorem SameWork.extend (h : SameWork s u) (r : Nat) (d : List Byte) : SameWork s (u.extend r d) := h.withSec _

theorem SameWork.romMeasure (h : SameWork s u) (a b : Nat) : SameWork s (u.romMeasure a b) :=
  have ha := SameWork.ite ((h.extend ..).extend ..) (h.extend ..)
  (SameWork.ite (ha.extend ..) ha).extend ..

theorem SameWork.release_ (h : SameWork s u) : SameWork s u.release_ := (h.withClocksPins true _).put F.CLK_STATUS.ROOT_LOCK 0 true

theorem SameWork.romChecked (h : SameWork s u) : SameWork s u.romChecked := (h.release_.wr ..).wr ..

theorem SameWork.setRunning (h : SameWork s u) (c : Nat) (x : Running) : SameWork s (u.setRunning c x) := (h.withSec _).wr ..

theorem keepsWork_bootRom (s : State) : keepsWork s (execBootRom s) := by
  have h := SameWork.refl s
  refine keepsWork_next (.ite (.ite (h.release_.wr ..) ?_) h)
  dsimp only
  split
  · exact h.romChecked.wr ..
  · exact (((h.romChecked.romMeasure ..).setRunning ..).wr ..).wr ..

theorem keepsWork_debugInstruction (s : State) : keepsWork s (execDebugInstruction s) :=
  keepsWork_ifClocked (.ite (.refl s) ((((SameWork.refl s).withFresh _).put ..).extend ..))

theorem keepsWork_fatalJournalSave (s : State) : keepsWork s (execFatalJournalSave s) :=
  keepsWork_ifClocked (.ite (((SameWork.refl s).put ..).withSaved _) (.refl s))

/-! ### Configuration requests, the link, IDE and MSI-X (R379, R394, R401, R414) -/

theorem keepsWork_ifConfig (f : Nat) (ht : SameWork s t) : keepsWork s (s.ifConfig f t) :=
  have h := SameWork.refl s
  keepsWork_ifClocked (.ite ((h.pciEvent ..).sendTlp ..) (.ite ht (h.sendTlp ..)))

theorem keepsWork_pcieLinkTrain (speed width : Nat) (flit retrain : Bool) (s : State) :
    keepsWork s (execPcieLinkTrain speed width flit retrain s) :=
  have h := (((SameWork.refl s).wr F.PCI_LINK_STATUS.SPEED 0 speed).wr F.PCI_LINK_STATUS.WIDTH 0 width).put F.PCI_LINK_STATUS.FLIT 0 flit
  have h' := (SameWork.ite (h.count ..) h).put ..
  keepsWork_ite (keepsWork_fault s _) (keepsWork_ifClocked (.ite (.refl s) (.ite h' (h'.raise 155))))

theorem keepsWork_ideKm (f : FnId) (key : Word256) (s : State) : keepsWork s (execIdeKm f key s) :=
  keepsWork_ifClocked (((SameWork.refl s).put ..).withPci _)

theorem keepsWork_msixSend (f : FnId) (vec : Nat) (s : State) : keepsWork s (execMsixSend f vec s) :=
  keepsWork_ite (keepsWork_fault s _) (keepsWork_ifClocked (.ite (((SameWork.refl s).withMsix _).sendTlp ..) (.refl s)))

/-- A pin's level is stored, and where its source is raised no more changes. -/
theorem keepsWork_gpioEdge (n : GpioId) (level : Bool) : keepsWork s (execGpioEdge n level s) :=
  have h := ((SameWork.refl s).withPins { s.pins with gpio := Tab.set false s.pins.gpio n.val level }).put F.OBS_GPIO_CFG.LEVEL n.val level
  keepsWork_ite (keepsWork_same s) (keepsWork_next (.ite (.ite (h.raise _) h) h))

/-! ### What needs a live device -/

section
variable (hf : s.fatal = true)
include hf

theorem keepsWork_ifLive (t : State) : keepsWork s (s.ifLive t) := by
  rw [State.ifLive_of_not_live (State.not_live_of_fatal hf)]
  exact keepsWork_same s

theorem keepsWork_cogStepWith (c opc : Nat) (skip : CogInstr → Cog → Cog) (f : CogInstr → List Nat → Cog → Cog) :
    keepsWork s (.next (s.cogStepWith c opc skip f)) := by
  have hfetch : s.cogFetch c opc = none := by
    rw [State.cogFetch, State.not_live_of_fatal hf]
    rfl
  rw [State.cogStepWith_of_no_fetch hfetch]
  exact keepsWork_same s

theorem keepsWork_hubExec (h opc : Nat) (f : HubInstr → State) : keepsWork s (hubExec h opc s f) := by
  have hfetch : s.hubFetch h opc = none := by
    rw [State.hubFetch, State.not_live_of_fatal hf]
    rfl
  rw [hubExec_of_no_fetch hfetch]
  exact keepsWork_same s

theorem keepsWork_illegalInstruction (h : HubId) : keepsWork s (execIllegalInstruction h s) := by
  rw [execIllegalInstruction, State.not_live_of_fatal hf]
  exact keepsWork_same s

theorem keepsWork_mboxRow (f : State → List Byte → Done) (op : Nat) (tag : Word32) (pl : List Byte) :
    keepsWork s (s.mboxRow f op tag pl) :=
  keepsWork_ite (keepsWork_fault s _) (keepsWork_ifLive hf _)

/-- A change of the host interface starts nothing that needs a live device. -/
theorem SameWork.release_of_fatal (x : Pci) (f : Nat) : SameWork s (let u : State := { s with pci := x }
    if u.live then u.release f else u) := by
  have hl : ({ s with pci := x } : State).live = false := State.not_live_of_fatal hf
  simp only [hl, Bool.false_eq_true, if_false]
  exact (SameWork.refl s).withPci x

/-- In the fatal state no VF is reset as VF Enable clears (R477). -/
theorem SameWork.writeVfEn_of_fatal (on : Bool) : SameWork s (s.writeVfEn on) := by
  simp only [State.writeVfEn, State.not_live_of_fatal hf, Bool.and_false, Bool.false_eq_true, if_false]
  exact (SameWork.refl s).withPci _

theorem SameWork.cfgWrite_of_fatal (f off v : Nat) : SameWork s (s.cfgWrite f off v) := by
  have h := SameWork.refl s
  unfold State.cfgWrite
  split
  next => exact SameWork.release_of_fatal hf _ f
  next => exact .ite ((h.withPci _).withPci _) (h.withPci _)
  next => exact h.withPci _
  next => exact .ite (SameWork.writeVfEn_of_fatal hf _) h
  next => exact .ite (h.withPci _) h
  next => exact h.withPci _
  next => exact h.withPci _
  next => exact h.withPci _
  next => exact h.withPci _
  next => exact h.withPci _
  next => exact h.withPci _
  next => exact .ite (h.withPci _) h

theorem keepsWork_registerWrite (f : FnId) (bar off size : Nat) (v : Word64) : keepsWork s (execRegisterWrite f bar off size v s) :=
  keepsWork_ite (keepsWork_ifConfig f (SameWork.cfgWrite_of_fatal hf ..)) (keepsWork_ite (keepsWork_ifLive hf _)
    (keepsWork_ite (keepsWork_fault s _) (keepsWork_ifLive hf _)))

theorem keepsWork_busMasterChange (f : FnId) (on : Bool) : keepsWork s (execBusMasterChange f on s) :=
  keepsWork_ifConfig f (SameWork.release_of_fatal hf _ f)

theorem keepsWork_dStateChange (f : FnId) (hot : Bool) : keepsWork s (execDStateChange f hot s) :=
  keepsWork_ifConfig f (SameWork.release_of_fatal hf _ f)

/-- Every command but a cold reset, a temperature sample, which may halt the device, and a read of BAR2. -/
theorem keepsWork_exec {c : Instr} (hcold : c ≠ .coldReset) (htemp : ∀ rs, c ≠ .tempSample rs) (hread : ∀ f off len, c ≠ .bar2Read f off len) :
    keepsWork s (exec c s) := by
  cases c with
  | coldReset => exact absurd rfl hcold
  | tempSample rs => exact absurd rfl (htemp rs)
  | bar2Read f off len => exact absurd rfl (hread f off len)
  | nop | loop | br | cogEnd | stop | aimm | aadd | aaddr | pcmp | pset | acnt | mma | accrd | accz | vmov | vadd | vsub | vmul | vfma | vmax
  | vmin | vcmp | vsel | vcvt | vred | vexp2 | vrcp | vrsq | vbcast | vimm | vtst | uread | uwrite => exact keepsWork_cogStepWith hf _ _ _ _
  | hubNop | li | lih | add | sub | hubAnd | hubOr | hubXor | shl | shr | mul | setc | ld | st | time | hubBr | call | ret | hubEnd | abort
  | iret | jnote | define | load | flush | evict | free | copy | trd | twr | gload | shift | shiftResume | run | drain | wait | fence | evsig
  | evwait | notify | step | seqend | hlib => exact keepsWork_hubExec hf _ _ _
  | illegalInstruction h => exact keepsWork_illegalInstruction hf h
  | blkFormat | catCreate | catWrite | catSeal | catGrant | catDelete | haltJournalRead | attest | certRead | authProvision | updWrite
  | updActivate => exact keepsWork_mboxRow hf _ _ _ _
  | mbxUnknownOp op tag => exact keepsWork_ite (keepsWork_same s) (keepsWork_mboxRow hf _ _ _ _)
  | throttleN low => exact keepsWork_drives (g := fun x => { x with throttle := low }) (f := (·.throttleSeen low)) fun _ h => h.throttleSeen low
  | coolantAlertN low => exact keepsWork_drives (g := fun x => { x with coolant := low }) (f := (·.coolantSeen low)) fun _ h => h.coolantSeen low
  | pwrStepChange code =>
    exact keepsWork_drives (g := fun x => { x with step := code % 8 }) (f := (·.stepSeen (code % 8))) fun _ h => h.stepSeen (code % 8)
  | governorSample w mv a => exact keepsWork_governorSample w mv a s
  | governorEval est => exact keepsWork_governorEval est s
  | divisorChange mv => exact keepsWork_divisorChange mv s
  | brakeRelease => exact keepsWork_brakeRelease s
  | throttleRelease => exact keepsWork_throttleRelease s
  | coolantCeilingLift => exact keepsWork_coolantCeilingLift s
  | cap eid v => exact keepsWork_cap eid v s
  | ramp eid v => exact keepsWork_ramp eid v s
  | pldmMode eid v => exact keepsWork_packet eid fun _ h => ((h.evalCaps none).wr ..).applyMode
  | heartbeat eid => exact keepsWork_packet eid fun _ h => h.evalCaps none
  | kickstandEnter => exact keepsWork_kickstandEnter s
  | kickstandSafe => exact keepsWork_kickstandSafe s
  | marginTrim short => exact keepsWork_marginTrim short s
  | sensorCheck readings => exact keepsWork_sensorCheck readings s
  | hardwareTrip tj => exact keepsWork_hardwareTrip tj s
  | refclkLoss => exact keepsWork_refclkLoss s
  | bootRom => exact keepsWork_bootRom s
  | debugInstruction => exact keepsWork_debugInstruction s
  | fatalJournalSave => exact keepsWork_fatalJournalSave s
  | ideKm stream key => exact keepsWork_ideKm stream key s
  | busMasterChange f on => exact keepsWork_busMasterChange hf f on
  | dStateChange f hot => exact keepsWork_dStateChange hf f hot
  | pcieLinkTrain speed width flit retrain => exact keepsWork_pcieLinkTrain speed width flit retrain s
  | msixSend f vec => exact keepsWork_msixSend f vec s
  | registerWrite f bar off size v => exact keepsWork_registerWrite hf f bar off size v
  | bar2Write | winMapWrite | faultyTlp | warmDeviceReset => exact keepsWork_ite (keepsWork_fault s _) (keepsWork_ifLive hf _)
  | frameReceive => exact keepsWork_ite (keepsWork_ifLive hf _) (keepsWork_fault s _)
  | intcCpl => exact keepsWork_ite (keepsWork_ifLive hf _) (keepsWork_ifLive hf _)
  | gpioEdge n level => exact keepsWork_gpioEdge n level
  | boundaryScan code => exact keepsWork_boundaryScan code s
  | _ => exact keepsWork_ifLive hf _

end

/-! ## Reads of BAR2, which the fatal state serves (R387, R388, R479) -/

/-- Each burst on the bus takes a free value (R228). -/
theorem State.fresh_busErrors (s : State) (write : Bool) (bs : List (Nat × Nat)) : (s.busErrors write bs).fresh = s.fresh + bs.length := by
  induction bs generalizing s with
  | nil => rfl
  | cons e bs ih => exact (ih _).trans (Nat.add_right_comm _ 1 _)

/-- A read of bytes has at least one burst, so free value 0 is none that a read finds a failed word by. -/
theorem State.fresh_busErrors_pos (s : State) (frames : List Nat) (o : Nat) {len : Nat} (hlen : 0 < len) :
    0 < (s.busErrors false (s.burstsOf frames o len)).fresh := by
  have hbursts : 0 < (s.burstsOf frames o len).length := by
    rw [State.burstsOf, List.length_map, List.length_range, if_neg hlen.ne']
    have := Nat.div_le_div_right (c := 1024) (show o ≤ o + len - 1 by omega)
    omega
  rw [State.fresh_busErrors]
  exact Nat.add_pos_right _ hbursts

/-- A read that finds no failed word leaves the work as it was. -/
theorem SameWork.readSlot_of_even (heven : ∀ n, Config.freeValue (n + 1) % 2 = 0) (f off p tid o len : Nat) :
    SameWork s (s.readSlot f off p tid o len) := by
  have h := SameWork.refl s
  cases ht : s.tensor p tid with
  | none =>
    simp only [State.readSlot, ht]
    exact h.sendTlp ..
  | some t =>
    obtain rfl | hlen := Nat.eq_zero_or_pos len
    · rw [State.readSlot_of_empty ht]
      exact h.sendTlp ..
    · have hw := (h.busErrors false (s.burstsOf t.frames o len)).withFresh
      have hv : Config.freeValue (s.busErrors false (s.burstsOf t.frames o len)).fresh % 2 ^ 1 ≠ 1 := by
        obtain ⟨n, hn⟩ := Nat.exists_eq_succ_of_ne_zero (s.fresh_busErrors_pos t.frames o hlen).ne'
        rw [hn, Nat.pow_one, heven]
        decide
      rw [State.readSlot_of_bytes ht f off hlen.ne' rfl, if_neg hv]
      exact .ite ((hw _).poison ..) ((hw _).sendTlp ..)

theorem SameWork.readAsk_of_even (heven : ∀ n, Config.freeValue (n + 1) % 2 = 0) (f off p tid o len : Nat) :
    SameWork s (s.readAsk f off p tid o len) :=
  .ite ((SameWork.refl s).holdMain ..) (.readSlot_of_even heven ..)

theorem keepsWork_bar2Read_of_even (heven : ∀ n, Config.freeValue (n + 1) % 2 = 0) (f : FnId) (off len : Nat) (s : State) :
    keepsWork s (execBar2Read f off len s) := by
  have h := SameWork.refl s
  refine keepsWork_ite (keepsWork_fault s _) (keepsWork_ite (keepsWork_same s) (keepsWork_next ?_))
  split
  · exact .ite h (.ite (h.pciEvent ..) ((h.pciEvent ..).sendTlp ..))
  · split
    · exact .readAsk_of_even heven ..
    · exact .ite h ((h.pciEvent ..).sendTlp ..)

theorem fatalStateServesNoWork_of_even (heven : ∀ n, Config.freeValue (n + 1) % 2 = 0) : Obligations.FatalStateServesNoWork := by
  intro c s t hf hcold htemp ht
  have hkeeps : keepsWork s (exec c s) := by
    by_cases hread : ∃ f off len, c = .bar2Read f off len
    · obtain ⟨f, off, len, rfl⟩ := hread
      exact keepsWork_bar2Read_of_even heven f off len s
    · exact keepsWork_exec hf hcold htemp fun f off len hc => hread ⟨f, off, len, hc⟩
  obtain ⟨arr, mem, ctl, srv, rlt, blk, intc⟩ := hkeeps t ht
  exact ⟨arr, mem, ctl, srv, rlt, blk, intc⟩

/-! ### A read that finds a failed word -/

theorem SameWork.retireTrigger (h : SameWork s u) (c : Nat) : SameWork s (u.retireTrigger c) :=
  .ite h (.ite ((h.put ..).raise 136) (h.setChan ..))

theorem SameWork.retirePage (h : SameWork s u) (n : Nat) (chs : List Nat) : SameWork s (u.retirePage n chs) :=
  .ite h (((h.withLpx _).count ..).foldl (fun _ c hv => .ite ((hv.count ..).retireTrigger c) (hv.count ..)) _)

theorem SameWork.pageFail (h : SameWork s u) (t : Tensor) (page w : Nat) : SameWork s (u.pageFail t page w) := by
  unfold State.pageFail
  split
  · exact h
  · extract_lets e c second i v logged retired
    have hv : SameWork s v := (((((h.setReg ..).put ..).put ..).wr ..).wr ..).wr ..
    have hlogged : SameWork s logged := hv.wr ..
    have hretired : SameWork s retired := hlogged.retirePage ..
    exact .ite (.ite (hretired.foldl (fun _ m h => h.retirePage m _) _) hretired) (hlogged.withLpx _)

/-- A stored-data failure in a main CLEAN tensor with a backing starts its repair. -/
theorem State.tensor_storedFailure_of_backed {p tid : Nat} {t : Tensor} (ht : s.tensor p tid = some t) (hb : t.bulk = false)
    (hn : t.near = false) (hs : t.state = .clean) (hk : t.desc.back ≠ 0) (hr : t.repairing = false) (page seq : Nat) :
    (s.storedFailure p tid page seq).tensor p tid = some { t with repairing := true, struck := t.frames[page]?.toList } := by
  have hkept : ((s.draw 13).2.pageFail t page (s.draw 13).1).tensor p tid = some t :=
    (((SameWork.refl s).withFresh (s.fresh + 1)).pageFail t page (s.draw 13).1).tensor p tid |>.trans ht
  rw [State.storedFailure_of_backed ht hb hn hs hk hr, State.modTensor_of_tensor hkept]
  exact State.tensor_setTensor_same ..

/-- A CLEAN main tensor of 64 FP32 elements with a backing, in page 0. -/
def cleanTensor : Tensor :=
  ⟨0, ⟨0x11, 1, 0, 1, 2, 4, 0xFF, 1, 0, [64, 1, 1, 1], 0, 0x10000, 0⟩, .clean, [], 0, [0], none, false, 0, false, [], false, [], []⟩

/-- The fatal state with window slot 0 of the PF at that tensor, and free values drawn from number `n` on. -/
def fatalWindow (n : Nat) : State :=
  let j := RegKind.idx .PCI_WIN_MAP 0 0
  let s := ((State.reset.put F.LPX_STATUS.READY 0 true).put F.OBS_FATAL.FATAL 0 true).setTensor 0 0x11 cleanTensor
  { (s.put F.PCI_WIN_MAP.VALID j true).wr F.PCI_WIN_MAP.TID j 0x11 with pci := { s.pci with mse := [(0, true)] }, fresh := n }

theorem fatalWindow_fatal (n : Nat) : (fatalWindow n).fatal = true :=
  show (fatalWindow 0).fatal = true by decide +kernel

theorem fatalWindow_tensor (n : Nat) : (fatalWindow n).tensor 0 0x11 = some cleanTensor := rfl

theorem State.windowAt_withFresh (s : State) (n f off len : Nat) (write : Bool) :
    ({ s with fresh := n } : State).windowAt f off len write = s.windowAt f off len write := rfl

theorem exec_bar2Read_of_fatalWindow (n : Nat) :
    exec (.bar2Read 0 4 8) (fatalWindow n) = .next ((fatalWindow n).readSlot 0 4 0 0x11 4 8) := by
  have hserves : (fatalWindow n).servesReads = true := show (fatalWindow 0).servesReads = true by decide +kernel
  have hmain : (fatalWindow n).mainUp = true := show (fatalWindow 0).mainUp = true by decide +kernel
  have htakes : (fatalWindow n).turnedAway 0 = none := show (fatalWindow 0).turnedAway 0 = none by decide +kernel
  have hwin : (fatalWindow n).windowAt 0 4 8 false = some (0, 0x11, 4) :=
    (State.windowAt_withFresh (fatalWindow 0) n 0 4 8 false).trans (by decide +kernel)
  have hfree : (fatalWindow n).mainWaits (heldReq 0) ((fatalWindow n).tensorChans cleanTensor 4 8) = false :=
    show (fatalWindow 0).mainWaits (heldReq 0) ((fatalWindow 0).tensorChans cleanTensor 4 8) = false by decide +kernel
  have hidle : ¬((fatalWindow n).servesReads = false ∨ (fatalWindow n).mainUp = false) := by
    rw [hserves, hmain]
    decide
  show execBar2Read 0 4 8 (fatalWindow n) = _
  rw [execBar2Read, if_neg (by decide), if_neg hidle]
  simp only [Fin.val_zero, htakes, hwin, State.readAsk_of_tensor (fatalWindow_tensor n)]
  exact congrArg _ (if_neg (ne_true_of_eq_false hfree))

/-- Where the free value of the read is odd, it finds a failed word, and a repair of the tensor begins. -/
theorem tensor_readSlot_of_fatalWindow {n : Nat} (hodd : Config.freeValue (n + 1) % 2 = 1) :
    ((fatalWindow n).readSlot 0 4 0 0x11 4 8).tensor 0 0x11 = some { cleanTensor with repairing := true, struck := [0] } := by
  obtain ⟨v, w, hw⟩ : ∃ v w,
      ((fatalWindow n).busErrors false ((fatalWindow n).burstsOf cleanTensor.frames 4 8)).draw 1 = (v, w) := ⟨_, _, rfl⟩
  have hv : v = 1 := (congrArg Prod.fst hw).symm.trans hodd
  have hkeeps : SameWork (fatalWindow n) w := by
    obtain rfl : _ = w := congrArg Prod.snd hw
    exact ((SameWork.refl _).busErrors ..).withFresh _
  have hread := (hkeeps.tensor 0 0x11).trans (fatalWindow_tensor n)
  have hpoisoned := ((hkeeps.poison 0 4).tensor 0 0x11).trans (fatalWindow_tensor n)
  have hfirst : w.meetsFailure 0 0x11 4 8 = false := by
    simp only [State.meetsFailure, hread]
    rfl
  rw [State.readSlot_of_bytes (fatalWindow_tensor n) 0 4 (by decide) hw, if_neg (ne_true_of_eq_false hfirst), if_pos hv]
  exact State.tensor_storedFailure_of_backed hpoisoned rfl rfl rfl (by decide) rfl ..

theorem even_of_fatalStateServesNoWork (h : Obligations.FatalStateServesNoWork) (n : Nat) : Config.freeValue (n + 1) % 2 = 0 := by
  refine (Nat.mod_two_eq_zero_or_one _).resolve_right fun hodd => ?_
  obtain ⟨-, hmem, -⟩ := h _ _ _ (fatalWindow_fatal n) Instr.noConfusion (fun _ => Instr.noConfusion) (exec_bar2Read_of_fatalWindow n)
  have hstruck := tensor_readSlot_of_fatalWindow hodd
  rw [State.tensor, hmem, ← State.tensor, fatalWindow_tensor] at hstruck
  exact absurd hstruck (by decide)

/-- How far O56 is decided. Nothing constrains the model's free values (log 1), so neither side can be shown: O56 says that no read of
BAR2 finds a failed word, which is all that the fatal state could still do to tensors (R387, R388, R479). -/
theorem fatalStateServesNoWork_iff_even : Obligations.FatalStateServesNoWork ↔ ∀ n, Config.freeValue (n + 1) % 2 = 0 :=
  ⟨even_of_fatalStateServesNoWork, fatalStateServesNoWork_of_even⟩

end Sys2Proof.Machine
end
